-- ==== Sys2Proof/Word.lean ====
section
/-! DEFINITION. The word types of the V960 (R4, R45): 32-bit words, bytes, lane masks, and their
plainest arithmetic. -/

namespace Sys2Proof

/-- A 32-bit register or memory word. -/
abbrev Word := BitVec 32
/-- A byte of memory (R4). -/
abbrev Byte := BitVec 8
/-- A 64-bit value: an even:odd pair, a TIME instant, a global address. -/
abbrev Dword := BitVec 64

/-- The 64-bit value of a pair, the low word first (R46). -/
abbrev pairOf (lo hi : Word) : Dword := hi ++ lo
/-- Bits [31:0] of a 64-bit value. -/
abbrev loWord (d : Dword) : Word := d.extractLsb' 0 32
/-- Bits [63:32] of a 64-bit value. -/
abbrev hiWord (d : Dword) : Word := d.extractLsb' 32 32

end Sys2Proof
end

