-- ==== Sys2Proof/Syntax.lean ====
section
/-! DEFINITION. The instructions of the V960: `Instr`, one constructor per row of the opcode table (GK
instruction words of R151 to R172, the Locus filter words of R414, and the device's events, which have
no encoding), and the operand types its fields take (R161, R162, R170, R171). -/

namespace Sys2Proof

/-- v0 to v127 (kind V, R161). -/
abbrev VReg := BitVec 7
/-- s0 to s63 (kind S). -/
abbrev SReg := BitVec 6
/-- m0 to m11 (kind M); 12 to 15 name no register. -/
abbrev MReg := BitVec 4
/-- h0 to h15 (kind H). -/
abbrev HReg := BitVec 4
/-- c0 and c1 (kind K). -/
abbrev KReg := BitVec 1

/-- An operand of kind X (R161): a scalar register, an imm6, or, in a long form only, a literal (R166). -/
inductive XOp where
  | s (r : SReg)
  | imm (n : BitVec 6)
  | lit (w : Word)
  deriving DecidableEq, Repr

/-- A branch offset: the 14-bit N field in 4-byte units (R168), or the long form's bytes (R166). -/
inductive BranchOp where
  | near (n : BitVec 14)
  | far (w : Word)
  deriving DecidableEq, Repr

/-- The memory operand of classes 0x20 to 0x34 (R162); the two `far` forms are the long form's (R166). -/
inductive MemOp where
  | off (base : SReg) (n : BitVec 7)
  | idx (base : SReg) (ix : VReg)
  | pair (ix : VReg)
  | offFar (base : SReg) (n : Word)
  | idxFar (base : SReg) (ix : VReg) (n : BitVec 25)
  | pairFar (ix : VReg) (n : BitVec 25)
  deriving DecidableEq, Repr

/-- The access types of R170, in code order 0 to 13. -/
inductive AccTy where
  | b8 | b16 | b32 | b64 | b128 | i8 | i16 | i32 | n32 | f32 | rawB8 | rawB16 | rawB32 | rawB64
  deriving DecidableEq, Repr

/-- The atomic operations of R171, in code order 0 to 10. -/
inductive AtomOp where
  | add | minS | maxS | minN | maxN | and | or | xor | swap | cas | addF
  deriving DecidableEq, Repr

/-- The conversion types of R171, in code order 0 to 10. -/
inductive NumTy where
  | f32 | f16 | bf16 | e4m3 | e5m2 | i32 | n32 | i8 | n8 | i16 | n16
  deriving DecidableEq, Repr

/-- The conditions of `ann.wait` (R148), in code order. -/
inductive WatchCond where
  | eq | ne | ge | lt
  deriving DecidableEq, Repr

/-- What a host access names (R397, R398): BAR2, host memory itself (a write the host makes to its own
memory), or nothing more. -/
inductive HostTarget where
  | device
  | hostMemory
  deriving DecidableEq, Repr

/-- What a peer asks of this device's memory (R401). -/
inductive PeerOp where
  | read
  | write
  | atomic (op : AtomOp) (wide allowed : Bool)
  deriving DecidableEq, Repr

/-- The instructions, filter words and events of the opcode table, one constructor per row. -/
inductive Instr where
  /-- CLAUSE_HEADER (R156): Lanes at a clause header wait until every flag named in WAIT is clear, then the body's first instruction issues. -/
  | clauseHeader (len : BitVec 5) (flagB : BitVec 4) (flagA : BitVec 4) (wait : BitVec 12)
  /-- PREFIX (R164): A prefix word applies a mask, zero or merge, rounding, flush and a fourth operand to the instruction that follows, and issues with it as one. -/
  | prefixWord (d : VReg) (dv : Bool) (ftz : Bool) (zero : Bool) (rnd : BitVec 3) (mask : BitVec 4)
  /-- LONG_FORM (R166): A 64-bit long form wraps an instruction of another class and supplies a 32-bit literal in place of field C or N. -/
  | longForm (minor : BitVec 4) (b : BitVec 7) (a : BitVec 7) (icls : BitVec 6) (lit : Word)
  /-- NOP_16 (R159): The 16-bit nop has no effect. -/
  | nopHalf
  /-- ADD_I32_16 (R159): The 16-bit add.i32 adds vB to vA. -/
  | addI32Half (a : BitVec 6) (b : BitVec 5)
  /-- SUB_I32_16 (R159): The 16-bit sub.i32 subtracts vB from vA. -/
  | subI32Half (a : BitVec 6) (b : BitVec 5)
  /-- MUL_I32_16 (R159): The 16-bit mul.i32 multiplies vA by vB. -/
  | mulI32Half (a : BitVec 6) (b : BitVec 5)
  /-- AND_B32_16 (R159): The 16-bit and.b32 ANDs vB into vA. -/
  | andB32Half (a : BitVec 6) (b : BitVec 5)
  /-- OR_B32_16 (R159): The 16-bit or.b32 ORs vB into vA. -/
  | orB32Half (a : BitVec 6) (b : BitVec 5)
  /-- XOR_B32_16 (R159): The 16-bit xor.b32 XORs vB into vA. -/
  | xorB32Half (a : BitVec 6) (b : BitVec 5)
  /-- SHL_B32_16 (R159): The 16-bit shl.b32 shifts vA left by vB. -/
  | shlB32Half (a : BitVec 6) (b : BitVec 5)
  /-- SHR_N32_16 (R159): The 16-bit shr.n32 shifts vA right logically by vB. -/
  | shrN32Half (a : BitVec 6) (b : BitVec 5)
  /-- FADD_F32_16 (R159): The 16-bit fadd.f32 adds vB to vA in FP32. -/
  | faddF32Half (a : BitVec 6) (b : BitVec 5)
  /-- FSUB_F32_16 (R159): The 16-bit fsub.f32 subtracts vB from vA in FP32. -/
  | fsubF32Half (a : BitVec 6) (b : BitVec 5)
  /-- FMUL_F32_16 (R159): The 16-bit fmul.f32 multiplies vA by vB in FP32. -/
  | fmulF32Half (a : BitVec 6) (b : BitVec 5)
  /-- FMIN_F32_16 (R159): The 16-bit fmin.f32 takes the lesser of vA and vB. -/
  | fminF32Half (a : BitVec 6) (b : BitVec 5)
  /-- FMAX_F32_16 (R159): The 16-bit fmax.f32 takes the greater of vA and vB. -/
  | fmaxF32Half (a : BitVec 6) (b : BitVec 5)
  /-- MOV_B32_16 (R159): The 16-bit mov.b32 copies vB to vA. -/
  | movB32Half (a : BitVec 6) (b : BitVec 5)
  /-- MIN_I32_16 (R159): The 16-bit min.i32 takes the signed lesser of vA and vB. -/
  | minI32Half (a : BitVec 6) (b : BitVec 5)
  /-- SCALAR_ADD (R181): Scalar add of sB and X into sA modulo 2^32. -/
  | scalarAdd (a : SReg) (b : SReg) (c : XOp)
  /-- SCALAR_SUB (R181): Scalar subtract of X from sB into sA. -/
  | scalarSub (a : SReg) (b : SReg) (c : XOp)
  /-- SCALAR_MUL (R181): Scalar low 32-bit product into sA. -/
  | scalarMul (a : SReg) (b : SReg) (c : XOp)
  /-- SCALAR_MULHI_I32 (R181): Scalar signed high product into sA. -/
  | scalarMulhiI32 (a : SReg) (b : SReg) (c : XOp)
  /-- SCALAR_MULHI_N32 (R181): Scalar unsigned high product into sA. -/
  | scalarMulhiN32 (a : SReg) (b : SReg) (c : XOp)
  /-- SCALAR_AND (R181): Scalar bitwise AND into sA. -/
  | scalarAnd (a : SReg) (b : SReg) (c : XOp)
  /-- SCALAR_OR (R181): Scalar bitwise OR into sA. -/
  | scalarOr (a : SReg) (b : SReg) (c : XOp)
  /-- SCALAR_XOR (R181): Scalar bitwise XOR into sA. -/
  | scalarXor (a : SReg) (b : SReg) (c : XOp)
  /-- SCALAR_SHL (R181): Scalar left shift by X[4:0]. -/
  | scalarShl (a : SReg) (b : SReg) (c : XOp)
  /-- SCALAR_SHR (R181): Scalar logical right shift by X[4:0]. -/
  | scalarShr (a : SReg) (b : SReg) (c : XOp)
  /-- SCALAR_SRA (R181): Scalar arithmetic right shift by X[4:0]. -/
  | scalarSra (a : SReg) (b : SReg) (c : XOp)
  /-- SCALAR_MIN_I32 (R181): Scalar signed minimum. -/
  | scalarMinI32 (a : SReg) (b : SReg) (c : XOp)
  /-- SCALAR_MAX_I32 (R181): Scalar signed maximum. -/
  | scalarMaxI32 (a : SReg) (b : SReg) (c : XOp)
  /-- SCALAR_MIN_N32 (R181): Scalar unsigned minimum. -/
  | scalarMinN32 (a : SReg) (b : SReg) (c : XOp)
  /-- SCALAR_MAX_N32 (R181): Scalar unsigned maximum. -/
  | scalarMaxN32 (a : SReg) (b : SReg) (c : XOp)
  /-- SCALAR_MOV (R181): Scalar move of X into sA. -/
  | scalarMov (a : SReg) (c : XOp)
  /-- SETEQ (R181): sA := 1 if sB equals X, else 0. -/
  | seteq (a : SReg) (b : SReg) (c : XOp)
  /-- SETNE (R181): sA := 1 if sB differs from X, else 0. -/
  | setne (a : SReg) (b : SReg) (c : XOp)
  /-- SETLT_I32 (R181): sA := 1 if sB is signed less than X. -/
  | setltI32 (a : SReg) (b : SReg) (c : XOp)
  /-- SETLE_I32 (R181): sA := 1 if sB is signed at most X. -/
  | setleI32 (a : SReg) (b : SReg) (c : XOp)
  /-- SETLT_N32 (R181): sA := 1 if sB is unsigned less than X. -/
  | setltN32 (a : SReg) (b : SReg) (c : XOp)
  /-- SETLE_N32 (R181): sA := 1 if sB is unsigned at most X. -/
  | setleN32 (a : SReg) (b : SReg) (c : XOp)
  /-- SCALAR_SEL (R181): sA := sB if sA is nonzero, else X. -/
  | scalarSel (a : SReg) (b : SReg) (c : XOp)
  /-- BRA (R183): Unconditional branch of the executing lanes to a clause header. -/
  | bra (n : BranchOp)
  /-- BRC_NZ (R183): Each lane branches if its vA is nonzero, else goes to the next clause. -/
  | brcNz (a : VReg) (n : BranchOp)
  /-- BRC_Z (R183): Each lane branches if its vA is zero, else goes to the next clause. -/
  | brcZ (a : VReg) (n : BranchOp)
  /-- BRI (R183): Indirect branch of each lane to its vA. -/
  | bri (a : VReg)
  /-- CALL (R183): Writes the next clause offset to vA and branches. -/
  | call (a : VReg) (n : BranchOp)
  /-- RET (R183): Returns each lane to the offset held in vA. -/
  | ret (a : VReg)
  /-- EXIT (R184): Executing lanes exit; the last live lane ends the group. -/
  | exit
  /-- ELECT (R185): Writes the lowest lane at the issue address into sA. -/
  | elect (a : SReg)
  /-- YIELD (R28): Moves the issue floor past the current address at once. -/
  | yield
  /-- TRAP (R187): Raises the local trap TRAP with a 14-bit code. -/
  | trap (n : BitVec 14)
  /-- BRK (R187): Raises the fault BRK with its code, pcv set past the brk. -/
  | brk (n : BitVec 14)
  /-- SETTILE (R188): Sets the group's tile size T. -/
  | settile (b : XOp)
  /-- MJOIN (R189): Sets the executing lanes' bits in mA. -/
  | mjoin (a : MReg)
  /-- MLEAVE (R189): Clears the executing lanes' bits in mA and retests the mask. -/
  | mleave (a : MReg)
  /-- MWAIT (R31): Parks the executing lanes on mask mA. -/
  | mwait (a : MReg)
  /-- MRD (R189): Reads mask mB into sA. -/
  | mrd (a : SReg) (b : MReg)
  /-- MWR (R189): Writes sB AND live into mask mA and retests it. -/
  | mwr (a : MReg) (b : SReg)
  /-- WAIT_ANY (R192): Parks lanes until any armed condition is met or the timeout passes. -/
  | waitAny (a : SReg) (b : SReg) (c : XOp)
  /-- WAIT_ALL (R192): Parks lanes until all armed conditions are met or the timeout passes. -/
  | waitAll (a : SReg) (b : SReg) (c : XOp)
  /-- SLEEP_AT (R193): Parks lanes until TIME reaches the instant in sB:sB+1. -/
  | sleepAt (b : SReg)
  /-- SLEEP_AT_PROM (R193): Parks lanes until a copy's barrier object reaches 0 or its promised instant passes. -/
  | sleepAtProm (b : SReg)
  /-- RDTIME (R194): Writes TIME at issue into sA:sA+1. -/
  | rdtime (a : SReg)
  /-- BAR_TEAM (R195): Parks lanes at team barrier n. -/
  | barTeam (n : BitVec 4)
  /-- BAR_CLUSTER (R195): Parks lanes at cluster barrier n. -/
  | barCluster (n : BitVec 4)
  /-- EVSIG (R197): Signals a named event as a release at system scope. -/
  | evsig (b : SReg)
  /-- LAUNCH (R198): Submits a launch descriptor to a hardware queue and returns its identifier. -/
  | launch (a : SReg) (b : SReg) (c : XOp)
  /-- SYM_WAIT (R199): Waits for named symbols and collapses every element over them. -/
  | symWait (c : XOp)
  /-- RDSR_S (R200): Reads a per-group special into sA. -/
  | rdsrS (a : SReg) (n : BitVec 14)
  /-- RDSR_V (R200): Reads a special into vA of each executing lane. -/
  | rdsrV (a : VReg) (n : BitVec 14)
  /-- WRSR (R200): Writes sA to a writable special or system register. -/
  | wrsr (a : SReg) (n : BitVec 14)
  /-- ADD_V (R204): Lane add of vB and vC. -/
  | addV (a : VReg) (b : VReg) (c : VReg)
  /-- ADD_X (R204): Lane add of vB and X. -/
  | addX (a : VReg) (b : VReg) (c : XOp)
  /-- SUB_V (R204): Lane subtract vB minus vC. -/
  | subV (a : VReg) (b : VReg) (c : VReg)
  /-- SUB_X (R204): Lane subtract vB minus X. -/
  | subX (a : VReg) (b : VReg) (c : XOp)
  /-- MUL_V (R204): Lane low product of vB and vC. -/
  | mulV (a : VReg) (b : VReg) (c : VReg)
  /-- MUL_X (R204): Lane low product of vB and X. -/
  | mulX (a : VReg) (b : VReg) (c : XOp)
  /-- MULHI_I32_V (R204): Lane signed high product with vC. -/
  | mulhiI32V (a : VReg) (b : VReg) (c : VReg)
  /-- MULHI_I32_X (R204): Lane signed high product with X. -/
  | mulhiI32X (a : VReg) (b : VReg) (c : XOp)
  /-- MULHI_N32_V (R204): Lane unsigned high product with vC. -/
  | mulhiN32V (a : VReg) (b : VReg) (c : VReg)
  /-- MULHI_N32_X (R204): Lane unsigned high product with X. -/
  | mulhiN32X (a : VReg) (b : VReg) (c : XOp)
  /-- MAD_V (R204): Lane multiply-add vB times vC plus the addend. -/
  | madV (a : VReg) (b : VReg) (c : VReg)
  /-- MAD_X (R204): Lane multiply-add vB times X plus the addend. -/
  | madX (a : VReg) (b : VReg) (c : XOp)
  /-- MIN_I32_V (R204): Lane signed minimum with vC. -/
  | minI32V (a : VReg) (b : VReg) (c : VReg)
  /-- MIN_I32_X (R204): Lane signed minimum with X. -/
  | minI32X (a : VReg) (b : VReg) (c : XOp)
  /-- MAX_I32_V (R204): Lane signed maximum with vC. -/
  | maxI32V (a : VReg) (b : VReg) (c : VReg)
  /-- MAX_I32_X (R204): Lane signed maximum with X. -/
  | maxI32X (a : VReg) (b : VReg) (c : XOp)
  /-- MIN_N32_V (R204): Lane unsigned minimum with vC. -/
  | minN32V (a : VReg) (b : VReg) (c : VReg)
  /-- MIN_N32_X (R204): Lane unsigned minimum with X. -/
  | minN32X (a : VReg) (b : VReg) (c : XOp)
  /-- MAX_N32_V (R204): Lane unsigned maximum with vC. -/
  | maxN32V (a : VReg) (b : VReg) (c : VReg)
  /-- MAX_N32_X (R204): Lane unsigned maximum with X. -/
  | maxN32X (a : VReg) (b : VReg) (c : XOp)
  /-- AND_V (R204): Lane bitwise AND with vC. -/
  | andV (a : VReg) (b : VReg) (c : VReg)
  /-- AND_X (R204): Lane bitwise AND with X. -/
  | andX (a : VReg) (b : VReg) (c : XOp)
  /-- OR_V (R204): Lane bitwise OR with vC. -/
  | orV (a : VReg) (b : VReg) (c : VReg)
  /-- OR_X (R204): Lane bitwise OR with X. -/
  | orX (a : VReg) (b : VReg) (c : XOp)
  /-- XOR_V (R204): Lane bitwise XOR with vC. -/
  | xorV (a : VReg) (b : VReg) (c : VReg)
  /-- XOR_X (R204): Lane bitwise XOR with X. -/
  | xorX (a : VReg) (b : VReg) (c : XOp)
  /-- SHL_V (R204): Lane left shift by vC[4:0]. -/
  | shlV (a : VReg) (b : VReg) (c : VReg)
  /-- SHL_X (R204): Lane left shift by X[4:0]. -/
  | shlX (a : VReg) (b : VReg) (c : XOp)
  /-- SHR_V (R204): Lane logical right shift by vC[4:0]. -/
  | shrV (a : VReg) (b : VReg) (c : VReg)
  /-- SHR_X (R204): Lane logical right shift by X[4:0]. -/
  | shrX (a : VReg) (b : VReg) (c : XOp)
  /-- SRA_V (R204): Lane arithmetic right shift by vC[4:0]. -/
  | sraV (a : VReg) (b : VReg) (c : VReg)
  /-- SRA_X (R204): Lane arithmetic right shift by X[4:0]. -/
  | sraX (a : VReg) (b : VReg) (c : XOp)
  /-- ABS_I32 (R205): Lane absolute value of vB. -/
  | absI32 (a : VReg) (b : VReg)
  /-- POPC_B32 (R205): Lane population count of vB. -/
  | popcB32 (a : VReg) (b : VReg)
  /-- CLZ_B32 (R205): Lane count of leading zeros of vB. -/
  | clzB32 (a : VReg) (b : VReg)
  /-- BREV_B32 (R205): Lane bit reversal of vB. -/
  | brevB32 (a : VReg) (b : VReg)
  /-- BFE_N32_V (R205): Unsigned bit-field extract, position and length from vC. -/
  | bfeN32V (a : VReg) (b : VReg) (c : VReg)
  /-- BFE_N32_X (R205): Unsigned bit-field extract, position and length from X. -/
  | bfeN32X (a : VReg) (b : VReg) (c : XOp)
  /-- BFE_I32_V (R205): Signed bit-field extract, position and length from vC. -/
  | bfeI32V (a : VReg) (b : VReg) (c : VReg)
  /-- BFE_I32_X (R205): Signed bit-field extract, position and length from X. -/
  | bfeI32X (a : VReg) (b : VReg) (c : XOp)
  /-- BFI_B32_V (R205): Bit-field insert of vB into vA, field from vC. -/
  | bfiB32V (a : VReg) (b : VReg) (c : VReg)
  /-- BFI_B32_X (R205): Bit-field insert of vB into vA, field from X. -/
  | bfiB32X (a : VReg) (b : VReg) (c : XOp)
  /-- MOV_B32_V (R205): Lane move of vC into vA. -/
  | movB32V (a : VReg) (c : VReg)
  /-- MOV_B32_X (R205): Lane move of X into vA. -/
  | movB32X (a : VReg) (c : XOp)
  /-- ADD_I64_V (R206): 64-bit pair add of sign-extended vC. -/
  | addI64V (a : VReg) (b : VReg) (c : VReg)
  /-- ADD_I64_X (R206): 64-bit pair add of sign-extended X. -/
  | addI64X (a : VReg) (b : VReg) (c : XOp)
  /-- SUB_I64_V (R206): 64-bit pair subtract of sign-extended vC. -/
  | subI64V (a : VReg) (b : VReg) (c : VReg)
  /-- SUB_I64_X (R206): 64-bit pair subtract of sign-extended X. -/
  | subI64X (a : VReg) (b : VReg) (c : XOp)
  /-- SHL_B64_V (R206): 64-bit left shift by vC[5:0]. -/
  | shlB64V (a : VReg) (b : VReg) (c : VReg)
  /-- SHL_B64_X (R206): 64-bit left shift by X[5:0]. -/
  | shlB64X (a : VReg) (b : VReg) (c : XOp)
  /-- SHR_N64_V (R206): 64-bit logical right shift by vC[5:0]. -/
  | shrN64V (a : VReg) (b : VReg) (c : VReg)
  /-- SHR_N64_X (R206): 64-bit logical right shift by X[5:0]. -/
  | shrN64X (a : VReg) (b : VReg) (c : XOp)
  /-- SRA_I64_V (R206): 64-bit arithmetic right shift by vC[5:0]. -/
  | sraI64V (a : VReg) (b : VReg) (c : VReg)
  /-- SRA_I64_X (R206): 64-bit arithmetic right shift by X[5:0]. -/
  | sraI64X (a : VReg) (b : VReg) (c : XOp)
  /-- MUL_WIDE_I32_V (R206): Signed 64-bit product of vB and vC into a pair. -/
  | mulWideI32V (a : VReg) (b : VReg) (c : VReg)
  /-- MUL_WIDE_I32_X (R206): Signed 64-bit product of vB and X into a pair. -/
  | mulWideI32X (a : VReg) (b : VReg) (c : XOp)
  /-- MUL_WIDE_N32_V (R206): Unsigned 64-bit product of vB and vC into a pair. -/
  | mulWideN32V (a : VReg) (b : VReg) (c : VReg)
  /-- MUL_WIDE_N32_X (R206): Unsigned 64-bit product of vB and X into a pair. -/
  | mulWideN32X (a : VReg) (b : VReg) (c : XOp)
  /-- CMP_EQ_B32_V (R207): Sets mask bits where vB equals vC. -/
  | cmpEqB32V (a : MReg) (b : VReg) (c : VReg)
  /-- CMP_EQ_B32_X (R207): Sets mask bits where vB equals X. -/
  | cmpEqB32X (a : MReg) (b : VReg) (c : XOp)
  /-- CMP_NE_B32_V (R207): Sets mask bits where vB differs from vC. -/
  | cmpNeB32V (a : MReg) (b : VReg) (c : VReg)
  /-- CMP_NE_B32_X (R207): Sets mask bits where vB differs from X. -/
  | cmpNeB32X (a : MReg) (b : VReg) (c : XOp)
  /-- CMP_LT_I32_V (R207): Signed less-than compare with vC into a mask. -/
  | cmpLtI32V (a : MReg) (b : VReg) (c : VReg)
  /-- CMP_LT_I32_X (R207): Signed less-than compare with X into a mask. -/
  | cmpLtI32X (a : MReg) (b : VReg) (c : XOp)
  /-- CMP_LE_I32_V (R207): Signed less-or-equal compare with vC. -/
  | cmpLeI32V (a : MReg) (b : VReg) (c : VReg)
  /-- CMP_LE_I32_X (R207): Signed less-or-equal compare with X. -/
  | cmpLeI32X (a : MReg) (b : VReg) (c : XOp)
  /-- CMP_GT_I32_V (R207): Signed greater-than compare with vC. -/
  | cmpGtI32V (a : MReg) (b : VReg) (c : VReg)
  /-- CMP_GT_I32_X (R207): Signed greater-than compare with X. -/
  | cmpGtI32X (a : MReg) (b : VReg) (c : XOp)
  /-- CMP_GE_I32_V (R207): Signed greater-or-equal compare with vC. -/
  | cmpGeI32V (a : MReg) (b : VReg) (c : VReg)
  /-- CMP_GE_I32_X (R207): Signed greater-or-equal compare with X. -/
  | cmpGeI32X (a : MReg) (b : VReg) (c : XOp)
  /-- CMP_LT_N32_V (R207): Unsigned less-than compare with vC. -/
  | cmpLtN32V (a : MReg) (b : VReg) (c : VReg)
  /-- CMP_LT_N32_X (R207): Unsigned less-than compare with X. -/
  | cmpLtN32X (a : MReg) (b : VReg) (c : XOp)
  /-- CMP_LE_N32_V (R207): Unsigned less-or-equal compare with vC. -/
  | cmpLeN32V (a : MReg) (b : VReg) (c : VReg)
  /-- CMP_LE_N32_X (R207): Unsigned less-or-equal compare with X. -/
  | cmpLeN32X (a : MReg) (b : VReg) (c : XOp)
  /-- CMP_GT_N32_V (R207): Unsigned greater-than compare with vC. -/
  | cmpGtN32V (a : MReg) (b : VReg) (c : VReg)
  /-- CMP_GT_N32_X (R207): Unsigned greater-than compare with X. -/
  | cmpGtN32X (a : MReg) (b : VReg) (c : XOp)
  /-- CMP_GE_N32_V (R207): Unsigned greater-or-equal compare with vC. -/
  | cmpGeN32V (a : MReg) (b : VReg) (c : VReg)
  /-- CMP_GE_N32_X (R207): Unsigned greater-or-equal compare with X. -/
  | cmpGeN32X (a : MReg) (b : VReg) (c : XOp)
  /-- FCMP_EQ_F32_V (R207): FP32 equality compare with vC into a mask. -/
  | fcmpEqF32V (a : MReg) (b : VReg) (c : VReg)
  /-- FCMP_EQ_F32_X (R207): FP32 equality compare with X into a mask. -/
  | fcmpEqF32X (a : MReg) (b : VReg) (c : XOp)
  /-- FCMP_LT_F32_V (R207): FP32 less-than compare with vC. -/
  | fcmpLtF32V (a : MReg) (b : VReg) (c : VReg)
  /-- FCMP_LT_F32_X (R207): FP32 less-than compare with X. -/
  | fcmpLtF32X (a : MReg) (b : VReg) (c : XOp)
  /-- FCMP_LE_F32_V (R207): FP32 less-or-equal compare with vC. -/
  | fcmpLeF32V (a : MReg) (b : VReg) (c : VReg)
  /-- FCMP_LE_F32_X (R207): FP32 less-or-equal compare with X. -/
  | fcmpLeF32X (a : MReg) (b : VReg) (c : XOp)
  /-- FCMP_NE_F32_V (R207): FP32 not-equal-or-unordered compare with vC. -/
  | fcmpNeF32V (a : MReg) (b : VReg) (c : VReg)
  /-- FCMP_NE_F32_X (R207): FP32 not-equal-or-unordered compare with X. -/
  | fcmpNeF32X (a : MReg) (b : VReg) (c : XOp)
  /-- FCMP_UN_F32_V (R207): FP32 unordered compare with vC. -/
  | fcmpUnF32V (a : MReg) (b : VReg) (c : VReg)
  /-- FCMP_UN_F32_X (R207): FP32 unordered compare with X. -/
  | fcmpUnF32X (a : MReg) (b : VReg) (c : XOp)
  /-- FADD_F32_V (R209): FP32 add of vB and vC, rounded once. -/
  | faddF32V (a : VReg) (b : VReg) (c : VReg)
  /-- FADD_F32_X (R209): FP32 add of vB and X, rounded once. -/
  | faddF32X (a : VReg) (b : VReg) (c : XOp)
  /-- FSUB_F32_V (R209): FP32 subtract vB minus vC. -/
  | fsubF32V (a : VReg) (b : VReg) (c : VReg)
  /-- FSUB_F32_X (R209): FP32 subtract vB minus X. -/
  | fsubF32X (a : VReg) (b : VReg) (c : XOp)
  /-- FMUL_F32_V (R209): FP32 multiply of vB and vC. -/
  | fmulF32V (a : VReg) (b : VReg) (c : VReg)
  /-- FMUL_F32_X (R209): FP32 multiply of vB and X. -/
  | fmulF32X (a : VReg) (b : VReg) (c : XOp)
  /-- FFMA_F32_V (R209): FP32 fused multiply-add of vB, vC and the addend. -/
  | ffmaF32V (a : VReg) (b : VReg) (c : VReg)
  /-- FFMA_F32_X (R209): FP32 fused multiply-add of vB, X and the addend. -/
  | ffmaF32X (a : VReg) (b : VReg) (c : XOp)
  /-- FMIN_F32_V (R210): FP32 minimum of vB and vC. -/
  | fminF32V (a : VReg) (b : VReg) (c : VReg)
  /-- FMIN_F32_X (R210): FP32 minimum of vB and X. -/
  | fminF32X (a : VReg) (b : VReg) (c : XOp)
  /-- FMAX_F32_V (R210): FP32 maximum of vB and vC. -/
  | fmaxF32V (a : VReg) (b : VReg) (c : VReg)
  /-- FMAX_F32_X (R210): FP32 maximum of vB and X. -/
  | fmaxF32X (a : VReg) (b : VReg) (c : XOp)
  /-- FNEG_F32 (R211): Inverts the sign of vB. -/
  | fnegF32 (a : VReg) (b : VReg)
  /-- FABS_F32 (R211): Clears the sign of vB. -/
  | fabsF32 (a : VReg) (b : VReg)
  /-- FCLASS_F32 (R212): Writes the one-hot class of vB. -/
  | fclassF32 (a : VReg) (b : VReg)
  /-- FRND_F32 (R211): Rounds vB to an integral value under the mode. -/
  | frndF32 (a : VReg) (b : VReg)
  /-- FRCP_F32 (R213): Approximate reciprocal of vB. -/
  | frcpF32 (a : VReg) (b : VReg)
  /-- FRSQ_F32 (R213): Approximate reciprocal square root of vB. -/
  | frsqF32 (a : VReg) (b : VReg)
  /-- FSQRT_F32 (R213): Correctly rounded square root of vB. -/
  | fsqrtF32 (a : VReg) (b : VReg)
  /-- FEX2_F32 (R213): Approximate 2 to the power vB. -/
  | fex2F32 (a : VReg) (b : VReg)
  /-- FLG2_F32 (R213): Approximate base-2 logarithm of vB. -/
  | flg2F32 (a : VReg) (b : VReg)
  /-- FSIN_F32 (R213): Approximate sine of vB. -/
  | fsinF32 (a : VReg) (b : VReg)
  /-- FCOS_F32 (R213): Approximate cosine of vB. -/
  | fcosF32 (a : VReg) (b : VReg)
  /-- CVT (R214): Converts vB from the source type to the destination type, optionally saturating. -/
  | cvt (dt : NumTy) (sat : Bool) (st : NumTy) (b : VReg) (a : VReg)
  /-- PADD_F16_V (R216): Packed FP16 add with vC. -/
  | paddF16V (a : VReg) (b : VReg) (c : VReg)
  /-- PADD_F16_X (R216): Packed FP16 add with X. -/
  | paddF16X (a : VReg) (b : VReg) (c : XOp)
  /-- PSUB_F16_V (R216): Packed FP16 subtract of vC. -/
  | psubF16V (a : VReg) (b : VReg) (c : VReg)
  /-- PSUB_F16_X (R216): Packed FP16 subtract of X. -/
  | psubF16X (a : VReg) (b : VReg) (c : XOp)
  /-- PMUL_F16_V (R216): Packed FP16 multiply by vC. -/
  | pmulF16V (a : VReg) (b : VReg) (c : VReg)
  /-- PMUL_F16_X (R216): Packed FP16 multiply by X. -/
  | pmulF16X (a : VReg) (b : VReg) (c : XOp)
  /-- PFMA_F16_V (R216): Packed FP16 fused multiply-add with vC. -/
  | pfmaF16V (a : VReg) (b : VReg) (c : VReg)
  /-- PFMA_F16_X (R216): Packed FP16 fused multiply-add with X. -/
  | pfmaF16X (a : VReg) (b : VReg) (c : XOp)
  /-- PMIN_F16_V (R216): Packed FP16 minimum with vC. -/
  | pminF16V (a : VReg) (b : VReg) (c : VReg)
  /-- PMIN_F16_X (R216): Packed FP16 minimum with X. -/
  | pminF16X (a : VReg) (b : VReg) (c : XOp)
  /-- PMAX_F16_V (R216): Packed FP16 maximum with vC. -/
  | pmaxF16V (a : VReg) (b : VReg) (c : VReg)
  /-- PMAX_F16_X (R216): Packed FP16 maximum with X. -/
  | pmaxF16X (a : VReg) (b : VReg) (c : XOp)
  /-- PADD_BF16_V (R216): Packed BF16 add with vC. -/
  | paddBf16V (a : VReg) (b : VReg) (c : VReg)
  /-- PADD_BF16_X (R216): Packed BF16 add with X. -/
  | paddBf16X (a : VReg) (b : VReg) (c : XOp)
  /-- PSUB_BF16_V (R216): Packed BF16 subtract of vC. -/
  | psubBf16V (a : VReg) (b : VReg) (c : VReg)
  /-- PSUB_BF16_X (R216): Packed BF16 subtract of X. -/
  | psubBf16X (a : VReg) (b : VReg) (c : XOp)
  /-- PMUL_BF16_V (R216): Packed BF16 multiply by vC. -/
  | pmulBf16V (a : VReg) (b : VReg) (c : VReg)
  /-- PMUL_BF16_X (R216): Packed BF16 multiply by X. -/
  | pmulBf16X (a : VReg) (b : VReg) (c : XOp)
  /-- PFMA_BF16_V (R216): Packed BF16 fused multiply-add with vC. -/
  | pfmaBf16V (a : VReg) (b : VReg) (c : VReg)
  /-- PFMA_BF16_X (R216): Packed BF16 fused multiply-add with X. -/
  | pfmaBf16X (a : VReg) (b : VReg) (c : XOp)
  /-- PMIN_BF16_V (R216): Packed BF16 minimum with vC. -/
  | pminBf16V (a : VReg) (b : VReg) (c : VReg)
  /-- PMIN_BF16_X (R216): Packed BF16 minimum with X. -/
  | pminBf16X (a : VReg) (b : VReg) (c : XOp)
  /-- PMAX_BF16_V (R216): Packed BF16 maximum with vC. -/
  | pmaxBf16V (a : VReg) (b : VReg) (c : VReg)
  /-- PMAX_BF16_X (R216): Packed BF16 maximum with X. -/
  | pmaxBf16X (a : VReg) (b : VReg) (c : XOp)
  /-- FDOT4_E4M3_V (R217): Four-wide E4M3 dot product with vC plus an FP32 addend. -/
  | fdot4E4m3V (a : VReg) (b : VReg) (c : VReg)
  /-- FDOT4_E4M3_X (R217): Four-wide E4M3 dot product with X plus an FP32 addend. -/
  | fdot4E4m3X (a : VReg) (b : VReg) (c : XOp)
  /-- FDOT4_E5M2_V (R217): Four-wide E5M2 dot product with vC plus an FP32 addend. -/
  | fdot4E5m2V (a : VReg) (b : VReg) (c : VReg)
  /-- FDOT4_E5M2_X (R217): Four-wide E5M2 dot product with X plus an FP32 addend. -/
  | fdot4E5m2X (a : VReg) (b : VReg) (c : XOp)
  /-- TBPACK_TB8 (R218): Packs one TB8 block from the group's 32 lanes, exponents to sC. -/
  | tbpackTb8 (a : VReg) (b : VReg) (c : SReg)
  /-- TBPACK_TB4 (R218): Packs one TB4 block from the group's 32 lanes. -/
  | tbpackTb4 (a : VReg) (b : VReg) (c : SReg)
  /-- TBPACK_SAT_TB8 (R218): Packs one TB8 block with saturation. -/
  | tbpackSatTb8 (a : VReg) (b : VReg) (c : SReg)
  /-- TBPACK_SAT_TB4 (R218): Packs one TB4 block with saturation. -/
  | tbpackSatTb4 (a : VReg) (b : VReg) (c : SReg)
  /-- TBUNP_TB8 (R219): Decodes one TB8 element per lane to FP32. -/
  | tbunpTb8 (a : VReg) (b : VReg) (c : SReg)
  /-- TBUNP_TB4 (R219): Decodes one TB4 element per lane to FP32. -/
  | tbunpTb4 (a : VReg) (b : VReg) (c : SReg)
  /-- XLANE_GET_V (R221): Reads vB from lane t0 + (d mod T), d from vC. -/
  | xlaneGetV (a : VReg) (b : VReg) (c : VReg)
  /-- XLANE_GET_X (R221): Reads vB from lane t0 + (d mod T), d from X. -/
  | xlaneGetX (a : VReg) (b : VReg) (c : XOp)
  /-- XLANE_BACK_V (R221): Reads vB from lane L minus d within the tile, d from vC. -/
  | xlaneBackV (a : VReg) (b : VReg) (c : VReg)
  /-- XLANE_BACK_X (R221): Reads vB from lane L minus d within the tile, d from X. -/
  | xlaneBackX (a : VReg) (b : VReg) (c : XOp)
  /-- XLANE_FWD_V (R221): Reads vB from lane L plus d within the tile, d from vC. -/
  | xlaneFwdV (a : VReg) (b : VReg) (c : VReg)
  /-- XLANE_FWD_X (R221): Reads vB from lane L plus d within the tile, d from X. -/
  | xlaneFwdX (a : VReg) (b : VReg) (c : XOp)
  /-- XLANE_MIX_V (R221): Reads vB from lane L XOR d within the tile, d from vC. -/
  | xlaneMixV (a : VReg) (b : VReg) (c : VReg)
  /-- XLANE_MIX_X (R221): Reads vB from lane L XOR d within the tile, d from X. -/
  | xlaneMixX (a : VReg) (b : VReg) (c : XOp)
  /-- POLL_SOME (R222): Writes 1 if any executing lane of the tile has vB nonzero. -/
  | pollSome (a : VReg) (b : VReg)
  /-- POLL_EVERY (R222): Writes 1 if every executing lane of the tile has vB nonzero. -/
  | pollEvery (a : VReg) (b : VReg)
  /-- POLL_BITS (R222): Writes the bit set of executing lanes of the tile with vB nonzero. -/
  | pollBits (a : VReg) (b : VReg)
  /-- FOLD_ADD_I32 (R223): Integer sum over the tile's executing lanes, written to each. -/
  | foldAddI32 (a : VReg) (b : VReg)
  /-- FOLD_MIN_I32 (R223): Signed minimum over the tile's executing lanes. -/
  | foldMinI32 (a : VReg) (b : VReg)
  /-- FOLD_MAX_I32 (R223): Signed maximum over the tile's executing lanes. -/
  | foldMaxI32 (a : VReg) (b : VReg)
  /-- FOLD_ADD_F32 (R223): FP32 sum in ascending lane order over the tile. -/
  | foldAddF32 (a : VReg) (b : VReg)
  /-- PREFIX_ADD_I32 (R223): Inclusive integer prefix sum within the tile. -/
  | prefixAddI32 (a : VReg) (b : VReg)
  /-- PREFIX_ADD_F32 (R223): Inclusive FP32 prefix sum within the tile. -/
  | prefixAddF32 (a : VReg) (b : VReg)
  /-- SAME_B32 (R224): Mask of tile lanes whose raw key equals this lane's. -/
  | sameB32 (a : VReg) (b : VReg)
  /-- SAME_F32 (R224): Mask of tile lanes whose FP32 key equals this lane's. -/
  | sameF32 (a : VReg) (b : VReg)
  /-- SEL_V (R208): Selects vB where mask mK is set, else vC. -/
  | selV (a : VReg) (k : MReg) (b : VReg) (c : VReg)
  /-- SEL_X (R208): Selects vB where mask mK is set, else X. -/
  | selX (a : VReg) (k : MReg) (b : VReg) (c : XOp)
  /-- LDG (R229): Global lane load of the given type. -/
  | ldg (t : AccTy) (a : VReg) (bc : MemOp)
  /-- LDG_SYM (R52): Symbolic global load producing deferred affine forms. -/
  | ldgSym (t : AccTy) (a : VReg) (bc : MemOp)
  /-- STG (R229): Global lane store of the given type. -/
  | stg (t : AccTy) (a : VReg) (bc : MemOp)
  /-- LDS (R229): Scratch lane load. -/
  | lds (t : AccTy) (a : VReg) (bc : MemOp)
  /-- LDS_SYM (R52): Symbolic scratch load. -/
  | ldsSym (t : AccTy) (a : VReg) (bc : MemOp)
  /-- STS (R229): Scratch lane store. -/
  | sts (t : AccTy) (a : VReg) (bc : MemOp)
  /-- LDT (R232): Surface sample load. -/
  | ldt (t : AccTy) (a : VReg) (b : SReg) (c : VReg)
  /-- LDT_SYM (R52): Symbolic surface sample load. -/
  | ldtSym (t : AccTy) (a : VReg) (b : SReg) (c : VReg)
  /-- STT (R232): Surface sample store, recoding the tile. -/
  | stt (t : AccTy) (a : VReg) (b : SReg) (c : VReg)
  /-- ROPZ (R240): Submits a fragment lane's depth to its bank unit. -/
  | ropz (a : VReg) (c : VReg)
  /-- ROPC (R240): Submits a fragment lane's colour to a colour target at its bank unit. -/
  | ropc (a : VReg) (b : SReg) (c : VReg)
  /-- ATG_32 (R234): 32-bit value-returning global atomic, aggregated per address. -/
  | atg32 (o : AtomOp) (a : VReg) (bc : MemOp)
  /-- ATG_64 (R234): 64-bit value-returning global atomic. -/
  | atg64 (o : AtomOp) (a : VReg) (bc : MemOp)
  /-- ATS_32 (R234): 32-bit value-returning scratch atomic, own or remote column. -/
  | ats32 (o : AtomOp) (a : VReg) (bc : MemOp)
  /-- ATS_64 (R234): 64-bit value-returning scratch atomic. -/
  | ats64 (o : AtomOp) (a : VReg) (bc : MemOp)
  /-- RED_32 (R125): 32-bit global reduction applied to a partial copy. -/
  | red32 (o : AtomOp) (a : VReg) (bc : MemOp)
  /-- RED_64 (R125): 64-bit global reduction applied to a partial copy. -/
  | red64 (o : AtomOp) (a : VReg) (bc : MemOp)
  /-- FENCE_GROUP (R134): Holds later accesses until earlier command writes are visible at group scope. -/
  | fenceGroup
  /-- FENCE_TEAM (R134): Fence at team scope. -/
  | fenceTeam
  /-- FENCE_FACET (R123): Fence at facet scope, also ordering remote scratch. -/
  | fenceFacet
  /-- FENCE_CLUSTER (R134): Fence at cluster scope. -/
  | fenceCluster
  /-- FENCE_PACKAGE (R134): Fence at package scope. -/
  | fencePackage
  /-- FENCE_SYSTEM (R134): Fence at system scope. -/
  | fenceSystem
  /-- ACK (R120): Drops every read copy in the issuing core's L1. -/
  | ack
  /-- TDISC (R93): Drops every line tagged with a tensor id without write-back. -/
  | tdisc (b : SReg)
  /-- PREFETCH_L1 (R235): Loads each lane's 256-byte line into L1 with a lease. -/
  | prefetchL1 (bc : MemOp)
  /-- PREFETCH_SLICE (R235): Fills each lane's sector into its cache slice. -/
  | prefetchSlice (bc : MemOp)
  /-- SURF_DEF (R237): Defines a surface slot from a scratch definition block, evicting as needed. -/
  | surfDef (a : SReg) (b : SReg) (c : SReg)
  /-- SURF_DROP (R238): Drops a surface slot, discarding resident tiles. -/
  | surfDrop (a : SReg) (c : SReg)
  /-- SURF_CLR (R109): Fast-clears every tile of a surface. -/
  | surfClr (a : SReg) (c : SReg)
  /-- SURF_DECOMP (R109): Fills, recodes raw and writes home every tile, then turns compression off. -/
  | surfDecomp (a : SReg) (c : SReg)
  /-- ANN_BOARD (R241): Enters a capture that boards a global line onto an Annulus slot. -/
  | annBoard (b : SReg)
  /-- ANN_ALIGHT (R241): Enters a capture that writes a slot's line home. -/
  | annAlight (b : SReg)
  /-- ANN_LD_B32 (R241): Enters captures that load 32-bit slot words. -/
  | annLdB32 (a : VReg) (bc : MemOp)
  /-- ANN_LD_B64 (R241): Enters captures that load 64-bit slot words. -/
  | annLdB64 (a : VReg) (bc : MemOp)
  /-- ANN_LD_SYM_I32 (R149): Symbolic integer Annulus load producing forms. -/
  | annLdSymI32 (a : VReg) (bc : MemOp)
  /-- ANN_LD_SYM_F32 (R149): Symbolic FP32 Annulus load producing forms. -/
  | annLdSymF32 (a : VReg) (bc : MemOp)
  /-- ANN_WAIT (R148): Arms an Annulus watch on a slot word with a condition and comparand. -/
  | annWait (k : WatchCond) (w : BitVec 2) (a : SReg) (b : SReg) (c : SReg)
  /-- ANN_OP_32 (R145): Enters captures applying a 32-bit atomic operation to slot words. -/
  | annOp32 (o : AtomOp) (a : VReg) (bc : MemOp)
  /-- ANN_OP_64 (R145): Enters captures applying a 64-bit atomic operation to slot words. -/
  | annOp64 (o : AtomOp) (a : VReg) (bc : MemOp)
  /-- PUT_SIG_SET (R243): One-sided put with a flag store, handed to the request engine. -/
  | putSigSet (a : SReg) (b : SReg)
  /-- PUT_SIG_ADD (R243): One-sided put with a counter add. -/
  | putSigAdd (a : SReg) (b : SReg)
  /-- GETP_GROUP (R243): One-sided get released at group scope. -/
  | getpGroup (a : SReg) (b : SReg)
  /-- GETP_TEAM (R243): One-sided get released at team scope. -/
  | getpTeam (a : SReg) (b : SReg)
  /-- GETP_FACET (R243): One-sided get released at facet scope. -/
  | getpFacet (a : SReg) (b : SReg)
  /-- GETP_CLUSTER (R243): One-sided get released at cluster scope. -/
  | getpCluster (a : SReg) (b : SReg)
  /-- GETP_PACKAGE (R243): One-sided get released at package scope. -/
  | getpPackage (a : SReg) (b : SReg)
  /-- GETP_SYSTEM (R243): One-sided get released at system scope. -/
  | getpSystem (a : SReg) (b : SReg)
  /-- PUSH_COPY (R274): Pushes a 64-byte COPY command to the request engine. -/
  | pushCopy (vec : Bool) (b : BitVec 7) (a : SReg)
  /-- PUSH_TENSOR (R274): Pushes a TENSOR command. -/
  | pushTensor (vec : Bool) (b : BitVec 7) (a : SReg)
  /-- PUSH_GATHER (R274): Pushes a GATHER command. -/
  | pushGather (vec : Bool) (b : BitVec 7) (a : SReg)
  /-- PUSH_COLL (R274): Pushes a COLL command. -/
  | pushColl (vec : Bool) (b : BitVec 7) (a : SReg)
  /-- PUSH_RAST (R274): Pushes a RAST triangle command. -/
  | pushRast (vec : Bool) (b : BitVec 7) (a : SReg)
  /-- PUSH_MSG (R274): Pushes a MSG command. -/
  | pushMsg (vec : Bool) (b : BitVec 7) (a : SReg)
  /-- PUSHB (R284): Hands the request engine a list of commands in scratch. -/
  | pushb (a : SReg) (b : SReg) (c : SReg)
  /-- MSG_SEND (R285): Sends a two-word message to a team of the own launch. -/
  | msgSend (a : SReg) (b : SReg) (c : SReg)
  /-- MSG_RECV (R286): Posts a receive for the group's team and returns a handle. -/
  | msgRecv (a : SReg) (b : SReg)
  /-- MSG_PROBE (R288): Looks for the oldest matching entry in the core's overflow queue. -/
  | msgProbe (a : SReg) (b : SReg)
  /-- MB_LD (R252): Queues a load of B-store slices from a descriptor. -/
  | mbLd (b : SReg)
  /-- MB_ZERO (R253): Queues a clear of a B-store byte range in all slices. -/
  | mbZero (b : SReg)
  /-- MMX (R250): Queues a dense matrix command from a scratch parameter block. -/
  | mmx (b : SReg)
  /-- MMX_LUT (R250): Queues a table-lookup matrix command from a scratch block. -/
  | mmxLut (b : SReg)
  /-- MMX_R (R250): Queues a dense matrix command from 16 s registers. -/
  | mmxR (b : SReg)
  /-- MMX_LUT_R (R250): Queues a table-lookup matrix command from 16 s registers. -/
  | mmxLutR (b : SReg)
  /-- HXOR (R268): Binds two hypervectors with XOR. -/
  | hxor (a : HReg) (b : HReg) (c : HReg)
  /-- HROT (R268): Rotates a hypervector by X places. -/
  | hrot (a : HReg) (b : HReg) (c : XOp)
  /-- HBUN (R268): Bundles a hypervector into saturating counters. -/
  | hbun (a : KReg) (b : HReg)
  /-- HCLR_H (R268): Clears an h register. -/
  | hclrH (a : HReg)
  /-- HCLR_C (R268): Clears a c register. -/
  | hclrC (a : KReg)
  /-- HMAJ (R268): Takes the majority of counters, ties from the htie source. -/
  | hmaj (a : HReg) (b : KReg)
  /-- HPOP (R268): Counts the 1 bits of a hypervector into sA. -/
  | hpop (a : SReg) (b : HReg)
  /-- HDIST (R268): Hamming distance of two hypervectors into sA. -/
  | hdist (a : SReg) (b : HReg) (c : HReg)
  /-- HLD_S (R270): Loads an h register from 1 KiB of scratch. -/
  | hldS (a : HReg) (b : SReg)
  /-- HLD_G (R270): Loads an h register from 1 KiB of global memory. -/
  | hldG (a : HReg) (b : SReg)
  /-- HST_S (R270): Stores an h register to 1 KiB of scratch. -/
  | hstS (a : HReg) (b : SReg)
  /-- HST_G (R270): Stores an h register to 1 KiB of global memory. -/
  | hstG (a : HReg) (b : SReg)
  /-- HFROM (R271): Assembles an h register from eight v registers of all lanes. -/
  | hfrom (a : HReg) (b : VReg)
  /-- HTO (R271): Writes an h register into eight v registers per executing lane. -/
  | hto (a : VReg) (b : HReg)
  /-- HMATCH (R272): Finds the nearest entry of an item memory in scratch. -/
  | hmatch (a : SReg) (b : HReg) (c : SReg)
  /-- HTIE (R273): Sets the tie source to register hA. -/
  | htie (a : HReg)
  /-- HTIE_SEED (R273): Sets the tie source to the generator seeded from sB. -/
  | htieSeed (b : SReg)
  /-- GRD (R330): Reads a field of a halted group's state. -/
  | grd (a : SReg) (b : SReg) (c : SReg)
  /-- GWR (R330): Writes a field of a halted group's state. -/
  | gwr (a : SReg) (b : SReg) (c : SReg)
  /-- RESUME (R331): Lowers a context's halt line after a system fence; captures replay. -/
  | resume (a : SReg) (b : SReg)
  /-- BANKSET (R332): Binds, unbinds or selects a context bank of a core. -/
  | bankset (a : SReg) (b : SReg) (c : SReg)
  /-- TLBINV (R333): Drops translations of a context or a page across the partition. -/
  | tlbinv (a : SReg) (b : SReg) (c : SReg)
  /-- HALT (R331): Raises the halt line of a context and waits for its stop records. -/
  | halt (a : SReg) (b : SReg)
  /-- FILTER_ADD (R414): Filter qD := qA + qB. -/
  | filterAdd (d : BitVec 4) (a : BitVec 4) (b : BitVec 4)
  /-- FILTER_SUB (R414): Filter qD := qA - qB. -/
  | filterSub (d : BitVec 4) (a : BitVec 4) (b : BitVec 4)
  /-- FILTER_AND (R414): Filter qD := qA AND qB. -/
  | filterAnd (d : BitVec 4) (a : BitVec 4) (b : BitVec 4)
  /-- FILTER_OR (R414): Filter qD := qA OR qB. -/
  | filterOr (d : BitVec 4) (a : BitVec 4) (b : BitVec 4)
  /-- FILTER_XOR (R414): Filter qD := qA XOR qB. -/
  | filterXor (d : BitVec 4) (a : BitVec 4) (b : BitVec 4)
  /-- FILTER_SHL (R414): Filter logical left shift by qB. -/
  | filterShl (d : BitVec 4) (a : BitVec 4) (b : BitVec 4)
  /-- FILTER_SHR (R414): Filter logical right shift by qB. -/
  | filterShr (d : BitVec 4) (a : BitVec 4) (b : BitVec 4)
  /-- FILTER_ADDI (R414): Filter add of a sign-extended immediate. -/
  | filterAddi (d : BitVec 4) (a : BitVec 4) (imm : BitVec 14)
  /-- FILTER_ANDI (R414): Filter AND with a zero-extended immediate. -/
  | filterAndi (d : BitVec 4) (a : BitVec 4) (imm : BitVec 14)
  /-- FILTER_SHLI (R414): Filter left shift by an immediate. -/
  | filterShli (d : BitVec 4) (a : BitVec 4) (imm : BitVec 5)
  /-- FILTER_SHRI (R414): Filter right shift by an immediate. -/
  | filterShri (d : BitVec 4) (a : BitVec 4) (imm : BitVec 5)
  /-- FILTER_LDLO (R414): Filter loads qD[15:0] from an immediate. -/
  | filterLdlo (d : BitVec 4) (imm : BitVec 16)
  /-- FILTER_LDHI (R414): Filter loads qD[31:16] from an immediate. -/
  | filterLdhi (d : BitVec 4) (imm : BitVec 16)
  /-- FILTER_BEQ (R414): Filter forward branch if qA equals qB. -/
  | filterBeq (a : BitVec 4) (b : BitVec 4) (imm : BitVec 14)
  /-- FILTER_BNE (R414): Filter forward branch if qA differs from qB. -/
  | filterBne (a : BitVec 4) (b : BitVec 4) (imm : BitVec 14)
  /-- FILTER_BLTU (R414): Filter forward branch if qA is unsigned below qB. -/
  | filterBltu (a : BitVec 4) (b : BitVec 4) (imm : BitVec 14)
  /-- FILTER_BGEU (R414): Filter forward branch if qA is unsigned at least qB. -/
  | filterBgeu (a : BitVec 4) (b : BitVec 4) (imm : BitVec 14)
  /-- FILTER_KEEP (R413): Filter writes the record to the trace buffer and ends. -/
  | filterKeep
  /-- FILTER_DROP (R413): Filter discards the record and ends. -/
  | filterDrop
  /-- FILTER_COUNT (R414): Filter atomically adds 1 or qA to an FCNT counter. -/
  | filterCount (a : BitVec 4) (byReg : Bool) (c : BitVec 4)
  /-- FILTER_TRIG (R415): Filter fires a trigger. -/
  | filterTrig (t : BitVec 2)
  /-- FILTER_RDCNT (R414): Filter reads an FCNT counter into qD. -/
  | filterRdcnt (d : BitVec 4) (c : BitVec 4)
  /-- STARVATION_FLOOR (R27): When the starvation count reaches 64 the issue floor moves above the current address. -/
  | starvationFloor (g : Nat)
  /-- GROUP_SWAP (R37): A group with a long-latency dependence is swapped with the longest-ready pending group. -/
  | groupSwap (g : Nat)
  /-- FORCED_SWAP (R38): A pending group ready for 48 clocks forces the oldest active group out. -/
  | forcedSwap (core : Nat) (wedge : Nat)
  /-- WAIT_RELEASE (R40): Parked lanes of a wait are released when its conditions hold or its deadline passes. -/
  | waitRelease (g : Nat) (w : Nat)
  /-- SLEEP_RELEASE (R41): Lanes parked in sleep.at are released once TIME reaches the instant. -/
  | sleepRelease (g : Nat) (lane : Nat)
  /-- BARRIER_ARRIVAL (R196): After its fence holds, a group parked at bar counts as arrived. -/
  | barrierArrival (g : Nat)
  /-- BARRIER_ROUTER_ARRIVAL (R395): The barrier router counts a team's arrival packet and multicasts the release at the count. -/
  | barrierRouterArrival (tid : Nat)
  /-- SYMBOL_DELIVERY (R57): A symbolic load's value X arrives; forms are collapsed as the mode dictates. -/
  | symbolDelivery (g : Nat) (k : Nat)
  /-- TEAM_RETIRE (R43): A team retires once its groups, commands and captures are done and no line is aboard. -/
  | teamRetire (tid : Nat)
  /-- QTAIL_DOORBELL (R349): A host write of QTAIL rings the doorbell of a host ring. -/
  | qtailDoorbell (p : Nat) (q : Nat) (tail : Nat)
  /-- RING_ENTRY_MOVE (R349): The front end moves one ring entry into the hardware queue while it has room. -/
  | ringEntryMove (p : Nat) (q : Nat)
  /-- QUEUE_HEAD (R350): A descriptor becomes head: it is numbered, checked, and arms its event wait. -/
  | queueHead (p : Nat) (q : Nat)
  /-- CLUSTER_PLACEMENT (R353): The sequencer places one cluster of the highest-priority head on a free rectangle. -/
  | clusterPlacement (p : Nat) (q : Nat) (quad : Nat) (x : Nat) (y : Nat)
  /-- BANK_ROTATION (R355): Banks of equal rank take turns each SLICE microseconds. -/
  | bankRotation (core : Nat) (bank : Nat)
  /-- PREEMPT_REQUEST (R359): A write to SCH.PREEMPT looks for and vacates pre-emptible clusters of N cores. -/
  | preemptRequest (p : Nat)
  /-- VACATE_COMPLETE (R361): When every save write is performed the cores count as vacated. -/
  | vacateComplete (p : Nat)
  /-- EXTENSION_MOVE_BACK (R357): Extension entries move back into the event table as entries free. -/
  | extensionMoveBack (p : Nat)
  /-- HALT_LINE_ARRIVAL (R376): The halt line reaches a unit, which begins its skid. -/
  | haltLineArrival (ctx : Nat) (src : Nat)
  /-- SKID_STOP (R376): A unit stops at its skid bound and counts its skid. -/
  | skidStop (ctx : Nat) (src : Nat)
  /-- STOP_AREA_WRITE (R377): When every unit has stopped, the stop area is written and released. -/
  | stopAreaWrite (ctx : Nat)
  /-- HANDLER_START (R325): The sequencer binds bank 3 of the handler core and launches the handler team. -/
  | handlerStart (p : Nat)
  /-- HANDLER_CORE_MOVE (R368): A handler core that loses bank 3 is replaced once the slot is free. -/
  | handlerCoreMove (p : Nat)
  /-- PAGE_WALK (R339): A walker reads four levels of tables and yields a translation or a fault. -/
  | pageWalk (core : Nat) (ctx : Nat) (va : Nat)
  /-- L1_COPY_LAPSE (R119): An L1 read copy lapses 2048 ns after its grant. -/
  | l1CopyLapse (core : Nat) (line : Nat)
  /-- STATION_ENTRY (R143): A capture enters its core's station once an entry is free. -/
  | stationEntry (core : Nat)
  /-- ANNULUS_CAPTURE (R145): At the slot's passage the station performs a capture atomically. -/
  | annulusCapture (core : Nat) (slot : Nat)
  /-- WATCH_PASSAGE (R148): At each passage an armed watch compares its word with the comparand. -/
  | watchPassage (core : Nat) (slot : Nat)
  /-- HOST_ACCESS (R121): A host read or write of device memory enters the memory order at its slice. -/
  | hostAccess (target : HostTarget) (addr : Nat) (len : Nat) (data : Option (List Byte))
  /-- PEER_ACCESS (R401): A peer's access arrives and is served or refused against the peer window. -/
  | peerAccess (dev : Nat) (kind : PeerOp) (addr : Nat) (data : List Byte)
  /-- VL_REPLY_TIMEOUT (R401): A Vimen Link request with no reply within VLTO raises MEM_FAULT. -/
  | vlReplyTimeout (req : Nat)
  /-- VL_FLIT_RECEIVE (R400): A received flit of another domain is dropped and counted. The flit is given as its domain in
  bits 15:0, with bit 16 set when its CRC fails. -/
  | vlFlitReceive (port : Nat) (flit : Nat)
  /-- PUT_SIG_DELIVERY (R244): The request engine writes the put payload at the destination. -/
  | putSigDelivery (cmd : Nat) (n : Nat)
  /-- PUT_SIG_FLAG (R401): Once every payload sector is acknowledged the flag is sent as one atomic. -/
  | putSigFlag (cmd : Nat)
  /-- GETP_TRANSFER (R244): The get is performed and its barrier object decremented when visible. -/
  | getpTransfer (cmd : Nat) (n : Nat)
  /-- REQUEST_ENGINE_HANDOFF (R275): A queued command leaves its queue to the unit that runs it. -/
  | requestEngineHandoff (core : Nat) (queue : Nat) (unit : Nat)
  /-- COPY_COMMAND (R278): A copy engine takes a COPY command, writes its promise and copies row by row. -/
  | copyCommand (cmd : Nat) (n : Nat)
  /-- TENSOR_COMMAND (R280): A copy engine runs a TENSOR permutation in destination order. -/
  | tensorCommand (cmd : Nat) (n : Nat)
  /-- GATHER_COMMAND (R281): A copy engine gathers indexed table rows with clamping. -/
  | gatherCommand (cmd : Nat) (n : Nat)
  /-- COLL_COMMAND (R282): A copy engine joins its rank to a two-phase narrow reduction. -/
  | collCommand (cmd : Nat) (n : Nat)
  /-- ENGINE_COMPLETION (R130): A command's completion update clears its flag, decrements its object or signals. -/
  | engineCompletion (cmd : Nat)
  /-- PUSHB_LIST_READ (R284): The request engine reads a command list and enters entries as queues have room. -/
  | pushbListRead (core : Nat)
  /-- MSG_ARRIVAL (R287): An arriving message is matched to a posted receive or queued. -/
  | msgArrival (msg : Nat)
  /-- MATRIX_QUEUE_ACCEPT (R246): A matrix instruction enters the matrix queue once an entry is free. -/
  | matrixQueueAccept (core : Nat)
  /-- MB_LD_COMMAND (R252): The queue copies source rows into B-store slices with conversion. -/
  | mbLdCommand (core : Nat) (n : Nat)
  /-- MB_ZERO_COMMAND (R253): The queue zeroes a B-store byte range in every slice. -/
  | mbZeroCommand (core : Nat)
  /-- DENSE_COMPUTATION (R258): The array computes D from A and B with windowed dot steps. -/
  | denseComputation (core : Nat) (n : Nat)
  /-- TABLE_LOOKUP (R260): The array computes D through 16-entry tables over 1-bit or 2-bit weights. -/
  | tableLookup (core : Nat) (n : Nat)
  /-- MATRIX_COMPLETION (R262): A matrix command completes: release, flag clear and object decrement. -/
  | matrixCompletion (core : Nat)
  /-- RAST_ACCEPT (R291): The distributor accepts a triangle, reads its draw state and numbers it. -/
  | rastAccept (cmd : Nat)
  /-- TRIANGLE_SETUP (R294): A raster engine snaps, culls and covers a triangle's samples. -/
  | triangleSetup (quad : Nat)
  /-- FRAGMENT_GROUP_LAUNCH (R297): A raster engine launches a fragment group once a wedge and bank have room. -/
  | fragmentGroupLaunch (quad : Nat) (core : Nat) (wedge : Nat) (bank : Nat)
  /-- BANK_UNIT_APPLY (R299): A bank unit applies a fragment's depth test and blend in sequence order. -/
  | bankUnitApply (core : Nat)
  /-- RATIO_CHANGE (R387): A change of the ratio in force stalls every vertical bus. -/
  | ratioChange
  /-- RATIO_STALL_END (R387): After 96 memory-layer clocks CUR takes the new value. -/
  | ratioStallEnd
  /-- BUS_RETIRE (R390): A RETIRE write drops a column unit and remaps the bus. -/
  | busRetire
  /-- RETIRE_COPY_DONE (R390): The unit copy of a retirement finishes and the remap takes effect. -/
  | retireCopyDone
  /-- WEAR_STATE_CHANGE (R438): A wear indicator changes state; a failed bus starts an automatic retirement. -/
  | wearStateChange (sel : Nat) (state : Nat) (eolh : Nat) (used : Nat)
  /-- SUBNET_WAKE (R393): A subnetwork starts waking after the lower one stays congested for 1 us. -/
  | subnetWake (n : Nat) (occ : Nat)
  /-- SUBNET_ON (R393): A waking subnetwork turns on. -/
  | subnetOn (n : Nat)
  /-- SUBNET_OFF (R393): A subnetwork idle for 100 us turns off. -/
  | subnetOff (n : Nat)
  /-- PTM_DIALOGUE (R406): A PTMGO write starts one PTM dialogue on the host port. -/
  | ptmDialogue
  /-- PTM_RESPONSE (R406): A PTM response arrives and its timestamps are latched. -/
  | ptmResponse (master : Nat) (delay : Nat)
  /-- TIME_STEP (R406): A write of TSTEP's high word adds a signed offset to TIME. -/
  | timeStep (off : Nat)
  /-- LOCUS_FILTER (R413): The Locus takes a record and runs the filter program over it. -/
  | locusFilter (stack : Nat)
  /-- FILTER_LOAD (R412): A FLTCTL.LOAD write checks and installs a new filter program. -/
  | filterLoad (p : Nat)
  /-- SAMPLE_TAG (R410): A wedge tags its next instruction after a pseudo-random interval. -/
  | sampleTag (core : Nat) (wedge : Nat)
  /-- SAMPLING_RECORD (R411): A tagged instruction finishes and emits a sampling record. -/
  | samplingRecord (core : Nat) (wedge : Nat) (level : Nat) (lats : List Nat)
  /-- STOPC_GO (R418): A STOPC write sends the stop-the-cluster broadcast. -/
  | stopcGo (p : Nat)
  /-- STEP_WITHIN_HALT (R420): A STEP write with NOTIFY 0 makes one issue of a halted group. -/
  | stepWithinHalt (p : Nat)
  /-- STEP_NOTIFY (R421): A STEP write with NOTIFY 1 makes a running group's next issue take STEP. -/
  | stepNotify (p : Nat)
  /-- STEP_COMPLETION (R420): The stepped issue completes or parks; STATE becomes 2 and STEPPC is set. -/
  | stepCompletion (p : Nat)
  /-- ANN_WINDOW_ENABLE (R140): A write setting EN grants a window and zeroes its slots. -/
  | annWindowEnable (ctx : Nat) (val : Nat)
  /-- ANN_WINDOW_DISABLE (R140): A write clearing EN cancels captures, alights lines and disables the slots. -/
  | annWindowDisable (ctx : Nat) (val : Nat)
  /-- PARTQ_WRITE (R323): A host write of a partition's quadrant mask, recomputing its handler core. -/
  | partqWrite (p : Nat) (mask : Nat)
  /-- HCORE_WRITE (R326): A write of SYS.HCORE, taking effect only while the handler slot is free. -/
  | hcoreWrite (p : Nat) (core : Nat)
  /-- CONTEXT_CREATE (R327): A host write taking CTXCFG.VALID from 0 to 1 creates the context. -/
  | contextCreate (ctx : Nat) (val : Nat)
  /-- CONTEXT_INVALIDATE (R327): A host write clearing VALID unbinds the context's banks and disables its window. -/
  | contextInvalidate (ctx : Nat) (val : Nat)
  /-- PSTATE_RUN (R441): A PSTATE write of 0 returns the device to run. -/
  | pstateRun
  /-- PSTATE_IDLE (R441): A PSTATE write of 1 stops the logic clock when no team is resident. -/
  | pstateIdle
  /-- PSTATE_SLEEP (R441): A PSTATE write of 2 enters sleep when no context is valid. -/
  | pstateSleep
  /-- FLOOR_RAISE (R439): The power manager raises the ratio floor after a cause holds 100 us. -/
  | floorRaise
  /-- FLOOR_FALL (R439): The floor falls by one after 10 ms without a cause. -/
  | floorFall
  /-- ALARM (R437): A supply, clock, temperature, tamper or probe alarm is recorded and acted on by level. -/
  | alarm (level : Nat) (src : Nat)
  /-- ATTESTATION_REPORT (R436): A GO write starts a signed attestation report. -/
  | attestationReport
  /-- REPORT_PUBLISH (R436): The report page is written, released, and ABUSY cleared. -/
  | reportPublish
  /-- BRING_UP (R440): Power good releases reset and runs the bring-up sequence. -/
  | bringUp
  /-- REGISTER_WRITE (R5): A write to a system register without behaviour of its own sets its fields. -/
  | registerWrite (off : Nat) (val : Nat)
  /-- ACCESS_PERFORMED (R157): A long-latency operation completes: a load's destination is written or a store is performed, and the count of the flag charged to it falls. -/
  | accessPerformed (g : Nat) (op : Nat)
  /-- SPILL_WRITE_COMPLETION (R114): A spill engine write of a tile to its home slot completes, or fails translation, letting waiting accesses proceed or fill. -/
  | spillWriteCompletion (req : Nat)
  /-- TLB_ENTRY_DROP (R341): The device drops a TLB entry of its own accord, at any time. -/
  | tlbEntryDrop (ix : Nat)
  /-- VIMEN_LINK_PORT_TRAINING (R394): A Vimen Link port trains or loses training, changing VLPORT.UP and LANES. -/
  | vimenLinkPortTraining (port : Nat) (lanes : Nat)
  /-- UCIE_LANE_LOSS (R396): UCIe lanes fail beyond repair, halving the stack-to-stack bandwidth without changing any value. -/
  | ucieLaneLoss (lanes : Nat)
  /-- THERMAL_OR_POWER_CAUSE (R439): A die crosses its warning or critical temperature, or module power crosses LIMIT, setting or clearing PWR.STAT causes; critical temperature raises the floor at once. -/
  | thermalOrPowerCause (cause : Nat) (on : Bool)
  /-- RC_REGISTER_READ (R5): A host read through the management window of an RC field, such as TBDROP, VLSTAT.DROPS or VLPORT.RETRY, returns the field and clears it. -/
  | rcRegisterRead (off : Nat)
  deriving DecidableEq, Repr

end Sys2Proof
end

