-- ==== Sys2Proof/WellFormed.lean ====
section
/-! DEFINITION. Which instruction terms the encodings of R151 to R172 admit: register kinds, pair and block
alignment, type and operation codes, and that a literal stands only inside a long form. Events have no
encoding and are well formed. -/

namespace Sys2Proof

/-- A literal operand exists only in the long form (R161, R166). -/
def XOp.short : XOp → Bool
  | .s _ => true
  | .imm _ => true
  | .lit _ => false

/-- A byte offset exists only in the long form (R166, R168). -/
def BranchOp.short : BranchOp → Bool
  | .near _ => true
  | .far _ => false

/-- A 32-bit memory operand with a scalar base alone (scratch, Annulus; R162). -/
def MemOp.wfLocal : MemOp → Bool
  | .off _ _ => true
  | .idx b _ => b.toNat != 0
  | .pair ix => ix.toNat % 2 == 0
  | .offFar _ _ => false
  | .idxFar _ _ _ => false
  | .pairFar _ _ => false

/-- A 32-bit memory operand with a global base, an even:odd pair (R162). -/
def MemOp.wfGlobal : MemOp → Bool
  | .off b _ => b.toNat % 2 == 0
  | .idx b _ => b.toNat != 0 && b.toNat % 2 == 0
  | .pair ix => ix.toNat % 2 == 0
  | .offFar _ _ => false
  | .idxFar _ _ _ => false
  | .pairFar _ _ => false

/-- The register rule of an access type (R170): `.b64` an even pair, `.b128` a multiple of 4. -/
def AccTy.dataOk (t : AccTy) (a : Nat) : Bool :=
  match t with
  | .b64 => a % 2 == 0
  | .rawB64 => a % 2 == 0
  | .b128 => a % 4 == 0
  | _ => true

/-- Codes 0 to 9, permitted on scratch (R170). -/
def AccTy.plain : AccTy → Bool
  | .rawB8 => false
  | .rawB16 => false
  | .rawB32 => false
  | .rawB64 => false
  | _ => true

/-- Codes 2, 3, 4, 7, 8 and 9, permitted on surfaces (R170). -/
def AccTy.surface : AccTy → Bool
  | .b32 => true
  | .b64 => true
  | .b128 => true
  | .i32 => true
  | .n32 => true
  | .f32 => true
  | _ => false

/-- Operations of the 32-bit `atg` and `ats` (R171). -/
def AtomOp.ok32 (_ : AtomOp) : Bool := true
/-- Operations of the 64-bit `atg`, `ats` and `ann.op`, and of the 32-bit `ann.op` (R171): no floating add. -/
def AtomOp.ok64 (o : AtomOp) : Bool := o != .addF
/-- Operations of `ann.op` (R171). -/
def AtomOp.okRing (o : AtomOp) : Bool := o != .addF
/-- Operations of the 32-bit `red` (R171). -/
def AtomOp.okRed32 (o : AtomOp) : Bool := o != .swap && o != .cas
/-- Operations of the 64-bit `red` (R171). -/
def AtomOp.okRed64 (o : AtomOp) : Bool := o != .swap && o != .cas && o != .addF
/-- The A rule of R233 at 32 bits. -/
def AtomOp.dataOk32 (o : AtomOp) (a : Nat) : Bool := if o = .cas then a % 2 == 0 else true
/-- The A rule of R233 at 64 bits. -/
def AtomOp.dataOk64 (o : AtomOp) (a : Nat) : Bool := if o = .cas then a % 4 == 0 else a % 2 == 0

/-- The block of 16 registers of a `push` (R172). -/
def pushBlockOk (vec : Bool) (b : Nat) : Bool := if vec then b ≤ 112 else b ≤ 48

/-- The terms that some encoding gives (R151 to R172). -/
def Instr.wf : Instr → Bool
  | .clauseHeader _ _ _ _ => true
  | .prefixWord _ _ _ _ rnd mask => decide (rnd.toNat ≤ 5 ∧ (mask.toNat ≤ 11 ∨ mask.toNat = 15))
  | .longForm _ _ _ _ _ => true
  | .nopHalf => true
  | .addI32Half _ _ => true
  | .subI32Half _ _ => true
  | .mulI32Half _ _ => true
  | .andB32Half _ _ => true
  | .orB32Half _ _ => true
  | .xorB32Half _ _ => true
  | .shlB32Half _ _ => true
  | .shrN32Half _ _ => true
  | .faddF32Half _ _ => true
  | .fsubF32Half _ _ => true
  | .fmulF32Half _ _ => true
  | .fminF32Half _ _ => true
  | .fmaxF32Half _ _ => true
  | .movB32Half _ _ => true
  | .minI32Half _ _ => true
  | .scalarAdd _ _ c => XOp.short c
  | .scalarSub _ _ c => XOp.short c
  | .scalarMul _ _ c => XOp.short c
  | .scalarMulhiI32 _ _ c => XOp.short c
  | .scalarMulhiN32 _ _ c => XOp.short c
  | .scalarAnd _ _ c => XOp.short c
  | .scalarOr _ _ c => XOp.short c
  | .scalarXor _ _ c => XOp.short c
  | .scalarShl _ _ c => XOp.short c
  | .scalarShr _ _ c => XOp.short c
  | .scalarSra _ _ c => XOp.short c
  | .scalarMinI32 _ _ c => XOp.short c
  | .scalarMaxI32 _ _ c => XOp.short c
  | .scalarMinN32 _ _ c => XOp.short c
  | .scalarMaxN32 _ _ c => XOp.short c
  | .scalarMov _ c => XOp.short c
  | .seteq _ _ c => XOp.short c
  | .setne _ _ c => XOp.short c
  | .setltI32 _ _ c => XOp.short c
  | .setleI32 _ _ c => XOp.short c
  | .setltN32 _ _ c => XOp.short c
  | .setleN32 _ _ c => XOp.short c
  | .scalarSel _ _ c => XOp.short c
  | .bra n => BranchOp.short n
  | .brcNz _ n => BranchOp.short n
  | .brcZ _ n => BranchOp.short n
  | .bri _ => true
  | .call _ n => BranchOp.short n
  | .ret _ => true
  | .exit => true
  | .elect _ => true
  | .yield => true
  | .trap _ => true
  | .brk _ => true
  | .settile b => XOp.short b
  | .mjoin a => decide (a.toNat ≤ 11)
  | .mleave a => decide (a.toNat ≤ 11)
  | .mwait a => decide (a.toNat ≤ 11)
  | .mrd _ b => decide (b.toNat ≤ 11)
  | .mwr a _ => decide (a.toNat ≤ 11)
  | .waitAny _ b c => XOp.short c && decide (b.toNat ≤ 60)
  | .waitAll _ b c => XOp.short c && decide (b.toNat ≤ 60)
  | .sleepAt b => decide (b.toNat % 2 = 0)
  | .sleepAtProm _ => true
  | .rdtime a => decide (a.toNat % 2 = 0)
  | .barTeam _ => true
  | .barCluster _ => true
  | .evsig _ => true
  | .launch _ b c => XOp.short c && decide (b.toNat % 2 = 0)
  | .symWait c => XOp.short c
  | .rdsrS _ _ => true
  | .rdsrV _ _ => true
  | .wrsr _ _ => true
  | .addV _ _ _ => true
  | .addX _ _ c => XOp.short c
  | .subV _ _ _ => true
  | .subX _ _ c => XOp.short c
  | .mulV _ _ _ => true
  | .mulX _ _ c => XOp.short c
  | .mulhiI32V _ _ _ => true
  | .mulhiI32X _ _ c => XOp.short c
  | .mulhiN32V _ _ _ => true
  | .mulhiN32X _ _ c => XOp.short c
  | .madV _ _ _ => true
  | .madX _ _ c => XOp.short c
  | .minI32V _ _ _ => true
  | .minI32X _ _ c => XOp.short c
  | .maxI32V _ _ _ => true
  | .maxI32X _ _ c => XOp.short c
  | .minN32V _ _ _ => true
  | .minN32X _ _ c => XOp.short c
  | .maxN32V _ _ _ => true
  | .maxN32X _ _ c => XOp.short c
  | .andV _ _ _ => true
  | .andX _ _ c => XOp.short c
  | .orV _ _ _ => true
  | .orX _ _ c => XOp.short c
  | .xorV _ _ _ => true
  | .xorX _ _ c => XOp.short c
  | .shlV _ _ _ => true
  | .shlX _ _ c => XOp.short c
  | .shrV _ _ _ => true
  | .shrX _ _ c => XOp.short c
  | .sraV _ _ _ => true
  | .sraX _ _ c => XOp.short c
  | .absI32 _ _ => true
  | .popcB32 _ _ => true
  | .clzB32 _ _ => true
  | .brevB32 _ _ => true
  | .bfeN32V _ _ _ => true
  | .bfeN32X _ _ c => XOp.short c
  | .bfeI32V _ _ _ => true
  | .bfeI32X _ _ c => XOp.short c
  | .bfiB32V _ _ _ => true
  | .bfiB32X _ _ c => XOp.short c
  | .movB32V _ _ => true
  | .movB32X _ c => XOp.short c
  | .addI64V a b _ => decide (a.toNat % 2 = 0) && decide (b.toNat % 2 = 0)
  | .addI64X a b c => XOp.short c && decide (a.toNat % 2 = 0) && decide (b.toNat % 2 = 0)
  | .subI64V a b _ => decide (a.toNat % 2 = 0) && decide (b.toNat % 2 = 0)
  | .subI64X a b c => XOp.short c && decide (a.toNat % 2 = 0) && decide (b.toNat % 2 = 0)
  | .shlB64V a b _ => decide (a.toNat % 2 = 0) && decide (b.toNat % 2 = 0)
  | .shlB64X a b c => XOp.short c && decide (a.toNat % 2 = 0) && decide (b.toNat % 2 = 0)
  | .shrN64V a b _ => decide (a.toNat % 2 = 0) && decide (b.toNat % 2 = 0)
  | .shrN64X a b c => XOp.short c && decide (a.toNat % 2 = 0) && decide (b.toNat % 2 = 0)
  | .sraI64V a b _ => decide (a.toNat % 2 = 0) && decide (b.toNat % 2 = 0)
  | .sraI64X a b c => XOp.short c && decide (a.toNat % 2 = 0) && decide (b.toNat % 2 = 0)
  | .mulWideI32V a _ _ => decide (a.toNat % 2 = 0)
  | .mulWideI32X a _ c => XOp.short c && decide (a.toNat % 2 = 0)
  | .mulWideN32V a _ _ => decide (a.toNat % 2 = 0)
  | .mulWideN32X a _ c => XOp.short c && decide (a.toNat % 2 = 0)
  | .cmpEqB32V a _ _ => decide (a.toNat ≤ 11)
  | .cmpEqB32X a _ c => decide (a.toNat ≤ 11) && XOp.short c
  | .cmpNeB32V a _ _ => decide (a.toNat ≤ 11)
  | .cmpNeB32X a _ c => decide (a.toNat ≤ 11) && XOp.short c
  | .cmpLtI32V a _ _ => decide (a.toNat ≤ 11)
  | .cmpLtI32X a _ c => decide (a.toNat ≤ 11) && XOp.short c
  | .cmpLeI32V a _ _ => decide (a.toNat ≤ 11)
  | .cmpLeI32X a _ c => decide (a.toNat ≤ 11) && XOp.short c
  | .cmpGtI32V a _ _ => decide (a.toNat ≤ 11)
  | .cmpGtI32X a _ c => decide (a.toNat ≤ 11) && XOp.short c
  | .cmpGeI32V a _ _ => decide (a.toNat ≤ 11)
  | .cmpGeI32X a _ c => decide (a.toNat ≤ 11) && XOp.short c
  | .cmpLtN32V a _ _ => decide (a.toNat ≤ 11)
  | .cmpLtN32X a _ c => decide (a.toNat ≤ 11) && XOp.short c
  | .cmpLeN32V a _ _ => decide (a.toNat ≤ 11)
  | .cmpLeN32X a _ c => decide (a.toNat ≤ 11) && XOp.short c
  | .cmpGtN32V a _ _ => decide (a.toNat ≤ 11)
  | .cmpGtN32X a _ c => decide (a.toNat ≤ 11) && XOp.short c
  | .cmpGeN32V a _ _ => decide (a.toNat ≤ 11)
  | .cmpGeN32X a _ c => decide (a.toNat ≤ 11) && XOp.short c
  | .fcmpEqF32V a _ _ => decide (a.toNat ≤ 11)
  | .fcmpEqF32X a _ c => decide (a.toNat ≤ 11) && XOp.short c
  | .fcmpLtF32V a _ _ => decide (a.toNat ≤ 11)
  | .fcmpLtF32X a _ c => decide (a.toNat ≤ 11) && XOp.short c
  | .fcmpLeF32V a _ _ => decide (a.toNat ≤ 11)
  | .fcmpLeF32X a _ c => decide (a.toNat ≤ 11) && XOp.short c
  | .fcmpNeF32V a _ _ => decide (a.toNat ≤ 11)
  | .fcmpNeF32X a _ c => decide (a.toNat ≤ 11) && XOp.short c
  | .fcmpUnF32V a _ _ => decide (a.toNat ≤ 11)
  | .fcmpUnF32X a _ c => decide (a.toNat ≤ 11) && XOp.short c
  | .faddF32V _ _ _ => true
  | .faddF32X _ _ c => XOp.short c
  | .fsubF32V _ _ _ => true
  | .fsubF32X _ _ c => XOp.short c
  | .fmulF32V _ _ _ => true
  | .fmulF32X _ _ c => XOp.short c
  | .ffmaF32V _ _ _ => true
  | .ffmaF32X _ _ c => XOp.short c
  | .fminF32V _ _ _ => true
  | .fminF32X _ _ c => XOp.short c
  | .fmaxF32V _ _ _ => true
  | .fmaxF32X _ _ c => XOp.short c
  | .fnegF32 _ _ => true
  | .fabsF32 _ _ => true
  | .fclassF32 _ _ => true
  | .frndF32 _ _ => true
  | .frcpF32 _ _ => true
  | .frsqF32 _ _ => true
  | .fsqrtF32 _ _ => true
  | .fex2F32 _ _ => true
  | .flg2F32 _ _ => true
  | .fsinF32 _ _ => true
  | .fcosF32 _ _ => true
  | .cvt dt _ st _ _ => decide (dt ≠ st)
  | .paddF16V _ _ _ => true
  | .paddF16X _ _ c => XOp.short c
  | .psubF16V _ _ _ => true
  | .psubF16X _ _ c => XOp.short c
  | .pmulF16V _ _ _ => true
  | .pmulF16X _ _ c => XOp.short c
  | .pfmaF16V _ _ _ => true
  | .pfmaF16X _ _ c => XOp.short c
  | .pminF16V _ _ _ => true
  | .pminF16X _ _ c => XOp.short c
  | .pmaxF16V _ _ _ => true
  | .pmaxF16X _ _ c => XOp.short c
  | .paddBf16V _ _ _ => true
  | .paddBf16X _ _ c => XOp.short c
  | .psubBf16V _ _ _ => true
  | .psubBf16X _ _ c => XOp.short c
  | .pmulBf16V _ _ _ => true
  | .pmulBf16X _ _ c => XOp.short c
  | .pfmaBf16V _ _ _ => true
  | .pfmaBf16X _ _ c => XOp.short c
  | .pminBf16V _ _ _ => true
  | .pminBf16X _ _ c => XOp.short c
  | .pmaxBf16V _ _ _ => true
  | .pmaxBf16X _ _ c => XOp.short c
  | .fdot4E4m3V _ _ _ => true
  | .fdot4E4m3X _ _ c => XOp.short c
  | .fdot4E5m2V _ _ _ => true
  | .fdot4E5m2X _ _ c => XOp.short c
  | .tbpackTb8 _ _ _ => true
  | .tbpackTb4 _ _ _ => true
  | .tbpackSatTb8 _ _ _ => true
  | .tbpackSatTb4 _ _ _ => true
  | .tbunpTb8 _ _ _ => true
  | .tbunpTb4 _ _ _ => true
  | .xlaneGetV _ _ _ => true
  | .xlaneGetX _ _ c => XOp.short c
  | .xlaneBackV _ _ _ => true
  | .xlaneBackX _ _ c => XOp.short c
  | .xlaneFwdV _ _ _ => true
  | .xlaneFwdX _ _ c => XOp.short c
  | .xlaneMixV _ _ _ => true
  | .xlaneMixX _ _ c => XOp.short c
  | .pollSome _ _ => true
  | .pollEvery _ _ => true
  | .pollBits _ _ => true
  | .foldAddI32 _ _ => true
  | .foldMinI32 _ _ => true
  | .foldMaxI32 _ _ => true
  | .foldAddF32 _ _ => true
  | .prefixAddI32 _ _ => true
  | .prefixAddF32 _ _ => true
  | .sameB32 _ _ => true
  | .sameF32 _ _ => true
  | .selV _ k _ _ => decide (k.toNat ≤ 11)
  | .selX _ k _ c => decide (k.toNat ≤ 11) && XOp.short c
  | .ldg t a bc => MemOp.wfGlobal bc && AccTy.dataOk t a.toNat
  | .ldgSym t a bc => MemOp.wfGlobal bc && AccTy.dataOk t a.toNat
  | .stg t a bc => MemOp.wfGlobal bc && AccTy.dataOk t a.toNat
  | .lds t a bc => MemOp.wfLocal bc && AccTy.plain t && AccTy.dataOk t a.toNat
  | .ldsSym t a bc => MemOp.wfLocal bc && AccTy.plain t && AccTy.dataOk t a.toNat
  | .sts t a bc => MemOp.wfLocal bc && AccTy.plain t && AccTy.dataOk t a.toNat
  | .ldt t a _ _ => AccTy.surface t && AccTy.dataOk t a.toNat
  | .ldtSym t a _ _ => AccTy.surface t && AccTy.dataOk t a.toNat
  | .stt t a _ _ => AccTy.surface t && AccTy.dataOk t a.toNat
  | .ropz _ _ => true
  | .ropc a _ _ => decide (a.toNat % 4 = 0)
  | .atg32 o a bc => MemOp.wfGlobal bc && AtomOp.ok32 o && AtomOp.dataOk32 o a.toNat
  | .atg64 o a bc => MemOp.wfGlobal bc && AtomOp.ok64 o && AtomOp.dataOk64 o a.toNat
  | .ats32 o a bc => MemOp.wfLocal bc && AtomOp.ok32 o && AtomOp.dataOk32 o a.toNat
  | .ats64 o a bc => MemOp.wfLocal bc && AtomOp.ok64 o && AtomOp.dataOk64 o a.toNat
  | .red32 o a bc => MemOp.wfGlobal bc && AtomOp.okRed32 o && AtomOp.dataOk32 o a.toNat
  | .red64 o a bc => MemOp.wfGlobal bc && AtomOp.okRed64 o && AtomOp.dataOk64 o a.toNat
  | .fenceGroup => true
  | .fenceTeam => true
  | .fenceFacet => true
  | .fenceCluster => true
  | .fencePackage => true
  | .fenceSystem => true
  | .ack => true
  | .tdisc _ => true
  | .prefetchL1 bc => MemOp.wfGlobal bc
  | .prefetchSlice bc => MemOp.wfGlobal bc
  | .surfDef _ _ _ => true
  | .surfDrop _ _ => true
  | .surfClr _ _ => true
  | .surfDecomp _ _ => true
  | .annBoard b => decide (b.toNat % 2 = 0) && decide (b.toNat ≤ 60)
  | .annAlight _ => true
  | .annLdB32 _ bc => MemOp.wfLocal bc
  | .annLdB64 a bc => MemOp.wfLocal bc && decide (a.toNat % 2 = 0)
  | .annLdSymI32 _ bc => MemOp.wfLocal bc
  | .annLdSymF32 _ bc => MemOp.wfLocal bc
  | .annWait _ _ _ _ _ => true
  | .annOp32 o a bc => MemOp.wfLocal bc && AtomOp.okRing o && AtomOp.dataOk32 o a.toNat
  | .annOp64 o a bc => MemOp.wfLocal bc && AtomOp.okRing o && AtomOp.dataOk64 o a.toNat
  | .putSigSet _ b => decide (b.toNat % 2 = 0) && decide (b.toNat ≤ 56)
  | .putSigAdd _ b => decide (b.toNat % 2 = 0) && decide (b.toNat ≤ 56)
  | .getpGroup _ b => decide (b.toNat % 2 = 0) && decide (b.toNat ≤ 56)
  | .getpTeam _ b => decide (b.toNat % 2 = 0) && decide (b.toNat ≤ 56)
  | .getpFacet _ b => decide (b.toNat % 2 = 0) && decide (b.toNat ≤ 56)
  | .getpCluster _ b => decide (b.toNat % 2 = 0) && decide (b.toNat ≤ 56)
  | .getpPackage _ b => decide (b.toNat % 2 = 0) && decide (b.toNat ≤ 56)
  | .getpSystem _ b => decide (b.toNat % 2 = 0) && decide (b.toNat ≤ 56)
  | .pushCopy vec b _ => pushBlockOk vec b.toNat
  | .pushTensor vec b _ => pushBlockOk vec b.toNat
  | .pushGather vec b _ => pushBlockOk vec b.toNat
  | .pushColl vec b _ => pushBlockOk vec b.toNat
  | .pushRast vec b _ => pushBlockOk vec b.toNat
  | .pushMsg vec b _ => pushBlockOk vec b.toNat
  | .pushb _ _ _ => true
  | .msgSend _ b c => decide (b.toNat % 2 = 0) && decide (b.toNat ≤ 62) && decide (c.toNat % 2 = 0) && decide (c.toNat ≤ 62)
  | .msgRecv _ b => decide (b.toNat ≤ 60)
  | .msgProbe a b => decide (a.toNat % 2 = 0) && decide (b.toNat % 2 = 0) && decide (b.toNat ≤ 62)
  | .mbLd _ => true
  | .mbZero b => decide (b.toNat % 2 = 0) && decide (b.toNat ≤ 62)
  | .mmx _ => true
  | .mmxLut _ => true
  | .mmxR b => decide (b.toNat ≤ 48)
  | .mmxLutR b => decide (b.toNat ≤ 48)
  | .hxor _ _ _ => true
  | .hrot _ _ c => XOp.short c
  | .hbun _ _ => true
  | .hclrH _ => true
  | .hclrC _ => true
  | .hmaj _ _ => true
  | .hpop _ _ => true
  | .hdist _ _ _ => true
  | .hldS _ _ => true
  | .hldG _ b => decide (b.toNat % 2 = 0)
  | .hstS _ _ => true
  | .hstG _ b => decide (b.toNat % 2 = 0)
  | .hfrom _ b => decide (b.toNat % 8 = 0)
  | .hto a _ => decide (a.toNat % 8 = 0)
  | .hmatch a _ c => decide (a.toNat % 2 = 0) && decide (c.toNat % 2 = 0)
  | .htie _ => true
  | .htieSeed _ => true
  | .grd a _ _ => decide (a.toNat % 2 = 0)
  | .gwr a _ _ => decide (a.toNat % 2 = 0)
  | .resume _ _ => true
  | .bankset _ _ _ => true
  | .tlbinv _ b _ => decide (b.toNat % 2 = 0)
  | .halt _ _ => true
  | .filterAdd _ _ _ => true
  | .filterSub _ _ _ => true
  | .filterAnd _ _ _ => true
  | .filterOr _ _ _ => true
  | .filterXor _ _ _ => true
  | .filterShl _ _ _ => true
  | .filterShr _ _ _ => true
  | .filterAddi _ _ _ => true
  | .filterAndi _ _ _ => true
  | .filterShli _ _ _ => true
  | .filterShri _ _ _ => true
  | .filterLdlo _ _ => true
  | .filterLdhi _ _ => true
  | .filterBeq _ _ _ => true
  | .filterBne _ _ _ => true
  | .filterBltu _ _ _ => true
  | .filterBgeu _ _ _ => true
  | .filterKeep => true
  | .filterDrop => true
  | .filterCount a s _ => decide (s = true ∨ a.toNat = 0)
  | .filterTrig _ => true
  | .filterRdcnt _ _ => true
  | .starvationFloor _ => true
  | .groupSwap _ => true
  | .forcedSwap _ _ => true
  | .waitRelease _ _ => true
  | .sleepRelease _ _ => true
  | .barrierArrival _ => true
  | .barrierRouterArrival _ => true
  | .symbolDelivery _ _ => true
  | .teamRetire _ => true
  | .qtailDoorbell _ _ _ => true
  | .ringEntryMove _ _ => true
  | .queueHead _ _ => true
  | .clusterPlacement _ _ _ _ _ => true
  | .bankRotation _ _ => true
  | .preemptRequest _ => true
  | .vacateComplete _ => true
  | .extensionMoveBack _ => true
  | .haltLineArrival _ _ => true
  | .skidStop _ _ => true
  | .stopAreaWrite _ => true
  | .handlerStart _ => true
  | .handlerCoreMove _ => true
  | .pageWalk _ _ _ => true
  | .l1CopyLapse _ _ => true
  | .stationEntry _ => true
  | .annulusCapture _ _ => true
  | .watchPassage _ _ => true
  | .hostAccess _ _ _ _ => true
  | .peerAccess _ _ _ _ => true
  | .vlReplyTimeout _ => true
  | .vlFlitReceive _ _ => true
  | .putSigDelivery _ _ => true
  | .putSigFlag _ => true
  | .getpTransfer _ _ => true
  | .requestEngineHandoff _ _ _ => true
  | .copyCommand _ _ => true
  | .tensorCommand _ _ => true
  | .gatherCommand _ _ => true
  | .collCommand _ _ => true
  | .engineCompletion _ => true
  | .pushbListRead _ => true
  | .msgArrival _ => true
  | .matrixQueueAccept _ => true
  | .mbLdCommand _ _ => true
  | .mbZeroCommand _ => true
  | .denseComputation _ _ => true
  | .tableLookup _ _ => true
  | .matrixCompletion _ => true
  | .rastAccept _ => true
  | .triangleSetup _ => true
  | .fragmentGroupLaunch _ _ _ _ => true
  | .bankUnitApply _ => true
  | .ratioChange => true
  | .ratioStallEnd => true
  | .busRetire => true
  | .retireCopyDone => true
  | .wearStateChange _ _ _ _ => true
  | .subnetWake _ _ => true
  | .subnetOn _ => true
  | .subnetOff _ => true
  | .ptmDialogue => true
  | .ptmResponse _ _ => true
  | .timeStep _ => true
  | .locusFilter _ => true
  | .filterLoad _ => true
  | .sampleTag _ _ => true
  | .samplingRecord _ _ _ _ => true
  | .stopcGo _ => true
  | .stepWithinHalt _ => true
  | .stepNotify _ => true
  | .stepCompletion _ => true
  | .annWindowEnable _ _ => true
  | .annWindowDisable _ _ => true
  | .partqWrite _ _ => true
  | .hcoreWrite _ _ => true
  | .contextCreate _ _ => true
  | .contextInvalidate _ _ => true
  | .pstateRun => true
  | .pstateIdle => true
  | .pstateSleep => true
  | .floorRaise => true
  | .floorFall => true
  | .alarm _ _ => true
  | .attestationReport => true
  | .reportPublish => true
  | .bringUp => true
  | .registerWrite _ _ => true
  | .accessPerformed _ _ => true
  | .spillWriteCompletion _ => true
  | .tlbEntryDrop _ => true
  | .vimenLinkPortTraining _ _ => true
  | .ucieLaneLoss _ => true
  | .thermalOrPowerCause _ _ => true
  | .rcRegisterRead _ => true

end Sys2Proof
end

