-- ==== Sys2Proof/Decode.lean ====
section
/-! DEFINITION. The decoder of GK instruction words (R151 to R173) and of Locus filter words (R414): total
on any bits, rejecting by name, and after it the encoder written from the same tables. A word whose only
defect is a nonzero unused field (row 7 of R173) is `reserved` and carries its instruction, so that the
earlier rows can be tested first at issue. These definitions are marked noncomputable only because Lean's runtime
cannot build a constructor numbered above 244; the kernel evaluates them. -/

namespace Sys2Proof

/-- What a word decodes to. -/
inductive Decoded where
  /-- An instruction of R151 to R172. -/
  | ok (i : Instr)
  /-- Row 7 of R173: a nonzero Z field or must-be-zero bit of the carried instruction (RESERVED_ENC). -/
  | reserved (i : Instr)
  /-- Rows 2, 3 and 5 of R173 (ILLEGAL_OP). -/
  | illegal
  deriving DecidableEq, Repr

/-- Bits [lo + n - 1 : lo] of a word (R4). -/
def bitsAt (w lo n : Nat) : Nat := w / 2 ^ lo % 2 ^ n

/-- Row 5 of R173: a well-formed term stands, another is ILLEGAL_OP; then row 7 on its unused fields. -/
def Decoded.checked (z : Nat) (i : Instr) : Decoded :=
  if i.wf then (if z = 0 then .ok i else .reserved i) else .illegal

/-- Kind S: 64 to 127 name no register (R161). -/
def withS (n : Nat) (k : SReg → Decoded) : Decoded := if n < 64 then k (BitVec.ofNat 6 n) else .illegal
/-- Kinds M and H: a field of 16 or more names no register (R161). -/
def withM (n : Nat) (k : MReg → Decoded) : Decoded := if n < 16 then k (BitVec.ofNat 4 n) else .illegal
/-- Kind K (R161). -/
def withK (n : Nat) (k : KReg → Decoded) : Decoded := if n < 2 then k (BitVec.ofNat 1 n) else .illegal
/-- Kind V. -/
def vOf (n : Nat) : VReg := BitVec.ofNat 7 n
/-- Kind X (R161): [6] = 0 an s register, [6] = 1 an imm6. -/
def xOf (n : Nat) : XOp := if n < 64 then .s (BitVec.ofNat 6 n) else .imm (BitVec.ofNat 6 (n % 64))
/-- The memory operand of R162 in fields B and C. -/
def memOf (b c : Nat) : MemOp :=
  if b < 64 then .off (BitVec.ofNat 6 b) (BitVec.ofNat 7 c)
  else if b % 64 = 0 then .pair (BitVec.ofNat 7 c)
  else .idx (BitVec.ofNat 6 (b % 64)) (BitVec.ofNat 7 c)

/-- Type codes of R170. -/
def accTyOf : Nat → Option AccTy
  | 0 => some .b8 | 1 => some .b16 | 2 => some .b32 | 3 => some .b64 | 4 => some .b128 | 5 => some .i8
  | 6 => some .i16 | 7 => some .i32 | 8 => some .n32 | 9 => some .f32 | 10 => some .rawB8 | 11 => some .rawB16
  | 12 => some .rawB32 | 13 => some .rawB64 | _ => none
/-- The code of a type (R170). -/
def AccTy.code : AccTy → Nat
  | .b8 => 0 | .b16 => 1 | .b32 => 2 | .b64 => 3 | .b128 => 4 | .i8 => 5 | .i16 => 6 | .i32 => 7 | .n32 => 8
  | .f32 => 9 | .rawB8 => 10 | .rawB16 => 11 | .rawB32 => 12 | .rawB64 => 13
/-- Operation codes of R171. -/
def atomOpOf : Nat → Option AtomOp
  | 0 => some .add | 1 => some .minS | 2 => some .maxS | 3 => some .minN | 4 => some .maxN | 5 => some .and
  | 6 => some .or | 7 => some .xor | 8 => some .swap | 9 => some .cas | 10 => some .addF | _ => none
/-- The code of an operation (R171). -/
def AtomOp.code : AtomOp → Nat
  | .add => 0 | .minS => 1 | .maxS => 2 | .minN => 3 | .maxN => 4 | .and => 5 | .or => 6 | .xor => 7
  | .swap => 8 | .cas => 9 | .addF => 10
/-- Conversion type codes of R171. -/
def numTyOf : Nat → Option NumTy
  | 0 => some .f32 | 1 => some .f16 | 2 => some .bf16 | 3 => some .e4m3 | 4 => some .e5m2 | 5 => some .i32
  | 6 => some .n32 | 7 => some .i8 | 8 => some .n8 | 9 => some .i16 | 10 => some .n16 | _ => none
/-- The code of a conversion type (R171). -/
def NumTy.code : NumTy → Nat
  | .f32 => 0 | .f16 => 1 | .bf16 => 2 | .e4m3 => 3 | .e5m2 => 4 | .i32 => 5 | .n32 => 6 | .i8 => 7 | .n8 => 8
  | .i16 => 9 | .n16 => 10
/-- Conditions of class 0x32 (R167). -/
def watchCondOf : Nat → WatchCond
  | 0 => .eq | 1 => .ne | 2 => .ge | _ => .lt
/-- The code of a condition (R167). -/
def WatchCond.code : WatchCond → Nat
  | .eq => 0 | .ne => 1 | .ge => 2 | .lt => 3

/-- A type code, or ILLEGAL_OP (R170). -/
def withTy (n : Nat) (k : AccTy → Decoded) : Decoded :=
  match accTyOf n with
  | some t => k t
  | none => .illegal
/-- An operation code, or ILLEGAL_OP (R171). -/
def withOp (n : Nat) (k : AtomOp → Decoded) : Decoded :=
  match atomOpOf n with
  | some t => k t
  | none => .illegal
/-- A conversion type code, or ILLEGAL_OP (R171). -/
def withNum (n : Nat) (k : NumTy → Decoded) : Decoded :=
  match numTyOf n with
  | some t => k t
  | none => .illegal

/-- Class 0x01 of R167. -/
noncomputable def decClass01 (m a b c : Nat) : Decoded :=
  match m with
  | 0 => withS a fun a' => withS b fun b' => .checked 0 (.scalarAdd a' b' (xOf c))
  | 1 => withS a fun a' => withS b fun b' => .checked 0 (.scalarSub a' b' (xOf c))
  | 2 => withS a fun a' => withS b fun b' => .checked 0 (.scalarMul a' b' (xOf c))
  | 3 => withS a fun a' => withS b fun b' => .checked 0 (.scalarMulhiI32 a' b' (xOf c))
  | 4 => withS a fun a' => withS b fun b' => .checked 0 (.scalarMulhiN32 a' b' (xOf c))
  | 5 => withS a fun a' => withS b fun b' => .checked 0 (.scalarAnd a' b' (xOf c))
  | 6 => withS a fun a' => withS b fun b' => .checked 0 (.scalarOr a' b' (xOf c))
  | 7 => withS a fun a' => withS b fun b' => .checked 0 (.scalarXor a' b' (xOf c))
  | 8 => withS a fun a' => withS b fun b' => .checked 0 (.scalarShl a' b' (xOf c))
  | 9 => withS a fun a' => withS b fun b' => .checked 0 (.scalarShr a' b' (xOf c))
  | 10 => withS a fun a' => withS b fun b' => .checked 0 (.scalarSra a' b' (xOf c))
  | 11 => withS a fun a' => withS b fun b' => .checked 0 (.scalarMinI32 a' b' (xOf c))
  | 12 => withS a fun a' => withS b fun b' => .checked 0 (.scalarMaxI32 a' b' (xOf c))
  | 13 => withS a fun a' => withS b fun b' => .checked 0 (.scalarMinN32 a' b' (xOf c))
  | 14 => withS a fun a' => withS b fun b' => .checked 0 (.scalarMaxN32 a' b' (xOf c))
  | _ => .illegal
/-- Class 0x02 of R167. -/
noncomputable def decClass02 (m a b c : Nat) : Decoded :=
  match m with
  | 0 => withS a fun a' => .checked b (.scalarMov a' (xOf c))
  | 1 => withS a fun a' => withS b fun b' => .checked 0 (.seteq a' b' (xOf c))
  | 2 => withS a fun a' => withS b fun b' => .checked 0 (.setne a' b' (xOf c))
  | 3 => withS a fun a' => withS b fun b' => .checked 0 (.setltI32 a' b' (xOf c))
  | 4 => withS a fun a' => withS b fun b' => .checked 0 (.setleI32 a' b' (xOf c))
  | 5 => withS a fun a' => withS b fun b' => .checked 0 (.setltN32 a' b' (xOf c))
  | 6 => withS a fun a' => withS b fun b' => .checked 0 (.setleN32 a' b' (xOf c))
  | 7 => withS a fun a' => withS b fun b' => .checked 0 (.scalarSel a' b' (xOf c))
  | _ => .illegal
/-- Class 0x03 of R167. -/
noncomputable def decClass03 (m a b c : Nat) : Decoded :=
  match m with
  | 0 => .checked a (.bra (.near (BitVec.ofNat 14 (c * 128 + b))))
  | 1 => .checked 0 (.brcNz (vOf a) (.near (BitVec.ofNat 14 (c * 128 + b))))
  | 2 => .checked 0 (.brcZ (vOf a) (.near (BitVec.ofNat 14 (c * 128 + b))))
  | 3 => .checked ((c * 128 + b)) (.bri (vOf a))
  | 4 => .checked 0 (.call (vOf a) (.near (BitVec.ofNat 14 (c * 128 + b))))
  | 5 => .checked ((c * 128 + b)) (.ret (vOf a))
  | 6 => .checked (a + (c * 128 + b)) (.exit)
  | 7 => withS a fun a' => .checked ((c * 128 + b)) (.elect a')
  | 8 => .checked (a + (c * 128 + b)) (.yield)
  | 9 => .checked a (.trap (BitVec.ofNat 14 (c * 128 + b)))
  | 10 => .checked a (.brk (BitVec.ofNat 14 (c * 128 + b)))
  | 11 => .checked (a + c) (.settile (xOf b))
  | _ => .illegal
/-- Class 0x04 of R167. -/
noncomputable def decClass04 (m a b c : Nat) : Decoded :=
  match m with
  | 0 => withM a fun a' => .checked (b + c) (.mjoin a')
  | 1 => withM a fun a' => .checked (b + c) (.mleave a')
  | 2 => withM a fun a' => .checked (b + c) (.mwait a')
  | 3 => withS a fun a' => withM b fun b' => .checked c (.mrd a' b')
  | 4 => withM a fun a' => withS b fun b' => .checked c (.mwr a' b')
  | _ => .illegal
/-- Class 0x05 of R167. -/
noncomputable def decClass05 (m a b c : Nat) : Decoded :=
  match m with
  | 0 => withS a fun a' => withS b fun b' => .checked 0 (.waitAny a' b' (xOf c))
  | 1 => withS a fun a' => withS b fun b' => .checked 0 (.waitAll a' b' (xOf c))
  | 2 => withS b fun b' => .checked (a + c) (.sleepAt b')
  | 3 => withS b fun b' => .checked (a + c) (.sleepAtProm b')
  | 4 => withS a fun a' => .checked (b + c) (.rdtime a')
  | 5 => if b < 16 then (if c = 1 then .checked a (.barTeam (BitVec.ofNat 4 b)) else if c = 3 then .checked a (.barCluster (BitVec.ofNat 4 b)) else .illegal) else .illegal
  | 6 => withS b fun b' => .checked (a + c) (.evsig b')
  | 7 => withS a fun a' => withS b fun b' => .checked 0 (.launch a' b' (xOf c))
  | 8 => .checked (a + b) (.symWait (xOf c))
  | 9 => withS a fun a' => .checked 0 (.rdsrS a' (BitVec.ofNat 14 (c * 128 + b)))
  | 10 => .checked 0 (.rdsrV (vOf a) (BitVec.ofNat 14 (c * 128 + b)))
  | 11 => withS a fun a' => .checked 0 (.wrsr a' (BitVec.ofNat 14 (c * 128 + b)))
  | _ => .illegal
/-- Class 0x08 of R167. -/
noncomputable def decClass08 (m a b c : Nat) : Decoded :=
  match m with
  | 0 => .checked 0 (.addV (vOf a) (vOf b) (vOf c))
  | 1 => .checked 0 (.subV (vOf a) (vOf b) (vOf c))
  | 2 => .checked 0 (.mulV (vOf a) (vOf b) (vOf c))
  | 3 => .checked 0 (.mulhiI32V (vOf a) (vOf b) (vOf c))
  | 4 => .checked 0 (.mulhiN32V (vOf a) (vOf b) (vOf c))
  | 5 => .checked 0 (.madV (vOf a) (vOf b) (vOf c))
  | 6 => .checked 0 (.minI32V (vOf a) (vOf b) (vOf c))
  | 7 => .checked 0 (.maxI32V (vOf a) (vOf b) (vOf c))
  | 8 => .checked 0 (.minN32V (vOf a) (vOf b) (vOf c))
  | 9 => .checked 0 (.maxN32V (vOf a) (vOf b) (vOf c))
  | 10 => .checked 0 (.andV (vOf a) (vOf b) (vOf c))
  | 11 => .checked 0 (.orV (vOf a) (vOf b) (vOf c))
  | 12 => .checked 0 (.xorV (vOf a) (vOf b) (vOf c))
  | 13 => .checked 0 (.shlV (vOf a) (vOf b) (vOf c))
  | 14 => .checked 0 (.shrV (vOf a) (vOf b) (vOf c))
  | _ => .checked 0 (.sraV (vOf a) (vOf b) (vOf c))
/-- Class 0x09 of R167. -/
noncomputable def decClass09 (m a b c : Nat) : Decoded :=
  match m with
  | 0 => .checked 0 (.addX (vOf a) (vOf b) (xOf c))
  | 1 => .checked 0 (.subX (vOf a) (vOf b) (xOf c))
  | 2 => .checked 0 (.mulX (vOf a) (vOf b) (xOf c))
  | 3 => .checked 0 (.mulhiI32X (vOf a) (vOf b) (xOf c))
  | 4 => .checked 0 (.mulhiN32X (vOf a) (vOf b) (xOf c))
  | 5 => .checked 0 (.madX (vOf a) (vOf b) (xOf c))
  | 6 => .checked 0 (.minI32X (vOf a) (vOf b) (xOf c))
  | 7 => .checked 0 (.maxI32X (vOf a) (vOf b) (xOf c))
  | 8 => .checked 0 (.minN32X (vOf a) (vOf b) (xOf c))
  | 9 => .checked 0 (.maxN32X (vOf a) (vOf b) (xOf c))
  | 10 => .checked 0 (.andX (vOf a) (vOf b) (xOf c))
  | 11 => .checked 0 (.orX (vOf a) (vOf b) (xOf c))
  | 12 => .checked 0 (.xorX (vOf a) (vOf b) (xOf c))
  | 13 => .checked 0 (.shlX (vOf a) (vOf b) (xOf c))
  | 14 => .checked 0 (.shrX (vOf a) (vOf b) (xOf c))
  | _ => .checked 0 (.sraX (vOf a) (vOf b) (xOf c))
/-- Class 0x0A of R167. -/
noncomputable def decClass0A (m a b c : Nat) : Decoded :=
  match m with
  | 0 => .checked c (.absI32 (vOf a) (vOf b))
  | 1 => .checked c (.popcB32 (vOf a) (vOf b))
  | 2 => .checked c (.clzB32 (vOf a) (vOf b))
  | 3 => .checked c (.brevB32 (vOf a) (vOf b))
  | 4 => .checked 0 (.bfeN32V (vOf a) (vOf b) (vOf c))
  | 5 => .checked 0 (.bfeI32V (vOf a) (vOf b) (vOf c))
  | 6 => .checked 0 (.bfiB32V (vOf a) (vOf b) (vOf c))
  | 7 => .checked b (.movB32V (vOf a) (vOf c))
  | 8 => .checked 0 (.addI64V (vOf a) (vOf b) (vOf c))
  | 9 => .checked 0 (.subI64V (vOf a) (vOf b) (vOf c))
  | 10 => .checked 0 (.shlB64V (vOf a) (vOf b) (vOf c))
  | 11 => .checked 0 (.shrN64V (vOf a) (vOf b) (vOf c))
  | 12 => .checked 0 (.sraI64V (vOf a) (vOf b) (vOf c))
  | 13 => .checked 0 (.mulWideI32V (vOf a) (vOf b) (vOf c))
  | 14 => .checked 0 (.mulWideN32V (vOf a) (vOf b) (vOf c))
  | _ => .illegal
/-- Class 0x0B of R167. -/
noncomputable def decClass0B (m a b c : Nat) : Decoded :=
  match m with
  | 4 => .checked 0 (.bfeN32X (vOf a) (vOf b) (xOf c))
  | 5 => .checked 0 (.bfeI32X (vOf a) (vOf b) (xOf c))
  | 6 => .checked 0 (.bfiB32X (vOf a) (vOf b) (xOf c))
  | 7 => .checked b (.movB32X (vOf a) (xOf c))
  | 8 => .checked 0 (.addI64X (vOf a) (vOf b) (xOf c))
  | 9 => .checked 0 (.subI64X (vOf a) (vOf b) (xOf c))
  | 10 => .checked 0 (.shlB64X (vOf a) (vOf b) (xOf c))
  | 11 => .checked 0 (.shrN64X (vOf a) (vOf b) (xOf c))
  | 12 => .checked 0 (.sraI64X (vOf a) (vOf b) (xOf c))
  | 13 => .checked 0 (.mulWideI32X (vOf a) (vOf b) (xOf c))
  | 14 => .checked 0 (.mulWideN32X (vOf a) (vOf b) (xOf c))
  | _ => .illegal
/-- Class 0x0C of R167. -/
noncomputable def decClass0C (m a b c : Nat) : Decoded :=
  match m with
  | 0 => withM a fun a' => .checked 0 (.cmpEqB32V a' (vOf b) (vOf c))
  | 1 => withM a fun a' => .checked 0 (.cmpNeB32V a' (vOf b) (vOf c))
  | 2 => withM a fun a' => .checked 0 (.cmpLtI32V a' (vOf b) (vOf c))
  | 3 => withM a fun a' => .checked 0 (.cmpLeI32V a' (vOf b) (vOf c))
  | 4 => withM a fun a' => .checked 0 (.cmpGtI32V a' (vOf b) (vOf c))
  | 5 => withM a fun a' => .checked 0 (.cmpGeI32V a' (vOf b) (vOf c))
  | 6 => withM a fun a' => .checked 0 (.cmpLtN32V a' (vOf b) (vOf c))
  | 7 => withM a fun a' => .checked 0 (.cmpLeN32V a' (vOf b) (vOf c))
  | 8 => withM a fun a' => .checked 0 (.cmpGtN32V a' (vOf b) (vOf c))
  | 9 => withM a fun a' => .checked 0 (.cmpGeN32V a' (vOf b) (vOf c))
  | 10 => withM a fun a' => .checked 0 (.fcmpEqF32V a' (vOf b) (vOf c))
  | 11 => withM a fun a' => .checked 0 (.fcmpLtF32V a' (vOf b) (vOf c))
  | 12 => withM a fun a' => .checked 0 (.fcmpLeF32V a' (vOf b) (vOf c))
  | 13 => withM a fun a' => .checked 0 (.fcmpNeF32V a' (vOf b) (vOf c))
  | 14 => withM a fun a' => .checked 0 (.fcmpUnF32V a' (vOf b) (vOf c))
  | _ => .illegal
/-- Class 0x0D of R167. -/
noncomputable def decClass0D (m a b c : Nat) : Decoded :=
  match m with
  | 0 => withM a fun a' => .checked 0 (.cmpEqB32X a' (vOf b) (xOf c))
  | 1 => withM a fun a' => .checked 0 (.cmpNeB32X a' (vOf b) (xOf c))
  | 2 => withM a fun a' => .checked 0 (.cmpLtI32X a' (vOf b) (xOf c))
  | 3 => withM a fun a' => .checked 0 (.cmpLeI32X a' (vOf b) (xOf c))
  | 4 => withM a fun a' => .checked 0 (.cmpGtI32X a' (vOf b) (xOf c))
  | 5 => withM a fun a' => .checked 0 (.cmpGeI32X a' (vOf b) (xOf c))
  | 6 => withM a fun a' => .checked 0 (.cmpLtN32X a' (vOf b) (xOf c))
  | 7 => withM a fun a' => .checked 0 (.cmpLeN32X a' (vOf b) (xOf c))
  | 8 => withM a fun a' => .checked 0 (.cmpGtN32X a' (vOf b) (xOf c))
  | 9 => withM a fun a' => .checked 0 (.cmpGeN32X a' (vOf b) (xOf c))
  | 10 => withM a fun a' => .checked 0 (.fcmpEqF32X a' (vOf b) (xOf c))
  | 11 => withM a fun a' => .checked 0 (.fcmpLtF32X a' (vOf b) (xOf c))
  | 12 => withM a fun a' => .checked 0 (.fcmpLeF32X a' (vOf b) (xOf c))
  | 13 => withM a fun a' => .checked 0 (.fcmpNeF32X a' (vOf b) (xOf c))
  | 14 => withM a fun a' => .checked 0 (.fcmpUnF32X a' (vOf b) (xOf c))
  | _ => .illegal
/-- Class 0x0E of R167. -/
noncomputable def decClass0E (m a b c : Nat) : Decoded :=
  match m with
  | 0 => .checked 0 (.faddF32V (vOf a) (vOf b) (vOf c))
  | 1 => .checked 0 (.fsubF32V (vOf a) (vOf b) (vOf c))
  | 2 => .checked 0 (.fmulF32V (vOf a) (vOf b) (vOf c))
  | 3 => .checked 0 (.ffmaF32V (vOf a) (vOf b) (vOf c))
  | 4 => .checked 0 (.fminF32V (vOf a) (vOf b) (vOf c))
  | 5 => .checked 0 (.fmaxF32V (vOf a) (vOf b) (vOf c))
  | _ => .illegal
/-- Class 0x0F of R167. -/
noncomputable def decClass0F (m a b c : Nat) : Decoded :=
  match m with
  | 0 => .checked 0 (.faddF32X (vOf a) (vOf b) (xOf c))
  | 1 => .checked 0 (.fsubF32X (vOf a) (vOf b) (xOf c))
  | 2 => .checked 0 (.fmulF32X (vOf a) (vOf b) (xOf c))
  | 3 => .checked 0 (.ffmaF32X (vOf a) (vOf b) (xOf c))
  | 4 => .checked 0 (.fminF32X (vOf a) (vOf b) (xOf c))
  | 5 => .checked 0 (.fmaxF32X (vOf a) (vOf b) (xOf c))
  | _ => .illegal
/-- Class 0x10 of R167. -/
noncomputable def decClass10 (m a b c : Nat) : Decoded :=
  match m with
  | 0 => .checked c (.fnegF32 (vOf a) (vOf b))
  | 1 => .checked c (.fabsF32 (vOf a) (vOf b))
  | 2 => .checked c (.fclassF32 (vOf a) (vOf b))
  | 3 => .checked c (.frndF32 (vOf a) (vOf b))
  | 4 => .checked c (.frcpF32 (vOf a) (vOf b))
  | 5 => .checked c (.frsqF32 (vOf a) (vOf b))
  | 6 => .checked c (.fsqrtF32 (vOf a) (vOf b))
  | 7 => .checked c (.fex2F32 (vOf a) (vOf b))
  | 8 => .checked c (.flg2F32 (vOf a) (vOf b))
  | 9 => .checked c (.fsinF32 (vOf a) (vOf b))
  | 10 => .checked c (.fcosF32 (vOf a) (vOf b))
  | _ => .illegal
/-- Class 0x11 of R167. -/
noncomputable def decClass11 (m a b c : Nat) : Decoded :=
  withNum m fun t => withNum (c % 16) fun u => .checked (c / 32) (.cvt t (c / 16 % 2 == 1) u (vOf b) (vOf a))
/-- Class 0x12 of R167. -/
noncomputable def decClass12 (m a b c : Nat) : Decoded :=
  match m with
  | 0 => .checked 0 (.paddF16V (vOf a) (vOf b) (vOf c))
  | 1 => .checked 0 (.psubF16V (vOf a) (vOf b) (vOf c))
  | 2 => .checked 0 (.pmulF16V (vOf a) (vOf b) (vOf c))
  | 3 => .checked 0 (.pfmaF16V (vOf a) (vOf b) (vOf c))
  | 4 => .checked 0 (.pminF16V (vOf a) (vOf b) (vOf c))
  | 5 => .checked 0 (.pmaxF16V (vOf a) (vOf b) (vOf c))
  | 6 => .checked 0 (.paddBf16V (vOf a) (vOf b) (vOf c))
  | 7 => .checked 0 (.psubBf16V (vOf a) (vOf b) (vOf c))
  | 8 => .checked 0 (.pmulBf16V (vOf a) (vOf b) (vOf c))
  | 9 => .checked 0 (.pfmaBf16V (vOf a) (vOf b) (vOf c))
  | 10 => .checked 0 (.pminBf16V (vOf a) (vOf b) (vOf c))
  | 11 => .checked 0 (.pmaxBf16V (vOf a) (vOf b) (vOf c))
  | 12 => .checked 0 (.fdot4E4m3V (vOf a) (vOf b) (vOf c))
  | 13 => .checked 0 (.fdot4E5m2V (vOf a) (vOf b) (vOf c))
  | _ => .illegal
/-- Class 0x13 of R167. -/
noncomputable def decClass13 (m a b c : Nat) : Decoded :=
  match m with
  | 0 => .checked 0 (.paddF16X (vOf a) (vOf b) (xOf c))
  | 1 => .checked 0 (.psubF16X (vOf a) (vOf b) (xOf c))
  | 2 => .checked 0 (.pmulF16X (vOf a) (vOf b) (xOf c))
  | 3 => .checked 0 (.pfmaF16X (vOf a) (vOf b) (xOf c))
  | 4 => .checked 0 (.pminF16X (vOf a) (vOf b) (xOf c))
  | 5 => .checked 0 (.pmaxF16X (vOf a) (vOf b) (xOf c))
  | 6 => .checked 0 (.paddBf16X (vOf a) (vOf b) (xOf c))
  | 7 => .checked 0 (.psubBf16X (vOf a) (vOf b) (xOf c))
  | 8 => .checked 0 (.pmulBf16X (vOf a) (vOf b) (xOf c))
  | 9 => .checked 0 (.pfmaBf16X (vOf a) (vOf b) (xOf c))
  | 10 => .checked 0 (.pminBf16X (vOf a) (vOf b) (xOf c))
  | 11 => .checked 0 (.pmaxBf16X (vOf a) (vOf b) (xOf c))
  | 12 => .checked 0 (.fdot4E4m3X (vOf a) (vOf b) (xOf c))
  | 13 => .checked 0 (.fdot4E5m2X (vOf a) (vOf b) (xOf c))
  | _ => .illegal
/-- Class 0x14 of R167. -/
noncomputable def decClass14 (m a b c : Nat) : Decoded :=
  match m with
  | 0 => withS c fun c' => .checked 0 (.tbpackTb8 (vOf a) (vOf b) c')
  | 1 => withS c fun c' => .checked 0 (.tbpackTb4 (vOf a) (vOf b) c')
  | 2 => withS c fun c' => .checked 0 (.tbpackSatTb8 (vOf a) (vOf b) c')
  | 3 => withS c fun c' => .checked 0 (.tbpackSatTb4 (vOf a) (vOf b) c')
  | 4 => withS c fun c' => .checked 0 (.tbunpTb8 (vOf a) (vOf b) c')
  | 5 => withS c fun c' => .checked 0 (.tbunpTb4 (vOf a) (vOf b) c')
  | _ => .illegal
/-- Class 0x16 of R167. -/
noncomputable def decClass16 (m a b c : Nat) : Decoded :=
  match m with
  | 0 => .checked 0 (.xlaneGetV (vOf a) (vOf b) (vOf c))
  | 1 => .checked 0 (.xlaneBackV (vOf a) (vOf b) (vOf c))
  | 2 => .checked 0 (.xlaneFwdV (vOf a) (vOf b) (vOf c))
  | 3 => .checked 0 (.xlaneMixV (vOf a) (vOf b) (vOf c))
  | 4 => .checked c (.pollSome (vOf a) (vOf b))
  | 5 => .checked c (.pollEvery (vOf a) (vOf b))
  | 6 => .checked c (.pollBits (vOf a) (vOf b))
  | 7 => .checked c (.foldAddI32 (vOf a) (vOf b))
  | 8 => .checked c (.foldMinI32 (vOf a) (vOf b))
  | 9 => .checked c (.foldMaxI32 (vOf a) (vOf b))
  | 10 => .checked c (.foldAddF32 (vOf a) (vOf b))
  | 11 => .checked c (.prefixAddI32 (vOf a) (vOf b))
  | 12 => .checked c (.prefixAddF32 (vOf a) (vOf b))
  | 13 => .checked c (.sameB32 (vOf a) (vOf b))
  | 14 => .checked c (.sameF32 (vOf a) (vOf b))
  | _ => .illegal
/-- Class 0x17 of R167. -/
noncomputable def decClass17 (m a b c : Nat) : Decoded :=
  match m with
  | 0 => .checked 0 (.xlaneGetX (vOf a) (vOf b) (xOf c))
  | 1 => .checked 0 (.xlaneBackX (vOf a) (vOf b) (xOf c))
  | 2 => .checked 0 (.xlaneFwdX (vOf a) (vOf b) (xOf c))
  | 3 => .checked 0 (.xlaneMixX (vOf a) (vOf b) (xOf c))
  | _ => .illegal
/-- Class 0x18 of R167. -/
noncomputable def decClass18 (m a b c : Nat) : Decoded :=
  withM m fun k => .checked 0 (.selV (vOf a) k (vOf b) (vOf c))
/-- Class 0x19 of R167. -/
noncomputable def decClass19 (m a b c : Nat) : Decoded :=
  withM m fun k => .checked 0 (.selX (vOf a) k (vOf b) (xOf c))
/-- Class 0x20 of R167. -/
noncomputable def decClass20 (m a b c : Nat) : Decoded :=
  withTy m fun t => .checked 0 (.ldg t (vOf a) (memOf b c))
/-- Class 0x21 of R167. -/
noncomputable def decClass21 (m a b c : Nat) : Decoded :=
  withTy m fun t => .checked 0 (.ldgSym t (vOf a) (memOf b c))
/-- Class 0x22 of R167. -/
noncomputable def decClass22 (m a b c : Nat) : Decoded :=
  withTy m fun t => .checked 0 (.stg t (vOf a) (memOf b c))
/-- Class 0x23 of R167. -/
noncomputable def decClass23 (m a b c : Nat) : Decoded :=
  withTy m fun t => .checked 0 (.lds t (vOf a) (memOf b c))
/-- Class 0x24 of R167. -/
noncomputable def decClass24 (m a b c : Nat) : Decoded :=
  withTy m fun t => .checked 0 (.ldsSym t (vOf a) (memOf b c))
/-- Class 0x25 of R167. -/
noncomputable def decClass25 (m a b c : Nat) : Decoded :=
  withTy m fun t => .checked 0 (.sts t (vOf a) (memOf b c))
/-- Class 0x26 of R167. -/
noncomputable def decClass26 (m a b c : Nat) : Decoded :=
  withTy m fun t => .checked (b / 64) (.ldt t (vOf a) (BitVec.ofNat 6 (b % 64)) (vOf c))
/-- Class 0x27 of R167. -/
noncomputable def decClass27 (m a b c : Nat) : Decoded :=
  withTy m fun t => .checked (b / 64) (.ldtSym t (vOf a) (BitVec.ofNat 6 (b % 64)) (vOf c))
/-- Class 0x28 of R167. -/
noncomputable def decClass28 (m a b c : Nat) : Decoded :=
  withTy m fun t => .checked (b / 64) (.stt t (vOf a) (BitVec.ofNat 6 (b % 64)) (vOf c))
/-- Class 0x29 of R167. -/
noncomputable def decClass29 (m a b c : Nat) : Decoded :=
  match m with
  | 0 => .checked b (.ropz (vOf a) (vOf c))
  | 1 => .checked (b / 64) (.ropc (vOf a) (BitVec.ofNat 6 (b % 64)) (vOf c))
  | _ => .illegal
/-- Class 0x2A of R167. -/
noncomputable def decClass2A (m a b c : Nat) : Decoded :=
  withOp m fun o => .checked 0 (.atg32 o (vOf a) (memOf b c))
/-- Class 0x2B of R167. -/
noncomputable def decClass2B (m a b c : Nat) : Decoded :=
  withOp m fun o => .checked 0 (.atg64 o (vOf a) (memOf b c))
/-- Class 0x2C of R167. -/
noncomputable def decClass2C (m a b c : Nat) : Decoded :=
  withOp m fun o => .checked 0 (.ats32 o (vOf a) (memOf b c))
/-- Class 0x2D of R167. -/
noncomputable def decClass2D (m a b c : Nat) : Decoded :=
  withOp m fun o => .checked 0 (.ats64 o (vOf a) (memOf b c))
/-- Class 0x2E of R167. -/
noncomputable def decClass2E (m a b c : Nat) : Decoded :=
  withOp m fun o => .checked 0 (.red32 o (vOf a) (memOf b c))
/-- Class 0x2F of R167. -/
noncomputable def decClass2F (m a b c : Nat) : Decoded :=
  withOp m fun o => .checked 0 (.red64 o (vOf a) (memOf b c))
/-- Class 0x30 of R167. -/
noncomputable def decClass30 (m a b c : Nat) : Decoded :=
  match m with
  | 0 => .checked (a + b + c) (.fenceGroup)
  | 1 => .checked (a + b + c) (.fenceTeam)
  | 2 => .checked (a + b + c) (.fenceFacet)
  | 3 => .checked (a + b + c) (.fenceCluster)
  | 4 => .checked (a + b + c) (.fencePackage)
  | 5 => .checked (a + b + c) (.fenceSystem)
  | 6 => .checked (a + b + c) (.ack)
  | 7 => withS b fun b' => .checked (a + c) (.tdisc b')
  | 8 => .checked a (.prefetchL1 (memOf b c))
  | 9 => .checked a (.prefetchSlice (memOf b c))
  | 10 => withS a fun a' => withS b fun b' => withS c fun c' => .checked 0 (.surfDef a' b' c')
  | 11 => withS a fun a' => withS c fun c' => .checked b (.surfDrop a' c')
  | 12 => withS a fun a' => withS c fun c' => .checked b (.surfClr a' c')
  | 13 => withS a fun a' => withS c fun c' => .checked b (.surfDecomp a' c')
  | _ => .illegal
/-- Class 0x31 of R167. -/
noncomputable def decClass31 (m a b c : Nat) : Decoded :=
  match m with
  | 0 => withS b fun b' => .checked (a + c) (.annBoard b')
  | 1 => withS (b % 64) fun b' => .checked (a + c + (b / 64)) (.annAlight b')
  | 2 => .checked 0 (.annLdB32 (vOf a) (memOf b c))
  | 3 => .checked 0 (.annLdB64 (vOf a) (memOf b c))
  | 4 => .checked 0 (.annLdSymI32 (vOf a) (memOf b c))
  | 5 => .checked 0 (.annLdSymF32 (vOf a) (memOf b c))
  | _ => .illegal
/-- Class 0x32 of R167. -/
noncomputable def decClass32 (m a b c : Nat) : Decoded :=
  withS a fun a' => withS b fun b' => withS c fun c' => .checked 0 (.annWait (watchCondOf (m / 4)) (BitVec.ofNat 2 (m % 4)) a' b' c')
/-- Class 0x33 of R167. -/
noncomputable def decClass33 (m a b c : Nat) : Decoded :=
  withOp m fun o => .checked 0 (.annOp32 o (vOf a) (memOf b c))
/-- Class 0x34 of R167. -/
noncomputable def decClass34 (m a b c : Nat) : Decoded :=
  withOp m fun o => .checked 0 (.annOp64 o (vOf a) (memOf b c))
/-- Class 0x35 of R167. -/
noncomputable def decClass35 (m a b c : Nat) : Decoded :=
  match m with
  | 0 => withS a fun a' => withS b fun b' => .checked c (.putSigSet a' b')
  | 1 => withS a fun a' => withS b fun b' => .checked c (.putSigAdd a' b')
  | 2 => withS a fun a' => withS b fun b' => .checked c (.getpGroup a' b')
  | 3 => withS a fun a' => withS b fun b' => .checked c (.getpTeam a' b')
  | 4 => withS a fun a' => withS b fun b' => .checked c (.getpFacet a' b')
  | 5 => withS a fun a' => withS b fun b' => .checked c (.getpCluster a' b')
  | 6 => withS a fun a' => withS b fun b' => .checked c (.getpPackage a' b')
  | 7 => withS a fun a' => withS b fun b' => .checked c (.getpSystem a' b')
  | _ => .illegal
/-- Class 0x36 of R167. -/
noncomputable def decClass36 (m a b c : Nat) : Decoded :=
  match m with
  | 0 => if c % 2 = 1 ∨ b < 64 then withS a fun a' => .checked (c / 2) (.pushCopy (c % 2 == 1) (BitVec.ofNat 7 b) a') else .illegal
  | 1 => if c % 2 = 1 ∨ b < 64 then withS a fun a' => .checked (c / 2) (.pushTensor (c % 2 == 1) (BitVec.ofNat 7 b) a') else .illegal
  | 2 => if c % 2 = 1 ∨ b < 64 then withS a fun a' => .checked (c / 2) (.pushGather (c % 2 == 1) (BitVec.ofNat 7 b) a') else .illegal
  | 3 => if c % 2 = 1 ∨ b < 64 then withS a fun a' => .checked (c / 2) (.pushColl (c % 2 == 1) (BitVec.ofNat 7 b) a') else .illegal
  | 4 => if c % 2 = 1 ∨ b < 64 then withS a fun a' => .checked (c / 2) (.pushRast (c % 2 == 1) (BitVec.ofNat 7 b) a') else .illegal
  | 5 => if c % 2 = 1 ∨ b < 64 then withS a fun a' => .checked (c / 2) (.pushMsg (c % 2 == 1) (BitVec.ofNat 7 b) a') else .illegal
  | 6 => withS a fun a' => withS b fun b' => withS c fun c' => .checked 0 (.pushb a' b' c')
  | 7 => withS a fun a' => withS b fun b' => withS c fun c' => .checked 0 (.msgSend a' b' c')
  | 8 => withS a fun a' => withS b fun b' => .checked c (.msgRecv a' b')
  | 9 => withS a fun a' => withS b fun b' => .checked c (.msgProbe a' b')
  | _ => .illegal
/-- Class 0x37 of R167. -/
noncomputable def decClass37 (m a b c : Nat) : Decoded :=
  match m with
  | 0 => withS b fun b' => .checked (a + c) (.mbLd b')
  | 1 => withS b fun b' => .checked (a + c) (.mbZero b')
  | 2 => withS b fun b' => .checked (a + c) (.mmx b')
  | 3 => withS b fun b' => .checked (a + c) (.mmxLut b')
  | 4 => withS b fun b' => .checked (a + c) (.mmxR b')
  | 5 => withS b fun b' => .checked (a + c) (.mmxLutR b')
  | _ => .illegal
/-- Class 0x38 of R167. -/
noncomputable def decClass38 (m a b c : Nat) : Decoded :=
  match m with
  | 0 => withM a fun a' => withM b fun b' => withM c fun c' => .checked 0 (.hxor a' b' c')
  | 1 => withM a fun a' => withM b fun b' => .checked 0 (.hrot a' b' (xOf c))
  | 2 => withK a fun a' => withM b fun b' => .checked c (.hbun a' b')
  | 3 => if b % 2 = 0 then withM a fun a' => .checked (b / 2 + c) (.hclrH a') else withK a fun a' => .checked (b / 2 + c) (.hclrC a')
  | 4 => withM a fun a' => withK b fun b' => .checked c (.hmaj a' b')
  | 5 => withS a fun a' => withM b fun b' => .checked c (.hpop a' b')
  | 6 => withS a fun a' => withM b fun b' => withM c fun c' => .checked 0 (.hdist a' b' c')
  | 7 => withM a fun a' => withS b fun b' => if c % 2 = 0 then .checked (c / 2) (.hldS a' b') else .checked (c / 2) (.hldG a' b')
  | 8 => withM a fun a' => withS b fun b' => if c % 2 = 0 then .checked (c / 2) (.hstS a' b') else .checked (c / 2) (.hstG a' b')
  | 9 => withM a fun a' => .checked c (.hfrom a' (vOf b))
  | 10 => withM b fun b' => .checked c (.hto (vOf a) b')
  | 11 => withS a fun a' => withM b fun b' => withS c fun c' => .checked 0 (.hmatch a' b' c')
  | 12 => if c % 2 = 0 then withM a fun a' => .checked (b + c / 2) (.htie a') else withS b fun b' => .checked (a + c / 2) (.htieSeed b')
  | _ => .illegal
/-- Class 0x3C of R167. -/
noncomputable def decClass3C (m a b c : Nat) : Decoded :=
  match m with
  | 0 => withS a fun a' => withS b fun b' => withS c fun c' => .checked 0 (.grd a' b' c')
  | 1 => withS a fun a' => withS b fun b' => withS c fun c' => .checked 0 (.gwr a' b' c')
  | 2 => withS a fun a' => withS b fun b' => .checked c (.resume a' b')
  | 3 => withS a fun a' => withS b fun b' => withS c fun c' => .checked 0 (.bankset a' b' c')
  | 4 => withS a fun a' => withS b fun b' => withS c fun c' => .checked 0 (.tlbinv a' b' c')
  | 5 => withS a fun a' => withS b fun b' => .checked c (.halt a' b')
  | _ => .illegal

/-- Classes of R167, other than 0x3D, 0x3E and 0x3F; a reserved class is ILLEGAL_OP (row 2 of R173). -/
noncomputable def decClass (cls m a b c : Nat) : Decoded :=
  match cls with
  | 1 => decClass01 m a b c
  | 2 => decClass02 m a b c
  | 3 => decClass03 m a b c
  | 4 => decClass04 m a b c
  | 5 => decClass05 m a b c
  | 8 => decClass08 m a b c
  | 9 => decClass09 m a b c
  | 10 => decClass0A m a b c
  | 11 => decClass0B m a b c
  | 12 => decClass0C m a b c
  | 13 => decClass0D m a b c
  | 14 => decClass0E m a b c
  | 15 => decClass0F m a b c
  | 16 => decClass10 m a b c
  | 17 => decClass11 m a b c
  | 18 => decClass12 m a b c
  | 19 => decClass13 m a b c
  | 20 => decClass14 m a b c
  | 22 => decClass16 m a b c
  | 23 => decClass17 m a b c
  | 24 => decClass18 m a b c
  | 25 => decClass19 m a b c
  | 32 => decClass20 m a b c
  | 33 => decClass21 m a b c
  | 34 => decClass22 m a b c
  | 35 => decClass23 m a b c
  | 36 => decClass24 m a b c
  | 37 => decClass25 m a b c
  | 38 => decClass26 m a b c
  | 39 => decClass27 m a b c
  | 40 => decClass28 m a b c
  | 41 => decClass29 m a b c
  | 42 => decClass2A m a b c
  | 43 => decClass2B m a b c
  | 44 => decClass2C m a b c
  | 45 => decClass2D m a b c
  | 46 => decClass2E m a b c
  | 47 => decClass2F m a b c
  | 48 => decClass30 m a b c
  | 49 => decClass31 m a b c
  | 50 => decClass32 m a b c
  | 51 => decClass33 m a b c
  | 52 => decClass34 m a b c
  | 53 => decClass35 m a b c
  | 54 => decClass36 m a b c
  | 55 => decClass37 m a b c
  | 56 => decClass38 m a b c
  | 60 => decClass3C m a b c
  | _ => .illegal

/-- A 32-bit word (R155, R160, R163); class 0x3D is the first word of a long form (R166). -/
noncomputable def decode32 (w : Nat) : Decoded :=
  let cls := bitsAt w 1 6
  if cls = 0x3E then
    .ok (.clauseHeader (BitVec.ofNat 5 (bitsAt w 27 5)) (BitVec.ofNat 4 (bitsAt w 23 4))
      (BitVec.ofNat 4 (bitsAt w 19 4)) (BitVec.ofNat 12 (bitsAt w 7 12)))
  else if cls = 0x3F then
    .checked (bitsAt w 24 8) (.prefixWord (BitVec.ofNat 7 (bitsAt w 17 7)) (bitsAt w 16 1 == 1)
      (bitsAt w 15 1 == 1) (bitsAt w 14 1 == 1) (BitVec.ofNat 3 (bitsAt w 11 3)) (BitVec.ofNat 4 (bitsAt w 7 4)))
  else decClass cls (bitsAt w 28 4) (bitsAt w 7 7) (bitsAt w 14 7) (bitsAt w 21 7)

/-- A long form, its literal above its first word (R151, R166). -/
noncomputable def decode64 (w : Nat) : Decoded :=
  .checked (bitsAt w 31 1) (.longForm (BitVec.ofNat 4 (bitsAt w 27 4)) (BitVec.ofNat 7 (bitsAt w 20 7))
    (BitVec.ofNat 7 (bitsAt w 13 7)) (BitVec.ofNat 6 (bitsAt w 7 6)) (BitVec.ofNat 32 (bitsAt w 32 32)))

/-- A 16-bit instruction (R159). -/
noncomputable def decode16 (w : Nat) : Decoded :=
  let a := BitVec.ofNat 6 (bitsAt w 5 6)
  let b := BitVec.ofNat 5 (bitsAt w 11 5)
  match bitsAt w 1 4 with
  | 0 => .checked (bitsAt w 5 11) .nopHalf
  | 1 => .ok (.addI32Half a b)
  | 2 => .ok (.subI32Half a b)
  | 3 => .ok (.mulI32Half a b)
  | 4 => .ok (.andB32Half a b)
  | 5 => .ok (.orB32Half a b)
  | 6 => .ok (.xorB32Half a b)
  | 7 => .ok (.shlB32Half a b)
  | 8 => .ok (.shrN32Half a b)
  | 9 => .ok (.faddF32Half a b)
  | 10 => .ok (.fsubF32Half a b)
  | 11 => .ok (.fmulF32Half a b)
  | 12 => .ok (.fminF32Half a b)
  | 13 => .ok (.fmaxF32Half a b)
  | 14 => .ok (.movB32Half a b)
  | _ => .ok (.minI32Half a b)

/-- The length in halfwords that the first halfword gives (R151). -/
def wordHalves (h0 : Nat) : Nat :=
  if h0 % 2 = 0 then 1 else if bitsAt h0 1 6 = 0x3D then 4 else 2

/-- The instruction at the head of a stream of halfwords, with its length in halfwords (R151); a word the
stream does not hold whole is ILLEGAL_OP (R153). -/
noncomputable def decodeHalves (hs : List Nat) : Decoded × Nat :=
  match hs with
  | [] => (.illegal, 1)
  | h0 :: rest =>
    if h0 % 2 = 0 then (decode16 h0, 1)
    else match rest with
      | [] => (.illegal, 2)
      | h1 :: rest2 =>
        if bitsAt h0 1 6 = 0x3D then
          match rest2 with
          | h2 :: h3 :: _ => (decode64 (h0 + 65536 * h1 + 65536 ^ 2 * h2 + 65536 ^ 3 * h3), 4)
          | _ => (.illegal, 4)
        else (decode32 (h0 + 65536 * h1), 2)

/-- A Locus filter word (R414): a reserved OP or a nonzero unused field is refused. -/
noncomputable def decodeFilter (w : Nat) : Option Instr :=
  let d := BitVec.ofNat 4 (bitsAt w 22 4)
  let a := BitVec.ofNat 4 (bitsAt w 18 4)
  let b := BitVec.ofNat 4 (bitsAt w 14 4)
  let imm := BitVec.ofNat 14 (bitsAt w 0 14)
  let fit (z : Nat) (i : Instr) : Option Instr := if z = 0 ∧ i.wf = true then some i else none
  match bitsAt w 26 6 with
  | 0 => fit (bitsAt w 0 14) (.filterAdd d a b)
  | 1 => fit (bitsAt w 0 14) (.filterSub d a b)
  | 2 => fit (bitsAt w 0 14) (.filterAnd d a b)
  | 3 => fit (bitsAt w 0 14) (.filterOr d a b)
  | 4 => fit (bitsAt w 0 14) (.filterXor d a b)
  | 5 => fit (bitsAt w 0 14) (.filterShl d a b)
  | 6 => fit (bitsAt w 0 14) (.filterShr d a b)
  | 8 => fit (bitsAt w 14 4) (.filterAddi d a imm)
  | 9 => fit (bitsAt w 14 4) (.filterAndi d a imm)
  | 10 => fit (bitsAt w 5 13) (.filterShli d a (BitVec.ofNat 5 (bitsAt w 0 5)))
  | 11 => fit (bitsAt w 5 13) (.filterShri d a (BitVec.ofNat 5 (bitsAt w 0 5)))
  | 12 => fit (bitsAt w 16 6) (.filterLdlo d (BitVec.ofNat 16 (bitsAt w 0 16)))
  | 13 => fit (bitsAt w 16 6) (.filterLdhi d (BitVec.ofNat 16 (bitsAt w 0 16)))
  | 16 => fit (bitsAt w 22 4) (.filterBeq a b imm)
  | 17 => fit (bitsAt w 22 4) (.filterBne a b imm)
  | 18 => fit (bitsAt w 22 4) (.filterBltu a b imm)
  | 19 => fit (bitsAt w 22 4) (.filterBgeu a b imm)
  | 32 => fit (bitsAt w 0 26) (.filterKeep)
  | 33 => fit (bitsAt w 0 26) (.filterDrop)
  | 34 => fit (bitsAt w 4 9 + bitsAt w 14 4 + bitsAt w 22 4) (.filterCount a (bitsAt w 13 1 == 1) (BitVec.ofNat 4 (bitsAt w 0 4)))
  | 35 => fit (bitsAt w 2 24) (.filterTrig (BitVec.ofNat 2 (bitsAt w 0 2)))
  | 36 => fit (bitsAt w 4 18) (.filterRdcnt d (BitVec.ofNat 4 (bitsAt w 0 4)))
  | _ => none

/-- The instruction the decoder reads from the table's bits: 16 bits a 16-bit instruction, 64 a long form;
32 bits a GK word where bit 0 is set, and a filter word otherwise (R414 words share no stream with GK code). -/
noncomputable def decodeTableWord (nbits w : Nat) : Option Instr :=
  let gk (w : Nat) : Option Instr :=
    match (decodeHalves [w % 65536, w / 65536 % 65536, w / 65536 ^ 2 % 65536, w / 65536 ^ 3 % 65536]).1 with
    | .ok i => some i
    | _ => none
  if nbits = 32 ∧ w % 2 = 0 then (decodeFilter w).orElse fun _ => gk w
  else (gk w).orElse fun _ => if nbits = 32 then decodeFilter w else none

/-! The encoder. -/

/-- The field of an operand of kind X (R161). -/
def XOp.field : XOp → Nat
  | .s r => r.toNat
  | .imm n => 64 + n.toNat
  | .lit _ => 0
/-- The N field of a branch (R168). -/
def BranchOp.field : BranchOp → Nat
  | .near n => n.toNat
  | .far _ => 0
/-- Field B of a memory operand (R162). -/
def MemOp.fieldB : MemOp → Nat
  | .off b _ => b.toNat
  | .idx b _ => 64 + b.toNat
  | .pair _ => 64
  | .offFar b _ => b.toNat
  | .idxFar b _ _ => 64 + b.toNat
  | .pairFar _ _ => 64
/-- Field C of a memory operand (R162). -/
def MemOp.fieldC : MemOp → Nat
  | .off _ n => n.toNat
  | .idx _ ix => ix.toNat
  | .pair ix => ix.toNat
  | .offFar _ _ => 0
  | .idxFar _ ix _ => ix.toNat
  | .pairFar ix _ => ix.toNat
/-- A 32-bit word of R160. -/
def word32 (cls minor a b c : Nat) : Nat :=
  minor * 2 ^ 28 + c * 2 ^ 21 + b * 2 ^ 14 + a * 2 ^ 7 + cls * 2 + 1
/-- A filter word of R414. -/
def wordFilter (op d a b imm : Nat) : Nat :=
  op * 2 ^ 26 + d * 2 ^ 22 + a * 2 ^ 18 + b * 2 ^ 14 + imm
/-- A 16-bit instruction of R159. -/
def word16 (op a b : Nat) : Nat := b * 2 ^ 11 + a * 2 ^ 5 + op * 2

/-- The words of an instruction, with their width in bits; an event has none. -/
def encode : Instr → Option (Nat × Nat)
  | .clauseHeader len flagB flagA wait => some (32, len.toNat * 2 ^ 27 + flagB.toNat * 2 ^ 23 + flagA.toNat * 2 ^ 19 + wait.toNat * 2 ^ 7 + 0x3E * 2 + 1)
  | .prefixWord d dv ftz zero rnd mask => some (32, d.toNat * 2 ^ 17 + (if dv then 2 ^ 16 else 0) + (if ftz then 2 ^ 15 else 0) + (if zero then 2 ^ 14 else 0) + rnd.toNat * 2 ^ 11 + mask.toNat * 2 ^ 7 + 0x3F * 2 + 1)
  | .longForm minor b a icls lit => some (64, lit.toNat * 2 ^ 32 + minor.toNat * 2 ^ 27 + b.toNat * 2 ^ 20 + a.toNat * 2 ^ 13 + icls.toNat * 2 ^ 7 + 0x3D * 2 + 1)
  | .nopHalf => some (16, 0)
  | .addI32Half a b => some (16, word16 1 a.toNat b.toNat)
  | .subI32Half a b => some (16, word16 2 a.toNat b.toNat)
  | .mulI32Half a b => some (16, word16 3 a.toNat b.toNat)
  | .andB32Half a b => some (16, word16 4 a.toNat b.toNat)
  | .orB32Half a b => some (16, word16 5 a.toNat b.toNat)
  | .xorB32Half a b => some (16, word16 6 a.toNat b.toNat)
  | .shlB32Half a b => some (16, word16 7 a.toNat b.toNat)
  | .shrN32Half a b => some (16, word16 8 a.toNat b.toNat)
  | .faddF32Half a b => some (16, word16 9 a.toNat b.toNat)
  | .fsubF32Half a b => some (16, word16 10 a.toNat b.toNat)
  | .fmulF32Half a b => some (16, word16 11 a.toNat b.toNat)
  | .fminF32Half a b => some (16, word16 12 a.toNat b.toNat)
  | .fmaxF32Half a b => some (16, word16 13 a.toNat b.toNat)
  | .movB32Half a b => some (16, word16 14 a.toNat b.toNat)
  | .minI32Half a b => some (16, word16 15 a.toNat b.toNat)
  | .scalarAdd a b c => some (32, word32 0x01 0 a.toNat b.toNat c.field)
  | .scalarSub a b c => some (32, word32 0x01 1 a.toNat b.toNat c.field)
  | .scalarMul a b c => some (32, word32 0x01 2 a.toNat b.toNat c.field)
  | .scalarMulhiI32 a b c => some (32, word32 0x01 3 a.toNat b.toNat c.field)
  | .scalarMulhiN32 a b c => some (32, word32 0x01 4 a.toNat b.toNat c.field)
  | .scalarAnd a b c => some (32, word32 0x01 5 a.toNat b.toNat c.field)
  | .scalarOr a b c => some (32, word32 0x01 6 a.toNat b.toNat c.field)
  | .scalarXor a b c => some (32, word32 0x01 7 a.toNat b.toNat c.field)
  | .scalarShl a b c => some (32, word32 0x01 8 a.toNat b.toNat c.field)
  | .scalarShr a b c => some (32, word32 0x01 9 a.toNat b.toNat c.field)
  | .scalarSra a b c => some (32, word32 0x01 10 a.toNat b.toNat c.field)
  | .scalarMinI32 a b c => some (32, word32 0x01 11 a.toNat b.toNat c.field)
  | .scalarMaxI32 a b c => some (32, word32 0x01 12 a.toNat b.toNat c.field)
  | .scalarMinN32 a b c => some (32, word32 0x01 13 a.toNat b.toNat c.field)
  | .scalarMaxN32 a b c => some (32, word32 0x01 14 a.toNat b.toNat c.field)
  | .scalarMov a c => some (32, word32 0x02 0 a.toNat 0 c.field)
  | .seteq a b c => some (32, word32 0x02 1 a.toNat b.toNat c.field)
  | .setne a b c => some (32, word32 0x02 2 a.toNat b.toNat c.field)
  | .setltI32 a b c => some (32, word32 0x02 3 a.toNat b.toNat c.field)
  | .setleI32 a b c => some (32, word32 0x02 4 a.toNat b.toNat c.field)
  | .setltN32 a b c => some (32, word32 0x02 5 a.toNat b.toNat c.field)
  | .setleN32 a b c => some (32, word32 0x02 6 a.toNat b.toNat c.field)
  | .scalarSel a b c => some (32, word32 0x02 7 a.toNat b.toNat c.field)
  | .bra n => some (32, word32 0x03 0 0 (n.field % 128) (n.field / 128))
  | .brcNz a n => some (32, word32 0x03 1 a.toNat (n.field % 128) (n.field / 128))
  | .brcZ a n => some (32, word32 0x03 2 a.toNat (n.field % 128) (n.field / 128))
  | .bri a => some (32, word32 0x03 3 a.toNat 0 0)
  | .call a n => some (32, word32 0x03 4 a.toNat (n.field % 128) (n.field / 128))
  | .ret a => some (32, word32 0x03 5 a.toNat 0 0)
  | .exit => some (32, word32 0x03 6 0 0 0)
  | .elect a => some (32, word32 0x03 7 a.toNat 0 0)
  | .yield => some (32, word32 0x03 8 0 0 0)
  | .trap n => some (32, word32 0x03 9 0 (n.toNat % 128) (n.toNat / 128))
  | .brk n => some (32, word32 0x03 10 0 (n.toNat % 128) (n.toNat / 128))
  | .settile b => some (32, word32 0x03 11 0 b.field 0)
  | .mjoin a => some (32, word32 0x04 0 a.toNat 0 0)
  | .mleave a => some (32, word32 0x04 1 a.toNat 0 0)
  | .mwait a => some (32, word32 0x04 2 a.toNat 0 0)
  | .mrd a b => some (32, word32 0x04 3 a.toNat b.toNat 0)
  | .mwr a b => some (32, word32 0x04 4 a.toNat b.toNat 0)
  | .waitAny a b c => some (32, word32 0x05 0 a.toNat b.toNat c.field)
  | .waitAll a b c => some (32, word32 0x05 1 a.toNat b.toNat c.field)
  | .sleepAt b => some (32, word32 0x05 2 0 b.toNat 0)
  | .sleepAtProm b => some (32, word32 0x05 3 0 b.toNat 0)
  | .rdtime a => some (32, word32 0x05 4 a.toNat 0 0)
  | .barTeam n => some (32, word32 0x05 5 0 n.toNat 1)
  | .barCluster n => some (32, word32 0x05 5 0 n.toNat 3)
  | .evsig b => some (32, word32 0x05 6 0 b.toNat 0)
  | .launch a b c => some (32, word32 0x05 7 a.toNat b.toNat c.field)
  | .symWait c => some (32, word32 0x05 8 0 0 c.field)
  | .rdsrS a n => some (32, word32 0x05 9 a.toNat (n.toNat % 128) (n.toNat / 128))
  | .rdsrV a n => some (32, word32 0x05 10 a.toNat (n.toNat % 128) (n.toNat / 128))
  | .wrsr a n => some (32, word32 0x05 11 a.toNat (n.toNat % 128) (n.toNat / 128))
  | .addV a b c => some (32, word32 0x08 0 a.toNat b.toNat c.toNat)
  | .addX a b c => some (32, word32 0x09 0 a.toNat b.toNat c.field)
  | .subV a b c => some (32, word32 0x08 1 a.toNat b.toNat c.toNat)
  | .subX a b c => some (32, word32 0x09 1 a.toNat b.toNat c.field)
  | .mulV a b c => some (32, word32 0x08 2 a.toNat b.toNat c.toNat)
  | .mulX a b c => some (32, word32 0x09 2 a.toNat b.toNat c.field)
  | .mulhiI32V a b c => some (32, word32 0x08 3 a.toNat b.toNat c.toNat)
  | .mulhiI32X a b c => some (32, word32 0x09 3 a.toNat b.toNat c.field)
  | .mulhiN32V a b c => some (32, word32 0x08 4 a.toNat b.toNat c.toNat)
  | .mulhiN32X a b c => some (32, word32 0x09 4 a.toNat b.toNat c.field)
  | .madV a b c => some (32, word32 0x08 5 a.toNat b.toNat c.toNat)
  | .madX a b c => some (32, word32 0x09 5 a.toNat b.toNat c.field)
  | .minI32V a b c => some (32, word32 0x08 6 a.toNat b.toNat c.toNat)
  | .minI32X a b c => some (32, word32 0x09 6 a.toNat b.toNat c.field)
  | .maxI32V a b c => some (32, word32 0x08 7 a.toNat b.toNat c.toNat)
  | .maxI32X a b c => some (32, word32 0x09 7 a.toNat b.toNat c.field)
  | .minN32V a b c => some (32, word32 0x08 8 a.toNat b.toNat c.toNat)
  | .minN32X a b c => some (32, word32 0x09 8 a.toNat b.toNat c.field)
  | .maxN32V a b c => some (32, word32 0x08 9 a.toNat b.toNat c.toNat)
  | .maxN32X a b c => some (32, word32 0x09 9 a.toNat b.toNat c.field)
  | .andV a b c => some (32, word32 0x08 10 a.toNat b.toNat c.toNat)
  | .andX a b c => some (32, word32 0x09 10 a.toNat b.toNat c.field)
  | .orV a b c => some (32, word32 0x08 11 a.toNat b.toNat c.toNat)
  | .orX a b c => some (32, word32 0x09 11 a.toNat b.toNat c.field)
  | .xorV a b c => some (32, word32 0x08 12 a.toNat b.toNat c.toNat)
  | .xorX a b c => some (32, word32 0x09 12 a.toNat b.toNat c.field)
  | .shlV a b c => some (32, word32 0x08 13 a.toNat b.toNat c.toNat)
  | .shlX a b c => some (32, word32 0x09 13 a.toNat b.toNat c.field)
  | .shrV a b c => some (32, word32 0x08 14 a.toNat b.toNat c.toNat)
  | .shrX a b c => some (32, word32 0x09 14 a.toNat b.toNat c.field)
  | .sraV a b c => some (32, word32 0x08 15 a.toNat b.toNat c.toNat)
  | .sraX a b c => some (32, word32 0x09 15 a.toNat b.toNat c.field)
  | .absI32 a b => some (32, word32 0x0A 0 a.toNat b.toNat 0)
  | .popcB32 a b => some (32, word32 0x0A 1 a.toNat b.toNat 0)
  | .clzB32 a b => some (32, word32 0x0A 2 a.toNat b.toNat 0)
  | .brevB32 a b => some (32, word32 0x0A 3 a.toNat b.toNat 0)
  | .bfeN32V a b c => some (32, word32 0x0A 4 a.toNat b.toNat c.toNat)
  | .bfeN32X a b c => some (32, word32 0x0B 4 a.toNat b.toNat c.field)
  | .bfeI32V a b c => some (32, word32 0x0A 5 a.toNat b.toNat c.toNat)
  | .bfeI32X a b c => some (32, word32 0x0B 5 a.toNat b.toNat c.field)
  | .bfiB32V a b c => some (32, word32 0x0A 6 a.toNat b.toNat c.toNat)
  | .bfiB32X a b c => some (32, word32 0x0B 6 a.toNat b.toNat c.field)
  | .movB32V a c => some (32, word32 0x0A 7 a.toNat 0 c.toNat)
  | .movB32X a c => some (32, word32 0x0B 7 a.toNat 0 c.field)
  | .addI64V a b c => some (32, word32 0x0A 8 a.toNat b.toNat c.toNat)
  | .addI64X a b c => some (32, word32 0x0B 8 a.toNat b.toNat c.field)
  | .subI64V a b c => some (32, word32 0x0A 9 a.toNat b.toNat c.toNat)
  | .subI64X a b c => some (32, word32 0x0B 9 a.toNat b.toNat c.field)
  | .shlB64V a b c => some (32, word32 0x0A 10 a.toNat b.toNat c.toNat)
  | .shlB64X a b c => some (32, word32 0x0B 10 a.toNat b.toNat c.field)
  | .shrN64V a b c => some (32, word32 0x0A 11 a.toNat b.toNat c.toNat)
  | .shrN64X a b c => some (32, word32 0x0B 11 a.toNat b.toNat c.field)
  | .sraI64V a b c => some (32, word32 0x0A 12 a.toNat b.toNat c.toNat)
  | .sraI64X a b c => some (32, word32 0x0B 12 a.toNat b.toNat c.field)
  | .mulWideI32V a b c => some (32, word32 0x0A 13 a.toNat b.toNat c.toNat)
  | .mulWideI32X a b c => some (32, word32 0x0B 13 a.toNat b.toNat c.field)
  | .mulWideN32V a b c => some (32, word32 0x0A 14 a.toNat b.toNat c.toNat)
  | .mulWideN32X a b c => some (32, word32 0x0B 14 a.toNat b.toNat c.field)
  | .cmpEqB32V a b c => some (32, word32 0x0C 0 a.toNat b.toNat c.toNat)
  | .cmpEqB32X a b c => some (32, word32 0x0D 0 a.toNat b.toNat c.field)
  | .cmpNeB32V a b c => some (32, word32 0x0C 1 a.toNat b.toNat c.toNat)
  | .cmpNeB32X a b c => some (32, word32 0x0D 1 a.toNat b.toNat c.field)
  | .cmpLtI32V a b c => some (32, word32 0x0C 2 a.toNat b.toNat c.toNat)
  | .cmpLtI32X a b c => some (32, word32 0x0D 2 a.toNat b.toNat c.field)
  | .cmpLeI32V a b c => some (32, word32 0x0C 3 a.toNat b.toNat c.toNat)
  | .cmpLeI32X a b c => some (32, word32 0x0D 3 a.toNat b.toNat c.field)
  | .cmpGtI32V a b c => some (32, word32 0x0C 4 a.toNat b.toNat c.toNat)
  | .cmpGtI32X a b c => some (32, word32 0x0D 4 a.toNat b.toNat c.field)
  | .cmpGeI32V a b c => some (32, word32 0x0C 5 a.toNat b.toNat c.toNat)
  | .cmpGeI32X a b c => some (32, word32 0x0D 5 a.toNat b.toNat c.field)
  | .cmpLtN32V a b c => some (32, word32 0x0C 6 a.toNat b.toNat c.toNat)
  | .cmpLtN32X a b c => some (32, word32 0x0D 6 a.toNat b.toNat c.field)
  | .cmpLeN32V a b c => some (32, word32 0x0C 7 a.toNat b.toNat c.toNat)
  | .cmpLeN32X a b c => some (32, word32 0x0D 7 a.toNat b.toNat c.field)
  | .cmpGtN32V a b c => some (32, word32 0x0C 8 a.toNat b.toNat c.toNat)
  | .cmpGtN32X a b c => some (32, word32 0x0D 8 a.toNat b.toNat c.field)
  | .cmpGeN32V a b c => some (32, word32 0x0C 9 a.toNat b.toNat c.toNat)
  | .cmpGeN32X a b c => some (32, word32 0x0D 9 a.toNat b.toNat c.field)
  | .fcmpEqF32V a b c => some (32, word32 0x0C 10 a.toNat b.toNat c.toNat)
  | .fcmpEqF32X a b c => some (32, word32 0x0D 10 a.toNat b.toNat c.field)
  | .fcmpLtF32V a b c => some (32, word32 0x0C 11 a.toNat b.toNat c.toNat)
  | .fcmpLtF32X a b c => some (32, word32 0x0D 11 a.toNat b.toNat c.field)
  | .fcmpLeF32V a b c => some (32, word32 0x0C 12 a.toNat b.toNat c.toNat)
  | .fcmpLeF32X a b c => some (32, word32 0x0D 12 a.toNat b.toNat c.field)
  | .fcmpNeF32V a b c => some (32, word32 0x0C 13 a.toNat b.toNat c.toNat)
  | .fcmpNeF32X a b c => some (32, word32 0x0D 13 a.toNat b.toNat c.field)
  | .fcmpUnF32V a b c => some (32, word32 0x0C 14 a.toNat b.toNat c.toNat)
  | .fcmpUnF32X a b c => some (32, word32 0x0D 14 a.toNat b.toNat c.field)
  | .faddF32V a b c => some (32, word32 0x0E 0 a.toNat b.toNat c.toNat)
  | .faddF32X a b c => some (32, word32 0x0F 0 a.toNat b.toNat c.field)
  | .fsubF32V a b c => some (32, word32 0x0E 1 a.toNat b.toNat c.toNat)
  | .fsubF32X a b c => some (32, word32 0x0F 1 a.toNat b.toNat c.field)
  | .fmulF32V a b c => some (32, word32 0x0E 2 a.toNat b.toNat c.toNat)
  | .fmulF32X a b c => some (32, word32 0x0F 2 a.toNat b.toNat c.field)
  | .ffmaF32V a b c => some (32, word32 0x0E 3 a.toNat b.toNat c.toNat)
  | .ffmaF32X a b c => some (32, word32 0x0F 3 a.toNat b.toNat c.field)
  | .fminF32V a b c => some (32, word32 0x0E 4 a.toNat b.toNat c.toNat)
  | .fminF32X a b c => some (32, word32 0x0F 4 a.toNat b.toNat c.field)
  | .fmaxF32V a b c => some (32, word32 0x0E 5 a.toNat b.toNat c.toNat)
  | .fmaxF32X a b c => some (32, word32 0x0F 5 a.toNat b.toNat c.field)
  | .fnegF32 a b => some (32, word32 0x10 0 a.toNat b.toNat 0)
  | .fabsF32 a b => some (32, word32 0x10 1 a.toNat b.toNat 0)
  | .fclassF32 a b => some (32, word32 0x10 2 a.toNat b.toNat 0)
  | .frndF32 a b => some (32, word32 0x10 3 a.toNat b.toNat 0)
  | .frcpF32 a b => some (32, word32 0x10 4 a.toNat b.toNat 0)
  | .frsqF32 a b => some (32, word32 0x10 5 a.toNat b.toNat 0)
  | .fsqrtF32 a b => some (32, word32 0x10 6 a.toNat b.toNat 0)
  | .fex2F32 a b => some (32, word32 0x10 7 a.toNat b.toNat 0)
  | .flg2F32 a b => some (32, word32 0x10 8 a.toNat b.toNat 0)
  | .fsinF32 a b => some (32, word32 0x10 9 a.toNat b.toNat 0)
  | .fcosF32 a b => some (32, word32 0x10 10 a.toNat b.toNat 0)
  | .cvt dt sat st b a => some (32, word32 0x11 dt.code a.toNat b.toNat (st.code + (if sat then 16 else 0)))
  | .paddF16V a b c => some (32, word32 0x12 0 a.toNat b.toNat c.toNat)
  | .paddF16X a b c => some (32, word32 0x13 0 a.toNat b.toNat c.field)
  | .psubF16V a b c => some (32, word32 0x12 1 a.toNat b.toNat c.toNat)
  | .psubF16X a b c => some (32, word32 0x13 1 a.toNat b.toNat c.field)
  | .pmulF16V a b c => some (32, word32 0x12 2 a.toNat b.toNat c.toNat)
  | .pmulF16X a b c => some (32, word32 0x13 2 a.toNat b.toNat c.field)
  | .pfmaF16V a b c => some (32, word32 0x12 3 a.toNat b.toNat c.toNat)
  | .pfmaF16X a b c => some (32, word32 0x13 3 a.toNat b.toNat c.field)
  | .pminF16V a b c => some (32, word32 0x12 4 a.toNat b.toNat c.toNat)
  | .pminF16X a b c => some (32, word32 0x13 4 a.toNat b.toNat c.field)
  | .pmaxF16V a b c => some (32, word32 0x12 5 a.toNat b.toNat c.toNat)
  | .pmaxF16X a b c => some (32, word32 0x13 5 a.toNat b.toNat c.field)
  | .paddBf16V a b c => some (32, word32 0x12 6 a.toNat b.toNat c.toNat)
  | .paddBf16X a b c => some (32, word32 0x13 6 a.toNat b.toNat c.field)
  | .psubBf16V a b c => some (32, word32 0x12 7 a.toNat b.toNat c.toNat)
  | .psubBf16X a b c => some (32, word32 0x13 7 a.toNat b.toNat c.field)
  | .pmulBf16V a b c => some (32, word32 0x12 8 a.toNat b.toNat c.toNat)
  | .pmulBf16X a b c => some (32, word32 0x13 8 a.toNat b.toNat c.field)
  | .pfmaBf16V a b c => some (32, word32 0x12 9 a.toNat b.toNat c.toNat)
  | .pfmaBf16X a b c => some (32, word32 0x13 9 a.toNat b.toNat c.field)
  | .pminBf16V a b c => some (32, word32 0x12 10 a.toNat b.toNat c.toNat)
  | .pminBf16X a b c => some (32, word32 0x13 10 a.toNat b.toNat c.field)
  | .pmaxBf16V a b c => some (32, word32 0x12 11 a.toNat b.toNat c.toNat)
  | .pmaxBf16X a b c => some (32, word32 0x13 11 a.toNat b.toNat c.field)
  | .fdot4E4m3V a b c => some (32, word32 0x12 12 a.toNat b.toNat c.toNat)
  | .fdot4E4m3X a b c => some (32, word32 0x13 12 a.toNat b.toNat c.field)
  | .fdot4E5m2V a b c => some (32, word32 0x12 13 a.toNat b.toNat c.toNat)
  | .fdot4E5m2X a b c => some (32, word32 0x13 13 a.toNat b.toNat c.field)
  | .tbpackTb8 a b c => some (32, word32 0x14 0 a.toNat b.toNat c.toNat)
  | .tbpackTb4 a b c => some (32, word32 0x14 1 a.toNat b.toNat c.toNat)
  | .tbpackSatTb8 a b c => some (32, word32 0x14 2 a.toNat b.toNat c.toNat)
  | .tbpackSatTb4 a b c => some (32, word32 0x14 3 a.toNat b.toNat c.toNat)
  | .tbunpTb8 a b c => some (32, word32 0x14 4 a.toNat b.toNat c.toNat)
  | .tbunpTb4 a b c => some (32, word32 0x14 5 a.toNat b.toNat c.toNat)
  | .xlaneGetV a b c => some (32, word32 0x16 0 a.toNat b.toNat c.toNat)
  | .xlaneGetX a b c => some (32, word32 0x17 0 a.toNat b.toNat c.field)
  | .xlaneBackV a b c => some (32, word32 0x16 1 a.toNat b.toNat c.toNat)
  | .xlaneBackX a b c => some (32, word32 0x17 1 a.toNat b.toNat c.field)
  | .xlaneFwdV a b c => some (32, word32 0x16 2 a.toNat b.toNat c.toNat)
  | .xlaneFwdX a b c => some (32, word32 0x17 2 a.toNat b.toNat c.field)
  | .xlaneMixV a b c => some (32, word32 0x16 3 a.toNat b.toNat c.toNat)
  | .xlaneMixX a b c => some (32, word32 0x17 3 a.toNat b.toNat c.field)
  | .pollSome a b => some (32, word32 0x16 4 a.toNat b.toNat 0)
  | .pollEvery a b => some (32, word32 0x16 5 a.toNat b.toNat 0)
  | .pollBits a b => some (32, word32 0x16 6 a.toNat b.toNat 0)
  | .foldAddI32 a b => some (32, word32 0x16 7 a.toNat b.toNat 0)
  | .foldMinI32 a b => some (32, word32 0x16 8 a.toNat b.toNat 0)
  | .foldMaxI32 a b => some (32, word32 0x16 9 a.toNat b.toNat 0)
  | .foldAddF32 a b => some (32, word32 0x16 10 a.toNat b.toNat 0)
  | .prefixAddI32 a b => some (32, word32 0x16 11 a.toNat b.toNat 0)
  | .prefixAddF32 a b => some (32, word32 0x16 12 a.toNat b.toNat 0)
  | .sameB32 a b => some (32, word32 0x16 13 a.toNat b.toNat 0)
  | .sameF32 a b => some (32, word32 0x16 14 a.toNat b.toNat 0)
  | .selV a k b c => some (32, word32 0x18 k.toNat a.toNat b.toNat c.toNat)
  | .selX a k b c => some (32, word32 0x19 k.toNat a.toNat b.toNat c.field)
  | .ldg t a bc => some (32, word32 0x20 t.code a.toNat bc.fieldB bc.fieldC)
  | .ldgSym t a bc => some (32, word32 0x21 t.code a.toNat bc.fieldB bc.fieldC)
  | .stg t a bc => some (32, word32 0x22 t.code a.toNat bc.fieldB bc.fieldC)
  | .lds t a bc => some (32, word32 0x23 t.code a.toNat bc.fieldB bc.fieldC)
  | .ldsSym t a bc => some (32, word32 0x24 t.code a.toNat bc.fieldB bc.fieldC)
  | .sts t a bc => some (32, word32 0x25 t.code a.toNat bc.fieldB bc.fieldC)
  | .ldt t a b c => some (32, word32 0x26 t.code a.toNat b.toNat c.toNat)
  | .ldtSym t a b c => some (32, word32 0x27 t.code a.toNat b.toNat c.toNat)
  | .stt t a b c => some (32, word32 0x28 t.code a.toNat b.toNat c.toNat)
  | .ropz a c => some (32, word32 0x29 0 a.toNat 0 c.toNat)
  | .ropc a b c => some (32, word32 0x29 1 a.toNat b.toNat c.toNat)
  | .atg32 o a bc => some (32, word32 0x2A o.code a.toNat bc.fieldB bc.fieldC)
  | .atg64 o a bc => some (32, word32 0x2B o.code a.toNat bc.fieldB bc.fieldC)
  | .ats32 o a bc => some (32, word32 0x2C o.code a.toNat bc.fieldB bc.fieldC)
  | .ats64 o a bc => some (32, word32 0x2D o.code a.toNat bc.fieldB bc.fieldC)
  | .red32 o a bc => some (32, word32 0x2E o.code a.toNat bc.fieldB bc.fieldC)
  | .red64 o a bc => some (32, word32 0x2F o.code a.toNat bc.fieldB bc.fieldC)
  | .fenceGroup => some (32, word32 0x30 0 0 0 0)
  | .fenceTeam => some (32, word32 0x30 1 0 0 0)
  | .fenceFacet => some (32, word32 0x30 2 0 0 0)
  | .fenceCluster => some (32, word32 0x30 3 0 0 0)
  | .fencePackage => some (32, word32 0x30 4 0 0 0)
  | .fenceSystem => some (32, word32 0x30 5 0 0 0)
  | .ack => some (32, word32 0x30 6 0 0 0)
  | .tdisc b => some (32, word32 0x30 7 0 b.toNat 0)
  | .prefetchL1 bc => some (32, word32 0x30 8 0 bc.fieldB bc.fieldC)
  | .prefetchSlice bc => some (32, word32 0x30 9 0 bc.fieldB bc.fieldC)
  | .surfDef a b c => some (32, word32 0x30 10 a.toNat b.toNat c.toNat)
  | .surfDrop a c => some (32, word32 0x30 11 a.toNat 0 c.toNat)
  | .surfClr a c => some (32, word32 0x30 12 a.toNat 0 c.toNat)
  | .surfDecomp a c => some (32, word32 0x30 13 a.toNat 0 c.toNat)
  | .annBoard b => some (32, word32 0x31 0 0 b.toNat 0)
  | .annAlight b => some (32, word32 0x31 1 0 b.toNat 0)
  | .annLdB32 a bc => some (32, word32 0x31 2 a.toNat bc.fieldB bc.fieldC)
  | .annLdB64 a bc => some (32, word32 0x31 3 a.toNat bc.fieldB bc.fieldC)
  | .annLdSymI32 a bc => some (32, word32 0x31 4 a.toNat bc.fieldB bc.fieldC)
  | .annLdSymF32 a bc => some (32, word32 0x31 5 a.toNat bc.fieldB bc.fieldC)
  | .annWait k w a b c => some (32, word32 0x32 (k.code * 4 + w.toNat) a.toNat b.toNat c.toNat)
  | .annOp32 o a bc => some (32, word32 0x33 o.code a.toNat bc.fieldB bc.fieldC)
  | .annOp64 o a bc => some (32, word32 0x34 o.code a.toNat bc.fieldB bc.fieldC)
  | .putSigSet a b => some (32, word32 0x35 0 a.toNat b.toNat 0)
  | .putSigAdd a b => some (32, word32 0x35 1 a.toNat b.toNat 0)
  | .getpGroup a b => some (32, word32 0x35 2 a.toNat b.toNat 0)
  | .getpTeam a b => some (32, word32 0x35 3 a.toNat b.toNat 0)
  | .getpFacet a b => some (32, word32 0x35 4 a.toNat b.toNat 0)
  | .getpCluster a b => some (32, word32 0x35 5 a.toNat b.toNat 0)
  | .getpPackage a b => some (32, word32 0x35 6 a.toNat b.toNat 0)
  | .getpSystem a b => some (32, word32 0x35 7 a.toNat b.toNat 0)
  | .pushCopy vec b a => some (32, word32 0x36 0 a.toNat b.toNat (if vec then 1 else 0))
  | .pushTensor vec b a => some (32, word32 0x36 1 a.toNat b.toNat (if vec then 1 else 0))
  | .pushGather vec b a => some (32, word32 0x36 2 a.toNat b.toNat (if vec then 1 else 0))
  | .pushColl vec b a => some (32, word32 0x36 3 a.toNat b.toNat (if vec then 1 else 0))
  | .pushRast vec b a => some (32, word32 0x36 4 a.toNat b.toNat (if vec then 1 else 0))
  | .pushMsg vec b a => some (32, word32 0x36 5 a.toNat b.toNat (if vec then 1 else 0))
  | .pushb a b c => some (32, word32 0x36 6 a.toNat b.toNat c.toNat)
  | .msgSend a b c => some (32, word32 0x36 7 a.toNat b.toNat c.toNat)
  | .msgRecv a b => some (32, word32 0x36 8 a.toNat b.toNat 0)
  | .msgProbe a b => some (32, word32 0x36 9 a.toNat b.toNat 0)
  | .mbLd b => some (32, word32 0x37 0 0 b.toNat 0)
  | .mbZero b => some (32, word32 0x37 1 0 b.toNat 0)
  | .mmx b => some (32, word32 0x37 2 0 b.toNat 0)
  | .mmxLut b => some (32, word32 0x37 3 0 b.toNat 0)
  | .mmxR b => some (32, word32 0x37 4 0 b.toNat 0)
  | .mmxLutR b => some (32, word32 0x37 5 0 b.toNat 0)
  | .hxor a b c => some (32, word32 0x38 0 a.toNat b.toNat c.toNat)
  | .hrot a b c => some (32, word32 0x38 1 a.toNat b.toNat c.field)
  | .hbun a b => some (32, word32 0x38 2 a.toNat b.toNat 0)
  | .hclrH a => some (32, word32 0x38 3 a.toNat 0 0)
  | .hclrC a => some (32, word32 0x38 3 a.toNat 1 0)
  | .hmaj a b => some (32, word32 0x38 4 a.toNat b.toNat 0)
  | .hpop a b => some (32, word32 0x38 5 a.toNat b.toNat 0)
  | .hdist a b c => some (32, word32 0x38 6 a.toNat b.toNat c.toNat)
  | .hldS a b => some (32, word32 0x38 7 a.toNat b.toNat 0)
  | .hldG a b => some (32, word32 0x38 7 a.toNat b.toNat 1)
  | .hstS a b => some (32, word32 0x38 8 a.toNat b.toNat 0)
  | .hstG a b => some (32, word32 0x38 8 a.toNat b.toNat 1)
  | .hfrom a b => some (32, word32 0x38 9 a.toNat b.toNat 0)
  | .hto a b => some (32, word32 0x38 10 a.toNat b.toNat 0)
  | .hmatch a b c => some (32, word32 0x38 11 a.toNat b.toNat c.toNat)
  | .htie a => some (32, word32 0x38 12 a.toNat 0 0)
  | .htieSeed b => some (32, word32 0x38 12 0 b.toNat 1)
  | .grd a b c => some (32, word32 0x3C 0 a.toNat b.toNat c.toNat)
  | .gwr a b c => some (32, word32 0x3C 1 a.toNat b.toNat c.toNat)
  | .resume a b => some (32, word32 0x3C 2 a.toNat b.toNat 0)
  | .bankset a b c => some (32, word32 0x3C 3 a.toNat b.toNat c.toNat)
  | .tlbinv a b c => some (32, word32 0x3C 4 a.toNat b.toNat c.toNat)
  | .halt a b => some (32, word32 0x3C 5 a.toNat b.toNat 0)
  | .filterAdd d a b => some (32, wordFilter 0 d.toNat a.toNat b.toNat 0)
  | .filterSub d a b => some (32, wordFilter 1 d.toNat a.toNat b.toNat 0)
  | .filterAnd d a b => some (32, wordFilter 2 d.toNat a.toNat b.toNat 0)
  | .filterOr d a b => some (32, wordFilter 3 d.toNat a.toNat b.toNat 0)
  | .filterXor d a b => some (32, wordFilter 4 d.toNat a.toNat b.toNat 0)
  | .filterShl d a b => some (32, wordFilter 5 d.toNat a.toNat b.toNat 0)
  | .filterShr d a b => some (32, wordFilter 6 d.toNat a.toNat b.toNat 0)
  | .filterAddi d a imm => some (32, wordFilter 8 d.toNat a.toNat 0 imm.toNat)
  | .filterAndi d a imm => some (32, wordFilter 9 d.toNat a.toNat 0 imm.toNat)
  | .filterShli d a imm => some (32, wordFilter 10 d.toNat a.toNat 0 imm.toNat)
  | .filterShri d a imm => some (32, wordFilter 11 d.toNat a.toNat 0 imm.toNat)
  | .filterLdlo d imm => some (32, wordFilter 12 d.toNat 0 0 imm.toNat)
  | .filterLdhi d imm => some (32, wordFilter 13 d.toNat 0 0 imm.toNat)
  | .filterBeq a b imm => some (32, wordFilter 16 0 a.toNat b.toNat imm.toNat)
  | .filterBne a b imm => some (32, wordFilter 17 0 a.toNat b.toNat imm.toNat)
  | .filterBltu a b imm => some (32, wordFilter 18 0 a.toNat b.toNat imm.toNat)
  | .filterBgeu a b imm => some (32, wordFilter 19 0 a.toNat b.toNat imm.toNat)
  | .filterKeep => some (32, wordFilter 32 0 0 0 0)
  | .filterDrop => some (32, wordFilter 33 0 0 0 0)
  | .filterCount a s c => some (32, wordFilter 34 0 a.toNat 0 ((if s then 2 ^ 13 else 0) + c.toNat))
  | .filterTrig t => some (32, wordFilter 35 0 0 0 t.toNat)
  | .filterRdcnt d c => some (32, wordFilter 36 d.toNat 0 0 c.toNat)
  | .starvationFloor _ => none
  | .groupSwap _ => none
  | .forcedSwap _ _ => none
  | .waitRelease _ _ => none
  | .sleepRelease _ _ => none
  | .barrierArrival _ => none
  | .barrierRouterArrival _ => none
  | .symbolDelivery _ _ => none
  | .teamRetire _ => none
  | .qtailDoorbell _ _ _ => none
  | .ringEntryMove _ _ => none
  | .queueHead _ _ => none
  | .clusterPlacement _ _ _ _ _ => none
  | .bankRotation _ _ => none
  | .preemptRequest _ => none
  | .vacateComplete _ => none
  | .extensionMoveBack _ => none
  | .haltLineArrival _ _ => none
  | .skidStop _ _ => none
  | .stopAreaWrite _ => none
  | .handlerStart _ => none
  | .handlerCoreMove _ => none
  | .pageWalk _ _ _ => none
  | .l1CopyLapse _ _ => none
  | .stationEntry _ => none
  | .annulusCapture _ _ => none
  | .watchPassage _ _ => none
  | .hostAccess _ _ _ _ => none
  | .peerAccess _ _ _ _ => none
  | .vlReplyTimeout _ => none
  | .vlFlitReceive _ _ => none
  | .putSigDelivery _ _ => none
  | .putSigFlag _ => none
  | .getpTransfer _ _ => none
  | .requestEngineHandoff _ _ _ => none
  | .copyCommand _ _ => none
  | .tensorCommand _ _ => none
  | .gatherCommand _ _ => none
  | .collCommand _ _ => none
  | .engineCompletion _ => none
  | .pushbListRead _ => none
  | .msgArrival _ => none
  | .matrixQueueAccept _ => none
  | .mbLdCommand _ _ => none
  | .mbZeroCommand _ => none
  | .denseComputation _ _ => none
  | .tableLookup _ _ => none
  | .matrixCompletion _ => none
  | .rastAccept _ => none
  | .triangleSetup _ => none
  | .fragmentGroupLaunch _ _ _ _ => none
  | .bankUnitApply _ => none
  | .ratioChange => none
  | .ratioStallEnd => none
  | .busRetire => none
  | .retireCopyDone => none
  | .wearStateChange _ _ _ _ => none
  | .subnetWake _ _ => none
  | .subnetOn _ => none
  | .subnetOff _ => none
  | .ptmDialogue => none
  | .ptmResponse _ _ => none
  | .timeStep _ => none
  | .locusFilter _ => none
  | .filterLoad _ => none
  | .sampleTag _ _ => none
  | .samplingRecord _ _ _ _ => none
  | .stopcGo _ => none
  | .stepWithinHalt _ => none
  | .stepNotify _ => none
  | .stepCompletion _ => none
  | .annWindowEnable _ _ => none
  | .annWindowDisable _ _ => none
  | .partqWrite _ _ => none
  | .hcoreWrite _ _ => none
  | .contextCreate _ _ => none
  | .contextInvalidate _ _ => none
  | .pstateRun => none
  | .pstateIdle => none
  | .pstateSleep => none
  | .floorRaise => none
  | .floorFall => none
  | .alarm _ _ => none
  | .attestationReport => none
  | .reportPublish => none
  | .bringUp => none
  | .registerWrite _ _ => none
  | .accessPerformed _ _ => none
  | .spillWriteCompletion _ => none
  | .tlbEntryDrop _ => none
  | .vimenLinkPortTraining _ _ => none
  | .ucieLaneLoss _ => none
  | .thermalOrPowerCause _ _ => none
  | .rcRegisterRead _ => none

/-- The bytes of an encoded instruction, little-endian, the first word lowest (R4, R151). -/
def encodeBytes (nbits w : Nat) : List Byte :=
  (List.range (nbits / 8)).map fun k => BitVec.ofNat 8 (w / 256 ^ k)

end Sys2Proof
end

