-- ==== Sys2Proof/Config.lean ====
section
/-! DEFINITION. What an implementation of the V960 fixes and this manual leaves open: opaque constants
with no body, so that no proof can see a value of them. Each is named in the assumption log. -/

namespace Sys2Proof.Config

/-- The special functions of R213 within their bounds: `kind` 0 `frcp`, 1 `frsq`, 2 `fex2`, 3 `flg2`,
4 `fsin`, 5 `fcos`; each a fixed function of its FP32 input. The meaning uses the value only where the
bound of R213 admits it (assumption 6). -/
opaque specialFn (kind : Nat) (b : Word) : Word
/-- A choice the rules leave to the device (R1, R126): the `n`-th free choice among `k` outcomes is
this value modulo `k` (assumption 7). -/
opaque choice (n k : Nat) : Nat
/-- The set, of the 64 of a cache slice, that holds a line; the manual gives no index (R89, assumption 8). -/
opaque sliceSet (line : Nat) : Nat
/-- The SHAKE256-256 digest of a byte string (R434), as a number of 256 bits (assumption 9). -/
opaque shake256 (bytes : List Byte) : BitVec 256
/-- The SHAKE256-512 digest of a byte string (R434, R436). -/
opaque shake512 (bytes : List Byte) : BitVec 512
/-- Whether a Falcon-1024 signature verifies under a public key over a digest (R434). -/
opaque falconVerify (key sig : List Byte) (digest : BitVec 512) : Bool
/-- The Falcon-1024 signature of a digest by the device identity key (R436). -/
opaque falconSign (digest : BitVec 512) : List Byte
/-- The promised completion a copy engine stores (R278): nanoseconds after the store, a free value per
choice number (assumption 7). -/
opaque promiseAfter (cmd : Nat) : Nat
/-- The requests that this package sends to a peer device are protected by session keys (R437, assumption 89). -/
opaque peerProtected (dev : Nat) : Bool
/-- The requests that this package sends to the host are protected by session keys (R437, assumption 89). -/
opaque hostProtected : Bool
/-- The stepping field of SYS.ID, which R326 does not state (assumption 10). -/
opaque stepping : BitVec 16

end Sys2Proof.Config
end

