-- ==== Sys2Proof/Machine/State.lean ====
section
/-! DEFINITION. The state of the whole V960 package as plain data: every group's registers and issue
state, the teams, clusters, launches and queues, the address spaces with their caches and copies, the
engines' commands, the Annulus, contexts and halts, trace, security and power. Sparse data are lists of
key and value pairs in rising key order; what an unlisted key reads as is said at each field. The host
part of every line of INVENTORY.md's State list stands in brackets: width, file, rule, reset. -/

namespace Sys2Proof.Machine

/-- Sparse data by number: pairs in strictly rising key order, none equal to the default. -/
abbrev Cells (α : Type) := List (Nat × α)
/-- Records by number: pairs in strictly rising key order. -/
abbrev Tab (α : Type) := List (Nat × α)

/-- What a lane's element of a v register holds (R45, R52, R60, R158). -/
inductive Elem where
  /-- a known value -/
  | val (w : Word)
  /-- a form a·X + b over symbol `sym`; `flt` floating, `fresh` the untransformed mark -/
  | form (sym : Nat) (a b : Word) (flt fresh : Bool)
  /-- a poisoned element: the held value, the symbol id, and whether its form was floating -/
  | pois (w : Word) (sym : Nat) (flt : Bool)
  /-- awaiting the result of outstanding operation `op`, and the word held before it -/
  | pend (op : Nat) (old : Word)
  deriving DecidableEq, Repr

/-- What an s register holds (R45, R158, R242): a value, or the result of an outstanding operation with
the value held before it. -/
inductive SVal where
  | val (w : Word)
  | pend (op : Nat) (old : Word)
  deriving DecidableEq, Repr

/-- What an h register holds (R45, R158). -/
inductive HVal where
  | val (b : BitVec 8192)
  | pend (op : Nat) (old : BitVec 8192)
  deriving DecidableEq, Repr

/-- The states of a lane slot (R20), with what a parked lane waits for. -/
inductive LaneState where
  | never
  | running
  | exited
  /-- parked in `mwait mK` (R31) -/
  | mwait (k : Nat)
  /-- parked in `wait`, for armed wait `w` of the group (R40) -/
  | wait (w : Nat)
  /-- parked in `sleep.at` until an instant (R41) -/
  | sleep (until_ : Nat)
  /-- parked in `sleep.at.prom` on the object at a scratch address, until a promised instant if one stood
  at the issue (R193) -/
  | promise (addr : Word) (until_ : Option Nat)
  /-- parked at barrier `n` of cluster scope or team scope (R195) -/
  | bar (cluster : Bool) (n : Nat)
  deriving DecidableEq, Repr

/-- How a lane came to its pcv, for the faults of its first issue there (R153, R154, R183). -/
inductive Arrival where
  /-- by issue, a release, a trap or a write of pcv -/
  | along
  /-- by the kernel entry, `bra`, `brc` or `call`: a clause header must lie there -/
  | header
  /-- by `bri` or `ret` -/
  | offset
  deriving DecidableEq, Repr

/-- A lane slot (R20, R25) and its fragment tag (R240, R297). -/
structure Lane where
  /-- state of the slot [2 bits; 02_execution.md R20; never] -/
  st : LaneState
  /-- `pcv` element: the code offset of the next instruction [32; 03_state.md R25, R45; 0] -/
  pcv : Word
  /-- instruction length to move past when the park is released [3; 02_execution.md R31; 0] -/
  adv : Nat
  /-- the lane's pixel x, y of its fragment tag [2 × 14; 14_raster.md R297; 0] -/
  px : Nat
  py : Nat
  /-- covered samples of the fragment tag [4; 14_raster.md R297; 0] -/
  cover : Nat
  /-- how the lane came to its pcv [2; 08_encoding.md R153, 09_isa_control.md R183; along] -/
  hop : Arrival
  deriving DecidableEq, Repr

/-- A symbol slot (R52, R57, R60). -/
structure Sym where
  /-- mode at allocation: always (true) or opportunistic [1; 03_state.md R57; –] -/
  always : Bool
  /-- floating forms -/
  flt : Bool
  /-- X of each executing lane, fixed at the load's issue or capture [32 × 32; R57, R59; –] -/
  xs : Cells Word
  /-- lanes whose checks failed (poisoned) [32; R60; 0] -/
  pois : Word
  /-- X has been delivered [1; R57; 0] -/
  delivered : Bool
  /-- X is known (an `ann.ld.sym` has been captured) [1; R149; 0] -/
  known : Bool
  /-- memory-layer clock of the delivery of an `ann.ld.sym`, the one after its last capture [–; 07_annulus.md R149; none] -/
  due : Option Nat
  /-- order of allocation [–; R57; 0] -/
  stamp : Nat
  deriving DecidableEq, Repr

/-- An outstanding long-latency operation of a group (R157, R158). -/
structure Op where
  /-- flag charged, if any [4; 08_encoding.md R157; –] -/
  flag : Option Nat
  /-- results still to be written to v elements (key 32·r + lane) -/
  vw : List (Nat × Word)
  /-- results still to be written to s registers -/
  sw : List (Nat × Word)
  /-- result still to be written to an h register -/
  hw : Option (Nat × BitVec 8192)
  /-- completed by its own unit (a station, a bank unit, a queue) and not by ACCESS_PERFORMED -/
  ext : Bool
  deriving DecidableEq, Repr

/-- A condition word of `wait` with its argument as read at the issue (R191, R192). -/
inductive WCond where
  | none
  | flag (k : Nat)
  /-- a barrier object: core, and offset in that core's team of the cluster -/
  | object (tid : Nat) (off : Nat)
  | event (n : Nat) (signalled : Bool)
  | message (h : Nat)
  | annulus (w : Nat)
  | time (t : Nat)
  deriving DecidableEq, Repr

/-- An armed `wait` (R192). -/
structure ArmedWait where
  /-- `wait.any` (true) or `wait.all` -/
  any : Bool
  /-- result register -/
  dst : Nat
  /-- its condition words -/
  conds : List WCond
  /-- absolute TIME, or none [64; 09_isa_control.md R192; –] -/
  deadline : Option Nat
  deriving DecidableEq, Repr

/-- The unit of prefix options in force for an issue (R163, R164). -/
structure Pfx where
  /-- the fourth operand D, present -/
  d : Option Nat
  /-- flush subnormals -/
  ftz : Bool
  /-- masked-off lanes receive 0 -/
  zero : Bool
  /-- rounding mode, 7 for none given -/
  rnd : Nat
  /-- mask register named, if any -/
  mask : Option Nat
  deriving DecidableEq, Repr

/-- What a group has taken in of the instruction at an issue address: that its lanes have entered the
clause past its WAIT (R156), and the prefix word before the instruction (R164). -/
structure Latch where
  /-- issue address it stands for -/
  at_ : Nat
  /-- the WAIT test of the header has been passed -/
  entered : Bool
  pfx : Option Pfx
  /-- a nonzero reserved bit in the prefix (row 7 of R173) -/
  pfxBad : Bool
  deriving DecidableEq, Repr

/-- An armed or fired `ann.wait` watch (R148, R242). -/
structure Watch where
  /-- Annulus address -/
  addr : Word
  /-- condition of R242 -/
  cond : WatchCond
  /-- comparand -/
  cmp : Word
  /-- result register [6; 07_annulus.md R148; –] -/
  dst : Nat
  /-- outstanding operation that its firing completes -/
  op : Nat
  /-- it has fired -/
  fired : Bool
  deriving DecidableEq, Repr

/-- The group's names and launch facts, which no instruction changes (R45, R51, R346). -/
structure GroupId where
  /-- context number [6; 19_privileged.md R323; 0] -/
  ctx : Nat
  /-- team, or none for a fragment group [–; 14_raster.md R297; none] -/
  tid : Option Nat
  /-- launch identifier `%launch` [32; 21_scheduling.md R351; 0] -/
  launch : Nat
  /-- linear team number of R285, 0xFFFFFFFF for a fragment group [32; 22_traps.md R380; 0] -/
  teamNo : Nat
  /-- `%grp`, `%ngrp` [5, 6; 03_state.md R51; 0] -/
  grp : Nat
  ngrp : Nat
  /-- `%team.x`, `%team.y`, `%nteam.x`, `%nteam.y` [4 each; R51; 0] -/
  tx : Nat
  ty : Nat
  nw : Nat
  nh : Nat
  /-- `%clu.x`, `.y`, `.z` and `%nclu.x`, `.y`, `.z` [16 each; R51; 0] -/
  cx : Nat
  cy : Nat
  cz : Nat
  gx : Nat
  gy : Nat
  gz : Nat
  /-- supervisor level [1; 19_privileged.md R322; 0] -/
  sup : Bool
  /-- belongs to a handler team [1; 19_privileged.md R325; 0] -/
  handler : Bool
  /-- code base `%code` [64; 03_state.md R51; 0] -/
  codeBase : Nat
  /-- entry code offset [32; 21_scheduling.md R346; 0] -/
  entry : Nat
  /-- code offset of the local-trap handler, if the kernel has a trap entry [27; 22_traps.md R371; none] -/
  trapEntry : Option Nat
  /-- code as it stood at the launch [–; 08_encoding.md R152; 0] -/
  code : Nat
  /-- declared v, h and c registers [8, 5, 2; 03_state.md R47; 0] -/
  nv : Nat
  nhr : Nat
  ncr : Nat
  /-- fragment groups: plan number, draw-state slot, sequence number [–; 14_raster.md R297; none] -/
  frag : Option Nat
  deriving DecidableEq, Repr

/-- A resident or saved group: its program-visible state (R45) and its issue state (R26 to R38). -/
structure Group where
  /-- names and launch facts -/
  id : GroupId
  /-- place: core, bank, wedge, place in the wedge [10, 2, 2, 5; 19_privileged.md R330; –] -/
  core : Nat
  bank : Nat
  wedge : Nat
  slot : Nat
  /-- 32 lane slots [–; 02_execution.md R20; never launched] -/
  lanes : List Lane
  /-- v0–v127, key 32·register + lane [32 each; 03_state.md R45; 0 at launch] -/
  v : Cells Elem
  /-- s0–s63 [32 each; 03_state.md R45; 0 or launch arguments] -/
  s : Cells SVal
  /-- m0–m11 [32 each; 03_state.md R30, R45; 0] -/
  m : Cells Word
  /-- f0–f11: counts of outstanding operations, 0–63 [6 each; 08_encoding.md R157; 0] -/
  f : Cells Nat
  /-- h0–h15 [8192 each; 03_state.md R45; 0] -/
  h : Cells HVal
  /-- c0–c1, key 8192·register + counter [8192 × 8, signed; 03_state.md R45; 0] -/
  c : Cells Int
  /-- `tile` [6; 03_state.md R50; 32] -/
  tile : Nat
  /-- `cause` [8; 03_state.md R50; 0] -/
  cause : Nat
  /-- `cause` was written since the context's halt line rose [1; 22_traps.md R374; 0] -/
  causeUp : Bool
  /-- lanes of fragments that hold a fault, which issue again only on `resume` or in a single step
  [32; 22_traps.md R382; 0] -/
  faulted : Word
  /-- `symst`.RMODE [3; 03_state.md R48; 0] -/
  rmode : Nat
  /-- `symst`.MODE [2; 03_state.md R48; from `.sym`] -/
  mode : Nat
  /-- `htie`.LFSR [32; 03_state.md R49; 1 + %grp] -/
  lfsr : Word
  /-- `htie`.SRC [1; 03_state.md R49; 1] -/
  tieSrc : Bool
  /-- `htie`.HREG [4; 03_state.md R49; 0] -/
  tieReg : Nat
  /-- symbol slots 0–7 (PEND is the set of keys, POIS their poison) [–; 03_state.md R48, R53; none] -/
  syms : Tab Sym
  /-- issue floor F [32; 02_execution.md R26; 0] -/
  floor : Nat
  /-- starvation count S, 0–64 [7; 02_execution.md R27; 0] -/
  starve : Nat
  /-- last issue address, against which R27 counts [32; 02_execution.md R27; 0] -/
  lastA : Nat
  /-- lanes of the last issue, which the third row of R27 passes over [32; 02_execution.md R27, R39; 0] -/
  lastLanes : Word
  /-- what it has taken in of the instruction at its issue address [–; 08_encoding.md R156, R164; none] -/
  latch : Option Latch
  /-- progress of an instruction that acts in several moments before it completes (R329, R134, R198):
  0 none [–; model's own; 0] -/
  phase : Nat
  /-- values held by such an instruction between its moments [–; model's own; empty] -/
  phaseVals : List Nat
  /-- issue address and lanes of such an instruction [–; model's own; 0] -/
  phaseAt : Nat
  phaseLanes : Word
  /-- in the active set [1; 02_execution.md R34; –] -/
  active : Bool
  /-- order of entry into its set, and logic clock of that entry [–; 02_execution.md R34, R35, R38; –] -/
  order : Nat
  /-- logic clock of the entry into its set [–; 02_execution.md R35, R38; –] -/
  entered : Nat
  /-- logic clock from which the group has been ready in the pending set [–; 02_execution.md R38; 0] -/
  readySince : Option Nat
  /-- entered the active set by a forced swap [1; 02_execution.md R38; 0] -/
  forced : Bool
  /-- logic clock since which an active group has stood at a header whose WAIT does not hold, and a long-latency
  dependence met at its last try to issue [–; 02_execution.md R37; none] -/
  waitSince : Option Nat
  /-- a long-latency dependence was met at its last try to issue [1; 02_execution.md R37; 0] -/
  blocked : Bool
  /-- its next instruction could issue at the last logic clock [1; 02_execution.md R35; 0] -/
  ready : Bool
  /-- watches 0–3 [–; 07_annulus.md R148; none] -/
  watches : Tab Watch
  /-- SYS.CTXSEL [6; 19_privileged.md R327; own context] -/
  ctxSel : Nat
  /-- outstanding long-latency operations [–; 08_encoding.md R157; none] -/
  ops : Tab Op
  /-- armed waits [–; 09_isa_control.md R192; none] -/
  waits : Tab ArmedWait
  /-- barrier at which the group has arrived [–; 09_isa_control.md R195; none] -/
  arrived : Option (Bool × Nat)
  /-- issues since the halt line arrived (SKID) [16; 22_traps.md R376; 0] -/
  skid : Nat
  /-- single step (R420, R421): 0 none, 1 the group may make one issue within a halt, 4 has made it, 2 it takes STEP
  after its next issue, 3 has made that issue [3; 24_trace.md R419; 0] -/
  step : Nat
  /-- lanes that will take STEP in place of their next issue [32; 24_trace.md R421; 0] -/
  stepLanes : Word
  /-- captures cancelled by a halt or pre-emption, to be entered again (R150) [–; 07_annulus.md R150; none] -/
  replay : List Nat
  /-- submissions already made by fragment lanes: key 8·lane + (0 for `ropz`, 1 + target) [–; 11_isa_memory.md R240; none] -/
  sent : List Nat
  deriving DecidableEq, Repr

/-- A posted receive (R286). -/
structure Recv where
  /-- source team, 0xFFFFFFFF for any [32; 13_isa_hyper_engines.md R286; –] -/
  src : Word
  /-- tag, 0xFFFFFFFF for any [32; 13_isa_hyper_engines.md R286; –] -/
  tag : Word
  /-- scratch address where the message lands [32; 13_isa_hyper_engines.md R286; –] -/
  landing : Word
  /-- order of posting -/
  stamp : Nat
  deriving DecidableEq, Repr

/-- A team (R20, R42, R43). -/
structure Team where
  /-- context [6; 02_execution.md R20; –] -/
  ctx : Nat
  /-- partition -/
  part : Nat
  /-- running launch number -/
  lid : Nat
  /-- running cluster number -/
  cid : Nat
  /-- `%launch` identifier [32; 21_scheduling.md R351; –] -/
  launch : Nat
  /-- linear team number [32; 13_isa_hyper_engines.md R285; –] -/
  teamNo : Nat
  /-- core [10; 02_execution.md R24; –] -/
  core : Nat
  /-- context bank [2; 19_privileged.md R324; –] -/
  bank : Nat
  /-- place in the cluster, x [4; 02_execution.md R22; –] -/
  tx : Nat
  /-- place in the cluster, y [4; 02_execution.md R22; –] -/
  ty : Nat
  /-- groups not yet ended (team counter) [6; 02_execution.md R42; groups] -/
  left : Nat
  /-- scratch granules held, in offset order [64; 05_spaces.md R97; none] -/
  grans : List Nat
  /-- idempotent status [1; 21_scheduling.md R364; IDEM] -/
  idem : Bool
  /-- a handler team [1; 19_privileged.md R325; 0] -/
  handler : Bool
  /-- posted receives by handle 0–63 [–; 13_isa_hyper_engines.md R286; none] -/
  posts : Tab Recv
  /-- handles whose condition is met [64; 13_isa_hyper_engines.md R286; none] -/
  met : List Nat
  /-- ANN_ALIAS for a line still aboard has been taken [1; 02_execution.md R43; 0] -/
  aliased : Bool
  /-- register space of its ended groups, held until it retires: wedge, vector and hypervector bytes
  [–; 02_execution.md R43; none] -/
  ended : List (Nat × Nat × Nat)
  deriving DecidableEq, Repr

/-- A resident cluster (R22, R42, R354). -/
structure Cluster where
  /-- running launch number -/
  lid : Nat
  /-- partition -/
  part : Nat
  /-- context -/
  ctx : Nat
  /-- place in the grid and linear number -/
  lin : Nat
  /-- quadrant [3; 02_execution.md R23; –] -/
  quad : Nat
  /-- origin column [4; 02_execution.md R23; –] -/
  x0 : Nat
  /-- origin row [3; 02_execution.md R23; –] -/
  y0 : Nat
  /-- width [4; 02_execution.md R22; –] -/
  w : Nat
  /-- height [3; 02_execution.md R22; –] -/
  h : Nat
  /-- teams not yet retired (cluster counter) [4; 02_execution.md R42; teams] -/
  left : Nat
  /-- its teams, by number -/
  teams : List Nat
  /-- arrivals at the barrier router: key 2·number pairs of team and barrier (R395) [16 counters; 23_stack_fabric.md R395; 0] -/
  arrivals : List (Nat × Nat)
  deriving DecidableEq, Repr

/-- A saved team: its record, its groups, scratch bytes, B store bytes (R361, R362). -/
structure SavedTeam where
  /-- its number -/
  tid : Nat
  /-- its record -/
  team : Team
  /-- its groups with their numbers -/
  groups : List (Nat × Group)
  /-- the bytes of its scratch -/
  scratch : List Host.Cell
  /-- the bytes of its B store, if it owned one -/
  bstore : Option (List Host.Cell)
  /-- flushed: the team starts as at launch when it is placed again (R365) -/
  flushed : Bool
  deriving DecidableEq, Repr

/-- A cluster taken off its cores: saved, or to start afresh where its teams were flushed (R361, R365). -/
structure SavedCluster where
  /-- its number -/
  cid : Nat
  /-- its record -/
  cluster : Cluster
  /-- its teams -/
  saved : List SavedTeam
  /-- granules of the save area it takes -/
  granules : Nat
  deriving DecidableEq, Repr

/-- A launch that has become head (R42, R346, R350). -/
structure Launch where
  /-- partition [3; 21_scheduling.md R346; –] -/
  part : Nat
  /-- hardware queue [6; 21_scheduling.md R348; –] -/
  queue : Nat
  /-- context [6; 21_scheduling.md R346; –] -/
  ctx : Nat
  /-- identifier [32; 21_scheduling.md R351; –] -/
  ident : Nat
  /-- the 32 words of its descriptor [128 bytes; 21_scheduling.md R346; –] -/
  desc : List Word
  /-- number of its snapshot of memory for fetching [–; 08_encoding.md R152; –] -/
  code : Nat
  /-- next cluster to place, in linear order [24; 21_scheduling.md R350; 0] -/
  nextLin : Nat
  /-- clusters not yet complete (grid counter) [24; 02_execution.md R42; clusters] -/
  left : Nat
  /-- launch counter: 1 plus joined children [–; 02_execution.md R42; 1] -/
  count : Nat
  /-- launch that submitted it with join -/
  parent : Option Nat
  /-- a handler launch [1; 19_privileged.md R325; 0] -/
  handler : Bool
  deriving DecidableEq, Repr

/-- An entry of a hardware queue (R349, R198). -/
structure QEntry where
  /-- descriptor words of a host ring entry -/
  words : List Word
  /-- descriptor address of a device-side launch, read at the head -/
  addr : Option Nat
  /-- context of a device-side launch -/
  ctx : Nat
  /-- identifier given at the issue of a device-side launch, 0 otherwise -/
  ident : Nat
  /-- launch that submitted it with join -/
  parent : Option Nat
  deriving DecidableEq, Repr

/-- A hardware queue's registers and entries (R348, R350). -/
structure Queue where
  /-- QCFG.EN [1; 21_scheduling.md R348; 0] -/
  en : Bool
  /-- QCFG.HOST [1; 21_scheduling.md R348; 0] -/
  host : Bool
  /-- QCFG.PRE [1; 21_scheduling.md R348; 0] -/
  pre : Bool
  /-- QCFG.PRIO [3; 21_scheduling.md R348; 0] -/
  prio : Nat
  /-- QCTX [6; 21_scheduling.md R348; 0] -/
  ctx : Nat
  /-- QRING.ADDR, bits [63:12] [52; 21_scheduling.md R348; 0] -/
  ring : Nat
  /-- QRING.LOG2N [4; 21_scheduling.md R348; 4] -/
  log2n : Nat
  /-- QHEAD [16; 21_scheduling.md R348; 0] -/
  head : Nat
  /-- QTAIL [16; 21_scheduling.md R348; 0] -/
  tail : Nat
  /-- descriptors held, oldest first; their number is QCFG.COUNT [32 entries; 21_scheduling.md R349; none] -/
  entries : List QEntry
  /-- the head launch, once numbered and checked -/
  headLaunch : Option Nat
  /-- the head waits for its event [1; 21_scheduling.md R350; 0] -/
  armed : Bool
  /-- the event of the head has been signalled [1; 21_scheduling.md R350; 0] -/
  signalled : Bool
  deriving DecidableEq, Repr

/-- A waiter of a named event (R356). -/
inductive Waiter where
  | group (g : Nat) (w : Nat)
  | head (q : Nat)
  deriving DecidableEq, Repr

/-- An entry of a partition's event table or of its extension (R356, R357). -/
structure EvEntry where
  /-- event number [16; 21_scheduling.md R356; –] -/
  ev : Nat
  /-- who waits -/
  waiters : List Waiter
  /-- it stands in the extension [1; 21_scheduling.md R357; 0] -/
  ext : Bool
  deriving DecidableEq, Repr

/-- A 288-byte fault record (R344). -/
structure FaultRec where
  /-- page-table entry used [128; 20_translation.md R344; –] -/
  entry : BitVec 128
  /-- TIME [64; 20_translation.md R344; –] -/
  time : Nat
  /-- failing lanes [32; 20_translation.md R344; –] -/
  lmask : Word
  /-- KIND [4; 20_translation.md R344; –] -/
  kind : Nat
  /-- REASON [4; 20_translation.md R344; –] -/
  reason : Nat
  /-- level of the walk [4; 20_translation.md R344; –] -/
  level : Nat
  /-- source number [16; 20_translation.md R344; –] -/
  source : Nat
  /-- addresses of the failing lanes -/
  addrs : List (Nat × Nat)
  deriving DecidableEq, Repr

/-- A stop record (R380), and the fault record beside it. -/
structure StopRec where
  /-- TIME [64; 22_traps.md R380; –] -/
  time : Nat
  /-- launch identifier [32; 22_traps.md R380; –] -/
  launch : Nat
  /-- linear team number [32; 22_traps.md R380; –] -/
  team : Nat
  /-- group in the team [8; 22_traps.md R380; –] -/
  group : Nat
  /-- CAUSE [8; 22_traps.md R380; –] -/
  cause : Nat
  /-- KIND [4; 22_traps.md R380; –] -/
  kind : Nat
  /-- LTF [1; 22_traps.md R380; –] -/
  ltf : Bool
  /-- a local trap raised within the skid [1; 22_traps.md R380; –] -/
  skidTrap : Bool
  /-- source number [16; 22_traps.md R380; –] -/
  source : Nat
  /-- SKID [16; 22_traps.md R380; –] -/
  skid : Nat
  /-- group handle of R330 [19; 22_traps.md R380; –] -/
  handle : Nat
  /-- code offset [32; 22_traps.md R380; –] -/
  pc : Nat
  /-- LMASK [32; 22_traps.md R380; –] -/
  lmask : Word
  /-- SIBMASK [32; 22_traps.md R380; –] -/
  sibmask : Word
  /-- DETAIL [64; 22_traps.md R381; –] -/
  detail : Dword
  /-- POS [64; 22_traps.md R381; –] -/
  pos : Dword
  /-- AUX [64; 22_traps.md R381; –] -/
  aux : Dword
  /-- the fault record, if any -/
  frec : Option FaultRec
  deriving DecidableEq, Repr

/-- A raised halt line (R375 to R379). -/
structure Halt where
  /-- TIME of the rise [64; 22_traps.md R378; –] -/
  time : Nat
  /-- source number of the raiser [16; 22_traps.md R378; –] -/
  src : Nat
  /-- HALT or DBGSTOP when nothing else is recorded -/
  base : Nat
  /-- stop records so far -/
  recs : List StopRec
  /-- units the line has reached, with the logic clock of arrival -/
  arrived : List (Nat × Nat)
  /-- units that have stopped -/
  stopped : List Nat
  /-- the stop area has been written, and published (R377) -/
  written : Bool
  /-- records that the stop area holds or counts as lost; later faults add to `recs` (R375) -/
  placed : Nat
  /-- the slot has been asked for and declined or released, so no handler runs for this halt -/
  noHandler : Bool
  deriving DecidableEq, Repr

/-- A context's own state beyond its registers (R322 to R327). -/
structure Ctx where
  /-- the raised halt line, if any [–; 22_traps.md R375; none] -/
  halt : Option Halt
  /-- the handler team of the context, while one runs (INHAND) -/
  handler : Option Nat
  /-- next sequence number of the primitive distributor [32; 14_raster.md R292; 0] -/
  seq : Nat
  /-- the surface table has been zeroed since creation (R327) -/
  tableZeroed : Bool
  /-- halts of the context so far, SEQ of R378 [32; 22_traps.md R378; 0] -/
  halts : Nat
  /-- SEQ of the halt that the handler team was started for [32; 19_privileged.md R325; 0] -/
  served : Nat
  deriving DecidableEq, Repr

/-- The bank a core has selected and what its four banks are bound to (R324). -/
structure CoreBanks where
  /-- the selected bank [2; 19_privileged.md R324; none] -/
  selected : Option Nat
  /-- context bound to each bank [4 × 7; 19_privileged.md R324; unbound] -/
  bound : List (Option Nat)
  /-- TIME at which the selected bank was selected (R355) -/
  since : Nat
  deriving DecidableEq, Repr

/-- A core's memory-layer column: REMAP and the retired buses (R367, R386, R388). -/
structure Column where
  /-- sub-bank of each mapped unit 0–7 [8 × 4; 23_stack_fabric.md R386; unit u on u] -/
  units : List (Option Nat)
  /-- buses retired [8 × 1; 21_scheduling.md R348; none] -/
  retired : List Nat
  /-- the core is degraded [1; 21_scheduling.md R367; 0] -/
  degraded : Bool
  deriving DecidableEq, Repr

/-- A translation held by a TLB (R341). -/
structure TlbEntry where
  /-- core c, or 1024 + quadrant -/
  owner : Nat
  /-- context [6; 20_translation.md R341; –] -/
  ctx : Nat
  /-- virtual address of the page -/
  page : Nat
  /-- a page of 32 MiB -/
  big : Bool
  /-- the entry held [128; 20_translation.md R337; –] -/
  pte : BitVec 128
  deriving DecidableEq, Repr

/-- A read copy of a 256-byte sector in a core's L1 (R87, R115, R119). -/
structure L1Copy where
  /-- the 256 bytes of the sector -/
  data : List Byte
  /-- lease end in logical time -/
  lease : Nat
  /-- TIME of the grant [64; 06_ordering.md R119; –] -/
  grant : Nat
  /-- tensor id [10; 05_spaces.md R93; –] -/
  tid : Nat
  /-- lent granule that holds it [6; 05_spaces.md R87, R88; –] -/
  gran : Nat
  deriving DecidableEq, Repr

/-- A line of the last-level cache (R89, R91, R92). -/
structure LlcLine where
  /-- tensor id [10; 05_spaces.md R91; –] -/
  tid : Nat
  /-- class [2; 05_spaces.md R91; –] -/
  cls : Nat
  /-- the last use, for the least recently used choice -/
  used : Int
  /-- HBM4's own bytes of the dirty sectors: offset in the line, byte -/
  old : List (Nat × Byte)
  /-- sectors present, the units of fill and transfer [4; 05_spaces.md R89; –] -/
  secs : List Nat
  /-- dirty sectors -/
  dirty : List Nat
  deriving DecidableEq, Repr

/-- A reduction held in a partial copy of its line (R125). -/
structure Partial where
  /-- address -/
  addr : Nat
  /-- 64 bits -/
  wide : Bool
  /-- operation -/
  op : AtomOp
  /-- operand -/
  operand : Dword
  /-- SRAM die that holds the copy -/
  die : Nat
  /-- stamp [64; 06_ordering.md R115, R125; –] -/
  stamp : Nat
  deriving DecidableEq, Repr

/-- What a byte was before a write: TIME and stamp of the write, the byte's key, its old value, and of an engine's write
the command, with the TIME from which every reader sees the write once that is set (R130, R133). -/
structure OldByte where
  /-- TIME of the write -/
  time : Nat
  /-- its stamp -/
  stamp : Nat
  /-- key in `State.mem`; of scratch 2^100 and of a surface 2^110 beyond its key there -/
  key : Nat
  /-- the byte before it -/
  byte : Byte
  /-- number of the engine command that wrote, 0 for a lane or an agent outside -/
  cmd : Nat
  /-- TIME from which no reader has the old byte any more, once the command's completion update is made -/
  until_ : Option Nat
  deriving DecidableEq, Repr

/-- Bytes that an engine's write puts in one place. -/
structure LatePart where
  /-- in scratch, or in memory -/
  scr : Bool
  /-- key in `State.scr` or `State.mem` -/
  key : Nat
  /-- bytes -/
  n : Nat
  /-- their value, little-endian -/
  v : Nat
  /-- tensor id of the page -/
  tid : Nat
  /-- the team whose scratch it is -/
  team : Option Nat
  deriving DecidableEq, Repr

/-- A write of an engine command that has arrived and is not yet visible to anyone (R130). -/
structure LateWrite where
  /-- number of its command -/
  cmd : Nat
  /-- the pushing group -/
  g : Nat
  /-- what becomes visible at one point -/
  parts : List LatePart
  /-- TIME by which it is visible, once the command's completion update is made -/
  due : Option Nat
  deriving DecidableEq, Repr

/-- A tile's metadata, and whether it differs from home (R104, R108, R110). A tile with no record holds the
clear value in every element, in the state `surf.def` gave it. -/
structure Tile where
  /-- mode byte, 0–4 [8; 05_spaces.md R108; 1 or 0] -/
  mode : Nat
  /-- residency bit [1; 05_spaces.md R108; 1] -/
  resident : Bool
  /-- it differs from its home slot [1; 05_spaces.md R111; 0] -/
  dirty : Bool
  deriving DecidableEq, Repr

/-- A reservation of arena bytes in one column (R103, R110). -/
structure Resv where
  /-- column [10; 05_spaces.md R103; –] -/
  core : Nat
  /-- context -/
  ctx : Nat
  /-- surface slot [10; 05_spaces.md R98; –] -/
  slot : Nat
  /-- bytes reserved -/
  bytes : Nat
  /-- TIME of the last touch of its tiles in this column -/
  touched : Nat
  /-- a spill write of it failed in the eviction under way in this column (R403) -/
  failed : Bool
  deriving DecidableEq, Repr

/-- A granule of a core's scratch (R87, R88, R97). -/
structure Granule where
  /-- team that holds it, if any -/
  owner : Option Nat
  /-- context that left its bytes there, none when they read 0 -/
  lastCtx : Option Nat
  deriving DecidableEq, Repr

/-- A capture or watch in a station's entry (R143, R144, R150). -/
structure Capture where
  /-- group -/
  g : Nat
  /-- context -/
  ctx : Nat
  /-- slot [11; 07_annulus.md R139; –] -/
  slot : Nat
  /-- 0 board, 1 alight, 2 load, 3 op, 4 watch, 5 symbolic load -/
  kind : Nat
  /-- operation of an `ann.op` -/
  op : AtomOp
  /-- 64 bits -/
  wide : Bool
  /-- lanes with address offset, data, compare and destination register -/
  lanes : List (Nat × Nat × Dword × Dword)
  /-- first destination register -/
  dst : Nat
  /-- outstanding operation of the group, symbol number, or watch number -/
  oid : Nat
  /-- line address of a board -/
  line : Nat
  /-- clock of entry; none while it waits for a free entry -/
  entry : Option Nat
  /-- cancelled by a halt, a window or pre-emption, to be entered again -/
  cancelled : Bool
  /-- it has failed at its station, and stays outstanding (R140, R147) -/
  failed : Bool
  /-- order of issue -/
  stamp : Nat
  /-- code offset -/
  pc : Nat
  /-- team -/
  team : Option Nat
  /-- the group's names in a stop record: launch identifier, linear team number, group in the team, and the handle it had
  at the issue (R380) -/
  launch : Nat
  teamNo : Nat
  grp : Nat
  handle : Nat
  deriving DecidableEq, Repr

/-- A line aboard a slot (R145, R147): its physical address, the team that boarded it, the virtual address it was
boarded by, and its tensor id. -/
structure Aboard where
  /-- physical address of the line -/
  line : Nat
  /-- team that boarded it -/
  team : Option Nat
  /-- virtual address it was boarded by -/
  va : Nat
  /-- tensor id -/
  tid : Nat
  deriving DecidableEq, Repr

/-- Stages of a command (R275, R130, R262). -/
inductive Stage where
  /-- held in the core's request engine or matrix queue -/
  | queued
  /-- taken by unit `u` -/
  | taken (u : Nat)
  /-- its writes are performed and only its completion update is due -/
  | finished
  /-- stopped at its skid boundary -/
  | stopped (u : Nat)
  /-- put aside with its saved team, to go on in a free engine when the team is back (R289) -/
  | aside
  deriving DecidableEq, Repr

/-- The kinds of commands the engines run. -/
inductive CmdKind where
  | copy | tensor | gather | coll | rast | msg | putSig | getp | mbLd | mbZero | mmx | lut | list
  deriving DecidableEq, Repr

/-- A command accepted by an engine, a matrix queue or the request engine (R244, R246, R274). -/
structure Cmd where
  /-- kind of command -/
  kind : CmdKind
  /-- the command, descriptor or parameter words -/
  words : List Word
  /-- shape words of a TENSOR, register A of an `mmx.r`, payload words of a `put.sig` -/
  extra : List Word
  /-- context -/
  ctx : Nat
  /-- group -/
  g : Nat
  /-- team -/
  tid : Option Nat
  /-- core -/
  core : Nat
  /-- launch identifier [32; 13_isa_hyper_engines.md R274; –] -/
  launch : Nat
  /-- linear team number -/
  teamNo : Nat
  /-- group in the team -/
  grp : Nat
  /-- code offset of the push [32; 22_traps.md R381; –] -/
  pc : Nat
  /-- where it stands -/
  stage : Stage
  /-- place reached: bytes, elements or steps done -/
  pos : Nat
  /-- amount of the barrier object already decremented -/
  dec : Nat
  /-- clamped indices, accumulator, or phase of a collective -/
  acc : Nat
  /-- flag charged until completion -/
  flag : Option Nat
  /-- the pushing group's operation, outstanding until a unit takes the command; 0 none -/
  oid : Nat
  /-- it has begun reading (its acquire is done) -/
  begun : Bool
  /-- sectors or entries completed after the halt line arrived -/
  skid : Nat
  /-- the address of a list, or the destination team of a message -/
  aux : Nat
  /-- its number in `State.cmds` -/
  num : Nat
  /-- the copy engine that took it last [4; 24_trace.md R407; 0] -/
  eng : Nat
  /-- TIME of its push [64; 06_ordering.md R133; –] -/
  pushed : Nat
  /-- logical time of the pushing group's core at its push [64; 06_ordering.md R132; –] -/
  seen : Nat
  /-- rows of an `mb.ld` or of D not yet done, the one at work first [–; 12_isa_matrix.md R252, R257; none] -/
  rows : List Nat
  /-- elements not yet done of the row of D at work, the one at work first [–; 12_isa_matrix.md R257; none] -/
  cols : List Nat
  deriving DecidableEq, Repr

/-- A message in flight or in a core's overflow queue (R285 to R287). -/
structure Msg where
  /-- context -/
  ctx : Nat
  /-- destination launch identifier [32; 13_isa_hyper_engines.md R285; –] -/
  launch : Nat
  /-- destination team number [32; 13_isa_hyper_engines.md R285; –] -/
  team : Nat
  /-- source team number [32; 13_isa_hyper_engines.md R285; –] -/
  srcTeam : Nat
  /-- source launch identifier [32; 13_isa_hyper_engines.md R285; –] -/
  srcLaunch : Nat
  /-- tag [32; 13_isa_hyper_engines.md R285; –] -/
  tag : Word
  /-- words of the payload -/
  payload : List Word
  /-- core of the overflow queue that holds it, none in flight -/
  held : Option Nat
  /-- MSG_OVERFLOW has been raised for it -/
  refused : Bool
  /-- running number of the sending group -/
  sender : Nat
  /-- core whose request engine sends it -/
  unit : Nat
  /-- order of entry into the overflow queue [–; 13_isa_hyper_engines.md R287; –] -/
  entered : Nat
  deriving DecidableEq, Repr

/-- A surface as its table entry gives it (R99). -/
structure Surf where
  fmt : Nat
  /-- samples a pixel: 1 or 4 -/
  samples : Nat
  evict : Bool
  comp : Bool
  tid : Nat
  w : Nat
  h : Nat
  home : Nat
  clear : Nat
  deriving DecidableEq, Repr

/-- A triangle accepted by the distributor (R291 to R297). -/
structure Tri where
  /-- context -/
  ctx : Nat
  /-- sequence number [32; 14_raster.md R292; –] -/
  seq : Nat
  /-- its RAST command -/
  cmd : Nat
  /-- the draw state as read at acceptance, 16 words -/
  ds : List Word
  /-- the command's words -/
  words : List Word
  /-- launch identifier -/
  launch : Nat
  /-- raster engines still to take it -/
  quads : List Nat
  /-- its kernel's code, as fetched from, in `State.codes` -/
  code : Nat
  /-- the surfaces of its draw state as at acceptance: width, height and sample count of one of them -/
  surf : Option Surf
  /-- surface slots dropped since acceptance (R304) -/
  dropped : List Nat
  deriving DecidableEq, Repr

/-- A submission to a bank unit (R240). -/
structure Sub where
  /-- 0 `ropz`, 1 + t `ropc` to target t -/
  what : Nat
  /-- samples -/
  mask : Nat
  /-- depth or colour words -/
  words : List Word
  deriving DecidableEq, Repr

/-- An expected lane of a fragment group (R298). -/
structure FragLane where
  /-- lane slot [5; 14_raster.md R297; –] -/
  lane : Nat
  /-- pixel x [14; 14_raster.md R297; –] -/
  px : Nat
  /-- pixel y [14; 14_raster.md R297; –] -/
  py : Nat
  /-- covered samples [4; 14_raster.md R297; –] -/
  cover : Nat
  /-- barycentric of vertex 1 [32; 14_raster.md R296; –] -/
  b1 : Word
  /-- barycentric of vertex 2 [32; 14_raster.md R296; –] -/
  b2 : Word
  /-- depth of each sample [32 each; 14_raster.md R296; –] -/
  depth : List Word
  /-- submissions received and not yet applied -/
  subs : List Sub
  /-- the lane has exited: what it has not sent is empty -/
  closed : Bool
  /-- the samples that go on to the colour targets, once the depth part has been applied -/
  pass : Option Nat
  /-- what has been applied: 0 for `ropz`, 1 + t for target t -/
  did : List Nat
  deriving DecidableEq, Repr

/-- A fragment group expected by a bank unit (R297, R298). -/
structure Plan where
  /-- triangle -/
  tri : Nat
  /-- context -/
  ctx : Nat
  /-- sequence number [32; 14_raster.md R292; –] -/
  seq : Nat
  /-- quadrant -/
  quad : Nat
  /-- core of its bank unit -/
  core : Nat
  /-- square x -/
  sx : Nat
  /-- square y -/
  sy : Nat
  /-- its lanes -/
  lanes : List FragLane
  /-- its group has been launched -/
  launched : Bool
  /-- launched after the halt line of its context reached the raster engine -/
  skid : Bool
  /-- order in its raster engine -/
  order : Nat
  /-- operations of the group charged to its flag until applied: key lane and kind -/
  charges : List (Nat × Nat)
  /-- its group -/
  g : Nat
  /-- surface slots that its bank unit has written for it and not yet recoded (R302) -/
  wrote : List Nat
  /-- surface slots dropped since it was listed (R304) -/
  dropped : List Nat
  /-- surface slots at which its writes have stopped, until `resume` (R303) -/
  failed : List Nat
  deriving DecidableEq, Repr

/-- A `surf.def` whose status is still to come (R103, R237). -/
structure DefJob where
  /-- group, core, context and team -/
  g : Nat
  core : Nat
  ctx : Nat
  tid : Option Nat
  /-- surface slot [10; 11_isa_memory.md R236; –] -/
  slot : Nat
  /-- definition block [256; 11_isa_memory.md R236; –] -/
  block : Nat
  /-- its reservations have begun: another definition of the slot waits for it -/
  begun : Bool
  deriving DecidableEq, Repr

/-- A spill write still to complete (R111, R114, R403). -/
structure SpillReq where
  /-- context -/
  ctx : Nat
  /-- surface slot [10; 05_spaces.md R111; –] -/
  slot : Nat
  /-- tile index [22; 05_spaces.md R109; –] -/
  tile : Nat
  /-- column -/
  core : Nat
  deriving DecidableEq, Repr

/-- A stop-the-cluster broadcast under way (R418). -/
structure StopSent where
  /-- TIME at which it was sent -/
  since : Nat
  /-- context -/
  ctx : Nat
  /-- running number of the cluster -/
  cid : Nat
  deriving DecidableEq, Repr

/-- A Locus (R412, R413). -/
structure Locus where
  /-- records waiting, oldest first, each with its partition -/
  queue : List (Nat × List Word)
  /-- the record under the filter, if any -/
  cur : Option (Nat × List Word)
  /-- q0–q15 [16 × 32; 24_trace.md R413; 0] -/
  q : Cells Word
  /-- index of the next filter word [8; 24_trace.md R413; 0] -/
  index : Nat
  /-- the filter has decided: keep (true) or drop -/
  verdict : Option Bool
  /-- triggers to take once the record has been written or dropped -/
  freeze : Bool
  deriving DecidableEq, Repr

/-- The instruction a wedge has tagged (R410, R411). -/
structure Sample where
  /-- partition -/
  part : Nat
  /-- the group of the tagged issue; none until an issue is tagged -/
  g : Option Nat
  /-- code offset [32; 24_trace.md R408; –] -/
  pc : Nat
  /-- its first word [32; 24_trace.md R411; –] -/
  word : Word
  /-- STATE of R411 once it is known -/
  state : Option Nat
  /-- lanes executing [32; 24_trace.md R409; –] -/
  lanes : Word
  /-- cause of its trap, if any -/
  cause : Nat
  /-- launch identifier -/
  launch : Nat
  /-- linear team number -/
  team : Nat
  /-- group in the team -/
  group : Nat
  /-- lowest lane -/
  lane : Nat
  /-- furthest level that the lowest executing lane has reached [4; 24_trace.md R411; 0] -/
  level : Nat
  deriving DecidableEq, Repr

/-- A bus retirement under way (R390). -/
structure RetireJob where
  /-- core -/
  core : Nat
  /-- bus [3; 23_stack_fabric.md R390; –] -/
  bus : Nat
  /-- unit given up -/
  drop : Option Nat
  /-- unit moved, if any -/
  move : Option Nat
  /-- the copy of `move` to the sub-bank of `drop` is under way -/
  copying : Bool
  deriving DecidableEq, Repr

/-- What has been reported of a subnetwork's occupancy (R393). -/
structure Subnet where
  /-- TIME since which it has exceeded CONGEST.SUBNET without a break [64; 23_stack_fabric.md R393; none] -/
  busySince : Option Nat
  /-- TIME since which it has carried nothing [64; 23_stack_fabric.md R393; 0] -/
  idle : Option Nat
  deriving DecidableEq, Repr

/-- A wear indicator (R438). -/
structure Wear where
  /-- EOLH [16; 27_security_health.md R438; 0xFFFF] -/
  eolh : Nat
  /-- USED [8; 27_security_health.md R438; 0] -/
  used : Nat
  /-- STATE [2; 27_security_health.md R438; 0] -/
  state : Nat
  deriving DecidableEq, Repr

/-- A peer device as its requests to us see it (R401). -/
structure Peer where
  /-- lowest address it lets us reach -/
  base : Nat
  /-- size of that window in granules -/
  gran : Nat
  /-- it answers requests -/
  answers : Bool
  deriving DecidableEq, Repr

/-- A request to a peer that has had no reply (R401). -/
structure VlReq where
  /-- device [10; 23_stack_fabric.md R401; –] -/
  peer : Nat
  /-- issuing group -/
  g : Nat
  /-- context -/
  ctx : Nat
  /-- TIME of the request [64; 23_stack_fabric.md R401; –] -/
  since : Nat
  /-- number of the command that made it, if a command did -/
  cmd : Option Nat
  deriving DecidableEq, Repr

/-- What the step does next: the order of events and inputs the rules leave open (R1), held in State as
the model's own data. -/
inductive Turn where
  /-- the group issues, or tries to -/
  | issue (g : Nat)
  /-- the same, but of an instruction's accesses only the next `n` fall here in the memory order (R117, R127) -/
  | issueCut (g n : Nat)
  /-- a Locus runs one filter word or takes its next record -/
  | locus (k : Nat)
  /-- an event of the opcode table occurs -/
  | event (i : Instr)
  /-- TIME, the memory-layer clock and the logic clock advance -/
  | tick (ns mclk lclk : Nat)
  /-- a cache slice writes a dirty sector back -/
  | writeBack (sec : Nat)
  /-- an engine's write that has arrived, the `k`-th of those waiting, becomes visible (R130) -/
  | land (k : Nat)
  /-- a `surf.def` under way, by its operation's number, takes its next step (R237) -/
  | define (k : Nat)
  /-- the loader of a context places a code image: the run of the kernel entered at a global address ends at a code offset
  (R154, R177, log 18) -/
  | loadImage (ctx entry stop : Nat)
  /-- the links are keyed again (R437) -/
  | keyLinks
  deriving DecidableEq, Repr

/-- The issue in progress (model's own): what `exec` needs of the fetch and the issue rules. -/
structure Issue where
  g : Nat
  /-- lanes at the issue address, and those the prefix mask leaves -/
  lanes : Word
  /-- issue address A, the instruction's own offset, and the offset after it -/
  a : Nat
  ia : Nat
  next : Nat
  /-- the clause: header offset, body length, FLAGA, FLAGB -/
  hdr : Nat
  len : Nat
  flagA : Nat
  flagB : Nat
  pfx : Option Pfx
  /-- row 7 of R173 is due at this instruction -/
  rsv : Bool
  w0 : Word
  w1 : Word
  /-- how many of the instruction's accesses fall in the memory order at this moment, 0 for all of them (R117, R127) -/
  cut : Nat
  /-- the instruction has completed -/
  done : Bool
  /-- the cause that the issue raised, 0 none -/
  cause : Nat
  deriving DecidableEq, Repr

/-- The whole device. -/
structure State where
  /-- what happens next [–; 00_scope.md R1; empty; the model's own] -/
  turns : List Turn
  /-- the issue in progress [–; model's own; empty] -/
  iss : Issue
  /-- counter of free choices [–; model's own; 0, DESIGN CHOICE, log 7] -/
  free : Nat
  /-- next record number (groups, teams, launches, commands) [–; model's own; 1] -/
  fresh : Nat
  /-- TIME in nanoseconds [64; 24_trace.md R404; 0] -/
  time : Nat
  /-- memory-layer clocks since reset [–; 07_annulus.md R138; 0] -/
  mclk : Nat
  /-- logic clocks since reset [–; 01_device.md R14; 0] -/
  lclk : Nat
  /-- bytes of HBM4 (key PA), host memory (2^60 + address) and peers (2^61 + device·2^56 + address); unlisted 0
  [8 each; 05_spaces.md R84, 27_security_health.md R440; DESIGN CHOICE 0 (log 1)] -/
  mem : List Host.Cell
  /-- scratch bytes, key core·2^22 + offset; unlisted 0 [8 each; 05_spaces.md R84; 0] -/
  scr : List Host.Cell
  /-- surface samples, key ((ctx·1024 + slot)·2^22 + tile)·4096 + byte; unlisted 0 [8 each; 05_spaces.md R84; 0] -/
  arena : List Host.Cell
  /-- B store bytes, key core·2^22 + slice·2^15 + offset; unlisted 0 [8 each; 12_isa_matrix.md R245; 0] -/
  bst : List Host.Cell
  /-- Annulus slot bytes, key 64·slot + offset; unlisted 0 [8 each; 07_annulus.md R138; DESIGN CHOICE 0 (log 2)] -/
  ring : List Host.Cell
  /-- lines aboard, by slot [–; 07_annulus.md R145; none] -/
  aboard : Tab Aboard
  /-- captures and watches in or before the stations, key core·2^40 + stamp [16 per core; 07_annulus.md R143; none] -/
  caps : List (Nat × Capture)
  /-- system registers by window (package N, partition 65536·(1+p)+N, context 65536·(16+n)+N); unlisted: the
  register's reset value [32 each; 19_privileged.md R326; per register] -/
  regs : Cells Word
  /-- low words written and held until their high word (R326) [32 each; 19_privileged.md R326; none] -/
  held : Tab Word
  /-- resident groups, by number [–; 02_execution.md R20, R34; none] -/
  groups : Tab Group
  /-- resident teams, by number [–; 02_execution.md R20; none] -/
  teams : Tab Team
  /-- resident clusters, by number [–; 02_execution.md R22; none] -/
  clusters : Tab Cluster
  /-- clusters in the save area [–; 21_scheduling.md R361, R362; none] -/
  saved : Tab SavedCluster
  /-- launches that have become head and are not complete [–; 21_scheduling.md R350; none] -/
  launches : Tab Launch
  /-- hardware queues, key 64·partition + queue [–; 21_scheduling.md R348; empty] -/
  queues : Tab Queue
  /-- next launch identifier of each partition [32; 21_scheduling.md R351; 1] -/
  idents : Cells Nat
  /-- context of each launch identifier given, key partition·2^32 + identifier
  [–; 24_trace.md R415, R418; none; the model's own] -/
  launchCtx : Tab Nat
  /-- event table and extension, key partition [4096; 21_scheduling.md R356; empty] -/
  events : Tab (List EvEntry)
  /-- SCH.PRESTAT: STATE and VACATED by partition, key partition [2, 10; 21_scheduling.md R348; 0] -/
  prestat : Tab (Nat × Nat × List Nat)
  /-- clusters that must leave their cores without a request: for a head of a queue with PRE, with its partition (R360), or
  for a bus retirement, with 8 (R367) [–; 21_scheduling.md R360, R367; none] -/
  leavers : List (Nat × Nat)
  /-- queue that placed a cluster last, key partition: heads of equal PRIO rotate after it
  [6; 21_scheduling.md R350; 0] -/
  rotq : Cells Nat
  /-- handler slot: context using it, by partition [–; 19_privileged.md R325; free] -/
  slot : Tab Nat
  /-- contexts' own state beyond their registers, by number [64 contexts; 19_privileged.md R323; none halted] -/
  ctxs : Tab Ctx
  /-- context banks of each core [576 × 4; 19_privileged.md R324; unbound, none selected] -/
  banks : Tab CoreBanks
  /-- memory-layer columns, by core [576; 23_stack_fabric.md R386, R388; unit u on sub-bank u, no bus retired] -/
  columns : Tab Column
  /-- granules of scratch, key 64·core + granule [576 × 64; 05_spaces.md R97; free] -/
  granules : Tab Granule
  /-- memory as launches saw it for fetching: the bytes of `mem` by snapshot number [–; 08_encoding.md R152; none] -/
  codes : Tab (List Host.Cell)
  /-- where a kernel's run of clauses ends at the latest, as loaded: the code offset of its data region or the end of its
  code image; key ctx·2^64 + global address of its entry [–; 08_encoding.md R154, R177; none] -/
  images : Tab Nat
  /-- translations held by the L1 and L2 TLBs [576 × 256, 8 × 8192; 20_translation.md R341; none] -/
  tlb : List TlbEntry
  /-- per-core logical time [64; 06_ordering.md R115; 0] -/
  lts : Cells Nat
  /-- per-sector stamp of the last write, key PA >> 8 [64 each; 06_ordering.md R115; 0] -/
  wts : Cells Nat
  /-- per-sector end of the latest lease, key PA >> 8 [64 each; 06_ordering.md R115; 0] -/
  rts : Cells Nat
  /-- greatest stamp given [64; 06_ordering.md R115; 0] -/
  stamp : Nat
  /-- the logical time below which no core's stands: what has been made visible to every observer
  [64; 06_ordering.md R115, R130; 0] -/
  ltFloor : Nat
  /-- bytes of memory, scratch and surfaces before the writes of the last 2048 ns and since the oldest command's push, newest
  first [–; 06_ordering.md R133; none] -/
  olds : List OldByte
  /-- writes of engine commands not yet visible to anyone, oldest first [–; 06_ordering.md R130; none] -/
  late : List LateWrite
  /-- non-leaf entries held by the walkers, key stack·2^60 + physical address [128; 20_translation.md R341; none] -/
  walks : Tab (BitVec 128)
  /-- L1 read copies, key core·2^60 + (PA >> 8) [–; 06_ordering.md R115; none] -/
  l1 : Tab L1Copy
  /-- last-level cache lines, key PA >> 10 [288 × 1 MiB; 05_spaces.md R89; none] -/
  llc : Tab LlcLine
  /-- uses of the slices' lines so far, for the least recently used choice [–; 05_spaces.md R92; 0] -/
  uses : Nat
  /-- sectors written by the spill engine, key PA >> 8, with their surface as ctx·1024 + slot, while it is defined
  [–; 05_spaces.md R93; none] -/
  spilled : Tab Nat
  /-- reductions in partial copies, oldest first [–; 06_ordering.md R125; none] -/
  partials : List Partial
  /-- tiles no longer in their first state, key (ctx·1024 + slot)·2^22 + tile [–; 05_spaces.md R108; none] -/
  tiles : Tab Tile
  /-- arena reservations [–; 05_spaces.md R103, R110; none] -/
  resvs : List Resv
  /-- spill writes still to complete [–; 05_spaces.md R111, 23_stack_fabric.md R402; none] -/
  spills : Tab SpillReq
  /-- `surf.def` instructions under way, by the number of their operation [–; 11_isa_memory.md R237; none] -/
  defs : Tab DefJob
  /-- owner team of each core's B store [–; 12_isa_matrix.md R245; free] -/
  bowner : Tab Nat
  /-- commands of the engines, the matrix queues and the request engines, by number; CIDs in use are read from them
  [–; 13_isa_hyper_engines.md R275, 12_isa_matrix.md R246; none] -/
  cmds : Tab Cmd
  /-- messages in flight and in overflow queues [–; 13_isa_hyper_engines.md R285, R287; none] -/
  msgs : Tab Msg
  /-- triangles accepted and not yet done [–; 14_raster.md R292, R293; none] -/
  tris : Tab Tri
  /-- fragment groups expected by bank units [–; 14_raster.md R297, R298; none] -/
  plans : Tab Plan
  /-- Loci, by stack [2; 24_trace.md R412, R413; no record waiting] -/
  locus : Tab Locus
  /-- filter programs: key 16 + partition the one loaded last, key 8·Locus + partition the one that Locus has adopted
  [256 × 32; 24_trace.md R412; none] -/
  filters : Tab (List Word)
  /-- the tagged instruction of a wedge, key 4·core + wedge [–; 24_trace.md R410; none] -/
  samples : Tab Sample
  /-- the last stop-the-cluster broadcast of a partition for a running team [–; 24_trace.md R418; none] -/
  stops : Tab StopSent
  /-- single steps under way: partition to group [–; 24_trace.md R419; none] -/
  steps : Tab Nat
  /-- MSI-X vectors raised, oldest first [576; 23_stack_fabric.md R399; none] -/
  irqs : List Nat
  /-- VX.RATIO.CUR [4; 23_stack_fabric.md R386; 2] -/
  ratio : Nat
  /-- end of the vertical-bus stall in memory-layer clocks, with the ratio it brings [–; 23_stack_fabric.md R387; none] -/
  stall : Option (Nat × Nat)
  /-- VX.RETIRE.STATE [2; 23_stack_fabric.md R386, R390; 0] -/
  retireState : Nat
  /-- the retirement under way [–; 23_stack_fabric.md R390; none] -/
  retire : Option RetireJob
  /-- retirements waiting, core and bus [–; 23_stack_fabric.md R390, 27_security_health.md R438; none] -/
  retireQueue : List (Nat × Nat)
  /-- wear indicators that have changed, by HLT.SEL number [4646 × 32; 27_security_health.md R438; EOLH 0xFFFF, USED
  0, STATE 0] -/
  wear : Tab Wear
  /-- HLT.CTL.FAIL [1; 27_security_health.md R438; 0] -/
  failed : Bool
  /-- digest of the public key, in fuses [256; 27_security_health.md R434; DESIGN CHOICE 0 (log 2)] -/
  fuseKey : BitVec 256
  /-- rollback counter, in fuses [32; 27_security_health.md R434; DESIGN CHOICE 0 (log 2)] -/
  rollback : Nat
  /-- header words of the flash image [–; 27_security_health.md R434; DESIGN CHOICE empty (log 2)] -/
  flashHeader : List Word
  /-- body of the flash image [–; 27_security_health.md R434; DESIGN CHOICE empty (log 2)] -/
  flashBody : List Byte
  /-- public key of the flash image [–; 27_security_health.md R434; DESIGN CHOICE empty (log 2)] -/
  flashKey : List Byte
  /-- signature of the flash image [–; 27_security_health.md R434; DESIGN CHOICE empty (log 2)] -/
  flashSig : List Byte
  /-- PWR.PSTATE [2; 27_security_health.md R439, R441; 0] -/
  pstate : Nat
  /-- the power manager's floor F [3; 27_security_health.md R439; 2] -/
  floor : Nat
  /-- causes that hold: 0 THERM, 1 POWER, 2 WEAR [3; 27_security_health.md R439; none] -/
  causes : List Nat
  /-- TIME since which some cause has held [64; 27_security_health.md R439; none] -/
  causeSince : Option Nat
  /-- TIME since which none has [64; 27_security_health.md R439; 0] -/
  quietSince : Nat
  /-- session keys present [1; 27_security_health.md R437; 1] -/
  sessionKeys : Bool
  /-- an alarm of level 2 or more since reset [1; 27_security_health.md R437; 0] -/
  alarmed : Bool
  /-- a report under way: not begun, page written, or spoiled by an alarm [2; 27_security_health.md R436; 0] -/
  report : Nat
  /-- the PTM dialogue in progress: TIME when its request left [64; 24_trace.md R406; none] -/
  ptm : Option Nat
  /-- UCIe bandwidth halved (R396) [1; 23_stack_fabric.md R396; 0] -/
  ucieHalf : Bool
  /-- reports of the subnetworks' occupancy [4; 23_stack_fabric.md R393; none] -/
  subnets : Tab Subnet
  /-- peer devices, by device number [–; 23_stack_fabric.md R401; none] -/
  peers : Tab Peer
  /-- requests to peers that have had no reply [–; 23_stack_fabric.md R401; none] -/
  vlreqs : Tab VlReq
  /-- the answers that reads by the host and by peers have had, newest first [–; model's own; none] -/
  hostReads : List Nat
  deriving DecidableEq, Repr

/-- Reasons the model stops that the device does not have. -/
inductive Fault where
  /-- `exec` was asked for a group instruction with no issuing group: raised only off the path of `step`,
  by the shared prologue of every group instruction. Safe: the device has no such state. -/
  | noIssuingGroup
  /-- a filter word was executed with no record under the filter: raised by the filter meanings off the
  path of `step`. Safe. -/
  | noRecord
  deriving DecidableEq, Repr

/-- Reasons an instruction has no meaning. -/
inductive Refusal where
  /-- not modelled yet: raised only by arms of `exec`. Safe: nothing is proved of such a step. -/
  | notModelled (mnemonic : String)
  deriving DecidableEq, Repr

/-- No issue in progress. -/
def Issue.none : Issue :=
  { g := 0, lanes := 0, a := 0, ia := 0, next := 0, hdr := 0, len := 0, flagA := 15, flagB := 15, pfx := Option.none,
    rsv := false, w0 := 0, w1 := 0, cut := 0, done := false, cause := 0 }

/-- The device right after the release of reset (R440 step 1). -/
def State.reset : State :=
  { turns := [], iss := Issue.none, free := 0, fresh := 1, time := 0, mclk := 0, lclk := 0, mem := [], scr := [],
    arena := [], bst := [], ring := [], aboard := [], caps := [], regs := [], held := [], groups := [], teams := [],
    clusters := [], saved := [], launches := [], queues := [], idents := [], launchCtx := [], events := [], prestat := [], leavers := [], rotq := [], slot := [],
    ctxs := [], banks := [], columns := [], granules := [], codes := [], images := [], tlb := [], lts := [], wts := [], rts := [],
    stamp := 0, ltFloor := 0, olds := [], late := [], walks := [], l1 := [], llc := [], uses := 0, spilled := [], partials := [], tiles := [], resvs := [], spills := [], defs := [], bowner := [], cmds := [],
    msgs := [], tris := [], plans := [], locus := [], filters := [], samples := [], stops := [], steps := [], irqs := [], ratio := 2,
    stall := Option.none, retireState := 0, retire := Option.none, retireQueue := [], wear := [], failed := false,
    fuseKey := 0, rollback := 0, flashHeader := [], flashBody := [], flashKey := [], flashSig := [], pstate := 0,
    floor := 2, causes := [], causeSince := Option.none, quietSince := 0, sessionKeys := true, alarmed := false,
    report := 0, ptm := Option.none, ucieHalf := false, subnets := [], peers := [], vlreqs := [], hostReads := [] }

end Sys2Proof.Machine
end

