-- ==== Sys2Proof/Machine/Ops.lean ====
section
/-! DEFINITION. The named operations over the state: sparse data, lane masks, geometry, system registers,
groups and their registers, completing an instruction, raising a fault (R374, R375) and taking a local
trap (R372) with the return from it (R373, R183). -/

namespace Sys2Proof.Machine

/-! Sparse data. -/

/-- The value at a key, or the default. -/
def cget {α : Type} (d : α) (c : Cells α) (k : Nat) : α :=
  match c with
  | [] => d
  | (j, x) :: t => if j = k then x else cget d t k

/-- The list with a key dropped. -/
def cdel {α : Type} (c : Cells α) (k : Nat) : Cells α :=
  match c with
  | [] => []
  | (j, x) :: t => if j = k then cdel t k else (j, x) :: cdel t k

/-- The list with a key given a value, in key order. -/
def tput {α : Type} (c : Tab α) (k : Nat) (x : α) : Tab α :=
  match c with
  | [] => [(k, x)]
  | (j, y) :: t => if j < k then (j, y) :: tput t k x else if j = k then (k, x) :: t else (k, x) :: (j, y) :: t

/-- Writing in canonical form: the default is not listed. -/
def cset {α : Type} [DecidableEq α] (d : α) (c : Cells α) (k : Nat) (x : α) : Cells α :=
  if x = d then cdel c k else tput c k x

/-- The record of a key, if any. -/
def tget {α : Type} (c : Tab α) (k : Nat) : Option α :=
  match c with
  | [] => none
  | (j, x) :: t => if j = k then some x else tget t k

/-- Several writes, in order. -/
def csets {α : Type} [DecidableEq α] (d : α) (c : Cells α) (ws : List (Nat × α)) : Cells α :=
  ws.foldl (fun c w => cset d c w.1 w.2) c

/-- The first element of a list that ranks least. -/
def leastBy {α : Type} (rank : α → Nat) (xs : List α) : Option α :=
  xs.foldl (fun b x =>
    match b with
    | none => some x
    | some y => if rank x < rank y then some x else b) none

/-- The record of a key changed, if there is one. -/
def tupd {α : Type} (c : Tab α) (k : Nat) (f : α → α) : Tab α :=
  match tget c k with
  | some x => tput c k (f x)
  | none => c

/-- Keys strictly rise. -/
def sorted {α : Type} : List (Nat × α) → Bool
  | [] => true
  | [_] => true
  | (j, _) :: (k, y) :: t => decide (j < k) && sorted ((k, y) :: t)

/-- The canonical form of memory: addresses strictly rise, and no listed byte is what an unlisted one
reads as, 0. -/
def Memory.wf (m : List Host.Cell) : Bool := sorted m && m.all fun c => c.2 != 0

/-- A byte of a memory. -/
def rdByte (m : List Host.Cell) (a : Nat) : Byte := cget 0 m a
/-- A byte written to a memory. -/
def wrByte (m : List Host.Cell) (a : Nat) (b : Byte) : List Host.Cell := cset 0 m a b
/-- `n` bytes, little-endian (R4). -/
def rdN (m : List Host.Cell) (a : Nat) : Nat → Nat
  | 0 => 0
  | n + 1 => (rdByte m a).toNat + 256 * rdN m (a + 1) n
/-- `n` bytes of a value written, little-endian (R4). -/
def wrN (m : List Host.Cell) (a : Nat) (n v : Nat) : List Host.Cell :=
  match n with
  | 0 => m
  | k + 1 => wrN (wrByte m a (BitVec.ofNat 8 v)) (a + 1) k (v / 256)
/-- A block of bytes as a list. -/
def rdBytes (m : List Host.Cell) (a n : Nat) : List Byte := (List.range n).map fun k => rdByte m (a + k)
/-- A list of bytes written. -/
def wrBytes (m : List Host.Cell) (a : Nat) : List Byte → List Host.Cell
  | [] => m
  | b :: t => wrBytes (wrByte m a b) (a + 1) t
/-- A range set to 0: its entries dropped. -/
def zeroRange (m : List Host.Cell) (a n : Nat) : List Host.Cell :=
  m.filter fun c => decide (c.1 < a) || decide (a + n ≤ c.1)

/-! Bits and lanes. -/

/-- Bits [lo + n - 1 : lo] of a word as a number. -/
def fld (w : Word) (lo n : Nat) : Nat := w.toNat / 2 ^ lo % 2 ^ n
/-- Bit `k` of a word. -/
def bit (w : Word) (k : Nat) : Bool := w.toNat / 2 ^ k % 2 == 1
/-- The word of a number. -/
def word (n : Nat) : Word := BitVec.ofNat 32 n
/-- A signed reading of a 32-bit word. -/
def sx (w : Word) : Int := w.toInt
/-- A word of an integer modulo 2^32. -/
def wordI (n : Int) : Word := BitVec.ofInt 32 n
/-- Word `k` of a list, 0 beyond its end. -/
def nthW (ws : List Word) (k : Nat) : Word := ws.getD k 0
/-- Bits [hi:lo] counted over a whole block of words (R4). -/
def blockBits (ws : List Word) (lo n : Nat) : Nat :=
  (ws.foldr (fun w acc => acc * 2 ^ 32 + w.toNat) 0) / 2 ^ lo % 2 ^ n
/-- The lanes of a mask, ascending. -/
def lanesOf (m : Word) : List Nat := (List.range 32).filter fun l => bit m l
/-- The mask of a list of lanes. -/
def maskOf (ls : List Nat) : Word := ls.foldl (fun m l => m ||| (1 <<< l : Word)) 0
/-- Division rounded up. -/
def ceilDiv (a b : Nat) : Nat := (a + b - 1) / b
/-- The words of a byte list, little-endian. -/
def wordsOf (m : List Host.Cell) (a n : Nat) : List Word := (List.range n).map fun k => word (rdN m (a + 4 * k) 4)

/-! Geometry (R9, R10). -/

def quadOf (core : Nat) : Nat := core / 72
def stackOf (core : Nat) : Nat := core / 288
def coreX (core : Nat) : Nat := core % 72 % 12
def coreY (core : Nat) : Nat := core % 72 / 12
def coreAt (quad x y : Nat) : Nat := quad * 72 + y * 12 + x
def facetOf (core : Nat) : Nat := quadOf core * 18 + coreY core / 2 * 6 + coreX core / 2
/-- Position within the Facet, the value of scratch address bits [23:22] (R10). -/
def facetPos (core : Nat) : Nat := coreY core % 2 * 2 + coreX core % 2
/-- The core at a position of a core's Facet. -/
def facetCore (core pos : Nat) : Nat :=
  coreAt (quadOf core) (coreX core / 2 * 2 + pos % 2) (coreY core / 2 * 2 + pos / 2)

/-! System registers (R326): every register's home, its window, and its reset value. -/

def kPart (p n : Nat) : Nat := 65536 * (1 + p) + n
def kCtx (c n : Nat) : Nat := 65536 * (16 + c) + n
/-- The stated reset value of the register of a number (R326, R348, R386, R394, R402, R406, R412, R438, R439). -/
def regReset (n : Nat) : Word :=
  if n = 0x054 then 0x3FF else if n = 0x200 then 0x100 else if n = 0x400 then 2 else if n = 0x506 then 0xFFFFFFFF
  else if n = 0x518 then 0x400 else if n = 0x702 then 1 else if n = 0x800 then 0x5020 else if n = 0x801 then 3
  else if n = 0x885 then 100 else if n = 0x903 ∨ n = 0x90B then 32 else if n = 0xA01 then 2400
  else if n = 0x600 then 0x04000000 else 0
/-- The stored value of a register. -/
def regGet (s : State) (k : Nat) : Word := cget (regReset (k % 65536)) s.regs k
/-- A register stored. -/
def regSet (s : State) (k : Nat) (w : Word) : State :=
  { s with regs := cset (regReset (k % 65536)) s.regs k w }
/-- A 64-bit register, low word first. -/
def regGet64 (s : State) (k : Nat) : Nat := (regGet s k).toNat + 2 ^ 32 * (regGet s (k + 1)).toNat
/-- A 64-bit register stored. -/
def regSet64 (s : State) (k v : Nat) : State := regSet (regSet s k (word v)) (k + 1) (word (v / 2 ^ 32))

/-- Quadrant mask of a partition (R323). -/
def partMask (s : State) (p : Nat) : Nat := fld (regGet s (0x48 + p)) 0 8
/-- The partition whose mask holds a quadrant, if any. -/
def partOfQuad (s : State) (q : Nat) : Option Nat :=
  (List.range 8).find? fun p => partMask s p / 2 ^ q % 2 == 1
/-- Context configuration (R327). -/
def ctxValid (s : State) (c : Nat) : Bool := bit (regGet s (kCtx c 0x55)) 31
def ctxPart (s : State) (c : Nat) : Nat := fld (regGet s (kCtx c 0x55)) 28 3
def ctxSup (s : State) (c : Nat) : Bool := bit (regGet s (kCtx c 0x55)) 27

/-- A context's own record. -/
def ctxOf (s : State) (c : Nat) : Ctx :=
  (tget s.ctxs c).getD { halt := none, handler := none, seq := 0, tableZeroed := false, halts := 0, served := 0 }
def putCtx (s : State) (c : Nat) (x : Ctx) : State := { s with ctxs := tput s.ctxs c x }
/-- The context's halt line is raised (R375). -/
def haltedCtx (s : State) (c : Nat) : Bool := (ctxOf s c).halt.isSome
def banksOf (s : State) (core : Nat) : CoreBanks :=
  (tget s.banks core).getD { selected := none, bound := [none, none, none, none], since := 0 }
def putBanks (s : State) (core : Nat) (b : CoreBanks) : State := { s with banks := tput s.banks core b }
def columnOf (s : State) (core : Nat) : Column :=
  (tget s.columns core).getD
    { units := [some 0, some 1, some 2, some 3, some 4, some 5, some 6, some 7], retired := [], degraded := false }
/-- Mapped bank units of a core (R367). -/
def mappedBanks (s : State) (core : Nat) : Nat :=
  let c := columnOf s core
  if c.degraded then 0 else ((c.units.drop 4).filter Option.isSome).length
/-- Unit `d` of a core is being given up (R390). -/
def dropping (s : State) (core d : Nat) : Bool :=
  match s.retire with
  | some j => j.core == core && j.drop == some d
  | none => false
/-- Banks of a core into which work may come (R367): one that is being given up takes no more. -/
def usableBanks (s : State) (core : Nat) : Nat :=
  mappedBanks s core - (if [4, 5, 6, 7].any (dropping s core) then 1 else 0)
/-- Accesses to a unit of a core wait: its vertical bus stalls (R387), or the unit is being copied (R390). -/
def busHeld (s : State) (core unit : Nat) : Bool :=
  s.stall.isSome || match s.retire with
    | some j => j.copying && j.core == core && j.move == some unit
    | none => false
/-- Arena bytes of a column (R367, R388). -/
def arenaBytes (s : State) (core : Nat) : Nat :=
  let c := columnOf s core
  if c.degraded then 0 else (((c.units.drop 2).take 2).filter Option.isSome).length * 2 ^ 22

/-! Free choices and the links (R1, R434, R437). -/

/-- The choice among `k` outcomes that the device makes next (R1), a free value; none is asked for one. -/
def chooseOf (s : State) (k : Nat) : Nat := if k ≤ 1 then 0 else Config.choice s.free k % k
def chose (s : State) : State := { s with free := s.free + 1 }

/-- The host port answers at a package register: before a firmware has been accepted, only at the SEC registers (R434,
R440). -/
def portOpen (s : State) (sec : Bool) : Bool := bit (regGet s 0x600) 29 || sec

/-- Traffic of a link: once an alarm has erased the session keys, protected traffic fails until the links are keyed again
(R437); which access is protected is a free choice (log 89). -/
def linked (s : State) (k : State → Host.Outcome State Fault Refusal) : Host.Outcome State Fault Refusal :=
  if s.sessionKeys then k s else if chooseOf s 2 = 0 then k (chose s) else .next (chose s)

/-! Trace records (R408, R409). -/

/-- Source numbers of R407. -/
def srcWedge (core w : Nat) : Nat := 4 * core + w
def srcMatrix (core : Nat) : Nat := 0x900 + core
def srcStation (core : Nat) : Nat := 0xB40 + core
def srcEngine (quad e : Nat) : Nat := 0xD80 + 16 * quad + e
def srcRaster (quad : Nat) : Nat := 0xE00 + quad
def srcDistributor : Nat := 0xE08
def srcSequencer : Nat := 0xE10
def srcSpill (stack : Nat) : Nat := 0xE18 + stack
def srcRequest (core : Nat) : Nat := 0x1000 + core
def srcBank (core : Nat) : Nat := 0x1400 + core

/-- The names a record carries. -/
structure Names where
  launch : Nat
  team : Nat
  group : Nat
  lane : Nat

/-- No launch, team, group or lane. -/
def Names.none : Names := { launch := 0, team := 0xFFFFFFFF, group := 0xFF, lane := 0xFF }

/-- The 32-byte record of R408, as words 0 to 7. -/
def traceWords (s : State) (ty part src payload : Nat) (n : Names) : List Word :=
  [word payload, word (payload / 2 ^ 32), word (src * 65536),
   word (part % 8 * 32 + ty * 256 + n.lane % 256 * 65536 + n.group % 256 * 2 ^ 24),
   word n.team, word n.launch, word s.time, word (s.time / 2 ^ 32)]

/-- The enable bit of TRCEN for a record type (R409). -/
def traceBit (ty : Nat) : Nat :=
  if ty ≤ 4 then 0 else if ty = 5 then 1 else if ty ≤ 7 then 2 else if ty ≤ 9 then 3 else if ty ≤ 0xB then 4
  else if ty ≤ 0xD then 5 else if ty = 0xE then 6 else 7

def locusOf (s : State) (k : Nat) : Locus :=
  (tget s.locus k).getD { queue := [], cur := none, q := [], index := 0, verdict := none, freeze := false }

/-- A record handed to the Locus of a stack; one that meets a full queue is lost and counted (R412). -/
def queueRecord (s : State) (stack part : Nat) (ws : List Word) : State :=
  let l := locusOf s stack
  if l.queue.length < 4096 then
    { s with locus := tput s.locus stack { l with queue := l.queue ++ [(part, ws)] } }
  else regSet s (kPart part 0x514) (regGet s (kPart part 0x514) + 1)

/-- A unit emits a record of an enabled type (R408, R409). -/
def emit (s : State) (ty stack part src payload : Nat) (n : Names) : State :=
  if bit (regGet s (kPart part 0x515)) (traceBit ty) then
    queueRecord s stack part (traceWords s ty part src payload n)
  else s

/-! Groups and their registers. -/

/-- An empty lane slot. -/
def Lane.never : Lane := { st := .never, pcv := 0, adv := 0, px := 0, py := 0, cover := 0, hop := .along }
/-- A lane that is live: running or parked (R20). -/
def Lane.live (l : Lane) : Bool :=
  match l.st with
  | .never => false
  | .exited => false
  | _ => true
def Lane.running (l : Lane) : Bool := l.st == .running
def Group.lane (g : Group) (l : Nat) : Lane := g.lanes.getD l Lane.never
/-- The live lanes of a group (R20). -/
def Group.live (g : Group) : Word := maskOf ((List.range 32).filter fun l => (g.lane l).live)
/-- A lane slot changed. -/
def Group.setLane (g : Group) (l : Nat) (f : Lane → Lane) : Group := { g with lanes := g.lanes.modify l f }
/-- Every lane of a mask changed. -/
def Group.setLanes (g : Group) (m : Word) (f : Lane → Lane) : Group :=
  { g with lanes := g.lanes.mapIdx fun l x => if bit m l then f x else x }
def Group.handle (g : Group) : Nat := g.core + 1024 * g.wedge + 4096 * g.bank + 16384 * g.slot

def vkey (r l : Nat) : Nat := 32 * r + l
/-- An element of a v register. -/
def Group.elem (g : Group) (r l : Nat) : Elem := cget (.val 0) g.v (vkey r l)
/-- The word an element holds: its value, or the value a poisoned element holds. -/
def Elem.word : Elem → Word
  | .val w => w
  | .pois w _ _ => w
  | .form _ _ b _ _ => b
  | .pend _ old => old
def Group.vword (g : Group) (r l : Nat) : Word := (g.elem r l).word
def Group.setElem (g : Group) (r l : Nat) (e : Elem) : Group := { g with v := cset (.val 0) g.v (vkey r l) e }
def SVal.word : SVal → Word
  | .val w => w
  | .pend _ old => old
/-- An s register; s0 reads 0 (R46). -/
def Group.sreg (g : Group) (r : Nat) : Word := if r = 0 then 0 else (cget (.val 0) g.s r).word
/-- An s register written; a write to s0 is discarded (R46). -/
def Group.setS (g : Group) (r : Nat) (w : Word) : Group :=
  if r = 0 then g else { g with s := cset (.val 0) g.s r (.val w) }
/-- A pair of s registers as a 64-bit number (R46). -/
def Group.spair (g : Group) (r : Nat) : Nat := (g.sreg r).toNat + 2 ^ 32 * (g.sreg (r + 1)).toNat
/-- A pair of v elements as a 64-bit number (R46). -/
def Group.vpair (g : Group) (r l : Nat) : Nat := (g.vword r l).toNat + 2 ^ 32 * (g.vword (r + 1) l).toNat
def Group.mreg (g : Group) (k : Nat) : Word := cget 0 g.m k
def Group.setM (g : Group) (k : Nat) (w : Word) : Group := { g with m := cset 0 g.m k w }
def HVal.bits : HVal → BitVec 8192
  | .val b => b
  | .pend _ old => old
def Group.hreg (g : Group) (k : Nat) : BitVec 8192 := (cget (.val 0) g.h k).bits
def Group.setH (g : Group) (k : Nat) (b : BitVec 8192) : Group := { g with h := cset (.val 0) g.h k (.val b) }
def Group.counter (g : Group) (k i : Nat) : Int := cget 0 g.c (8192 * k + i)
def Group.flag (g : Group) (k : Nat) : Nat := cget 0 g.f k
def Group.sPending (g : Group) (r : Nat) : Bool :=
  match cget (.val 0) g.s r with
  | .pend _ _ => true
  | .val _ => false
def Group.hPending (g : Group) (r : Nat) : Bool :=
  match cget (.val 0) g.h r with
  | .pend _ _ => true
  | .val _ => false
def Elem.isPend : Elem → Bool
  | .pend _ _ => true
  | _ => false
/-- The element awaits operation `op`. -/
def Elem.awaits (op : Nat) : Elem → Bool
  | .pend k _ => k == op
  | _ => false
/-- The register awaits operation `op`. -/
def HVal.awaits (op : Nat) : HVal → Bool
  | .pend k _ => k == op
  | .val _ => false
def Elem.isForm : Elem → Bool
  | .form .. => true
  | _ => false

def State.group (s : State) (g : Nat) : Option Group := tget s.groups g
def putGroup (s : State) (g : Nat) (gr : Group) : State := { s with groups := tput s.groups g gr }
def updGroup (s : State) (g : Nat) (f : Group → Group) : State := { s with groups := tupd s.groups g f }
def updTeam (s : State) (t : Nat) (f : Team → Team) : State := { s with teams := tupd s.teams t f }
/-- A fresh record number. -/
def bump (s : State) : State := { s with fresh := s.fresh + 1 }

/-- The group at a handle of R330, if one lies there. -/
def groupAt (s : State) (core wedge bank slot : Nat) : Option Nat :=
  (s.groups.find? fun p => p.2.core == core && p.2.wedge == wedge && p.2.bank == bank && p.2.slot == slot).map (·.1)

/-- The names a group's records carry (R408). -/
def Group.names (g : Group) (lanes : Word) : Names :=
  { launch := g.id.launch, team := g.id.teamNo, group := g.id.grp, lane := (lanesOf lanes).headD 0xFF }

/-! Completing an instruction. -/

/-- The outcomes of the model. -/
abbrev Out := Host.Outcome State Fault Refusal

/-- The instruction of the issue completes with the group as given: every lane at the issue address that
still runs moves past it, masked-off lanes included (R164). -/
def complete (s : State) (gr : Group) : Out :=
  let gr := gr.setLanes s.iss.lanes fun l =>
    if l.running then { l with pcv := word s.iss.next, hop := .along } else l
  .next { s with groups := tput s.groups s.iss.g gr, iss := { s.iss with done := true } }

/-- The instruction completes and has itself placed the lanes (branches, parks, exits). -/
def completeMoved (s : State) (gr : Group) : Out :=
  .next { s with groups := tput s.groups s.iss.g gr, iss := { s.iss with done := true } }

/-- An instruction that acts in several moments goes on at a later one: the group's next issue is the same
issue, by the same lanes. -/
def later (s : State) (g : Group) (phase : Nat) (vals : List Nat) : Out :=
  .next (putGroup s s.iss.g { g with phase := phase, phaseVals := vals, phaseAt := s.iss.a, phaseLanes := s.iss.lanes })
/-- No instruction is in progress. -/
def Group.settled (g : Group) : Group := { g with phase := 0, phaseVals := [], phaseAt := 0, phaseLanes := 0 }

/-- The group is in the midst of an instruction's accesses, some of which are made (R117, R127). -/
def Group.midst (g : Group) : Bool := g.phase == 20

/-- The instruction does not issue yet, or waits: nothing changes. -/
def stall (s : State) : Out := .next s

/-! Causes (R369, R374). -/

def cTrap : Nat := 0x01
def cPromiseMiss : Nat := 0x02
def cSymPoison : Nat := 0x03
def cStep : Nat := 0x04
def cIllegal : Nat := 0x10
def cReserved : Nat := 0x11
def cPriv : Nat := 0x12
def cMem : Nat := 0x20
def cPerm : Nat := 0x21
def cAlias : Nat := 0x30
def cWindow : Nat := 0x31
def cMsg : Nat := 0x40
def cEvFull : Nat := 0x41
def cWatch : Nat := 0x50
def cBrk : Nat := 0x51
def cHalt : Nat := 0x52
def cDbg : Nat := 0x53

/-- Priority of a cause (R369); 1 is the highest. -/
def causePrio (c : Nat) : Nat :=
  if c = cIllegal then 1 else if c = cReserved then 2 else if c = cPriv then 3 else if c = cWindow then 4
  else if c = cMem then 5 else if c = cPerm then 6 else if c = cAlias then 7 else if c = cEvFull then 8
  else if c = cBrk then 9 else if c = cWatch then 10 else if c = cSymPoison then 11 else if c = cTrap then 12
  else if c = cPromiseMiss then 13 else if c = cStep then 14 else if c = cHalt then 15 else if c = cDbg then 16
  else if c = cMsg then 17 else 18

/-- The group's `cause` after one of its issues raises a code: while the halt line is up, the
highest-priority code raised since it rose (R374). -/
def Group.withCause (g : Group) (up : Bool) (c : Nat) : Group :=
  if up && g.causeUp && causePrio g.cause ≤ causePrio c then g else { g with cause := c, causeUp := up }

/-- The group once lanes of it have raised a fault (R374, R382): its `cause`, and the lanes that are held. -/
def Group.failing (g : Group) (up : Bool) (lanes : Word) (cause : Nat) : Group :=
  let g := if up then g else { g with causeUp := false }
  { (g.withCause true cause) with faulted := g.faulted ||| lanes }

/-- The facts of a stop record that depend on the cause (R381); with no AUX of its own it shows `symst`. -/
structure Detail where
  detail : Nat
  aux : Option Nat
  frec : Option FaultRec

/-- No further facts. -/
def Detail.plain : Detail := { detail := 0, aux := none, frec := none }
/-- DETAIL alone. -/
def Detail.of (n : Nat) : Detail := { detail := n, aux := none, frec := none }

/-- Bits PEND and POIS of `symst` (R48). -/
def Group.pendBits (g : Group) : Nat := g.syms.foldl (fun n p => n + 2 ^ p.1) 0
def Group.poisBits (g : Group) : Nat := g.syms.foldl (fun n p => if p.2.pois = 0 then n else n + 2 ^ p.1) 0

/-- The halt line of a context rises, unless it is up already (R375). -/
def raiseLine (s : State) (c src base : Nat) : State :=
  let x := ctxOf s c
  match x.halt with
  | some h => if h.time = s.time ∧ src < h.src then putCtx s c { x with halt := some { h with src := src } } else s
  | none =>
    putCtx s c { x with halts := (x.halts + 1) % 2 ^ 32
                        halt := some { time := s.time, src := src, base := base, recs := [], arrived := [],
                                       stopped := [], written := false, placed := 0, noHandler := false } }

/-- A stop record joins those of the context's halt (R375, R379); one that comes once the stop area has been written
enters it later (log 97). -/
def addRec (s : State) (c : Nat) (r : StopRec) : State :=
  let x := ctxOf s c
  match x.halt with
  | some h => putCtx s c { x with halt := some { h with recs := h.recs ++ [r] } }
  | none => s

/-- The halt line of a context has reached a unit (R376). -/
def lineUp (s : State) (c u : Nat) : Bool :=
  match (ctxOf s c).halt with
  | some h => h.arrived.any fun p => p.1 == u
  | none => false

/-- The code offset of the lowest lane of a mask. -/
def Group.pcOf (g : Group) (m : Word) : Word := (g.lane ((lanesOf m).headD 0)).pcv
/-- The fragment of a mask's lanes: they and the lanes parked at their offset (R382). -/
def Group.fragment (g : Group) (m : Word) : Word :=
  m ||| maskOf ((List.range 32).filter fun l => (g.lane l).live && !(g.lane l).running && (g.lane l).pcv == g.pcOf m)
/-- Live lanes of a group at other addresses than a fragment's (R380 SIBMASK). -/
def Group.siblings (g : Group) (m : Word) : Word :=
  maskOf ((List.range 32).filter fun l => (g.lane l).live && !bit m l && (g.lane l).pcv != g.pcOf m)

/-- A KIND 0 stop record of lanes of a group (R380, R381). -/
def groupRec (s : State) (g : Group) (lanes : Word) (cause : Nat) (ltf trap : Bool) (pc : Nat) (d : Detail) : StopRec :=
  { time := s.time, launch := g.id.launch, team := g.id.teamNo, group := g.id.grp, cause := cause, kind := 0,
    ltf := ltf, skidTrap := trap, source := srcWedge g.core g.wedge, skid := min g.skid 0xFFFF, handle := g.handle,
    pc := pc, lmask := g.fragment lanes, sibmask := g.siblings lanes, detail := BitVec.ofNat 64 d.detail,
    pos := BitVec.ofNat 64 (g.floor + 2 ^ 32 * g.starve),
    aux := BitVec.ofNat 64 (d.aux.getD (g.pendBits + 256 * g.poisBits)), frec := d.frec }

/-- A group is discarded with its waits and watches (R29, R325, R365). -/
def dropGroup (s : State) (g : Nat) : State :=
  { s with
    groups := cdel s.groups g
    caps := s.caps.filter fun c => !(c.2.g == g && c.2.kind == 4)
    events := s.events.map fun p => (p.1, (p.2.map fun e =>
      { e with waiters := e.waiters.filter fun w =>
          match w with
          | .group h _ => h != g
          | .head _ => true }).filter fun e => !e.waiters.isEmpty) }

/-- The team's B store is freed, and reads 0 for its next owner (R245). -/
def freeB (s : State) (core tid : Nat) : State :=
  if tget s.bowner core = some tid then
    { s with bowner := cdel s.bowner core, bst := zeroRange s.bst (core * 2 ^ 22) (2 ^ 22) }
  else s

/-- The handler of a context no longer runs; the halt that it was started for gets no other (R325). -/
def Ctx.handled (x : Ctx) : Ctx :=
  { x with handler := none
           halt := x.halt.map fun h => { h with noHandler := h.noHandler || x.halts == x.served } }

/-- A handler team is discarded, its bank emptied and unbound, its B store and the slot freed (R325, R365). -/
def discardHandler (s : State) (tid : Nat) : State :=
  match tget s.teams tid with
  | none => s
  | some t =>
    let gs := (s.groups.filter fun p => p.2.id.tid == some tid).map (·.1)
    let s := freeB (gs.foldl dropGroup s) t.core tid
    let b := banksOf s t.core
    let s := putBanks s t.core { b with bound := b.bound.set 3 none,
                                        selected := if b.selected = some 3 then none else b.selected }
    let s := putCtx s t.ctx (ctxOf s t.ctx).handled
    { s with
      teams := cdel s.teams tid
      clusters := cdel s.clusters t.cid
      launches := cdel s.launches t.lid
      caps := s.caps.filter fun c => c.2.team != some tid
      cmds := s.cmds.filter fun c => c.2.tid != some tid
      defs := s.defs.filter fun x => x.2.tid != some tid
      late := s.late.filter fun w => w.parts.all fun p => p.team != some tid
      granules := s.granules.map fun p =>
        if p.2.owner = some tid then (p.1, { owner := none, lastCtx := none }) else p
      slot := cdel s.slot t.part
      irqs := s.irqs ++ [t.ctx] }

/-- The cause that the issue in progress raises, as a tag sees it (R411). -/
def noteCause (s : State) (g cause : Nat) : State :=
  if s.iss.g = g then { s with iss := { s.iss with cause := cause } } else s

/-- STEPSTAT.CAUSE of a partition takes the cause that a stepped issue raises (R419). -/
def stepCause (s : State) (p cause : Nat) : State :=
  let k := kPart p 0x579
  regSet s k (word ((regGet s k).toNat / 256 * 256 + cause))

/-- A fault of the issuing group (R374, R375): one cause, the group's `cause`, the halt line and a stop
record; the lanes keep their pcv. In a handler team it discards the team (R325); within a single step it
is recorded in STEPSTAT alone (R420). -/
def raiseFault (s : State) (g : Nat) (lanes : Word) (cause : Nat) (ltf : Bool) (pc : Nat) (d : Detail) : State :=
  match s.group g with
  | none => s
  | some gr =>
    let c := gr.id.ctx
    let p := ctxPart s c
    let s := emit (noteCause s g cause) 0x05 (stackOf gr.core) p (srcWedge gr.core gr.wedge) (cause + 2 ^ 32 * pc)
      (gr.names lanes)
    if gr.id.handler then
      match gr.id.tid with
      | some t => discardHandler s t
      | none => s
    else if gr.step = 1 then stepCause (putGroup s g { (gr.withCause true cause) with step := 4 }) p cause
    else
      let gr := gr.failing (haltedCtx s c) lanes cause
      let s := raiseLine (putGroup s g gr) c (srcWedge gr.core gr.wedge) cHalt
      addRec s c (groupRec s gr lanes cause ltf false pc d)

/-- The fault of the issue in progress: it takes the place of the instruction, whose lanes keep their pcv. -/
def faultIssue (s : State) (cause : Nat) (d : Detail) : Out :=
  .next (raiseFault s s.iss.g s.iss.lanes cause false s.iss.a d)

/-- ILLEGAL_OP, RESERVED_ENC or PRIV_FAULT of the issue in progress (R173, R381). -/
def faultWord (s : State) (cause : Nat) : Out :=
  faultIssue s cause (Detail.of (s.iss.w0.toNat + 2 ^ 32 * s.iss.w1.toNat))

/-- A stop record of a unit other than a group's fragment (R380, R442). -/
def unitRec (s : State) (kind cause src : Nat) : StopRec :=
  { time := s.time, launch := 0, team := 0xFFFFFFFF, group := 0xFF, cause := cause, kind := kind, ltf := false,
    skidTrap := false, source := src, skid := 0, handle := 0, pc := 0, lmask := 0, sibmask := 0, detail := 0, pos := 0,
    aux := 0, frec := none }

/-- A fault met by a unit outside any issue (R442): the halt line of the context rises and the unit's stop
record joins the halt's. Of work of a handler team it discards that team (R325). -/
def unitFault (s : State) (c stack : Nat) (tid : Option Nat) (r : StopRec) : State :=
  let s := emit s 0x05 stack (ctxPart s c) r.source (r.cause + 2 ^ 32 * r.pc)
    { launch := r.launch, team := r.team, group := r.group, lane := 0xFF }
  match (tid.bind fun t => tget s.teams t).map Team.handler, tid with
  | some true, some t => discardHandler s t
  | _, _ => addRec (raiseLine s c r.source cHalt) c r

/-! The stop-the-cluster broadcast (R418). -/

/-- The resident team of a launch identifier and linear team number in a context. -/
def teamNamed (s : State) (c launch no : Nat) : Option (Nat × Team) :=
  s.teams.find? fun t => t.2.ctx == c && t.2.launch == launch && t.2.teamNo == no

/-- The broadcast (R418): the barrier router of the team's quadrant raises the context's halt line, and is busy until it has
reached every core of the team's cluster. -/
def broadcast (s : State) (c launch team : Nat) : State :=
  let p := ctxPart s c
  let t := teamNamed s c launch team
  let quad := match t with
    | some (_, t) => quadOf t.core
    | none => ((List.range 8).find? fun q => partMask s p / 2 ^ q % 2 == 1).getD 0
  let s := match t with
    | some (_, t) => { s with stops := tput s.stops p { since := s.time, ctx := c, cid := t.cid } }
    | none => s
  raiseLine s c (0xE20 + quad) cDbg

/-- The broadcast of a partition is in progress: a group of the team's cluster has not got the line, which takes 40 ns of
TIME at most (R418). -/
def stopBusy (s : State) (p : Nat) : Bool :=
  match tget s.stops p with
  | none => false
  | some x =>
    decide (s.time < x.since + 40) && s.groups.any fun g =>
      (g.2.id.tid.bind (tget s.teams)).map Team.cid == some x.cid && !lineUp s x.ctx (srcWedge g.2.core g.2.wedge)

/-! Local traps (R370 to R373). -/

/-- A local trap is taken by lanes of a group: link in v(n−1), information in v(n−2), pcv at the handler.
`info` gives each lane's DETAIL and SUBJ bits, `link` the offset at which the lanes continue. Without a
trap entry it is a fault of the context that keeps its code (R370). -/
def takeTrap (s : State) (g : Nat) (lanes : Word) (code : Nat) (link : Nat) (info : Nat → Nat) (d : Detail) : State :=
  match s.group g with
  | none => s
  | some gr =>
    match gr.id.trapEntry with
    | none =>
      if code = cStep then s
      else
        let moved := gr.setLanes lanes fun l => { l with pcv := word link, st := .running, hop := .along }
        raiseFault (putGroup s g moved) g lanes code true link d
    | some h =>
      let c := gr.id.ctx
      let n := gr.id.nv
      let up := haltedCtx s c
      let s := noteCause s g code
      let s := emit s 0x05 (stackOf gr.core) (ctxPart s c) (srcWedge gr.core gr.wedge) (code + 2 ^ 32 * link)
        (gr.names lanes)
      let s := if gr.step = 1 then stepCause s (ctxPart s c) code else s
      let gr2 := (lanesOf lanes).foldl (fun x l =>
        (x.setElem (n - 1) l (.val (word link))).setElem (n - 2) l (.val (word (info l + code)))) gr
      let gr3 := (gr2.setLanes lanes fun l => { l with pcv := word h, st := .running, hop := .along }).withCause up code
      let s := putGroup s g gr3
      if up && gr.step != 1 && !gr.id.handler then
        addRec s c (groupRec s gr3 lanes code false true h d)
      else s

/-- The issue in progress takes a local trap before it executes (SYM_POISON): the lanes will issue it again. -/
def trapIssue (s : State) (code : Nat) (info : Nat → Nat) (d : Detail) : Out :=
  .next { takeTrap s s.iss.g s.iss.lanes code s.iss.a info d with iss := { s.iss with done := true } }

/-! Masks (R30, R31) and parks. -/

/-- Lanes parked in `mwait mK`. -/
def Group.mwaiters (g : Group) (k : Nat) : List Nat :=
  (List.range 32).filter fun l => (g.lane l).st == .mwait k

/-- Lanes of the issue park at their instruction (R31, R40): their pcv is its offset, and `adv` the length to
move past when they are released. -/
def Group.park (g : Group) (s : State) (m : Word) (st : LaneState) : Group :=
  g.setLanes m fun l => { l with st := st, pcv := word s.iss.ia, adv := s.iss.next - s.iss.ia, hop := .along }

/-- Parked lanes go on past the instruction that parked them. -/
def Group.release (g : Group) (ls : List Nat) : Group :=
  g.setLanes (maskOf ls) fun l => { l with st := .running, pcv := l.pcv + word l.adv, adv := 0 }

/-- The test of mask K after an issue, an exit or a return (R31). -/
def Group.testMask (g : Group) (k : Nat) : Group :=
  let ws := g.mwaiters k
  if ws.isEmpty then g
  else if g.mreg k = 0 then g.release ws
  else
    let members := lanesOf (g.mreg k)
    match members with
    | [] => g
    | m0 :: _ =>
      let p := (g.lane m0).pcv
      if members.all fun l => (g.lane l).st == .mwait k && (g.lane l).pcv == p then
        g.release (ws.filter fun l => (g.lane l).pcv == p)
      else g

/-- Every mask with waiters is tested (R31). -/
def Group.testMasks (g : Group) : Group := (List.range 12).foldl Group.testMask g

end Sys2Proof.Machine
end

