-- ==== Sys2Proof/Machine/Float.lean ====
section
/-! DEFINITION. The floating formats and the one rounding step (R62 to R70), exact arithmetic under it
(R78, R209 to R215), the special functions (R213), the matrix dot step (R79, R80) and table lookup sums
(R81). A finite value is an exact fraction: a signed numerator over a positive denominator. -/

namespace Sys2Proof.Machine

/-- A floating format (R62): exponent and fraction widths, bias, the largest finite pattern, the NaN
written, and whether it has infinities. -/
structure Fmt where
  ew : Nat
  fw : Nat
  bias : Nat
  maxPat : Nat
  nan : Nat
  inf : Option Nat

def fp32 : Fmt := { ew := 8, fw := 23, bias := 127, maxPat := 0x7F7FFFFF, nan := 0x7FC00000, inf := some 0x7F800000 }
def fp16 : Fmt := { ew := 5, fw := 10, bias := 15, maxPat := 0x7BFF, nan := 0x7E00, inf := some 0x7C00 }
def bf16 : Fmt := { ew := 8, fw := 7, bias := 127, maxPat := 0x7F7F, nan := 0x7FC0, inf := some 0x7F80 }
def e5m2 : Fmt := { ew := 5, fw := 2, bias := 15, maxPat := 0x7B, nan := 0x7E, inf := some 0x7C }
def e4m3 : Fmt := { ew := 4, fw := 3, bias := 7, maxPat := 0x7E, nan := 0x7F, inf := none }

/-- The rounding modes of R66, by code. -/
abbrev Mode := Nat
def rne : Mode := 0

/-- A floating datum read from its bits. -/
inductive Fl where
  | nan
  | inf (neg : Bool)
  /-- the exact value n / d, d > 0; `neg` gives the sign of a zero -/
  | fin (neg : Bool) (n : Int) (d : Nat)
  deriving DecidableEq, Repr

/-- The sign bit's weight. -/
def Fmt.sign (f : Fmt) : Nat := 2 ^ (f.ew + f.fw)

/-- m · 2^(k − r) as a fraction. -/
def scaled (neg : Bool) (m k r : Nat) : Fl :=
  let n : Int := if neg then -(m : Int) else m
  if r ≤ k then .fin neg (n * 2 ^ (k - r)) 1 else .fin neg n (2 ^ (r - k))

/-- The datum of a bit pattern (R62). -/
def Fmt.decode (f : Fmt) (w : Nat) : Fl :=
  let neg := w / f.sign % 2 == 1
  let mag := w % f.sign
  if f.maxPat < mag then (if f.inf = some mag then .inf neg else .nan)
  else
    let e := mag / 2 ^ f.fw
    let m := mag % 2 ^ f.fw
    if e = 0 then scaled neg m 1 (f.bias + f.fw) else scaled neg (2 ^ f.fw + m) e (f.bias + f.fw)

/-- ⌊log₂(n / d)⌋ for n, d > 0, offset by 2^14 to stay a natural number. -/
def floorLog (n d : Nat) : Nat :=
  let l := 2 ^ 14 + n.log2 - d.log2
  -- n / d lies in (2^(l-1), 2^(l+1)) once the offset is taken off
  if n * 2 ^ (2 ^ 14) < d * 2 ^ l then l - 1 else l

/-- The multiple of the unit that a magnitude num/den rounds to (R66, step one). -/
def roundQuot (mode : Mode) (neg : Bool) (num den : Nat) : Nat :=
  let q := num / den
  let r := num % den
  if r = 0 then q
  else if mode = 1 then q
  else if mode = 2 then (if neg then q else q + 1)
  else if mode = 3 then (if neg then q + 1 else q)
  else if 2 * r < den then q
  else if den < 2 * r then q + 1
  else if mode = 4 then q + 1
  else if q % 2 = 0 then q else q + 1

/-- The magnitude pattern, without overflow, of num/den > 0 (R66, step one): the exponent has no bound. -/
def Fmt.magPat (f : Fmt) (mode : Mode) (neg : Bool) (num den : Nat) : Nat :=
  let off := 2 ^ 14
  -- e + off, where e is the larger of ⌊log₂⌋ and emin = 1 − bias
  let e := max (floorLog num den) (off + 1 - f.bias)
  -- unit 2^(e − fw)
  let m := if off + f.fw ≤ e then roundQuot mode neg num (den * 2 ^ (e - off - f.fw))
           else roundQuot mode neg (num * 2 ^ (off + f.fw - e)) den
  m + (e - (off + 1 - f.bias)) * 2 ^ f.fw

/-- What an overflow gives (R66): infinity or the largest finite by mode; NaN in E4M3; the largest finite
under saturation (R68). -/
def Fmt.overflow (f : Fmt) (mode : Mode) (neg sat : Bool) : Nat :=
  let sg := if neg then f.sign else 0
  if sat then sg + f.maxPat
  else match f.inf with
    | none => f.nan
    | some i =>
      if mode = 1 || (mode = 2 && neg) || (mode = 3 && !neg) then sg + f.maxPat else sg + i

/-- Round of a finite value (R66): n / d with the sign a zero takes; `ftz` flushes a result below the
smallest normal before rounding (R67), `sat` saturates (R68). -/
def Fmt.round (f : Fmt) (mode : Mode) (sat ftz zneg : Bool) (n : Int) (d : Nat) : Nat :=
  if n = 0 then (if zneg then f.sign else 0)
  else
    let neg := decide (n < 0)
    let num := n.natAbs
    if ftz && decide (num * 2 ^ (f.bias - 1) < d) then (if neg then f.sign else 0)
    else
      let p := f.magPat mode neg num d
      if f.maxPat < p then f.overflow mode neg sat else (if neg then f.sign + p else p)

/-- A datum written in a format (R66, R68). -/
def Fmt.write (f : Fmt) (mode : Mode) (sat ftz : Bool) : Fl → Nat
  | .nan => f.nan
  | .inf neg =>
    match f.inf with
    | some i => (if neg then f.sign else 0) + (if sat then f.maxPat else i)
    | none => if sat then (if neg then f.sign else 0) + f.maxPat else f.nan
  | .fin neg n d => f.round mode sat ftz neg n d

/-- A subnormal source replaced by zero of its sign (R67). -/
def Fmt.flushIn (f : Fmt) (ftz : Bool) (w : Nat) : Nat :=
  if ftz && w % f.sign < 2 ^ f.fw then w / f.sign * f.sign else w

/-- The sign an exactly zero sum of two data takes (R66). -/
def zeroSign (mode : Mode) (a b : Bool) : Bool := if a == b then a else mode == 3

/-- Exact sum (R209); the sign field of a zero result is R66's. -/
def Fl.add (mode : Mode) : Fl → Fl → Fl
  | .nan, _ => .nan
  | _, .nan => .nan
  | .inf a, .inf b => if a == b then .inf a else .nan
  | .inf a, .fin .. => .inf a
  | .fin .., .inf b => .inf b
  | .fin sa na da, .fin sb nb db =>
    let n := na * db + nb * da
    if n = 0 then .fin (if na = 0 then zeroSign mode sa sb else mode == 3) 0 1
    else .fin (decide (n < 0)) n (da * db)

def Fl.neg : Fl → Fl
  | .nan => .nan
  | .inf a => .inf !a
  | .fin s n d => .fin (!s) (-n) d

/-- Exact product (R209). -/
def Fl.mul : Fl → Fl → Fl
  | .nan, _ => .nan
  | _, .nan => .nan
  | .inf a, .inf b => .inf (a != b)
  | .inf a, .fin sb nb _ => if nb = 0 then .nan else .inf (a != sb)
  | .fin sa na _, .inf b => if na = 0 then .nan else .inf (sa != b)
  | .fin sa na da, .fin sb nb db => .fin (sa != sb) (na * nb) (da * db)

/-- a < b for data neither of which is NaN. -/
def Fl.lt : Fl → Fl → Bool
  | .inf a, .inf b => a && !b
  | .inf a, .fin .. => a
  | .fin .., .inf b => !b
  | .fin _ na da, .fin _ nb db => decide (na * db < nb * da)
  | _, _ => false

/-- a = b for data neither of which is NaN (+0 equals −0, R207). -/
def Fl.eq : Fl → Fl → Bool
  | .inf a, .inf b => a == b
  | .fin _ na da, .fin _ nb db => decide (na * db = nb * da)
  | _, _ => false

/-- b op x of the two-operand forms of R209 in a format: 0 add, 1 subtract, 2 multiply. -/
def Fmt.arith (f : Fmt) (op : Nat) (mode : Mode) (ftz : Bool) (b x : Nat) : Nat :=
  let p := f.decode (f.flushIn ftz b)
  let q := f.decode (f.flushIn ftz x)
  f.write mode false ftz (if op = 0 then p.add mode q else if op = 1 then p.add mode q.neg else p.mul q)

/-- b × x + c with one rounding (R209, R78). -/
def Fmt.fma (f : Fmt) (mode : Mode) (ftz : Bool) (b x c : Nat) : Nat :=
  f.write mode false ftz (((f.decode (f.flushIn ftz b)).mul (f.decode (f.flushIn ftz x))).add mode
    (f.decode (f.flushIn ftz c)))

/-- The lesser or greater operand (R210). -/
def Fmt.minMax (f : Fmt) (isMax : Bool) (b x : Nat) : Nat :=
  match f.decode b, f.decode x with
  | .nan, .nan => f.nan
  | .nan, _ => x
  | _, .nan => b
  | p, q =>
    let less := p.lt q || (p.eq q && b / f.sign % 2 == 1)
    if isMax then (if less then x else b) else (if less then b else x)

def Fl.isNan : Fl → Bool
  | .nan => true
  | _ => false

/-- The floating relations of R207 by minor code 10 to 14. -/
def fcmp (k : Nat) (b x : Word) : Bool :=
  let p := fp32.decode b.toNat
  let q := fp32.decode x.toNat
  let nan := p.isNan || q.isNan
  if k = 10 then !nan && p.eq q else if k = 11 then !nan && p.lt q else if k = 12 then !nan && (p.lt q || p.eq q)
  else if k = 13 then nan || !p.eq q else nan

/-- The class bits of R212. -/
def fclass (b : Word) : Word :=
  let neg := bit b 31
  let e := fld b 23 8
  let m := fld b 0 23
  let k := if e = 255 then (if m = 0 then (if neg then 0 else 7) else (if bit b 22 then 9 else 8))
    else if e = 0 then (if m = 0 then (if neg then 3 else 4) else (if neg then 2 else 5))
    else (if neg then 1 else 6)
  word (2 ^ k)

/-- n / d rounded to an integer under a mode (R70, R211). -/
def roundInt (mode : Mode) (n : Int) (d : Nat) : Int :=
  let q := roundQuot mode (decide (n < 0)) n.natAbs d
  if n < 0 then -(q : Int) else q

/-- `frnd` (R211): an integral value that keeps the sign. -/
def frnd (mode : Mode) (ftz : Bool) (b : Word) : Word :=
  match fp32.decode (fp32.flushIn ftz b.toNat) with
  | .fin s n d => word (fp32.write mode false ftz
      (.fin s (if ftz && decide (n.natAbs * 2 ^ 126 < d) then 0 else roundInt mode n d) 1))
  | x => word (fp32.write mode false ftz x)

/-! Conversions (R68, R70, R214, R215). -/

def NumTy.fmt : NumTy → Option Fmt
  | .f32 => some fp32
  | .f16 => some fp16
  | .bf16 => some bf16
  | .e4m3 => some e4m3
  | .e5m2 => some e5m2
  | _ => none
/-- Width in bits. -/
def NumTy.width : NumTy → Nat
  | .f32 => 32
  | .i32 => 32
  | .n32 => 32
  | .f16 => 16
  | .bf16 => 16
  | .i16 => 16
  | .n16 => 16
  | _ => 8
def NumTy.signed : NumTy → Bool
  | .i32 => true
  | .i16 => true
  | .i8 => true
  | _ => false
/-- Least and greatest value of an integer type. -/
def NumTy.lo (t : NumTy) : Int := if NumTy.signed t then -(2 ^ (NumTy.width t - 1)) else 0
def NumTy.hi (t : NumTy) : Int :=
  if NumTy.signed t then 2 ^ (NumTy.width t - 1) - 1 else 2 ^ NumTy.width t - 1
def clampI (lo hi n : Int) : Int := if n < lo then lo else if hi < n then hi else n
/-- The value of an integer source, from the low bits (R214, R215). -/
def NumTy.readInt (t : NumTy) (w : Nat) : Int :=
  let v := w % 2 ^ NumTy.width t
  if NumTy.signed t && decide (2 ^ (NumTy.width t - 1) ≤ v) then (v : Int) - 2 ^ NumTy.width t else v
/-- The result register of an integer (R214): low bits, sign- or zero-extended by type. -/
def NumTy.writeInt (t : NumTy) (n : Int) : Word :=
  let v := (n % 2 ^ NumTy.width t).toNat
  if NumTy.signed t && decide (2 ^ (NumTy.width t - 1) ≤ v) then wordI ((v : Int) - 2 ^ NumTy.width t) else word v

/-- `cvt` (R214, R215). -/
def convert (dt st : NumTy) (sat : Bool) (mode : Mode) (ftz : Bool) (w : Word) : Word :=
  match NumTy.fmt dt, NumTy.fmt st with
  | some f, some g => word (f.write mode sat ftz (g.decode (g.flushIn ftz (w.toNat % 2 ^ NumTy.width st))))
  | none, some g =>
    match g.decode (g.flushIn ftz (w.toNat % 2 ^ NumTy.width st)) with
    | .nan => 0
    | .inf neg => NumTy.writeInt dt (if neg then NumTy.lo dt else NumTy.hi dt)
    | .fin _ n d => NumTy.writeInt dt (clampI (NumTy.lo dt) (NumTy.hi dt) (roundInt mode n d))
  | some f, none => word (f.write mode sat ftz (.fin false (NumTy.readInt st w.toNat) 1))
  | none, none =>
    let n := NumTy.readInt st w.toNat
    NumTy.writeInt dt (if sat then clampI (NumTy.lo dt) (NumTy.hi dt) n else n)

/-- Integers −32 to 31 converted to a format (R161, R217); one that E4M3 or E5M2 does not hold is rounded to nearest even
(log 109). -/
def immFloat (f : Fmt) (n : Int) : Nat := f.round rne false false false n 1

/-! Dot products and sums. -/

/-- The sum of a list of data with one addend, exact, its zero sign as at the mode (R217, R78). -/
def exactSum (mode : Mode) (c : Fl) (ps : List Fl) : Fl :=
  let all := ps ++ [c]
  if all.any Fl.isNan then .nan
  else
    let pos := all.any fun p => p == .inf false
    let neg := all.any fun p => p == .inf true
    if pos && neg then .nan else if pos then .inf false else if neg then .inf true
    else ps.foldl (fun a p => a.add mode p) c

/-- Element `i` of width `w` bits of a register. -/
def lane8 (x : Word) (i : Nat) : Nat := fld x (8 * i) 8

/-- `fdot4` (R217). -/
def fdot4 (f : Fmt) (mode : Mode) (ftz : Bool) (b x c : Word) : Word :=
  let ps := (List.range 4).map fun i =>
    (f.decode (f.flushIn ftz (lane8 b i))).mul (f.decode (f.flushIn ftz (lane8 x i)))
  word (fp32.write mode false ftz (exactSum mode (fp32.decode (fp32.flushIn ftz c.toNat)) ps))

/-- The finite sum W of a dot step's products in its 40-bit window (R79). -/
def windowSum (ps : List Fl) : Fl :=
  let fins := ps.filterMap fun p =>
    match p with
    | .fin s n d => some (s, n, d)
    | _ => none
  let live := fins.filter fun p => p.2.1 != 0
  if live.isEmpty then .fin (fins.all fun p => p.1) 0 1
  else
    let e := live.foldl (fun m p => max m (floorLog p.2.1.natAbs p.2.2)) 0
    -- q = 2^(e − 39), offset 2^14
    let k := e - 39
    let off := 2 ^ 14
    let term (p : Bool × Int × Nat) : Int :=
      let num := p.2.1.natAbs
      let t := if off ≤ k then num / (p.2.2 * 2 ^ (k - off)) else num * 2 ^ (off - k) / p.2.2
      if p.2.1 < 0 then -(t : Int) else t
    let w := live.foldl (fun a p => a + term p) 0
    if w = 0 then .fin false 0 1
    else if off ≤ k then .fin (decide (w < 0)) (w * 2 ^ (k - off)) 1 else .fin (decide (w < 0)) w (2 ^ (off - k))

/-- A dot step on 32 products and an FP32 accumulator (R79, R80). -/
def dotStep (ps : List Fl) (c : Word) : Word :=
  let cf := fp32.decode c.toNat
  if ps.any Fl.isNan || cf.isNan then word fp32.nan
  else
    let pos := ps.any fun p => p == .inf false
    let neg := ps.any fun p => p == .inf true
    if pos && neg then word fp32.nan
    else if pos || neg then word (fp32.write rne false false ((Fl.inf neg).add rne cf))
    else
      let w := fp32.write rne false false (windowSum ps)
      word (fp32.write rne false false ((fp32.decode w).add rne cf))

/-- Final(C) of R259: SCALE × C in the destination format. -/
def finalD (f : Fmt) (sat : Bool) (scale c : Word) : Nat :=
  f.write rne sat false ((fp32.decode scale.toNat).mul (fp32.decode c.toNat))

/-- FP32 sum at RNE. -/
def addRne (a b : Word) : Word := word (fp32.arith 0 rne false a.toNat b.toNat)

/-- Entry t of a lookup table over four FP32 terms (R81, R260). -/
def lutEntry (op : Nat) (a : List Word) (t : Nat) : Word :=
  if op = 1 then
    let term (i : Nat) : Word := if t / 2 ^ i % 2 = 1 then nthW a i else nthW a i ^^^ 0x80000000
    [1, 2, 3].foldl (fun acc i => addRne acc (term i)) (term 0)
  else
    match (List.range 4).filter fun i => t / 2 ^ i % 2 == 1 with
    | [] => 0
    | i :: is => is.foldl (fun acc j => addRne acc (nthW a j)) (nthW a i)

/-- A group's contribution V (R260). -/
def lutValue (op : Nat) (a : List Word) (t0 t1 : Nat) : Word :=
  if op = 1 then lutEntry 1 a t0
  else word (fp32.fma rne false 0xC0000000 (lutEntry 2 a t1).toNat (lutEntry 2 a t0).toNat)

/-! Special functions (R213). -/

/-- The integer square root, one bit at a time from the top. -/
def isqrt (n : Nat) : Nat :=
  (List.range (n.log2 / 2 + 1)).foldl (fun r i =>
    let b := 2 ^ (n.log2 / 2 - i)
    if (r + b) * (r + b) ≤ n then r + b else r) 0

/-- The exact square root of n/d as a fraction scaled by 2^k, rounded down. -/
def sqrtScaled (n d k : Nat) : Nat := isqrt (n * 2 ^ (2 * k) / d)

/-- `fsqrt` (R213): exact rounding of √(n/d). The radicand is scaled so that its root keeps 90 bits, and a
sticky bit is set when the root is not exact. -/
def fsqrtFin (mode : Mode) (ftz : Bool) (n d : Nat) : Nat :=
  let k := 200
  let r := sqrtScaled n d k
  let exact := decide (r * r * d = n * 2 ^ (2 * k))
  if exact then fp32.round mode false ftz false r (2 ^ k)
  else fp32.round mode false ftz false (2 * r + 1 : Nat) (2 ^ (k + 1))

/-- FP32 spacing at a magnitude num/den (the ulp of R213), as an exponent offset by 2^14. -/
def ulpExp (num den : Nat) : Nat := max (floorLog num den) (2 ^ 14 + 1 - 127) - 23

/-- The absolute difference of a candidate FP32 pattern and an exact value between `lo/den` and `hi/den`, of which the first
is nearer to 0, is at most `k` ulp of the value: tested against both ends. -/
def withinUlp (k : Nat) (cand : Nat) (lo hi : Int) (den : Nat) : Bool :=
  match fp32.decode cand with
  | .fin _ n d =>
    let u := ulpExp (max lo.natAbs 1) den
    let off := 2 ^ 14
    let close (x : Int) : Bool :=
      -- |n/d − x/den| ≤ k · 2^(u − off)
      decide ((n * den - x * d).natAbs * 2 ^ off ≤ k * 2 ^ u * (d * den))
    close lo && close hi
  | _ => false

/-- The absolute difference of a candidate and an exact value between `lo/den` and `hi/den` is at most 2^−k. -/
def withinAbs (k : Nat) (cand : Nat) (lo hi : Int) (den : Nat) : Bool :=
  match fp32.decode cand with
  | .fin _ n d =>
    let close (x : Int) : Bool := decide ((n * den - x * d).natAbs * 2 ^ k ≤ d * den)
    close lo && close hi
  | _ => false

/-- A candidate is taken where its bound admits it, and otherwise the value rounded to nearest is, which
every bound of R213 admits. -/
def accepted (ok : Bool) (cand near : Nat) : Nat := if ok then cand else near

/-- Scale of the fixed-point evaluations below. -/
def fx : Nat := 240
/-- The exact value of an evaluation below lies within so many units of it, so that a bound tested at both ends holds of
the exact value. -/
def slack : Int := 2 ^ 32
/-- The slack, toward 0 from a value. -/
def slackIn (x : Int) : Int := if x < 0 then -slack else slack

/-- ⌊2^240 · e^y⌋ for y = n / 2^240 with 0 ≤ n < 2^240, by its series; error below 2^8 units. -/
def expSeries (n : Nat) : Nat :=
  ((List.range 64).foldl (fun (a : Nat × Nat) i =>
    let t := a.2 * n / 2 ^ fx / (i + 1)
    (a.1 + t, t)) (2 ^ fx, 2 ^ fx)).1

/-- ⌊2^240 · ln 2⌋ by Σ 1/(k·2^k); error below 2^9 units. -/
def ln2 : Nat := (List.range 256).foldl (fun a i => a + 2 ^ fx / ((i + 1) * 2 ^ (i + 1))) 0

/-- 2^(n/d), n/d = i + f with 0 ≤ f < 1: ⌊2^240 · 2^f⌋, and i. -/
def exp2Parts (n : Int) (d : Nat) : Int × Nat :=
  let i := n / (d : Int)
  let r := (n - i * d).toNat
  (i, expSeries (r * 2 ^ fx / d * ln2 / 2 ^ fx))

/-- ln of m / 2^240 for 2^240 ≤ m < 2^241, scaled by 2^240: 2·artanh((m−1)/(m+1)); error below 2^9 units. -/
def lnSeries (m : Nat) : Nat :=
  let z := (m - 2 ^ fx) * 2 ^ fx / (m + 2 ^ fx)
  let z2 := z * z / 2 ^ fx
  2 * ((List.range 90).foldl (fun (a : Nat × Nat) i => (a.1 + a.2 / (2 * i + 1), a.2 * z2 / 2 ^ fx)) (0, z)).1

/-- ⌊2^400 · arctan(1/k)⌋ by its series. -/
def atanInv (k : Nat) : Int :=
  ((List.range 300).foldl (fun (a : Int × Nat) i =>
    (if i % 2 = 0 then a.1 + (a.2 / (2 * i + 1) : Nat) else a.1 - (a.2 / (2 * i + 1) : Nat), a.2 / (k * k)))
    (0, 2 ^ 400 / k)).1
/-- ⌊2^400 · π⌋ by Machin's formula. -/
def piScaled : Nat := (4 * (4 * atanInv 5 - atanInv 239)).toNat

/-- sin and cos of y = n / 2^240, |y| ≤ 4, scaled by 2^240. -/
def sinCos (n : Int) : Int × Int :=
  let one : Int := 2 ^ fx
  let r := (List.range 80).foldl (fun (a : Int × Int × Int) (i : Nat) =>
    -- a.2.2 is y^i over i factorial
    let t := a.2.2
    let t' := t * n / one / ((i : Int) + 1)
    if i % 4 = 0 then (a.1, a.2.1 + t, t') else if i % 4 = 1 then (a.1 + t, a.2.1, t')
    else if i % 4 = 2 then (a.1, a.2.1 - t, t') else (a.1 - t, a.2.1, t')) (0, 0, one)
  (r.1, r.2.1)

/-- The nearest FP32 to x · 2^(e2 − 240). -/
def near240 (x : Int) (e2 : Int) : Nat :=
  if 0 ≤ e2 then fp32.round rne false false (decide (x < 0)) (x * 2 ^ e2.toNat) (2 ^ fx)
  else fp32.round rne false false (decide (x < 0)) x (2 ^ (fx + (-e2).toNat))

/-- A subnormal pattern replaced by the zero of its sign under FTZ (R55). -/
def flushOut (ftz : Bool) (w : Nat) : Nat := if ftz && w % 2 ^ 31 < 2 ^ 23 then w / 2 ^ 31 * 2 ^ 31 else w

/-- A special function of the kinds below at a nonzero n/d has an exact value that is nonzero and below 2^−126 in magnitude:
d/n, 2^(n/d) or sin (n/d), which is below n/d and not much; the others never have. -/
def specialTiny (kind : Nat) (n : Int) (d : Nat) : Bool :=
  if kind = 0 then decide (d * 2 ^ 126 < n.natAbs) else if kind = 2 then decide (n < -126 * (d : Int))
  else kind == 4 && decide (n.natAbs * 2 ^ 126 ≤ d)

/-- The special functions by kind, of an FP32 pattern and unflushed: 0 `frcp`, 1 `frsq`, 2 `fex2`, 3 `flg2`, 4 `fsin`,
5 `fcos`. -/
def specialValue (kind w : Nat) : Nat :=
  let cand := (Config.specialFn kind (word w)).toNat
  let nan := fp32.nan
  let pinf := 0x7F800000
  let ninf := 0xFF800000
  match fp32.decode w with
  | .nan => nan
  | .inf neg =>
    if kind = 0 then (if neg then 0x80000000 else 0)
    else if kind = 1 then (if neg then nan else 0)
    else if kind = 2 then (if neg then 0 else pinf)
    else if kind = 3 then (if neg then nan else pinf)
    else nan
  | .fin neg n d =>
    let den := n.natAbs
    if n = 0 then
      (if kind = 0 || kind = 1 then (if neg then ninf else pinf)
       else if kind = 2 || kind = 5 then 0x3F800000
       else if kind = 3 then ninf
       else (if neg then 0x80000000 else 0))
    else if kind = 0 then
      let v : Int := if neg then -(d : Int) else d
      let near := fp32.round rne false false neg v den
      if near % 2 ^ 31 = pinf || near % 2 ^ 31 = 0 then near
      else accepted (withinUlp 1 cand v v den) cand near
    else if kind = 1 then
      if neg then nan
      else
        let x := sqrtScaled d den fx
        accepted (withinUlp 1 cand x (x + 1) (2 ^ fx)) cand (near240 x 0)
    else if kind = 2 then
      if n * 1 ≥ 128 * (d : Int) then pinf
      else if n ≤ -151 * (d : Int) then
        accepted (withinUlp 2 cand 0 1 (2 ^ 151)) cand 0
      else
        let p := exp2Parts n d
        let exact := decide (n % (d : Int) = 0)
        let near := near240 p.2 p.1
        if exact && decide (-149 ≤ p.1) then near
        else
          let by_ : Int := if 0 ≤ p.1 then 2 ^ p.1.toNat else 1
          let den : Nat := if 0 ≤ p.1 then 2 ^ fx else 2 ^ (fx + (-p.1).toNat)
          accepted (withinUlp 2 cand ((p.2 - slack) * by_) ((p.2 + slack) * by_) den) cand near
    else if kind = 3 then
      if neg then nan
      else
        let l := floorLog den d
        -- den/d = m · 2^(l − off), 1 ≤ m < 2
        let off := 2 ^ 14
        let m := if off ≤ l then den * 2 ^ fx / (d * 2 ^ (l - off)) else den * 2 ^ (fx + off - l) / d
        let frac := if m = 2 ^ fx then 0 else lnSeries m * 2 ^ fx / ln2
        let x : Int := ((l : Int) - off) * 2 ^ fx + frac
        let near := near240 x 0
        let inBand := decide (d ≤ 2 * den) && decide (den ≤ 2 * d)
        if frac = 0 && !inBand then near
        else
          let lo := x - slackIn x
          let hi := x + slackIn x
          accepted (if inBand then withinAbs 22 cand lo hi (2 ^ fx) else withinUlp 2 cand lo hi (2 ^ fx)) cand near
    else
      -- reduce n/d modulo 2π at 2^400, then evaluate at 2^240
      let y := n * 2 ^ 400 / (d : Int)
      let t := y % (2 * piScaled : Int)
      let t := if (piScaled : Int) < t then t - 2 * piScaled else t
      let sc := sinCos (t / 2 ^ 160)
      let x := if kind = 4 then sc.1 else sc.2
      accepted (withinAbs 21 cand (x - slack) (x + slack) (2 ^ fx)) cand (near240 x 0)

/-- A special function with FTZ or without: subnormal sources, and results whose exact value is below the normal range, give
zero of their sign (R67, R213). -/
def specialFn (kind : Nat) (ftz : Bool) (b : Word) : Word :=
  let w := fp32.flushIn ftz b.toNat
  match fp32.decode w with
  | .fin neg n d =>
    word (if ftz && n != 0 && specialTiny kind n d then (if neg && kind != 2 then 0x80000000 else 0) else specialValue kind w)
  | _ => word (specialValue kind w)

/-- `fsqrt` (R213). -/
def fsqrt (mode : Mode) (ftz : Bool) (b : Word) : Word :=
  match fp32.decode (fp32.flushIn ftz b.toNat) with
  | .nan => word fp32.nan
  | .inf neg => if neg then word fp32.nan else 0x7F800000
  | .fin neg n d =>
    if n = 0 then (if neg then 0x80000000 else 0)
    else if neg then word fp32.nan else word (fsqrtFin mode ftz n.natAbs d)

end Sys2Proof.Machine
end

