-- ==== Sys2Proof/Machine/Block.lean ====
section
/-! DEFINITION. Block formats TB8 and TB4: decoding an element (R71, R72) and packing 32 values into a
block (R73). -/

namespace Sys2Proof.Machine

/-- Fraction weight m, largest magnitude and element width of TB8 or TB4 (R71). -/
def tbM (tb8 : Bool) : Nat := if tb8 then 5 else 1
def tbMax (tb8 : Bool) : Nat := if tb8 then 63 else 3
def tbBits (tb8 : Bool) : Nat := if tb8 then 8 else 4
/-- Bytes of a block's elements (R71). -/
def tbBytes (tb8 : Bool) : Nat := if tb8 then 32 else 16

/-- The value of an element under its block's exponent bytes (R71, R72); a zero keeps its sign (log 118). -/
def tbDecode (tb8 : Bool) (e0 e1 el : Nat) : Fl :=
  let w := tbBits tb8
  let e := if el / 2 ^ (w - 1) % 2 = 1 then e1 else e0
  let neg := el / 2 ^ (w - 2) % 2 == 1
  let q := el % 2 ^ (w - 2)
  if e = 0 then .fin neg 0 1 else if e = 255 then .nan else scaled neg q e (127 + tbM tb8)

/-- An element as its selector, sign and magnitude. -/
def tbElement (tb8 : Bool) (sel neg : Bool) (q : Nat) : Nat :=
  let w := tbBits tb8
  (if sel then 2 ^ (w - 1) else 0) + (if neg && q != 0 then 2 ^ (w - 2) else 0) + q

/-- A packed block: exponent bytes and 32 elements. -/
structure TbBlock where
  e0 : Nat
  e1 : Nat
  els : List Nat
  deriving DecidableEq, Repr

/-- A value to pack, on the block's common scale: its sign, and its magnitude, none for an infinity. -/
structure TbIn where
  neg : Bool
  mag : Option Nat

/-- The magnitude at exponent E and its absolute error, on the common scale where exponent E has unit
2^E · den; none where it does not fit. With saturation, at E = 254 every value fits (R73 step 2). -/
def tbRep (tb8 sat : Bool) (den : Nat) (x : TbIn) (e : Nat) : Option (Nat × Nat) :=
  let u := 2 ^ e * den
  let top := tbMax tb8
  match x.mag with
  | none => if sat && e == 254 then some (top, 0) else none
  | some v =>
    let q := roundQuot rne false v u
    if q ≤ top then some (q, if v ≤ q * u then q * u - v else v - q * u)
    else if sat && e == 254 then some (top, v - top * u)
    else none

/-- An element's choice between E1 − k and E1: taken at the lower (true) or not, magnitude and error
(R73 step 5). -/
def tbPick (tb8 sat : Bool) (den e1 k : Nat) (x : TbIn) : Bool × Nat × Nat :=
  match tbRep tb8 sat den x e1 with
  | none => (false, 0, 0)
  | some hi =>
    match tbRep tb8 sat den x (e1 - k) with
    | none => (false, hi.1, hi.2)
    | some lo => if lo.2 < hi.2 then (true, lo.1, lo.2) else (false, hi.1, hi.2)

/-- A block of 32 equal elements with selector 1, sign 0 and magnitude 0. -/
def tbFlat (tb8 : Bool) (e : Nat) : TbBlock :=
  { e0 := e, e1 := e, els := List.replicate 32 (tbElement tb8 true false 0) }

/-- Packing 32 values (R73). -/
def tbPack (tb8 sat : Bool) (xs : List Fl) : TbBlock :=
  let den := xs.foldl (fun m x => match x with
    | .fin _ _ d => max m d
    | _ => m) 1
  let ins : List TbIn := xs.map fun x => match x with
    | .fin s n d => { neg := s, mag := some (n.natAbs * (den / d) * 2 ^ (127 + tbM tb8)) }
    | .inf s => { neg := s, mag := none }
    | .nan => { neg := false, mag := some 0 }
  let fits (e : Nat) : Bool := ins.all fun x => (tbRep tb8 sat den x e).isSome
  if xs.any Fl.isNan || (!sat && ins.any fun x => x.mag.isNone) then tbFlat tb8 255
  else match ((List.range 254).map (· + 1)).find? fits with
    | none => tbFlat tb8 255
    | some e1 =>
      if ins.all fun x => (tbRep tb8 sat den x 1).map (·.1) == some 0 then tbFlat tb8 0
      else
        let total (k : Nat) : Nat := (ins.map fun x => (tbPick tb8 sat den e1 k x).2.2).sum
        let k := ((List.range e1).foldl (fun (b : Nat × Nat) j =>
          let t := total j
          if t < b.2 then (j, t) else b) (0, total 0)).1
        { e0 := e1 - k, e1 := e1
          els := ins.map fun x =>
            let c := tbPick tb8 sat den e1 k x
            tbElement tb8 (!c.1) x.neg c.2.1 }

/-- A block's element bytes (R71): one a byte in TB8, two a byte in TB4, the even one low. -/
def tbToBytes (tb8 : Bool) (b : TbBlock) : List Byte :=
  if tb8 then b.els.map (BitVec.ofNat 8)
  else (List.range 16).map fun i => BitVec.ofNat 8 (b.els.getD (2 * i) 0 + 16 * b.els.getD (2 * i + 1) 0)

end Sys2Proof.Machine
end

