-- ==== Sys2Proof/Machine/Sym.lean ====
section
/-! DEFINITION. Deferred affine values (R52 to R61): the tables of transforms, collapse, poison and the
release of symbols. -/

namespace Sys2Proof.Machine

/-- The value a form takes when X is applied (R55). -/
def formValue (a b : Word) (flt fresh : Bool) (x : Word) : Word :=
  if flt then (if fresh then x else word (fp32.fma rne false a.toNat x.toNat b.toNat)) else a * x + b

/-- One element over symbol `k` collapsed in lane `l` (R57, R60): poisoned where the lane's check failed,
holding the value the form gives with X = 0. -/
def collapseElem (k : Nat) (y : Sym) (l : Nat) : Elem → Elem
  | .form j a b flt fresh =>
    if j = k then
      (if bit y.pois l then .pois (formValue a b flt fresh 0) k flt else .val (formValue a b flt fresh (cget 0 y.xs l)))
    else .form j a b flt fresh
  | e => e

/-- Every element over symbol `k` collapsed. -/
def Group.collapseAll (g : Group) (k : Nat) : Group :=
  match tget g.syms k with
  | none => g
  | some y => { g with v := g.v.foldr (fun e c => cset (.val 0) c e.1 (collapseElem k y (e.1 % 32) e.2)) g.v }

/-- Some element holds a form over symbol `k`. -/
def Group.hasForm (g : Group) (k : Nat) : Bool :=
  g.v.any fun e =>
    match e.2 with
    | .form j _ _ _ _ => j == k
    | _ => false

/-- Registers with at least one element holding a form (R48 FORMS). -/
def Group.formRegs (g : Group) : Nat :=
  ((List.range 128).filter fun r => g.v.any fun e => e.1 / 32 == r && e.2.isForm).length

/-- Symbols that are delivered and have no element left are released (R57). -/
def Group.releaseSyms (g : Group) : Group :=
  { g with syms := g.syms.filter fun p => !(p.2.delivered && !g.hasForm p.1) }

/-- Delivery of X (R57): in opportunistic mode every element collapses. -/
def Group.deliver (g : Group) (k : Nat) : Group :=
  match tget g.syms k with
  | none => g
  | some y =>
    let g := { g with syms := tput g.syms k { y with delivered := true } }
    (if y.always then g else g.collapseAll k).releaseSyms

/-- The instructions that change a form without waiting (R54, R55). -/
inductive Xform where
  | add | sub | mul | mad | shl | mov
  | fadd (mode : Nat) (ftz : Bool)
  | fsub (mode : Nat) (ftz : Bool)
  | fmul (mode : Nat) (ftz : Bool)
  | ffma (mode : Nat) (ftz : Bool)
  | fneg
  deriving DecidableEq, Repr

/-- The transform works on floating forms, on integer forms, or on both (moves). -/
def Xform.takes (t : Xform) (flt : Bool) : Bool :=
  match t with
  | .add => !flt
  | .sub => !flt
  | .mul => !flt
  | .mad => !flt
  | .shl => !flt
  | .mov => true
  | _ => flt

/-- The negative of a coefficient; a NaN stays the NaN of R63. -/
def negW (w : Word) : Word := if (fp32.decode w.toNat).isNan then word fp32.nan else w ^^^ 0x80000000

/-- The value on known operands: b op x, with addend c. -/
def Xform.value (t : Xform) (b x c : Word) : Word :=
  match t with
  | .add => b + x
  | .sub => b - x
  | .mul => b * x
  | .mad => b * x + c
  | .shl => b <<< (x.toNat % 32)
  | .mov => x
  | .fadd m z => word (fp32.arith 0 m z b.toNat x.toNat)
  | .fsub m z => word (fp32.arith 1 m z b.toNat x.toNat)
  | .fmul m z => word (fp32.arith 2 m z b.toNat x.toNat)
  | .ffma m z => word (fp32.fma m z b.toNat x.toNat c.toNat)
  | .fneg => negW b

/-- A subnormal coefficient flushed (R55). -/
def flushW (z : Bool) (w : Word) : Word := word (flushOut z w.toNat)
/-- a × k rounded, for the new a of R55. -/
def mulW (m : Nat) (z : Bool) (a k : Word) : Word := word (fp32.arith 2 m z a.toNat k.toNat)

/-- The new form when the first operand (`first`) or the second is form (a, b) and the other is known
(R54, R55). -/
def Xform.apply (t : Xform) (first : Bool) (a b k c : Word) : Word × Word :=
  match t with
  | .add => (a, b + k)
  | .sub => if first then (a, b - k) else (-a, k - b)
  | .mul => (a * k, b * k)
  | .mad => (a * k, b * k + c)
  | .shl => (a <<< (k.toNat % 32), b <<< (k.toNat % 32))
  | .mov => (a, b)
  | .fadd m z => (flushW z a, word (fp32.arith 0 m z b.toNat k.toNat))
  | .fsub m z =>
    if first then (flushW z a, word (fp32.arith 1 m z b.toNat k.toNat))
    else (flushW z (negW a), word (fp32.arith 1 m z k.toNat b.toNat))
  | .fmul m z => (mulW m z a k, word (fp32.arith 2 m z b.toNat k.toNat))
  | .ffma m z => (mulW m z a k, word (fp32.fma m z b.toNat k.toNat c.toNat))
  | .fneg => (negW a, negW b)

/-- The addend of an instruction: absent, or an element. -/
def Elem.known : Elem → Bool
  | .val _ => true
  | _ => false

/-- The result of a transform-capable instruction on elements b, x and addend c (none where the
instruction has none): a value, a form, a marked value, or nothing where the use blocks (R54 to R56,
R60). `mov` uses x alone, `fneg` b alone: the unused operand is given as a known 0. A form in the second operand of `add`,
`fadd` and `fmul`, which R54 and R55 list with the form first, transforms alike (log 110). -/
def Xform.result (t : Xform) (b x c : Elem) : Option Elem :=
  match b, x, c with
  | .val p, .val q, .val r => some (.val (t.value p q r))
  | .form k a f flt fresh, .val q, .val r =>
    if t.takes flt then
      let n := t.apply true a f q r
      some (.form k n.1 n.2 flt (fresh && t == .mov))
    else none
  | .val p, .form k a f flt fresh, .val r =>
    if t.takes flt && t != .shl then
      let n := t.apply false a f p r
      some (.form k n.1 n.2 flt (fresh && t == .mov))
    else none
  | .pois w k flt, .val q, .val r => if t.takes flt then some (.pois (t.value w q r) k flt) else none
  | .val p, .pois w k flt, .val r =>
    if t.takes flt && t != .shl then some (.pois (t.value p w r) k flt) else none
  | _, _, _ => none

/-- The lowest free symbol id, if one of the eight is free (R52, R53). -/
def Group.freeSym (g : Group) : Option Nat := (List.range 8).find? fun k => (tget g.syms k).isNone

/-- The oldest allocated symbol. -/
def Group.oldestSym (g : Group) : Option (Nat × Sym) :=
  g.syms.foldl (fun best p =>
    match best with
    | none => some p
    | some q => if p.2.stamp < q.2.stamp then some p else best) none

/-- A limit of R53 is met: in always mode the oldest symbol, once delivered, is collapsed; otherwise the
group waits. -/
def Group.forceRelease (g : Group) : Option Group :=
  match g.oldestSym with
  | some (k, y) => if y.always && y.delivered then some (g.collapseAll k).releaseSyms else none
  | none => none

end Sys2Proof.Machine
end

