-- ==== Sys2Proof/Machine/Operands.lean ====
section
/-! DEFINITION. Operand forms of GK instructions and the checks every instruction makes before it acts:
the rows of R173 that are left to issue, the prefix rules of R165 and R202, the register interlock of
R158, and blocking and poison (R56, R60); then the shapes of lane instructions over them (R201). -/

namespace Sys2Proof.Machine

/-- What a prefix may carry before an instruction (R165, R202, R225). -/
inductive PfxRule where
  /-- no prefix may stand before it -/
  | no
  /-- a mask and zero or merge -/
  | plain
  /-- rounding and flush as well -/
  | round
  /-- and a fourth operand -/
  | roundD
  /-- a fourth operand alone (`mad`) -/
  | dOnly
  /-- a mask alone (stores, `red`, `ropz`, `ropc`) -/
  | noZero
  deriving DecidableEq, Repr

/-- The RESERVED_ENC rows of R165 and R225 for the prefix in force. -/
def PfxRule.reserved (r : PfxRule) (p : Pfx) : Bool :=
  let rounding := p.rnd != 0 || p.ftz
  match r with
  | .no => false
  | .plain => rounding || p.d.isSome
  | .round => p.d.isSome
  | .roundD => false
  | .dOnly => rounding
  | .noZero => rounding || p.d.isSome || p.zero

/-- The registers an instruction names and reads. -/
structure Use where
  rule : PfxRule := .no
  /-- v registers named (R46), and those read -/
  v : List Nat := []
  vr : List Nat := []
  /-- h and c registers named, h registers read -/
  h : List Nat := []
  c : List Nat := []
  hr : List Nat := []
  /-- s registers read -/
  sr : List Nat := []
  /-- privileged (row 8) -/
  priv : Bool := false

/-- The mask of executing lanes (R164). -/
def execMask (s : State) (g : Group) : Word :=
  match s.iss.pfx with
  | some p =>
    match p.mask with
    | some k => s.iss.lanes &&& g.mreg k
    | none => s.iss.lanes
  | none => s.iss.lanes

/-- ZERO = 1 (R164). -/
def zeroing (s : State) : Bool :=
  match s.iss.pfx with
  | some p => p.zero
  | none => false

/-- The fourth operand's register, if present (R163). -/
def fourth (s : State) : Option Nat :=
  match s.iss.pfx with
  | some p => p.d
  | none => none

/-- The rounding mode of the instruction (R202). -/
def modeOf (s : State) (g : Group) : Mode :=
  match s.iss.pfx with
  | some p => if p.rnd = 5 then g.rmode else p.rnd
  | none => rne

/-- The flush option (R67). -/
def ftzOf (s : State) : Bool :=
  match s.iss.pfx with
  | some p => p.ftz
  | none => false

/-- A register read awaits, in any lane, the result of an earlier instruction of the group (R158). -/
def vWaits (g : Group) (rs : List Nat) : Bool :=
  rs.any fun r => (List.range 32).any fun l => (g.elem r l).isPend

/-- The instruction does not issue yet, by a long-latency dependence (R37): nothing else changes. -/
def longStall (s : State) (g : Group) : Out := .next (putGroup s s.iss.g { g with blocked := true })

/-- An s register awaits an unfired watch (R242). -/
def Group.awaitsWatch (g : Group) (r : Nat) : Bool := g.watches.any fun w => !w.2.fired && w.2.dst == r && g.sPending r

/-- The checks of issue in R173's order, then the interlock, which is a long-latency dependence where the destination of a
watch is read (R242); `k` acts where all pass. -/
def begin_ (s : State) (u : Use) (k : Group → Out) : Out :=
  match s.group s.iss.g with
  | none => .fault .noIssuingGroup
  | some g =>
    let d := (fourth s).toList
    if u.rule = .no && s.iss.pfx.isSome then faultWord s cIllegal
    else if (u.v ++ d).any (fun r => decide (g.id.nv ≤ r)) || u.h.any (fun r => decide (g.id.nhr ≤ r))
        || u.c.any (fun r => decide (g.id.ncr ≤ r)) then faultWord s cIllegal
    else if s.iss.rsv || s.iss.pfx.any u.rule.reserved then faultWord s cReserved
    else if u.priv && !g.id.sup then faultWord s cPriv
    else if vWaits g (u.vr ++ d) || u.sr.any g.sPending
        || u.hr.any g.hPending then (if u.sr.any g.awaitsWatch then longStall s g else stall s)
    else k g

/-- The elements of registers `rs` in lanes `ls` that hold forms: register, lane and symbol. -/
def formsIn (g : Group) (rs ls : List Nat) : List (Nat × Nat × Nat) :=
  rs.flatMap fun r => ls.filterMap fun l =>
    match g.elem r l with
    | .form k _ _ _ _ => some (r, l, k)
    | _ => none

/-- An element over a symbol collapsed by itself (R57). -/
def Group.collapseAt (g : Group) (r l k : Nat) : Group :=
  match tget g.syms k with
  | some y => g.setElem r l (collapseElem k y l (g.elem r l))
  | none => g

/-- X of a symbol has been delivered. -/
def Group.hasX (g : Group) (k : Nat) : Bool :=
  match tget g.syms k with
  | some y => y.delivered
  | none => false

/-- A use blocked by forms waits for every symbol concerned; in always mode, once they are there, each of the
elements collapses: both of two sources (R56, R57). -/
def blockOn (s : State) (g : Group) (es : List (Nat × Nat × Nat)) : Out :=
  if es.all fun e => g.hasX e.2.2 then
    .next (putGroup s s.iss.g (es.foldl (fun g e => g.collapseAt e.1 e.2.1 e.2.2) g).releaseSyms)
  else longStall s g

/-- The symbol id of a poisoned element. -/
def Elem.poison : Elem → Option Nat
  | .pois _ k _ => some k
  | _ => none

/-- The first poisoned element, lanes ascending. -/
def firstPoison (g : Group) (rs ls : List Nat) : Option Nat :=
  (ls.flatMap fun l => rs.filterMap fun r => (g.elem r l).poison).head?

/-- SYM_POISON at a blocking use (R60, R372): each lane whose own element is poisoned is told its symbol, the others
that of the lowest such lane (log 98). -/
def poisonTrap (s : State) (g : Group) (rs : List Nat) (k : Nat) : Out :=
  trapIssue s cSymPoison
    (fun l =>
      match rs.findSome? fun r => (g.elem r l).poison with
      | some own => own * 2 ^ 16 + 2 ^ 8
      | none => k * 2 ^ 16)
    (Detail.of k)

/-- Blocking uses (R56, R60): forms first, then poison; `k` acts where every element is known. -/
def blocking (s : State) (g : Group) (rs ls : List Nat) (k : Out) : Out :=
  match formsIn g rs ls with
  | e :: es => blockOn s g (e :: es)
  | [] =>
    match firstPoison g rs ls with
    | some y => poisonTrap s g rs y
    | none => k

/-- A fault that the checks of an issue find outranks a trap of the same issue (R374, R384). WATCH comes after the
accesses, which a trap puts off. -/
def outranks (fault trap : Out) : Out :=
  match fault with
  | .next t => if t.iss.cause ≠ 0 ∧ t.iss.cause ≠ cWatch then fault else trap
  | _ => trap

/-- Blocking uses of an access: `checks` is the issue made for the lanes whose address is not poisoned. -/
@[inline] def blockingAccess (s : State) (g : Group) (rs ls : List Nat) (checks k : Out) : Out :=
  match formsIn g rs ls with
  | e :: es => blockOn s g (e :: es)
  | [] =>
    match firstPoison g rs ls with
    | some y => outranks checks (poisonTrap s g rs y)
    | none => k

/-- An operand of kind X as a word (R161, R166). -/
def Group.opX (g : Group) : XOp → Word
  | .s r => g.sreg r.toNat
  | .imm n => word (n.signExtend 32).toNat
  | .lit w => w

/-- An X operand read as a float of a format: imm6 converts exactly, other bits stand (R161, R166). -/
def Group.opXF (g : Group) (f : Fmt) (copies : Nat) : XOp → Word
  | .s r => g.sreg r.toNat
  | .imm n =>
    let w := immFloat f n.toInt
    word ((List.range copies).foldl (fun a i => a + w * 2 ^ ((1 + f.ew + f.fw) * i)) 0)
  | .lit w => w

/-- The scalar register an X operand reads, if any. -/
def XOp.reg : XOp → List Nat
  | .s r => [r.toNat]
  | .imm _ => []
  | .lit _ => []

/-- The second source of a lane instruction. -/
inductive Src where
  | v (r : VReg)
  | x (o : XOp)
  deriving DecidableEq, Repr

def Src.vregs : Src → List Nat
  | .v r => [r.toNat]
  | .x _ => []
def Src.sregs : Src → List Nat
  | .v _ => []
  | .x o => XOp.reg o
/-- The source's word in a lane. -/
def Group.src (g : Group) (c : Src) (l : Nat) : Word :=
  match c with
  | .v r => g.vword r.toNat l
  | .x o => g.opX o
/-- The source's word in a lane, an imm6 converted to a floating format (R161). -/
def Group.srcF (g : Group) (f : Fmt) (copies : Nat) (c : Src) (l : Nat) : Word :=
  match c with
  | .v r => g.vword r.toNat l
  | .x o => g.opXF f copies o

/-- Destination elements of the executing lanes written with `f`, and of masked-off lanes under ZERO
with 0 (R164, R201): `n` registers from `a`. -/
def writeElems (s : State) (g : Group) (a n : Nat) (f : Nat → Nat → Elem) : Group :=
  let ex := execMask s g
  let ks := (lanesOf s.iss.lanes).flatMap fun l => (List.range n).filterMap fun i =>
    if bit ex l then some (vkey (a + i) l, f l i)
    else if zeroing s then some (vkey (a + i) l, Elem.val 0)
    else none
  { g with v := csets (.val 0) g.v ks }

/-- The same with a word in each element. -/
def writeLanes (s : State) (g : Group) (a n : Nat) (f : Nat → Nat → Word) : Group :=
  writeElems s g a n fun l i => .val (f l i)

/-- A lane instruction that blocks on forms (R201): sources `rs` in the executing lanes, then `n` result
words a lane at `a`. -/
def laneOp (s : State) (rule : PfxRule) (a n : Nat) (named rs : List Nat) (sr : List Nat)
    (f : Group → Nat → Nat → Word) : Out :=
  begin_ s { rule := rule, v := (List.range n).map (a + ·) ++ named ++ rs, vr := rs, sr := sr } fun g =>
    blocking s g rs (lanesOf (execMask s g)) (complete s (writeLanes s g a n (f g)))

/-- A two-source lane instruction with one result word. -/
def laneOp2 (s : State) (rule : PfxRule) (a b : VReg) (c : Src) (f : Word → Word → Word) : Out :=
  laneOp s rule a.toNat 1 [] (b.toNat :: c.vregs) c.sregs fun g l _ => f (g.vword b.toNat l) (g.src c l)

/-- A one-source lane instruction with one result word. -/
def laneOp1 (s : State) (rule : PfxRule) (a b : VReg) (f : Group → Word → Word) : Out :=
  laneOp s rule a.toNat 1 [] [b.toNat] [] fun g l _ => f g (g.vword b.toNat l)

/-- The element of a source register in a lane, a known 0 where the instruction has no such source. -/
def Group.optElem (g : Group) (r : Option Nat) (l : Nat) : Elem :=
  match r with
  | some r => g.elem r l
  | none => .val 0

/-- The element of a second source in a lane. -/
def Group.srcElem (g : Group) (x : Option Src) (flt : Bool) (l : Nat) : Elem :=
  match x with
  | some (.v r) => g.elem r.toNat l
  | some (.x o) => .val (if flt then g.opXF fp32 1 o else g.opX o)
  | none => .val 0

/-- The registers that a transform-capable instruction reads: b, x and the addend. -/
def xformReads (b : Option Nat) (x : Option Src) (addend : Option Nat) : List Nat :=
  b.toList ++ x.toList.flatMap Src.vregs ++ addend.toList

/-- A transform-capable instruction's result in a lane, none where its use blocks. -/
def xformAt (g : Group) (t : Xform) (b : Option Nat) (x : Option Src) (flt : Bool) (addend : Option Nat) (l : Nat) :
    Option Elem :=
  t.result (g.optElem b l) (g.srcElem x flt l) (g.optElem addend l)

/-- A transform-capable lane instruction (R54, R55, R201): b, x and addend registers; lanes whose use
blocks make the whole instruction wait or trap. The result registers that would hold a form count
against R53. -/
def laneXform (s : State) (rule : PfxRule) (a : VReg) (t : Group → Xform) (b : Option Nat)
    (x : Option Src) (flt : Bool) (addend : Option Nat) : Out :=
  let rs := xformReads b x addend
  begin_ s { rule := rule, v := a.toNat :: rs, vr := rs, sr := x.toList.flatMap Src.sregs } fun g =>
    let bad := (lanesOf (execMask s g)).filter fun l => (xformAt g (t g) b x flt addend l).isNone
    if bad.isEmpty then
      let g2 := writeElems s g a.toNat 1 fun l _ => (xformAt g (t g) b x flt addend l).getD (.val 0)
      if g.syms.isEmpty || decide (g2.formRegs ≤ 16) then complete s g2
      else match g.forceRelease with
        | some g3 => .next (putGroup s s.iss.g g3)
        | none => longStall s g
    else blocking s g rs bad (longStall s g)

end Sys2Proof.Machine
end

