-- ==== Sys2Proof/Machine/Mem.lean ====
section
/-! DEFINITION. Global and scratch memory: address translation (R335 to R341), the checks of an access
(R227, R228, R230, R339, R340), physical reads and writes with reductions in partial copies (R125), the
cache slices (R89 to R93), the L1 read copies and logical leases (R87, R115, R119, R120), and scratch
addresses (R95 to R97). -/

namespace Sys2Proof.Machine

/-- Base of the keys of host memory and of peer devices' memory in `State.mem`. -/
def hostKey : Nat := 2 ^ 60
def peerKey (dev : Nat) : Nat := 2 ^ 61 + dev * 2 ^ 56
/-- The end of local physical addresses, 576 GiB (R335). -/
def hbmEnd : Nat := 0x9000000000

/-- Why an access fails: cause, and the fields of its fault record if one is written (R344). -/
structure Fail where
  cause : Nat
  reason : Nat
  level : Nat
  entry : BitVec 128
  /-- a fault record is written -/
  rec_ : Bool
  /-- slot and line of an aboard line (R381) -/
  slot : Nat
  line : Nat
  deriving DecidableEq, Repr

/-- A failure of a reason that has no entry. -/
def failMem (reason : Nat) : Fail :=
  { cause := cMem, reason := reason, level := 15, entry := 0, rec_ := true, slot := 0, line := 0 }
/-- A memory fault with no fault record (R344). -/
def failPlain : Fail := { failMem 0 with rec_ := false }
/-- No failure: the access waits, because its unit of the column is held (R387, R390). -/
def failHeld : Fail := { failPlain with cause := 0 }

/-! The cache slices (R89 to R93). -/

/-- The slice of a line (R89). -/
def sliceOf (line : Nat) : Nat := (if line < 0x4800000000 / 1024 then 0 else 144) + line % 144
/-- Class of a tensor id (R91). -/
def tidClass (s : State) (tid : Nat) : Nat :=
  if tid = 0 then 0 else fld (regGet s (0x140 + tid / 16)) (2 * (tid % 16)) 2

/-- The victim of a full set (R92): class 2 before class 0 before class 1, least recently used first. -/
def victimOf (set : List (Nat × LlcLine)) : Option Nat :=
  let rank (l : LlcLine) : Nat := if l.cls = 2 then 0 else if l.cls = 0 then 1 else 2
  (set.foldl (fun (b : Option (Nat × LlcLine)) x =>
    match b with
    | none => some x
    | some y => if rank x.2 < rank y.2 || (rank x.2 == rank y.2 && decide (x.2.used < y.2.used)) then some x else b)
    none).map (·.1)

/-- The use mark below every line's: a line so marked is the least recently used of its set (R92). -/
def belowAll (set : List (Nat × LlcLine)) : Int := set.foldl (fun b p => min b (p.2.used - 1)) 0

/-- A sector, the unit of fill, present in its slice after an access by tensor id `tid` (R89, R91, R92), or not, for
class 3. The class of its line stays that of the line's insertion (log 99). -/
def fillSector (s : State) (sec tid : Nat) : State :=
  let line := sec / 4
  match tget s.llc line with
  | some l =>
    { s with uses := s.uses + 1
             llc := tput s.llc line { l with used := s.uses + 1
                                             secs := if l.secs.contains (sec % 4) then l.secs else l.secs ++ [sec % 4] } }
  | none =>
    let cls := tidClass s tid
    if cls = 3 then s
    else
      let set := if s.llc.length < 12 then []
        else s.llc.filter fun p => sliceOf p.1 == sliceOf line && Config.sliceSet p.1 % 64 == Config.sliceSet line % 64
      let llc := if set.length < 16 then s.llc
        else match victimOf set with
          | some v => cdel s.llc v
          | none => s.llc
      let cls := if cls = 1 && decide (12 ≤ (set.filter fun p => p.2.cls == 1).length) then 0 else cls
      { s with uses := s.uses + 1
               llc := tput llc line { tid := tid, cls := cls, used := if cls = 2 then belowAll s.llc else s.uses + 1,
                                      old := [], secs := [sec % 4], dirty := [] } }

/-- The bytes of HBM4 that a write of one sector makes dirty are kept while their line is in its slice (R93). -/
def dirtyLine (s : State) (key n : Nat) : State :=
  match tget s.llc (key / 1024) with
  | none => s
  | some l =>
    let o := key % 1024
    let sec := o / 256
    let news := (List.range n).filter fun i => !(l.old.any fun p => p.1 == o + i)
    let l2 : LlcLine :=
      { l with
        old := l.old ++ news.map (fun i => (o + i, rdByte s.mem (key + i)))
        dirty := if l.dirty.contains sec then l.dirty else l.dirty ++ [sec] }
    { s with llc := tput s.llc (key / 1024) l2 }

/-- A slice writes a dirty sector, the unit of transfer, back to HBM4 (R89). -/
def writeBackSector (s : State) (sec : Nat) : State :=
  { s with llc := tupd s.llc (sec / 4) fun l =>
      { l with old := l.old.filter (fun b => b.1 / 256 != sec % 4), dirty := l.dirty.filter (· != sec % 4) } }

/-! Atomic operations and reductions. -/

/-- The new value of one atomic step on old value `o` with datum `x` and, for `cas`, new value `y`
(R234, R145); `wide` is 64 bits. -/
def atomStep (op : AtomOp) (wide : Bool) (o x y : Nat) : Nat :=
  let w := if wide then 64 else 32
  let sg (n : Nat) : Int := if 2 ^ (w - 1) ≤ n then (n : Int) - 2 ^ w else n
  match op with
  | .add => (o + x) % 2 ^ w
  | .minS => if sg x < sg o then x else o
  | .maxS => if sg o < sg x then x else o
  | .minN => if x < o then x else o
  | .maxN => if o < x then x else o
  | .and => o &&& x
  | .or => o ||| x
  | .xor => o ^^^ x
  | .swap => x
  | .cas => if o = x then y else o
  | .addF => fp32.arith 0 rne false o x

/-- Width of an atomic's operand in bytes. -/
def wideBytes (wide : Bool) : Nat := if wide then 8 else 4

/-! Logical time (R115 to R121, the leases of 06_ordering.md): every agent of the memory order keeps one, every access is stamped, and the order
is the order of stamps. -/

/-- The agents besides the cores: the host, a peer device, and the engines' writes for a group. -/
def agentHost : Nat := 1000
def agentPeer (d : Nat) : Nat := 2000 + d
def agentEng (g : Nat) : Nat := 2 ^ 20 + g
/-- The engines that work for a core's groups, as readers. -/
def agentUnits (core : Nat) : Nat := 2 ^ 60 + core

/-- Logical time of an agent, which never falls below TIME (R115), nor below what has been made visible to every core. -/
def coreTime (s : State) (a : Nat) : Nat := max (max (cget 0 s.lts a) s.ltFloor) s.time
/-- An agent's logical time moves up to a stamp. -/
def raiseTime (s : State) (a t : Nat) : State :=
  { s with lts := cset 0 s.lts a (max (coreTime s a) t), stamp := max s.stamp (max (coreTime s a) t) }

/-- The keys under which an Annulus slot and a surface sample keep the stamp of their last access. -/
def slotSec (slot : Nat) : Nat := 2 ^ 80 + slot
def sampleSec (k : Nat) : Nat := 2 ^ 84 + k / 256
def scrSec (k : Nat) : Nat := 2 ^ 96 + k / 256
/-- Where `State.olds` keeps bytes of scratch and of surfaces. -/
def scrOld : Nat := 2 ^ 100
def tileOld : Nat := 2 ^ 110
/-- The key of the stamp of the changes made to a whole surface at once. -/
def surfSec (surf : Nat) : Nat := 2 ^ 90 + surf
/-- An access of an agent to a place that has no read copies: its stamp is not below the last access there (R115, R136). -/
def visit (s : State) (a sec : Nat) : State :=
  let t := max (coreTime s a) (cget 0 s.wts sec)
  { s with lts := cset 0 s.lts a t, wts := cset 0 s.wts sec t, stamp := max s.stamp t }

/-- The bytes of a memory that a write of stamp `t` is about to change, as `State.olds` keeps them from key `base` on. -/
def oldBytes (s : State) (base : Nat) (m : List Host.Cell) (key n t : Nat) : List OldByte :=
  (List.range n).map fun i =>
    { time := s.time, stamp := t, key := base + key + i, byte := rdByte m (key + i), cmd := 0, until_ := none }

/-- Bytes of one sector changed by a write of stamp `t`; what they were stays known (R133). -/
def storeAt (s : State) (key n v t : Nat) : State :=
  { s with mem := wrN s.mem key n v
           olds := oldBytes s 0 s.mem key n t ++ s.olds
           wts := cset 0 s.wts (key / 256) (max (cget 0 s.wts (key / 256)) t)
           stamp := max s.stamp t }

/-- Which of a list of reductions may be applied next: any floating one, and the first of the others (R126). -/
def nextPartials (ps : List Partial) : List Nat :=
  (List.range ps.length).filter fun k =>
    (ps[k]?.map (·.op)) == some .addF || (ps.take k).all fun p => p.op == .addF

/-- Reductions of a list applied to memory: integer ones in their order, floating ones in an order the device chooses
(R125, R126). -/
def applyPartials : Nat → State → List Partial → State
  | 0, s, _ => s
  | n + 1, s, ps =>
    let ks := nextPartials ps
    let k := if ks.length ≤ 1 then ks.headD 0 else ks.getD (chooseOf s ks.length) 0
    match ps[k]? with
    | none => s
    | some p =>
      let w := wideBytes p.wide
      let s := if ks.length ≤ 1 then s else chose s
      let s := if p.addr < hbmEnd then dirtyLine s p.addr w else s
      let v := atomStep p.op p.wide (rdN s.mem p.addr w) p.operand.toNat 0
      applyPartials n (storeAt s p.addr w v p.stamp) (ps.eraseIdx k)

/-- Every partial copy of a line is merged before an access reaches it (R125). -/
def mergeLine (s : State) (line : Nat) : State :=
  if s.partials.isEmpty then s
  else
    let here := s.partials.filter fun p => p.addr / 1024 == line
    let s := { s with partials := s.partials.filter fun p => p.addr / 1024 != line }
    applyPartials here.length s here

/-- An agent's access reaches a line: partial copies are merged, and its stamp moves above theirs (R125). -/
def reach (s : State) (a line : Nat) : State :=
  if s.partials.isEmpty then s
  else
    let here := s.partials.filter fun p => p.addr / 1024 == line
    let s' := mergeLine s line
    if here.isEmpty then s' else raiseTime s' a (here.foldl (fun b p => max b p.stamp) 0)

/-! Reads and writes at the slices and through a core's L1. -/

/-- A read at the slice of a line: by engines, walks, hosts and peers. -/
def readSlice (s : State) (key n tid : Nat) : State × Nat :=
  let s := mergeLine s (key / 1024)
  let s := if key < hbmEnd then fillSector s (key / 256) tid else s
  (s, rdN s.mem key n)

/-- A read at the slices of a range that may span sectors. -/
def readSpan (s : State) (key n tid : Nat) : State × Nat :=
  let s := (List.range ((key + n - 1) / 256 + 1 - key / 256)).foldl (fun s i =>
    let s := mergeLine s ((key / 256 + i) / 4)
    if key < hbmEnd then fillSector s (key / 256 + i) tid else s) s
  (s, rdN s.mem key n)

/-- The stamp of a write at a slice: beyond every lease on its sector (R115). -/
def sliceStamp (s : State) (key : Nat) : Nat :=
  max (max s.time (cget 0 s.wts (key / 256))) (cget 0 s.rts (key / 256) + 1)

/-- A write of one sector at the slice of its line, stamped `t` or later (R115). -/
def writeSector (s : State) (key n v tid t : Nat) : State :=
  let s := mergeLine s (key / 1024)
  let s := if key < hbmEnd then dirtyLine (fillSector s (key / 256) tid) key n else s
  storeAt s key n v (max t (sliceStamp s key))

/-- A write at the slices that serve its bytes, sector by sector (R89). -/
def writeSectors : Nat → State → Nat → Nat → Nat → Nat → State
  | 0, s, _, _, _, _ => s
  | k + 1, s, key, n, v, tid =>
    let m := 256 - key % 256
    if n ≤ m then writeSector s key n v tid 0
    else writeSectors k (writeSector s key m (v % 256 ^ m) tid 0) (key + m) (n - m) (v / 256 ^ m) tid

/-- A write of `n` bytes at the slices. -/
def writeSlice (s : State) (key n v tid : Nat) : State := writeSectors (n / 256 + 2) s key n v tid

/-- A write of the spill engine to the home of a surface, whose sectors `tdisc` leaves alone while the surface is
defined (R93). -/
def writeSpill (s : State) (key n v tid surf : Nat) : State :=
  let s := writeSlice s key n v tid
  { s with spilled := (List.range ((key + n - 1) / 256 + 1 - key / 256)).foldl
             (fun c i => tput c (key / 256 + i) surf) s.spilled }
/-- A surface is defined no longer: `tdisc` drops what was spilled of it as any other sector (R93). -/
def forgetSpilled (s : State) (surf : Nat) : State := { s with spilled := s.spilled.filter fun p => p.2 != surf }

/-- The newest `n` entries of the old bytes are those of an engine command's write. -/
def markOlds (s : State) (n cmd : Nat) (due : Option Nat) : State :=
  { s with olds := (s.olds.take n).map (fun e => { e with cmd := cmd, until_ := due }) ++ s.olds.drop n }

/-- A write of an engine command for group `g` made visible, within one sector: its stamp counts among the group's engine
writes (R130). -/
def writeEng (s : State) (g cmd : Nat) (due : Option Nat) (key n v tid : Nat) : State :=
  let s := markOlds (writeSector s key n v tid 0) n cmd due
  raiseTime s (agentEng g) (cget 0 s.wts (key / 256))

/-- A lane's or unit's write of scratch, at its place in the order of an agent (R115). -/
def scrWrite (s : State) (a key n v : Nat) : State :=
  let s := visit s a (scrSec key)
  { s with scr := wrN s.scr key n v, olds := oldBytes s scrOld s.scr key n (coreTime s a) ++ s.olds }
/-- A lane's read of scratch. -/
def scrRead (s : State) (a key n : Nat) : State × Nat := (visit s a (scrSec key), rdN s.scr key n)

/-- A stamp above every other, for a write of an engine for group `g` to a place that has no read copies (R130). -/
def stampEng (s : State) (g sec : Nat) : State :=
  let t := max (s.stamp + 1) s.time
  raiseTime { s with wts := cset 0 s.wts sec t } (agentEng g) t
/-- A write of scratch of an engine command made visible (R130). -/
def scrEng (s : State) (g cmd : Nat) (due : Option Nat) (key n v : Nat) : State :=
  let s := stampEng s g (scrSec key)
  markOlds { s with scr := wrN s.scr key n v
                    olds := oldBytes s scrOld s.scr key n (cget 0 s.wts (scrSec key)) ++ s.olds } n cmd due

/-- What an engine's read may still find instead of a newer byte (R132, R133): a byte no older than at the push less 2048 ns
of TIME; where the command has acquired, none older than what the pusher had seen; none older than what has been made visible
to the engines of its core, nor than an engine's write 2048 ns after its completion update (R130). -/
def OldByte.reaches (e : OldByte) (s : State) (core pushed seen : Nat) (acq : Bool) : Bool :=
  decide (pushed < e.time + 2048) && (!acq || decide (seen < e.stamp))
    && decide (max s.ltFloor (cget 0 s.lts (agentUnits core)) < e.stamp)
    && match e.until_ with
      | some u => decide (s.time < u)
      | none => true

/-- Ranges of a memory as an engine reads them at one point: as they are, or as they were before some of the writes that
reach back (R77, R133). `base` is where `State.olds` keeps the bytes of that memory. -/
def readBack (s : State) (fits : OldByte → Bool) (base : Nat) (m : List Host.Cell) (rs : List (Nat × Nat)) : State × List Nat :=
  let es := s.olds.filter fun e => fits e && rs.any fun r => decide (base + r.1 ≤ e.key) && decide (e.key < base + r.1 + r.2)
  if es.isEmpty then (s, rs.map fun r => rdN m r.1 r.2)
  else
    let old := (es.take (chooseOf s (es.length + 1))).foldl (fun m e => wrByte m (e.key - base) e.byte) m
    (chose s, rs.map fun r => rdN old r.1 r.2)

/-- An engine's read of ranges of memory at one point. -/
def readEngs (s : State) (core pushed seen : Nat) (acq : Bool) (rs : List (Nat × Nat)) (tid : Nat) : State × List Nat :=
  let s := rs.foldl (fun s r => (readSlice s r.1 r.2 tid).1) s
  readBack s (fun e => e.reaches s core pushed seen acq) 0 s.mem rs

/-- Key of a core's L1 copy of a sector. -/
def l1Key (core sec : Nat) : Nat := core * 2 ^ 60 + sec
/-- Scratch granules of a column (R97). -/
def granulesOf : Nat := 64
def granKey (core i : Nat) : Nat := core * 64 + i
def granOf (s : State) (core i : Nat) : Granule :=
  (tget s.granules (granKey core i)).getD { owner := none, lastCtx := none }
/-- The team that holds the scratch byte at a key. -/
def scrOwner (s : State) (key : Nat) : Option Nat := (granOf s (key / 2 ^ 22) (key % 2 ^ 22 / 65536)).owner

/-! Engine writes that have arrived (R130). -/

/-- One part of a write becomes visible; scratch that its team holds no longer is not written. -/
def landPart (w : LateWrite) (s : State) (p : LatePart) : State :=
  if !p.scr then writeEng s w.g w.cmd w.due p.key p.n p.v p.tid
  else if scrOwner s p.key = p.team then scrEng s w.g w.cmd w.due p.key p.n p.v
  else s
/-- A write becomes visible. -/
def landWrite (s : State) (w : LateWrite) : State := w.parts.foldl (landPart w) s
/-- The waiting writes that pass a test become visible, in their order. -/
def landThose (s : State) (f : LateWrite → Bool) : State :=
  (s.late.filter f).foldl landWrite { s with late := s.late.filter fun w => !f w }
/-- Every waiting write becomes visible. -/
def landAll (s : State) : State := landThose s fun _ => true

/-- Two parts share a byte. -/
def LatePart.meets (p q : LatePart) : Bool :=
  p.scr == q.scr && decide (p.key < q.key + q.n) && decide (q.key < p.key + p.n)
/-- The `k`-th waiting write becomes visible, unless an earlier one of its command to one of its bytes still waits: of two
writes of a command to a byte the later one wins (R278). -/
def landNth (s : State) (k : Nat) : State :=
  match s.late[k]? with
  | none => s
  | some w =>
    if (s.late.take k).any fun v => v.cmd == w.cmd && v.parts.any fun p => w.parts.any p.meets then s
    else landWrite { s with late := s.late.eraseIdx k } w
/-- Writes that are due become visible (R130). -/
def landDue (s : State) : State :=
  landThose s fun w => match w.due with
    | some t => decide (t ≤ s.time)
    | none => false
/-- The completion update of a command is made: 2048 ns of TIME later its writes are visible to every observer (R130). -/
def boundLate (s : State) (cmd : Nat) : State :=
  { s with
    late := s.late.map fun w => if w.cmd = cmd then { w with due := some (s.time + 2048) } else w
    olds := s.olds.map fun e => if e.cmd = cmd && e.until_.isNone then { e with until_ := some (s.time + 2048) } else e }

/-- The granules of a core that no team holds, of which its L1 is built (R87). -/
def lentGranules (s : State) (core : Nat) : List Nat :=
  (List.range granulesOf).filter fun i => (granOf s core i).owner.isNone
/-- The copies that a core holds in a granule. -/
def copiesIn (s : State) (core i : Nat) : List (Nat × L1Copy) :=
  s.l1.filter fun p => p.1 / 2 ^ 60 == core && p.2.gran == i

/-- Room made in a core's L1 for a line of granule `i`: in a full granule a line that the device chooses goes (R87,
log 100). -/
def makeRoom (s : State) (core i : Nat) : State :=
  if (s.l1.filter fun p => p.1 / 2 ^ 60 == core).length < 256 then s
  else
    let held := copiesIn s core i
    if held.length < 256 then s
    else chose { s with l1 := cdel s.l1 ((held.map (·.1)).getD (chooseOf s held.length) 0) }

/-- A copy placed in a core's L1, in a lent granule that the device chooses (R87, log 100); the granule's bytes read 0
from then on (R88). -/
def placeCopy (s : State) (core sec : Nat) (c : L1Copy) : State :=
  let lent := lentGranules s core
  if lent.isEmpty then s
  else
    let i := lent.getD (chooseOf s lent.length) 0
    let s := makeRoom (chose { s with l1 := cdel s.l1 (l1Key core sec) }) core i
    let fresh := (granOf s core i).lastCtx.isNone
    { s with
      l1 := tput s.l1 (l1Key core sec) { c with gran := i }
      granules := if fresh then s.granules else tput s.granules (granKey core i) { owner := none, lastCtx := none }
      scr := if fresh then s.scr else zeroRange s.scr (core * 2 ^ 22 + i * 65536) 65536 }

/-- A read copy of a sector is granted to a core's L1, if the core has one (R87, R115). -/
def grantCopy (s : State) (core key tid : Nat) : State :=
  let sec := key / 256
  let lt := max (coreTime s core) (cget 0 s.wts sec)
  let s := { s with lts := cset 0 s.lts core lt, stamp := max s.stamp lt,
                    rts := cset 0 s.rts sec (max (cget 0 s.rts sec) (lt + 2048)) }
  placeCopy s core sec
    { data := rdBytes s.mem (sec * 256) 256, lease := lt + 2048, grant := s.time, tid := tid, gran := 0 }

/-- The bytes of an L1 copy as a number. -/
def copyBytes (c : L1Copy) (o n : Nat) : Nat :=
  ((List.range n).foldr (fun i acc => acc * 256 + (c.data.getD (o + i) 0).toNat) 0)

/-- A copy that the core may still read: within its lease, and for 2048 ns of TIME (R115, R119). -/
def usableCopy (s : State) (core sec : Nat) : Option L1Copy :=
  match tget s.l1 (l1Key core sec) with
  | some c => if coreTime s core ≤ c.lease && decide (s.time < c.grant + 2048) then some c else none
  | none => none

/-- A lane's read of `n` bytes within a sector (R115). -/
def readCore (s : State) (core key n tid : Nat) : State × Nat :=
  match usableCopy s core (key / 256) with
  | some c => ({ s with lts := cset 0 s.lts core (coreTime s core) }, copyBytes c (key % 256) n)
  | none =>
    let r := readSlice (reach s core (key / 1024)) key n tid
    (grantCopy r.1 core key tid, r.2)

/-- The stamp of an agent's write: beyond every lease on its sector (R115). -/
def writeStamp (s : State) (a key : Nat) : Nat := max (coreTime s a) (sliceStamp s key)
/-- An agent's write or reduction takes its stamp, and its core's own copy is dropped (R115). -/
def stampWrite (s : State) (a key : Nat) : State :=
  let t := writeStamp s a key
  { s with lts := cset 0 s.lts a t, wts := cset 0 s.wts (key / 256) t, stamp := max s.stamp t,
           l1 := cdel s.l1 (l1Key a (key / 256)) }

/-- An agent's write of `n` bytes within a sector. -/
def writeCore (s : State) (a key n v tid : Nat) : State :=
  let s := reach s a (key / 1024)
  let t := writeStamp s a key
  stampWrite (writeSector s key n v tid t) a key

/-- A read of an agent that keeps no copies, of `n` bytes within a sector: at the slice, stamped not below the last write
there, nor a later write below it (R115, R121). -/
def readAgent (s : State) (a key n tid : Nat) : State × Nat :=
  let r := readSlice (reach s a (key / 1024)) key n tid
  let t := max (coreTime r.1 a) (cget 0 r.1.wts (key / 256))
  ({ r.1 with lts := cset 0 r.1.lts a t, stamp := max r.1.stamp t,
              rts := cset 0 r.1.rts (key / 256) (max (cget 0 r.1.rts (key / 256)) t) }, r.2)

/-- An acquire at a core: copies older than any write already stamped are no longer used. -/
def acquire (s : State) (core : Nat) : State :=
  { s with lts := cset 0 s.lts core (max (coreTime s core) s.stamp) }

/-- `ack` (R120). -/
def dropCopies (s : State) (core : Nat) : State :=
  { s with l1 := s.l1.filter fun p => p.1 / 2 ^ 60 != core }

/-- `tdisc`: lines tagged with an id lose their dirty bytes, sectors of the spill engine apart, and L1 copies
so tagged go (R93). -/
def discard (s : State) (tid : Nat) : State :=
  let hit := s.llc.filter fun p => p.2.tid == tid
  let kept (line sec : Nat) : Bool := (tget s.spilled (4 * line + sec)).isSome
  let mem := hit.foldl (fun m p => p.2.old.foldl (fun m b =>
    if kept p.1 (b.1 / 256) then m else wrByte m (p.1 * 1024 + b.1) b.2) m) s.mem
  { s with
    mem := mem
    llc := s.llc.filterMap fun p =>
      if p.2.tid == tid then
        (if (p.2.dirty.filter (kept p.1)).isEmpty then none
         else some (p.1, { p.2 with old := p.2.old.filter (fun b => kept p.1 (b.1 / 256)),
                                    secs := p.2.secs.filter (kept p.1),
                                    dirty := p.2.dirty.filter (kept p.1) }))
      else some p
    l1 := s.l1.filter fun p => p.2.tid != tid }

/-! Visibility of engine writes (R129, R130, R134). -/

/-- The cores at which the observers of a scope below package read: for a group at a core, of a cluster (R129). -/
def scopeCores (s : State) (core cid scope : Nat) : List Nat :=
  if scope < 2 then [core]
  else if scope = 2 then (List.range 4).map (facetCore core)
  else core :: (s.teams.filter fun t => t.2.cid == cid).map (·.2.core)

/-- Every write stamped up to `t` is visible to the observers of a scope: no later read of theirs, from a copy or by an
engine, returns an older value (R129, R130). At package and system scope that is every core (log 101). -/
def publish (s : State) (core cid scope t : Nat) : State :=
  if scope < 4 then (scopeCores s core cid scope).foldl (fun s c => raiseTime (raiseTime s c t) (agentUnits c) t) s
  else { s with ltFloor := max s.ltFloor t, stamp := max s.stamp t, olds := s.olds.filter fun e => decide (t < e.stamp) }
/-- Every write so far is visible to every observer. -/
def publishAll (s : State) : State := publish s 0 0 5 s.stamp

/-- A range of lines of HBM4 set to 0 for good: no cache line, copy or older byte of it remains. -/
def zeroHome (s : State) (a n : Nat) : State :=
  let here (k : Nat) : Bool := decide (a ≤ k) && decide (k < a + n)
  { s with
    mem := zeroRange s.mem a n
    llc := s.llc.filter fun p => !here (p.1 * 1024)
    l1 := s.l1.filter fun p => !here (p.1 % 2 ^ 60 * 256)
    spilled := s.spilled.filter fun p => !here (p.1 * 256)
    olds := s.olds.filter fun e => !here e.key }

/-! Translation. -/

/-- Bits [lo + n − 1 : lo] of a page-table entry. -/
def pf (e : BitVec 128) (lo n : Nat) : Nat := e.toNat / 2 ^ lo % 2 ^ n
/-- Fields of a leaf (R337). -/
def pteAddr (e : BitVec 128) : Nat := pf e 12 44 * 4096
def pteTgt (e : BitVec 128) : Nat := pf e 10 2
def ptePeer (e : BitVec 128) : Nat := pf e 108 10
def pteFmt (e : BitVec 128) : Nat := pf e 106 2
def pteTid (e : BitVec 128) : Nat := pf e 118 10
def pteScale (e : BitVec 128) : Nat := pf e 64 28 * 4096

/-- The surface-table regions of the enabled contexts of a partition (R339, last check). -/
def surfRegions (s : State) (p : Nat) : List Nat :=
  ((List.range 64).filter fun k =>
    ctxPart s k == p && (regGet64 s (kCtx k 0x102) % 2 == 1)).map fun k =>
      regGet64 s (kCtx k 0x102) % 2 ^ 56 / 65536 * 65536

/-- The reason, if any, for which an entry at a level ends the walk in a fault (R339, R337). -/
def entryReason (s : State) (p lvl : Nat) (e : BitVec 128) : Option Nat :=
  let leaf := pf e 2 1 == 1
  let big := lvl == 1
  let addr := pteAddr e
  let size := if big then 2 ^ 25 else 2 ^ 16
  let next := if lvl = 1 then 8192 else 16384
  let rsv := pf e 92 12 != 0 || pf e 56 8 != 0 || pf e 3 3 != 0 || pf e 1 1 != 0
  if pf e 0 1 = 0 then some 0
  else if rsv then some 2
  else if leaf && (pteTgt e == 3 || pteFmt e == 3 || pf e 104 2 != 0) then some 2
  else if leaf && ((pteTgt e != 1 && ptePeer e != 0) || (pteFmt e == 0 && pteScale e != 0)) then some 2
  else if !leaf && (pf e 64 64 != 0 || pf e 6 6 != 0) then some 2
  else if (leaf && decide (2 ≤ lvl)) || (!leaf && lvl == 0) then some 3
  else if leaf && addr % size != 0 then some 2
  else if !leaf && addr % next != 0 then some 2
  else if !leaf && decide (hbmEnd ≤ addr) then some 4
  else if leaf && pteTgt e == 0 && decide (hbmEnd ≤ addr) then some 4
  else if leaf && pteFmt e != 0
      && (big || pteTgt e != 0 || pteScale e % (if pteFmt e = 1 then 4096 else 8192) != 0) then some 5
  else if leaf && pf e 7 1 == 1 && pteTgt e == 0
      && (surfRegions s p).any (fun r => decide (addr < r + 65536) && decide (r < addr + size)) then some 6
  else none

/-- The index of a virtual address at a level (R336). -/
def walkIndex (lvl va : Nat) : Nat :=
  if lvl = 3 then va / 2 ^ 45 % 2048 else if lvl = 2 then va / 2 ^ 35 % 1024
  else if lvl = 1 then va / 2 ^ 25 % 1024 else va / 2 ^ 16 % 512

/-- A leaf that a walk found: the entry, its page size, and the level. -/
structure Leaf where
  pte : BitVec 128
  big : Bool
  level : Nat
  deriving DecidableEq, Repr

/-- Key of an entry in the cache of non-leaf entries of a stack's walkers (R341). -/
def walkKey (stack a : Nat) : Nat := stack * 2 ^ 60 + a

/-- A walker's read of the entry at a physical address: from the slice that serves its line (R338), or from the cache of
non-leaf entries where it holds other bytes and the device takes them (R341, R343). -/
def walkEntry (s : State) (stack a : Nat) : State × BitVec 128 :=
  let r := readSlice s a 16 0
  let now := BitVec.ofNat 128 r.2
  match tget s.walks (walkKey stack a) with
  | none => (r.1, now)
  | some e => if e = now then (s, e) else if chooseOf s 2 = 0 then (chose s, e) else (chose r.1, now)

/-- The walk from a table at a level down (R336, R338, R339); a non-leaf entry that passes is kept (R341). -/
def walkFrom (s : State) (stack p va : Nat) : Nat → Nat → State × Except Fail Leaf
  | lvl, base =>
    let a := base + 16 * walkIndex lvl va
    let r := walkEntry s stack a
    match entryReason r.1 p lvl r.2 with
    | some x => (r.1, .error { failMem x with level := lvl, entry := r.2 })
    | none =>
      if pf r.2 2 1 = 1 then (r.1, .ok { pte := r.2, big := lvl == 1, level := lvl })
      else match lvl with
        | 0 => (r.1, .error { failMem 3 with level := 0, entry := r.2 })
        | n + 1 =>
          walkFrom { r.1 with walks := tput r.1.walks (walkKey stack a) r.2 } stack p va n (pteAddr r.2)

/-- PTBASE of a context is in force (R328). -/
def ptEn (s : State) (c : Nat) : Bool := regGet64 s (kCtx c 0x100) % 2 == 1

/-- The walk of a context's tables by a walker of a stack (R336). -/
def walk (s : State) (stack c va : Nat) : State × Except Fail Leaf :=
  let root := regGet64 s (kCtx c 0x100) % 2 ^ 56 / 4096 * 4096
  if root % 32768 ≠ 0 then (s, .error { failMem 2 with level := 3 })
  else if hbmEnd ≤ root then (s, .error { failMem 4 with level := 3 })
  else walkFrom s stack (ctxPart s c) va 3 root

/-- A TLB entry answers for an address. -/
def TlbEntry.hits (t : TlbEntry) (owner c va : Nat) : Bool :=
  t.owner == owner && t.ctx == c && (if t.big then va / 2 ^ 25 * 2 ^ 25 else va / 2 ^ 16 * 2 ^ 16) == t.page

/-- A translation entered in a TLB of a capacity, the oldest of a full one dropped (R341). -/
def tlbPut (ts : List TlbEntry) (cap : Nat) (t : TlbEntry) : List TlbEntry :=
  let own := ts.filter fun x => x.owner == t.owner
  let ts := if cap ≤ own.length then ts.eraseP (fun x => some x == own.getLast?) else ts
  t :: ts

/-- A translation of an address for a unit at a core: its L1 TLB, its quadrant's L2 TLB, then a walk (R341); none
while PTBASE is not in force (R328, R336). -/
def translate (s : State) (core c va : Nat) : State × Except Fail Leaf :=
  let quad := 1024 + quadOf core
  let page (b : Bool) : Nat := if b then va / 2 ^ 25 * 2 ^ 25 else va / 2 ^ 16 * 2 ^ 16
  if !ptEn s c then (s, .error { failMem 11 with level := 3 })
  else match s.tlb.find? fun t => t.hits core c va with
  | some t => (s, .ok { pte := t.pte, big := t.big, level := 15 })
  | none =>
    match s.tlb.find? fun t => t.hits quad c va with
    | some t =>
      ({ s with tlb := tlbPut s.tlb 256 { t with owner := core } }, .ok { pte := t.pte, big := t.big, level := 15 })
    | none =>
      match walk s (stackOf core) c va with
      | (s, .error f) => (s, .error f)
      | (s, .ok l) =>
        let t : TlbEntry := { owner := quad, ctx := c, page := page l.big, big := l.big, pte := l.pte }
        ({ s with tlb := tlbPut (tlbPut s.tlb 8192 t) 256 { t with owner := core } }, .ok l)

/-- Where an access goes. -/
structure Loc where
  /-- key in `State.mem` -/
  key : Nat
  pte : BitVec 128
  level : Nat
  va : Nat
  deriving DecidableEq, Repr

/-- The key of an address under a leaf. -/
def leafKey (l : Leaf) (va : Nat) : Nat :=
  let a := pteAddr l.pte + (if l.big then va % 2 ^ 25 else va % 2 ^ 16)
  if pteTgt l.pte = 0 then a else if pteTgt l.pte = 1 then peerKey (ptePeer l.pte) + a % 2 ^ 56 else hostKey + a

/-- The permissions an access needs (R340). -/
inductive Need where
  | read | write | atomic | exec
  deriving DecidableEq, Repr

/-- The leaf gives what the access needs; A only counts on peers and the host (R340). -/
def allows (e : BitVec 128) : Need → Bool
  | .read => pf e 6 1 == 1
  | .write => pf e 7 1 == 1
  | .exec => pf e 8 1 == 1
  | .atomic => pf e 6 1 == 1 && pf e 7 1 == 1 && (pteTgt e == 0 || pf e 9 1 == 1)

/-- A peer's window refuses the address (R401). -/
def peerRefuses (s : State) (e : BitVec 128) (key : Nat) : Bool :=
  pteTgt e == 1 && match tget s.peers (ptePeer e) with
    | some p => p.answers && (decide (key - peerKey (ptePeer e) < p.base)
        || decide (p.base + p.gran ≤ key - peerKey (ptePeer e)))
    | none => false

/-- A peer does not answer (R401), or the request fails for want of the session keys of a protected link to a peer or to the
host (R437, log 89). -/
def peerSilent (s : State) (e : BitVec 128) : Bool :=
  (pteTgt e == 1 && match tget s.peers (ptePeer e) with
    | some p => !p.answers || (!s.sessionKeys && Config.peerProtected (ptePeer e))
    | none => true)
  || (pteTgt e == 2 && !s.sessionKeys && Config.hostProtected)

/-- The slot that carries a line overlapping a range of local bytes, and the line (R147). -/
def aboardOver (s : State) (key n : Nat) : Option (Nat × Aboard) :=
  s.aboard.find? fun p => decide (p.2.line < key + n) && decide (key < p.2.line + 64)
/-- That slot and the virtual address the line was boarded by: for accesses that name no virtual address of the
line (scale frames, hosts and peers). -/
def aboardIn (s : State) (key n : Nat) : Option (Nat × Nat) :=
  (aboardOver s key n).map fun p => (p.1, p.2.va)
/-- That slot and the line's address in the space of an access at `va` (R381). -/
def aboardAt (s : State) (key n va : Nat) : Option (Nat × Nat) :=
  (aboardOver s key n).map fun p => (p.1, va + p.2.line - key)

/-- The level that a record shows for a translation: 15 where a TLB held it as the instruction's lookups began, since lanes
that name one page share one lookup (R341, R344). -/
def levelIn (ts : List TlbEntry) (core c va : Nat) (l : Leaf) : Nat :=
  if ts.any fun t => t.hits core c va || t.hits (1024 + quadOf core) c va then 15 else if l.big then 1 else 0

/-- The checks of one access of `n` bytes at a virtual address (R86, R228): canonical address, translation,
format (`fmtBad`), alignment (`align`, by page format), permission, and a line aboard; `ts` is what the TLBs held as
the instruction's lookups began. -/
def checkAccessIn (ts : List TlbEntry) (s : State) (core c va n : Nat) (need : Need) (fmtBad : Nat → Bool) (align : Nat → Nat) :
    State × Except Fail Loc :=
  if 2 ^ 56 ≤ va then (s, .error (failMem 9))
  else match translate s core c va with
    | (s, .error f) => (s, .error f)
    | (s, .ok l) =>
      let key := leafKey l va
      let lvl := levelIn ts core c va l
      let at_ (f : Fail) : Fail := { f with level := lvl, entry := l.pte }
      if fmtBad (pteFmt l.pte) then (s, .error (at_ (failMem 7)))
      else if va % align (pteFmt l.pte) ≠ 0 then (s, .error { failMem 10 with level := lvl })
      else if !allows l.pte need || peerRefuses s l.pte key then
        (s, .error (at_ { failMem 1 with cause := cPerm }))
      else match aboardAt s key n va with
        | some (k, line) =>
          (s, .error { failPlain with cause := cAlias, slot := k, line := line })
        | none => (s, .ok { key := key, pte := l.pte, level := lvl, va := va })
/-- The checks of an access that is alone in its lookups. -/
def checkAccess (s : State) (core c va n : Nat) (need : Need) (fmtBad : Nat → Bool) (align : Nat → Nat) :
    State × Except Fail Loc :=
  checkAccessIn s.tlb s core c va n need fmtBad align

/-- No page format is wrong; natural alignment. -/
def anyFmt (_ : Nat) : Bool := false
def plainOnly (f : Nat) : Bool := f != 0
def natural (n : Nat) (_ : Nat) : Nat := n

/-! Reporting what failed. -/

/-- A fault record from a failure (R344). -/
def mkRec (s : State) (f : Fail) (kind source : Nat) (addrs : List (Nat × Nat)) : FaultRec :=
  { entry := if 8 ≤ f.reason && decide (f.reason ≤ 12) then 0 else f.entry, time := s.time,
    lmask := maskOf (addrs.map (·.1)), kind := kind, reason := f.reason, level := f.level, source := source,
    addrs := addrs }

/-- Lanes that failed, with the failure and the address of each: the highest-priority cause, the lanes that
give it, and the first of them (R374, R344). -/
def worstOf (fs : List (Nat × Fail × Nat)) : Option (Fail × List (Nat × Nat)) :=
  match fs with
  | [] => none
  | f :: t =>
    let best := t.foldl (fun b x => if causePrio x.2.1.cause < causePrio b.cause then x.2.1 else b) f.2.1
    let same := fs.filter fun x => x.2.1.cause == best.cause
    some ((same.head?.map (·.2.1)).getD best, same.map fun x => (x.1, x.2.2))

/-- The detail of the stop record of a failing access (R381). -/
def failDetail (s : State) (f : Fail) (kind source : Nat) (addrs : List (Nat × Nat)) : Detail :=
  { detail := if f.cause = cAlias || f.cause = cWindow then f.slot else 0
    aux := if f.cause = cAlias || f.cause = cWindow then some f.line else none
    frec := if f.rec_ then some (mkRec s f kind source addrs) else none }

/-- The issue faults for the lanes that failed (R228); where they only wait, it waits. -/
def failLanes (s : State) (g : Group) (kind : Nat) (fs : List (Nat × Fail × Nat)) : Out :=
  match worstOf fs with
  | none => stall s
  | some (f, addrs) =>
    if f.cause = 0 then stall s else faultIssue s f.cause (failDetail s f kind (srcWedge g.core g.wedge) addrs)

/-! Scratch. -/

/-- Key of a byte offset of a team's allocation, if within it (R96, R97). -/
def scrKey (t : Team) (off : Nat) : Option Nat :=
  (t.grans[off / 65536]?).map fun g => t.core * 2 ^ 22 + g * 65536 + off % 65536

/-- The team that a scratch address names for a group's team (R95, R96), with the byte offset. -/
def scrTarget (s : State) (tid : Option Nat) (addr : Nat) : Option (Nat × Team × Nat) :=
  match tid with
  | none => none
  | some t0 =>
    match tget s.teams t0 with
    | none => none
    | some own =>
      if 2 ^ 24 ≤ addr then none
      else
        let core := facetCore own.core (addr / 2 ^ 22 % 4)
        let off := addr % 2 ^ 22
        if core = own.core then some (t0, own, off)
        else (s.teams.find? fun p => p.2.cid == own.cid && p.2.core == core).map fun p => (p.1, p.2, off)

/-- The key of `n` bytes at a scratch address, where R95 and R96 allow the access. -/
def scrAccess (s : State) (tid : Option Nat) (addr n : Nat) : Option Nat :=
  match scrTarget s tid addr with
  | none => none
  | some (_, t, off) => if (scrKey t (off + n - 1)).isSome then scrKey t off else none

/-- The checks of a scratch access of `n` bytes (R95, R96, R227). -/
def checkScratch (s : State) (tid : Option Nat) (addr n align : Nat) : Except Fail Nat :=
  match scrAccess s tid addr n with
  | none => .error failPlain
  | some k =>
    if addr % align ≠ 0 then .error (failMem 10) else if busHeld s (k / 2 ^ 22) 0 then .error failHeld else .ok k

end Sys2Proof.Machine
end

