-- ==== Sys2Proof/Machine/Surface.lean ====
section
/-! DEFINITION. Surfaces: the surface table (R99), where a square lies (R102), the five coding modes
(R104 to R107), reservation, eviction, spilling and filling (R103, R108 to R114), and the checks and
bytes of a sample access (R98, R231, R232). -/

namespace Sys2Proof.Machine

/-- Bytes per sample of a format, 0 for a reserved code (R100). -/
def fmtBytes (f : Nat) : Nat :=
  if f = 1 || f = 4 || f = 5 then 4 else if f = 2 then 8 else if f = 3 then 16 else if f = 6 then 2
  else if f = 7 || f = 8 then 1 else 0

def Surf.bytes (f : Surf) : Nat := fmtBytes f.fmt
def Surf.elems (f : Surf) : Nat := 64 * f.samples
/-- Raw bytes of a tile. -/
def Surf.tileBytes (f : Surf) : Nat := f.elems * f.bytes
def Surf.tw (f : Surf) : Nat := ceilDiv f.w 8
def Surf.th (f : Surf) : Nat := ceilDiv f.h 8
def Surf.tiles (f : Surf) : Nat := f.tw * f.th

/-- The surface table of a context, where STBASE is enabled (R99, R328). -/
def surfBase (s : State) (c : Nat) : Option Nat :=
  let b := regGet64 s (kCtx c 0x102)
  if b % 2 = 1 then some (b % 2 ^ 56 / 65536 * 65536) else none

/-- The surface that a table entry holds, if VALID (R99). -/
def surfOfEntry (e : Nat) : Option Surf :=
  let f (lo n : Nat) : Nat := e / 2 ^ lo % 2 ^ n
  if f 12 1 = 1 then
    some { fmt := f 0 8, samples := if f 8 2 = 1 then 4 else 1, evict := f 10 1 == 1, comp := f 11 1 == 1,
           tid := f 32 10, w := f 64 14 + 1, h := f 80 14 + 1, home := f 192 56, clear := f 256 128 }
  else none

/-- The surface of a slot, if defined. -/
def surfAt (s : State) (c slot : Nat) : Option Surf :=
  match surfBase s c with
  | some b => surfOfEntry (rdN s.mem (b + 64 * slot) 64)
  | none => none

/-- Bytes of a table entry written by the device, without translation (R99, R339). -/
def entryWrite (s : State) (c slot off n v : Nat) : State :=
  match surfBase s c with
  | some b => writeSlice s (b + 64 * slot + off) n v 0
  | none => s
def entryRead (s : State) (c slot off n : Nat) : Nat :=
  match surfBase s c with
  | some b => rdN s.mem (b + 64 * slot + off) n
  | none => 0
/-- A 32-bit count of the entry changed modulo 2^32. -/
def entryCount (s : State) (c slot off : Nat) (d : Int) : State :=
  entryWrite s c slot off 4 (((entryRead s c slot off 4 : Int) + d) % 2 ^ 32).toNat

/-! Where a square lies (R102). -/

/-- The columns of a partition on a stack that have an arena, in core order. -/
def arenaCores (s : State) (p stack : Nat) : List Nat :=
  ((List.range 4).map (stack * 4 + ·)).flatMap fun q =>
    if partMask s p / 2 ^ q % 2 = 1 then
      ((List.range 72).map (q * 72 + ·)).filter fun c => decide (0 < arenaBytes s c)
    else []

/-- The columns that hold a square's parity, and the stack choice, of a partition. -/
def squareCore (s : State) (p slot sx sy : Nat) : Option Nat :=
  let l0 := arenaCores s p 0
  let l1 := arenaCores s p 1
  let want := if (sx + sy) % 2 = 0 then l0 else l1
  let l := if want.isEmpty then (if l0.isEmpty then l1 else l0) else want
  let h := (slot * 0x9E5 + sx * 0x3B1 + sy * 0x2C7) % 65536
  match l with
  | [] => none
  | a :: t => some ((a :: t).getD (h % (a :: t).length) a)

/-- The column of tile t. -/
def tileCore (s : State) (c slot : Nat) (f : Surf) (t : Nat) : Option Nat :=
  squareCore s (ctxPart s c) slot (t % f.tw) (t / f.tw)

/-! Tiles and their coding. -/

def tileKey (c slot t : Nat) : Nat := (c * 1024 + slot) * 2 ^ 22 + t
def arenaKey (c slot t : Nat) : Nat := tileKey c slot t * 4096
def tileOf (s : State) (c slot : Nat) (f : Surf) (t : Nat) : Tile :=
  (tget s.tiles (tileKey c slot t)).getD { mode := if f.comp then 1 else 0, resident := true, dirty := true }
def putTile (s : State) (c slot t : Nat) (x : Tile) : State :=
  { s with tiles := tput s.tiles (tileKey c slot t) x }

/-- The elements of a resident tile. -/
def tileElems (s : State) (c slot : Nat) (f : Surf) (t : Nat) : List Nat :=
  match tget s.tiles (tileKey c slot t) with
  | none => List.replicate f.elems f.clear
  | some _ => (List.range f.elems).map fun j => rdN s.arena (arenaKey c slot t + j * f.bytes) f.bytes

/-- Elements laid raw in the arena (R104). -/
def layElems (m : List Host.Cell) (base b : Nat) : List Nat → List Host.Cell
  | [] => m
  | e :: es => layElems (wrN m base b e) (base + b) b es

/-- Byte channel `ch` of an element. -/
def chan (e ch : Nat) : Nat := e / 2 ^ (8 * ch) % 256

/-- The deltas of a channel, from element 1 on (R106). -/
def deltas (ch : Nat) : List Nat → List Int
  | [] => []
  | [_] => []
  | a :: b :: t => (((chan b ch : Int) - chan a ch + 128) % 256 - 128) :: deltas ch (b :: t)

/-- The mode of a tile's elements under compression (R105). -/
def codeMode (f : Surf) (es : List Nat) : Nat :=
  let ds := (List.range f.bytes).flatMap fun ch => deltas ch es
  if es.all fun e => e == f.clear then 1
  else if es.all fun e => e == es.headD 0 then 2
  else if ds.all fun d => decide (-2 ≤ d) && decide (d ≤ 1) then 3
  else if ds.all fun d => decide (-8 ≤ d) && decide (d ≤ 7) then 4
  else 0

/-- A list of k-bit fields as one number, the first lowest (R4, R106). -/
def packBits (k : Nat) (xs : List Int) : Nat :=
  xs.foldr (fun x acc => acc * 2 ^ k + (x % 2 ^ k).toNat) 0

def round32 (n : Nat) : Nat := ceilDiv n 32 * 32

/-- Payload of a tile in a mode: its bytes as a number, and their count (R105, R106). -/
def payload (f : Surf) (mode : Nat) (es : List Nat) : Nat × Nat :=
  let b := f.bytes
  let stream (k : Nat) : Nat × Nat :=
    (es.headD 0 + 2 ^ (8 * b) * packBits k ((List.range b).flatMap fun ch => deltas ch es),
     round32 (b + ceilDiv (b * (f.elems - 1) * k) 8))
  if mode = 1 then (0, 0)
  else if mode = 2 then (es.headD 0, round32 b)
  else if mode = 3 then stream 2
  else if mode = 4 then stream 4
  else (es.foldr (fun e acc => acc * 2 ^ (8 * b) + e) 0, f.elems * b)

/-- Channel bytes rebuilt from the first and k-bit delta fields. -/
def undelta (k first stream : Nat) : Nat → List Nat
  | 0 => [first]
  | n + 1 =>
    let x := stream % 2 ^ k
    let d : Int := if 2 ^ (k - 1) ≤ x then (x : Int) - 2 ^ k else x
    first :: undelta k (((first : Int) + d) % 256).toNat (stream / 2 ^ k) n

/-- Elements decoded from a payload under a mode (R106, R112). -/
def unpayload (f : Surf) (mode v : Nat) : List Nat :=
  let b := f.bytes
  let n := f.elems
  let stream (k : Nat) : List Nat :=
    let chs := (List.range b).map fun ch =>
      undelta k (chan v ch) (v / 2 ^ (8 * b) / 2 ^ (k * (n - 1) * ch)) (n - 1)
    (List.range n).map fun j => chs.foldr (fun c acc => acc * 256 + c.getD j 0) 0
  if mode = 1 then List.replicate n f.clear
  else if mode = 2 then List.replicate n (v % 2 ^ (8 * b))
  else if mode = 3 then stream 2
  else if mode = 4 then stream 4
  else (List.range n).map fun j => v / 2 ^ (8 * b * j) % 2 ^ (8 * b)

/-! Spilling and filling. -/

/-- The home slot's address of a tile (R109, R111). -/
def homeVa (f : Surf) (t : Nat) : Nat := f.home + t * f.tileBytes

/-- SPL counters of a stack: FILLS at +0, SPILLS at +1 (R402). -/
def splCount (s : State) (stack which : Nat) : State :=
  regSet s (0x900 + 8 * stack + which) (regGet s (0x900 + 8 * stack + which) + 1)

/-- The bytes of a spilled tile written to its home slot, and SPILLS counted (R110, R111). -/
def homeWrite (s : State) (c slot core : Nat) (f : Surf) (t mode : Nat) (es : List Nat) : Except Fail State :=
  let p := payload f mode es
  let counted (s : State) : State :=
    let s := entryCount (splCount s (stackOf core) 1) c slot 56 1
    emit s 0x0C (stackOf core) (ctxPart s c) (srcSpill (stackOf core)) (slot + 2 ^ 32 * t) Names.none
  if p.2 = 0 then .ok (counted s)
  else match checkAccess s core c (homeVa f t) p.2 .write anyFmt (natural 1) with
    | (_, .error e) => .error e
    | (s, .ok l) => .ok (counted (writeSpill s l.key p.2 p.1 f.tid (c * 1024 + slot)))

/-- A failed spill write: MEM_FAULT in the surface's context, with the home slot's address, and ERR if it is clear (R344,
R402, R403). -/
def spillFailed (s : State) (c slot core : Nat) (f : Surf) (t : Nat) (e : Fail) : State :=
  let st := stackOf core
  let k := 0x900 + 8 * st
  let s := if bit (regGet s (k + 2)) 31 then s
    else regSet (regSet s (k + 2) (word (2 ^ 31 + slot * 64 + c))) (k + 4) (word t)
  unitFault s c st none
    { unitRec s 2 cMem (srcSpill st) with frec := if e.rec_ then some (mkRec s e 5 (srcSpill st) [(0, homeVa f t)]) else none }

/-- The arena of a column is held: a stall, or a copy of one of its halves (R387, R390). -/
def arenaHeld (s : State) (core : Nat) : Bool := busHeld s core 2 || busHeld s core 3

def resvOf (s : State) (core c slot : Nat) : Option Resv :=
  s.resvs.find? fun r => r.core == core && r.ctx == c && r.slot == slot
def dropResv (s : State) (core c slot : Nat) : State :=
  { s with resvs := s.resvs.filter fun r => !(r.core == core && r.ctx == c && r.slot == slot) }
/-- A touch of a surface in a column (R110). -/
def touch (s : State) (core c slot : Nat) : State :=
  { s with resvs := s.resvs.map fun r =>
      if r.core = core ∧ r.ctx = c ∧ r.slot = slot then { r with touched := s.time } else r }

/-- Free arena bytes of a column. -/
def arenaFree (s : State) (core : Nat) : Nat :=
  arenaBytes s core - ((s.resvs.filter fun r => r.core == core).map Resv.bytes).sum

/-- Tiles of a surface in a column. -/
def tilesIn (s : State) (core c slot : Nat) (f : Surf) : List Nat :=
  (List.range f.tiles).filter fun t => tileCore s c slot f t == some core

/-- Bytes a surface reserves for a number of squares (R103). -/
def resvBytes (f : Surf) (squares : Nat) : Nat := squares * (f.tileBytes + 2)

/-- Some group but `but`, resident or saved, is in the midst of an instruction on a slot, at a phase that passes a test. -/
def atWorkOn (s : State) (but : Option Nat) (c slot : Nat) (at_ : Nat → Bool) : Bool :=
  let one (p : Nat × Group) : Bool :=
    some p.1 != but && p.2.id.ctx == c && at_ p.2.phase && p.2.phaseVals.head? == some slot
  s.groups.any one || s.saved.any fun c => c.2.saved.any fun t => t.groups.any one
/-- `surf.decomp` is in progress on a slot (R239). -/
def decomping (s : State) (c slot : Nat) : Bool := atWorkOn s none c slot fun p => decide (100 ≤ p)

/-! Draw states (R290), as far as the bank units' lists hold surfaces. -/

/-- Bits of a draw state. -/
def dsDen (ds : List Word) : Bool := blockBits ds 138 1 == 1
def dsDslot (ds : List Word) : Nat := blockBits ds 128 10
/-- The bound colour targets, and a target's slot. -/
def dsTargets (ds : List Word) : List Nat := (List.range 4).filter fun t => blockBits ds (74 + 16 * t) 1 == 1
def dsSlot (ds : List Word) (t : Nat) : Nat := blockBits ds (64 + 16 * t) 10
/-- Every bound slot, the depth target first: the anchor is the first (R443). -/
def dsSlots (ds : List Word) : List Nat := (if dsDen ds then [dsDslot ds] else []) ++ (dsTargets ds).map (dsSlot ds)
/-- Submissions a lane still owes to the bank unit or has waiting there (R298); a helper lane's are always empty. -/
def FragLane.owed (f : FragLane) (ds : List Word) : List Nat :=
  if f.cover = 0 then []
  else ((if dsDen ds then [0] else []) ++ (dsTargets ds).map (1 + ·)).filter fun w => !f.did.contains w
/-- A bank unit still expects something of a fragment group. -/
def planOpen (s : State) (p : Plan) : Bool :=
  match tget s.tris p.tri with
  | some t => p.lanes.any fun f => !(f.owed t.ds).isEmpty
  | none => false
/-- An expected group's pixels lie in a tile of a surface (R303, R304): in a column, or in any. -/
def slotHeld (s : State) (core : Option Nat) (c slot : Nat) : Bool :=
  s.plans.any fun p => p.2.ctx == c && planOpen s p.2 && (match tget s.tris p.2.tri with
    | some t => (dsSlots t.ds).contains slot
    | none => false)
    && (core.isNone || squareCore s (ctxPart s c) slot p.2.sx p.2.sy == core)

/-- The next surface to evict from a column for another's sake (R110). -/
def evictee (s : State) (p core c slot : Nat) : Option Resv :=
  let cand := s.resvs.filter fun r => r.core == core && ctxPart s r.ctx == p && !(r.ctx == c && r.slot == slot)
    && !r.failed && !decomping s r.ctx r.slot
    && !slotHeld s (some core) r.ctx r.slot && (match surfAt s r.ctx r.slot with
      | some f => f.evict
      | none => false)
  cand.foldl (fun (b : Option Resv) r =>
    match b with
    | none => some r
    | some y =>
      if r.touched < y.touched || (r.touched == y.touched && (decide (r.ctx < y.ctx)
          || (r.ctx == y.ctx && decide (r.slot < y.slot)))) then some r else b) none

/-- A tile leaves its arena: its residency bit and bytes are cleared. -/
def leaveArena (s : State) (c slot : Nat) (f : Surf) (t : Nat) : State :=
  let x := tileOf s c slot f t
  let s := { s with arena := zeroRange s.arena (arenaKey c slot t) 4096 }
  entryCount (putTile s c slot t { x with resident := false, dirty := false }) c slot 12 (-1)

/-- Eviction of a surface from a column begins (R110): clean tiles leave at once, a spill write starts for
each dirty one, and with none to write the reservation is freed. -/
def startEvict (s : State) (r : Resv) (f : Surf) : State :=
  let ts := (tilesIn s r.core r.ctx r.slot f).filter fun t => (tileOf s r.ctx r.slot f t).resident
  let dirty := ts.filter fun t => (tileOf s r.ctx r.slot f t).dirty
  let s := (ts.filter fun t => !(tileOf s r.ctx r.slot f t).dirty).foldl (fun s t => leaveArena s r.ctx r.slot f t) s
  if dirty.isEmpty then dropResv s r.core r.ctx r.slot
  else dirty.foldl (fun s t =>
    bump { s with spills := tput s.spills s.fresh { ctx := r.ctx, slot := r.slot, tile := t, core := r.core } }) s

/-- A spill write is among those that its stack's engine may have in flight, CTL.MAXOUT of them (R402). -/
def spillOut (s : State) (id core : Nat) : Bool :=
  let st := stackOf core
  decide ((s.spills.filter fun q => decide (q.1 < id) && stackOf q.2.core == st).length
    < max 1 (fld (regGet s (0x903 + 8 * st)) 0 6))

/-- A spill write in flight completes or fails, once its arena is not held (R114, R387, R390, R402, R403). -/
def spillDone (s : State) (id : Nat) : State :=
  match tget s.spills id with
  | none => s
  | some q =>
    if !spillOut s id q.core || arenaHeld s q.core then s
    else
    let s := { s with spills := cdel s.spills id }
    match surfAt s q.ctx q.slot with
    | none => s
    | some f =>
      let mode := (tileOf s q.ctx q.slot f q.tile).mode
      let s := match homeWrite s q.ctx q.slot q.core f q.tile mode (tileElems s q.ctx q.slot f q.tile) with
        | .ok s => leaveArena s q.ctx q.slot f q.tile
        | .error e =>
          spillFailed { s with resvs := s.resvs.map fun r =>
            if r.core = q.core ∧ r.ctx = q.ctx ∧ r.slot = q.slot then { r with failed := true } else r }
            q.ctx q.slot q.core f q.tile e
      let more := s.spills.any fun p => p.2.ctx == q.ctx && p.2.slot == q.slot && p.2.core == q.core
      match resvOf s q.core q.ctx q.slot with
      | some r => if more || r.failed then s else dropResv s q.core q.ctx q.slot
      | none => s

/-- How an attempt to reserve stands: done, waiting for spill writes, or no room. -/
inductive Room where
  | done (s : State)
  | wait (s : State)
  | full (s : State)

/-- A failed mark lasts for one attempt. -/
def clearFailed (s : State) (core : Nat) : State :=
  { s with resvs := s.resvs.map fun r => if r.core = core then { r with failed := false } else r }

/-- A retirement that gives up an arena half keeps its column, or with the second half the whole partition, from being
filled again before it is done (R367, R390); surfaces that bank units hold are let through. -/
def retireHolds (s : State) (p core c slot : Nat) : Bool :=
  match s.retire with
  | some j => !slotHeld s none c slot
      && ((j.drop == some 3 && j.core == core)
          || (j.drop == some 2 && (j.core == core || partMask s p / 2 ^ quadOf j.core % 2 == 1)))
  | none => false

/-- One attempt at a reservation in a column (R103, R110): it is made where it fits; otherwise a surface is
evicted, and the attempt is made again. -/
def reserve (s : State) (p core c slot bytes : Nat) : Room :=
  if s.spills.any (fun q => q.2.core == core) || retireHolds s p core c slot then .wait s
  else if bytes ≤ arenaFree s core then
    let s := clearFailed s core
    .done { s with resvs := s.resvs ++ [{ core := core, ctx := c, slot := slot, bytes := bytes, touched := s.time,
                                          failed := false }] }
  else match evictee s p core c slot with
    | none => .full (clearFailed s core)
    | some r =>
      match surfAt s r.ctx r.slot with
      | some f => .wait (startEvict s r f)
      | none => .wait (dropResv s r.core r.ctx r.slot)

/-- A tile ready for an access, waiting, or failing. -/
inductive Ready where
  | ok (s : State) (core : Nat)
  | wait (s : State)
  | fail (s : State) (f : Fail)

/-- A tile is made resident for an access (R112 to R114). -/
def ready (s : State) (c slot : Nat) (f : Surf) (t : Nat) : Ready :=
  match tileCore s c slot f t with
  | none => .fail s failPlain
  | some core =>
    let x := tileOf s c slot f t
    if arenaHeld s core || s.spills.any (fun q => q.2.ctx == c && q.2.slot == slot && q.2.tile == t) then .wait s
    else if x.resident then .ok (touch s core c slot) core
    else if retireHolds s (ctxPart s c) core c slot || s.spills.any (fun q => q.2.ctx == c && q.2.slot == slot && q.2.core == core) then
      .wait s
    else match resvOf s core c slot with
      | none =>
        match reserve s (ctxPart s c) core c slot (resvBytes f (tilesIn s core c slot f).length) with
        | .done s => .wait s
        | .wait s => .wait s
        | .full s => .fail s failPlain
      | some _ =>
        let fill (s : State) (es : List Nat) : Ready :=
          let s := { s with arena := layElems s.arena (arenaKey c slot t) f.bytes es }
          let s := putTile s c slot t { x with resident := true }
          let s := entryCount (entryCount s c slot 12 1) c slot 60 1
          let s := emit (splCount s (stackOf core) 0) 0x0D (stackOf core) (ctxPart s c) (srcSpill (stackOf core))
            (slot + 2 ^ 32 * t) Names.none
          .ok (touch s core c slot) core
        let n := (payload f x.mode []).2
        if x.mode = 1 then fill s (List.replicate f.elems f.clear)
        else match checkAccess s core c (homeVa f t) n .read anyFmt (natural 1) with
          | (s, .error e) => .fail s e
          | (s, .ok l) =>
            let r := readSpan s l.key n f.tid
            fill r.1 (unpayload f x.mode r.2)

/-- A tile's elements replaced by a write: laid in the arena, and dirty if changed (R110). -/
def layTile (s : State) (c slot : Nat) (f : Surf) (t : Nat) (es : List Nat) : State :=
  let old := tileElems s c slot f t
  let x := tileOf s c slot f t
  let s := { s with arena := layElems s.arena (arenaKey c slot t) f.bytes es }
  putTile s c slot t { x with resident := true, dirty := x.dirty || es != old }
/-- A tile recoded in the mode that its elements call for (R107). -/
def recodeTile (s : State) (c slot : Nat) (f : Surf) (t : Nat) : State :=
  putTile s c slot t { tileOf s c slot f t with mode := if f.comp then codeMode f (tileElems s c slot f t) else 0 }

/-! Sample accesses. -/

/-- A coordinate word (R231). -/
structure Coord where
  x : Nat
  y : Nat
  k : Nat
  deriving DecidableEq, Repr

/-- A sample access: its tile and its byte range in the tile's raw layout. -/
structure Samp where
  slot : Nat
  surf : Surf
  tile : Nat
  off : Nat
  deriving DecidableEq, Repr

/-- The checks of an access of `n` bytes at slot and coordinates (R98, R226, R231, R232). -/
def checkSample (s : State) (c slotw cw n : Nat) : Except Fail Samp :=
  let x := cw % 2 ^ 14
  let y := cw / 2 ^ 14 % 2 ^ 14
  let k := cw / 2 ^ 28 % 4
  match surfBase s c with
  | none => .error (failMem 8)
  | some _ =>
    if 1024 ≤ slotw then .error failPlain
    else if 2 ^ 30 ≤ cw then .error (failMem 12)
    else match surfAt s c slotw with
      | none => .error (failMem 12)
      | some f =>
        let b := f.bytes
        let r := ((x % 8) * f.samples + k) * b
        if f.w ≤ x || f.h ≤ y || f.samples ≤ k then .error (failMem 12)
        else if n < b || r % n ≠ 0 || 8 * f.samples * b < r + n
          || f.w ≤ x / 8 * 8 + (r + n - 1) / (f.samples * b) then .error (failMem 10)
        else .ok { slot := slotw, surf := f, tile := y / 8 * f.tw + x / 8,
                   off := ((y % 8 * 8 + x % 8) * f.samples + k) * b }

/-- Bytes of a resident tile's raw layout. -/
def tileRead (s : State) (c : Nat) (p : Samp) (n : Nat) : Nat :=
  match tget s.tiles (tileKey c p.slot p.tile) with
  | some _ => rdN s.arena (arenaKey c p.slot p.tile + p.off) n
  | none =>
    (List.range (n / p.surf.bytes)).foldl (fun a i => a + p.surf.clear * 2 ^ (8 * p.surf.bytes * i)) 0

/-- Bytes written to a resident tile's raw layout, not yet recoded. -/
def tileLay (s : State) (c : Nat) (p : Samp) (n v : Nat) : State :=
  let b := p.surf.bytes
  let es := (tileElems s c p.slot p.surf p.tile).mapIdx fun j e =>
    if p.off ≤ j * b && j * b < p.off + n then v / 2 ^ (8 * (j * b - p.off)) % 2 ^ (8 * b) else e
  let k := arenaKey c p.slot p.tile + p.off
  let v0 := tileRead s c p n
  let olds := (List.range n).map fun i =>
    { time := s.time, stamp := cget 0 s.wts (sampleSec k), key := tileOld + k + i, byte := BitVec.ofNat 8 (v0 / 256 ^ i),
      cmd := 0, until_ := none : OldByte }
  layTile { s with olds := olds ++ s.olds } c p.slot p.surf p.tile es
/-- Bytes written to a resident tile, which is then recoded (R107). -/
def tileWrite (s : State) (c : Nat) (p : Samp) (n v : Nat) : State :=
  recodeTile (tileLay s c p n v) c p.slot p.surf p.tile

/-- A lane's access to a sample has its place in the order (R115). -/
def visitSample (s : State) (core c : Nat) (p : Samp) : State :=
  visit (raiseTime s core (cget 0 s.wts (surfSec (c * 1024 + p.slot)))) core (sampleSec (arenaKey c p.slot p.tile + p.off))
/-- A change made to a whole surface at one point of the order, after every access so far. -/
def stampSurface (s : State) (core c slot : Nat) : State :=
  let s := raiseTime s core s.stamp
  { s with wts := cset 0 s.wts (surfSec (c * 1024 + slot)) s.stamp }

/-- Every tile of a list made ready, one after another. -/
def readyAll (s : State) (c : Nat) : List Samp → Ready
  | [] => .ok s 0
  | p :: ps =>
    match ready s c p.slot p.surf p.tile with
    | .ok s _ => readyAll s c ps
    | r => r

/-- A surface's tiles, arena bytes, reservations and waiting spills dropped (R238). -/
def forgetSurface (s : State) (c slot : Nat) : State :=
  let lo := tileKey c slot 0
  { s with
    tiles := s.tiles.filter fun p => decide (p.1 < lo) || decide (lo + 2 ^ 22 ≤ p.1)
    arena := zeroRange s.arena (lo * 4096) (2 ^ 22 * 4096)
    olds := s.olds.filter fun e => !(decide (tileOld + lo * 4096 ≤ e.key) && decide (e.key < tileOld + (lo + 2 ^ 22) * 4096))
    resvs := s.resvs.filter fun r => !(r.ctx == c && r.slot == slot)
    spills := s.spills.filter fun q => !(q.2.ctx == c && q.2.slot == slot) }

end Sys2Proof.Machine
end

