-- ==== Sys2Proof/Machine/Flags.lean ====
section
/-! DEFINITION. The completion flags f0 to f11 (R155 to R157): charging an operation to a clause's FLAGA
or FLAGB, and its completion. -/

namespace Sys2Proof.Machine

/-- The flag that a clause names for an operation: 15 names none (R155, R157). -/
def flagNamed (k : Nat) : Option Nat := if k ≤ 11 then some k else none

/-- An operation issued while its flag is at 63 waits (R157). -/
def flagFull (g : Group) (k : Nat) : Bool :=
  match flagNamed k with
  | some f => decide (63 ≤ g.flag f)
  | none => false

/-- A flag's count raised by one. -/
def Group.charge (g : Group) (k : Nat) : Group :=
  match flagNamed k with
  | some f => { g with f := cset 0 g.f f (g.flag f + 1) }
  | none => g

/-- A flag's count lowered by one, never below 0 (R157, R383). -/
def Group.discharge (g : Group) (k : Option Nat) : Group :=
  match k with
  | some f => { g with f := cset 0 g.f f (g.flag f - 1) }
  | none => g

/-- An outstanding operation entered for a group and charged: results `vw`, `sw`, `hw` are written when it
completes; until then their registers hold its number (R158). -/
def Group.addOp (g : Group) (oid k : Nat) (vw : List (Nat × Word)) (sw : List (Nat × Word))
    (hw : Option (Nat × BitVec 8192)) (ext : Bool) : Group :=
  let g := g.charge k
  let sw := sw.filter fun w => w.1 != 0
  { g with
    ops := tput g.ops oid { flag := flagNamed k, vw := vw, sw := sw, hw := hw, ext := ext }
    v := csets (.val 0) g.v (vw.map fun w => (w.1, Elem.pend oid (cget (Elem.val 0) g.v w.1).word))
    s := csets (.val 0) g.s (sw.map fun w => (w.1, SVal.pend oid (g.sreg w.1)))
    h := match hw with
      | some (r, _) => cset (.val 0) g.h r (.pend oid (g.hreg r))
      | none => g.h }

/-- The completion of an outstanding operation: results still awaited are written, its charge ends
(R157, R158). A result whose register has been written since is dropped. -/
def Group.finishOp (g : Group) (oid : Nat) : Group :=
  match tget g.ops oid with
  | none => g
  | some o =>
    let vw : List (Nat × Word) := o.vw.filter fun w => (cget (Elem.val 0) g.v w.1).awaits oid
    let sw : List (Nat × Word) := o.sw.filter fun w =>
      match cget (SVal.val 0) g.s w.1 with
      | .pend k _ => k == oid
      | .val _ => false
    let h : Cells HVal := match o.hw with
      | some (r, b) => if (cget (HVal.val 0) g.h r).awaits oid then cset (HVal.val 0) g.h r (HVal.val b) else g.h
      | none => g.h
    let g2 : Group :=
      { g with ops := cdel g.ops oid, h := h, v := csets (Elem.val 0) g.v (vw.map fun w => (w.1, Elem.val w.2)),
               s := csets (SVal.val 0) g.s (sw.map fun w => (w.1, SVal.val w.2)) }
    g2.discharge o.flag

/-- An instruction completes leaving an outstanding operation of the group behind it (R157): its number
is the next record number. -/
def completeOp (s : State) (g : Group) (k : Nat) (vw sw : List (Nat × Word)) (hw : Option (Nat × BitVec 8192))
    (ext : Bool) : Out :=
  complete (bump s) (g.addOp s.fresh k vw sw hw ext)

/-- An outstanding operation is given up without a result: its charge ends. -/
def Group.dropOp (g : Group) (oid : Nat) : Group :=
  match tget g.ops oid with
  | none => g
  | some o => ({ g with ops := cdel g.ops oid }).discharge o.flag

/-- The operation of the issue waits while its flag is at 63 (R157). -/
def charged (s : State) (g : Group) (k : Nat) (go : Out) : Out := if flagFull g k then longStall s g else go

end Sys2Proof.Machine
end

