-- ==== Sys2Proof/Machine/Groups.lean ====
section
/-! DEFINITION. What groups share: what a fence waits for (R134, R123), named events (R356, R357), armed
waits (R40, R191, R192), barriers (R195, R196, R395), the sets of a wedge (R34) and the end of a group (R29,
R42). -/

namespace Sys2Proof.Machine

/-- Commands of the group whose writes are not yet visible (R134). -/
def cmdsBusy (s : State) (gid : Nat) : Bool := s.cmds.any fun p => p.2.g == gid && p.2.stage != .finished
/-- What the group's later accesses wait for: captures that have not taken effect, watches apart (R136), and a list that
has not been read (R284). -/
def capsBusy (s : State) (gid : Nat) : Bool :=
  s.caps.any (fun p => p.2.g == gid && p.2.kind != 4) || s.cmds.any fun p => p.2.g == gid && p.2.kind == .list && !p.2.begun
/-- Accesses of the group not yet performed (R123). -/
def opsBusy (g : Group) : Bool := g.ops.any fun p => !p.2.ext
/-- Writes of the group's commands that are not visible yet (R130). -/
def lateOf (s : State) (gid : Nat) : Bool := s.late.any fun w => w.g == gid
/-- The hold of a fence at a scope code has ended (R134, R123): facet scope waits for accesses too. -/
def fenceClear (s : State) (gid : Nat) (g : Group) (scope : Nat) : Bool :=
  !cmdsBusy s gid && !lateOf s gid && (scope != 2 || !opsBusy g)

/-- The running number of the cluster of a group's team, 0 for none. -/
def clusterOf (s : State) (g : Group) : Nat := ((g.id.tid.bind (tget s.teams)).map Team.cid).getD 0
/-- The stamp of the last engine write for a group. -/
def engTime (s : State) (gid : Nat) : Nat := cget 0 s.lts (agentEng gid)
/-- What a fence of a group leaves once its hold has ended: its engine writes are visible to the scope, and at facet scope
its own accesses too (R134, R123). -/
def fenced (s : State) (gid : Nat) (g : Group) (scope : Nat) : State :=
  publish s g.core (clusterOf s g) scope (if scope = 2 then max (engTime s gid) (coreTime s g.core) else engTime s gid)
/-- A release at system scope by a group: every write it has made or observed is visible to every observer (R197, R198). -/
def releaseAll (s : State) (gid : Nat) (g : Group) : State :=
  publish s g.core 0 5 (max (engTime s gid) (coreTime s g.core))

/-- A change to every group, resident or saved. -/
def mapGroups (s : State) (f : Nat → Group → Group) : State :=
  { s with
    groups := s.groups.map fun p => (p.1, f p.1 p.2)
    saved := s.saved.map fun c => (c.1, { c.2 with saved := c.2.saved.map fun t =>
      { t with groups := t.groups.map fun p => (p.1, f p.1 p.2) } }) }

/-! Named events. -/

def evTable (s : State) (p : Nat) : List EvEntry := (tget s.events p).getD []
/-- Extension entries that EVBASE allows (R348, R357). -/
def evExtension (s : State) (p : Nat) : Nat := regGet64 s (kPart p 0x210) % 4096 * 64

/-- The first entry of an event with room for a waiter takes it. -/
def evJoin (ev : Nat) (w : Waiter) : List EvEntry → Option (List EvEntry)
  | [] => none
  | e :: es =>
    if e.ev = ev && decide (e.waiters.length < 8) then some ({ e with waiters := e.waiters ++ [w] } :: es)
    else (evJoin ev w es).map (e :: ·)

/-- A waiter armed on an event, unless table and extension are full (R356, R357). -/
def evArm (s : State) (p ev : Nat) (w : Waiter) : Option State :=
  let t := evTable s p
  match evJoin ev w t with
  | some t2 => some { s with events := tput s.events p t2 }
  | none =>
    if (t.filter fun e => !e.ext).length < 4096 then
      some { s with events := tput s.events p (t ++ [{ ev := ev, waiters := [w], ext := false }]) }
    else if (t.filter fun e => e.ext).length < evExtension s p then
      some { s with events := tput s.events p (t ++ [{ ev := ev, waiters := [w], ext := true }]) }
    else none

/-- Waiters that leave every list; an entry with none is freed (R356). -/
def evLeave (s : State) (gone : Waiter → Bool) : State :=
  { s with events := s.events.map fun p =>
      (p.1, (p.2.map fun e => { e with waiters := e.waiters.filter fun w => !gone w }).filter
        fun e => !e.waiters.isEmpty) }

/-- A condition word that an event meets. -/
def WCond.signalled (ev : Nat) : WCond → WCond
  | .event n b => .event n (b || n == ev)
  | c => c

/-- A named event is signalled (R197, R356): every waiter of the event is met and its entries are freed. -/
def signalEvent (s : State) (p ev : Nat) : State :=
  if ev = 0 then s
  else
    let ws := ((evTable s p).filter fun e => e.ev == ev).flatMap EvEntry.waiters
    let s := { s with events := tput s.events p ((evTable s p).filter fun e => e.ev != ev) }
    let s := mapGroups s fun gid g =>
      { g with waits := g.waits.map fun a =>
          if ws.contains (.group gid a.1) then (a.1, { a.2 with conds := a.2.conds.map (WCond.signalled ev) }) else a }
    let s := { s with queues := s.queues.map fun q =>
      if q.1 / 64 = p && ws.contains (.head (q.1 % 64)) then (q.1, { q.2 with signalled := true }) else q }
    emit s 0x06 0 p srcSequencer ev Names.none

/-! Waits. -/

/-- The 64-bit barrier object at a team's scratch offset, unless its column's scratch is held. -/
def objectAt (s : State) (tid off : Nat) : Option Nat :=
  match tget s.teams tid with
  | none => none
  | some t => if busHeld s t.core 0 then none else (scrKey t off).map fun k => rdN s.scr k 8

/-- A condition is met now (R191). -/
def condMet (s : State) (g : Group) : WCond → Bool
  | .none => false
  | .flag k => g.flag k == 0
  | .object t o => objectAt s t o == some 0
  | .event _ b => b
  | .message h => match g.id.tid.bind fun t => tget s.teams t with
    | some t => t.met.contains h
    | none => false
  | .annulus w => match tget g.watches w with
    | some x => x.fired
    | none => false
  | .time t => decide (t ≤ s.time)

/-- The joined condition (R192 step 2). -/
def joined (s : State) (g : Group) (any : Bool) (cs : List WCond) : Bool :=
  let real := cs.filter (· != .none)
  if any then real.any (condMet s g) else real.all (condMet s g)

/-- The result word of a `wait` (R192 step 4). -/
def waitResult (s : State) (g : Group) (a : ArmedWait) : Word :=
  let late := match a.deadline with
    | some d => decide (d ≤ s.time)
    | none => false
  word ((List.range 4).foldl (fun n i => if condMet s g (a.conds.getD i .none) then n + 2 ^ i else n) 0
    + if late && !joined s g a.any a.conds then 16 else 0)

/-- An armed wait ends: its result is written, its lanes go on, and its waiters leave (R192, R356). What it observes was
made visible where it was released (R131). -/
def releaseWait (s : State) (gid w : Nat) : State :=
  match s.group gid with
  | none => s
  | some g =>
    match tget g.waits w with
    | none => s
    | some a =>
      let ls := (List.range 32).filter fun l => (g.lane l).st == .wait w
      let g := (g.setS a.dst (waitResult s g a)).release ls
      evLeave (putGroup s gid { g with waits := cdel g.waits w }) fun x => x == .group gid w

/-! Barriers. -/

/-- Every live lane of the group is parked at a barrier of one scope and number. -/
def Group.atBar (g : Group) (cl : Bool) (n : Nat) : Bool :=
  g.live != 0 && (lanesOf g.live).all fun l => (g.lane l).st == .bar cl n

/-- The barrier at which every live lane of the group is parked, if any. -/
def Group.barOf (g : Group) : Option (Bool × Nat) :=
  match (lanesOf g.live).head? with
  | none => none
  | some l =>
    match (g.lane l).st with
    | .bar cl n => if g.atBar cl n then some (cl, n) else none
    | _ => none

/-- Groups of a team that have live lanes. -/
def liveGroups (s : State) (tid : Nat) : List (Nat × Group) :=
  s.groups.filter fun p => p.2.id.tid == some tid && p.2.live != 0

/-- The latest stamp of the accesses and engine writes of groups (R196). -/
def latestOf (s : State) (gs : List Nat) : Nat :=
  gs.foldl (fun b gid => match s.group gid with
    | some g => max b (max (coreTime s g.core) (engTime s gid))
    | none => b) 0

/-- Groups released from a barrier: their later accesses follow all that they did before (R195, R196). -/
def releaseBar (s : State) (gs : List Nat) (cl : Bool) (n : Nat) : State :=
  let t := latestOf s gs
  gs.foldl (fun s gid =>
    match s.group gid with
    | none => s
    | some g =>
      let ls := (List.range 32).filter fun l => (g.lane l).st == .bar cl n
      raiseTime (putGroup s gid { g.release ls with arrived := none }) g.core t) s

/-- A team's barriers are tested: one completes where every group with live lanes has arrived at it (R195). -/
def testTeamBars (s : State) (tid : Nat) : State :=
  let gs := liveGroups s tid
  match gs with
  | [] => s
  | (_, g0) :: _ =>
    match g0.arrived with
    | some (false, n) =>
      if gs.all fun p => p.2.arrived == some (false, n) then
        emit (releaseBar s (gs.map (·.1)) false n) 0x07 (stackOf g0.core) (ctxPart s g0.id.ctx)
          (srcWedge g0.core g0.wedge) n { Names.none with launch := g0.id.launch, team := g0.id.teamNo }
      else s
    | _ => s

/-- The barrier router counts a cluster's arrivals and releases a barrier at the count (R395). -/
def testClusterBars (s : State) (cid : Nat) : State :=
  match tget s.clusters cid with
  | none => s
  | some c =>
    let teams := c.teams.filter fun t => !(liveGroups s t).isEmpty
    (List.range 16).foldl (fun s n =>
      if !teams.isEmpty && teams.all fun t => c.arrivals.contains (t, n) then
        let gs := teams.flatMap fun t => (liveGroups s t).map (·.1)
        let s := releaseBar s gs true n
        let s := { s with clusters := tupd s.clusters cid fun c =>
          { c with arrivals := c.arrivals.filter fun a => a.2 != n } }
        emit s 0x07 (c.quad / 4) c.part (0xE20 + c.quad) (n + 16) Names.none
      else s) s

/-! The sets of a wedge (R34). -/

/-- Groups of a wedge of a bank. -/
def wedgeGroups (s : State) (core bank wedge : Nat) : List (Nat × Group) :=
  s.groups.filter fun p => p.2.core == core && p.2.bank == bank && p.2.wedge == wedge

/-- The pending group that has been ready longest, or else the one longest in the pending set. -/
def nextPending (gs : List (Nat × Group)) : Option Nat :=
  let pend := gs.filter fun p => !p.2.active
  match leastBy (fun p => p.2.readySince.getD 0) (pend.filter fun p => p.2.readySince.isSome) with
  | some p => some p.1
  | none => (leastBy (fun p => p.2.order) pend).map (·.1)

/-- A group moves into the active set. -/
def activate (s : State) (gid : Nat) (forced : Bool) : State :=
  bump (updGroup s gid fun g =>
    { g with active := true, order := s.fresh, entered := s.lclk, readySince := none, forced := forced,
             waitSince := none, blocked := false })
/-- A group goes to the back of the pending set. -/
def deactivate (s : State) (gid : Nat) : State :=
  bump (updGroup s gid fun g =>
    { g with active := false, order := s.fresh, readySince := none, forced := false, waitSince := none, blocked := false })

/-- A free place of a wedge's active set is filled (R34). -/
def fillActive (s : State) (core bank wedge : Nat) : State :=
  let gs := wedgeGroups s core bank wedge
  if (gs.filter fun p => p.2.active).length < 8 then
    (match nextPending gs with
     | some g => activate s g false
     | none => s)
  else s

/-- Vector-bank bytes of a group (R47). -/
def vecBytes (nv : Nat) : Nat := ceilDiv nv 8 * 8 * 128
/-- Hypervector-bank bytes of a group (R47). -/
def hypBytes (nh nc : Nat) : Nat := nh * 1024 + nc * 8192

/-- A group that has no live lane ends (R29, R42): its place is freed and filled, its team's counter falls and keeps its
register space (R43), and the barriers of its team are tested without it. -/
def endGroup (s : State) (gid : Nat) : State :=
  match s.group gid with
  | none => s
  | some g =>
    let s := dropGroup s gid
    let s := if g.active then fillActive s g.core g.bank g.wedge else s
    match g.id.tid with
    | none => s
    | some t =>
      testTeamBars (updTeam s t fun x =>
        { x with left := x.left - 1
                 ended := (g.wedge, vecBytes g.id.nv, hypBytes g.id.nhr g.id.ncr) :: x.ended }) t

/-- A fragment lane exits: what it has not submitted is empty (R240). -/
def closeFragLanes (s : State) (g : Group) (m : Word) : State :=
  match g.id.frag with
  | none => s
  | some p => { s with plans := tupd s.plans p fun x =>
      { x with lanes := x.lanes.map fun f => if bit m f.lane then { f with closed := true } else f } }

/-- Idempotent status is lost (R364). -/
def loseIdem (s : State) (g : Group) : State :=
  match g.id.tid with
  | some t => updTeam s t fun x => { x with idem := false }
  | none => s

end Sys2Proof.Machine
end

