-- ==== Sys2Proof/Machine/Waits.lean ====
section
/-! DEFINITION. Waits, timed sleep, barriers, events, device-side launch and symbol waits (class 0x05 but for
`rdsr` and `wrsr`: R190 to R199). -/

namespace Sys2Proof.Machine

/-- An access of a group waits until its earlier captures have taken effect (R136). -/
def annHold (s : State) (k : Out) : Out := if capsBusy s s.iss.g then stall s else k

/-- A condition word as read at the issue (R191): a cause, or a failing scratch address, or the condition. -/
inductive CondRead where
  | illegal
  | mem (f : Fail) (addr : Nat)
  | ok (c : WCond)
  deriving DecidableEq, Repr

/-- A condition word decoded and its argument read (R191, R192 step 1). -/
def readCond (s : State) (g : Group) (w : Word) : CondRead :=
  let arg := fld w 0 28
  match fld w 28 4 with
  | 0 => if arg = 0 then .ok .none else .illegal
  | 1 => if arg < 12 then .ok (.flag arg) else .illegal
  | 2 =>
    if 2 ^ 24 ≤ arg then .illegal
    else match checkScratch s g.id.tid arg 8 8 with
      | .error f => .mem f arg
      | .ok _ =>
        match scrTarget s g.id.tid arg with
        | some (t, _, o) => .ok (.object t o)
        | none => .mem failPlain arg
  | 3 => if arg = 0 ∨ 2 ^ 16 ≤ arg then .illegal else .ok (.event arg false)
  | 4 => if 64 ≤ arg then .illegal else .ok (.message arg)
  | 5 => if 4 ≤ arg then .illegal else .ok (.annulus arg)
  | 6 => if 64 ≤ arg ∨ arg % 2 = 1 then .illegal else .ok (.time (g.spair arg))
  | _ => .illegal

/-- Registers a condition word makes the issue read. -/
def condRegs (w : Word) : List Nat :=
  if fld w 28 4 = 6 then [fld w 0 6, fld w 0 6 + 1] else []

/-- The condition reads an object in scratch, an access that waits for the group's captures (R136). -/
def WCond.isObject : WCond → Bool
  | .object _ _ => true
  | _ => false

/-- Every event condition of an armed wait enters the table, or EV_FULL (R357). -/
def armAll (s : State) (p gid w : Nat) : List WCond → Except Nat State
  | [] => .ok s
  | .event n _ :: cs =>
    match evArm s p n (.group gid w) with
    | some s => armAll s p gid w cs
    | none => .error n
  | _ :: cs => armAll s p gid w cs

/-- `wait.any` and `wait.all` (R192). -/
def waitOp (s : State) (any : Bool) (a b : SReg) (c : XOp) : Out :=
  let words := (List.range 4).map (b.toNat + ·)
  begin_ s { sr := words ++ XOp.reg c } fun g =>
    let ws := words.map g.sreg
    let cs := ws.map (readCond s g)
    let mems := cs.filterMap fun c => match c with
      | .mem f a => some (f, a)
      | _ => none
    let ok := cs.filterMap fun c => match c with
      | .ok c => some c
      | _ => none
    if cs.any fun c => c == .illegal then faultWord s cIllegal
    else match mems with
      | (f, ad) :: _ => failLanes s g 0 ((lanesOf s.iss.lanes).map fun l => (l, f, ad))
      | [] =>
        if (ws.flatMap condRegs).any g.sPending then stall s
        else
          let x := (g.opX c).toNat
          let aw : ArmedWait :=
            { any := any, dst := a.toNat, conds := ok, deadline := if x = 0xFFFFFFFF then none else some (s.time + x) }
          if ok.any WCond.isObject && capsBusy s s.iss.g then stall s
          else if joined s g any ok then complete s (g.setS a.toNat (waitResult s g aw))
          else
            let w := s.fresh
            match armAll s (ctxPart s g.id.ctx) s.iss.g w ok with
            | .error n => faultIssue s cEvFull (Detail.of n)
            | .ok s2 =>
              completeMoved (bump s2) ({ g with waits := tput g.waits w aw }.park s s.iss.lanes (.wait w))

/-- WAIT_ANY (R192). -/
def execWaitAny (a b : SReg) (c : XOp) (s : State) : Out := waitOp s true a b c
/-- WAIT_ALL (R192). -/
def execWaitAll (a b : SReg) (c : XOp) (s : State) : Out := waitOp s false a b c

/-- SLEEP_AT (R41, R193). -/
def execSleepAt (b : SReg) (s : State) : Out :=
  begin_ s { sr := [b.toNat, b.toNat + 1] } fun g =>
    let t := g.spair b.toNat
    if t ≤ s.time then complete s g else completeMoved s (g.park s s.iss.lanes (.sleep t))

/-- The information and link of PROMISE_MISS (R193, R372, R381). -/
def promiseMiss (s : State) (gid : Nat) (lanes : Word) (link addr p : Nat) : State :=
  takeTrap s gid lanes cPromiseMiss link (fun _ => 0) { detail := addr, aux := some p, frec := none }

/-- SLEEP_AT_PROM (R193). -/
def execSleepAtProm (b : SReg) (s : State) : Out :=
  begin_ s { sr := [b.toNat] } fun g =>
    let addr := (g.sreg b.toNat).toNat
    match checkScratch s g.id.tid addr 8 8, checkScratch s g.id.tid (addr + 8) 8 8 with
    | .ok ko, .ok kp =>
      let p := rdN s.scr kp 8
      if capsBusy s s.iss.g then stall s
      else if rdN s.scr ko 8 = 0 then complete s g
      else if p ≠ 0 ∧ p ≤ s.time then
        .next { promiseMiss s s.iss.g s.iss.lanes s.iss.next addr p with iss := { s.iss with done := true } }
      else completeMoved s (g.park s s.iss.lanes (.promise (word addr) (if p = 0 then none else some p)))
    | .error f, _ => failLanes s g 0 ((lanesOf s.iss.lanes).map fun l => (l, f, addr))
    | _, .error f => failLanes s g 0 ((lanesOf s.iss.lanes).map fun l => (l, f, addr + 8))

/-- RDTIME (R194). -/
def execRdtime (a : SReg) (s : State) : Out :=
  begin_ s {} fun g =>
    complete s ((g.setS a.toNat (word s.time)).setS (a.toNat + 1) (word (s.time / 2 ^ 32)))

/-- A `bar`: the lanes park; arrival and completion follow (R195). A fragment group has none (R297). -/
def barOp (s : State) (cl : Bool) (n : Nat) : Out :=
  begin_ s {} fun g =>
    if g.id.tid.isNone then faultWord s cIllegal else completeMoved s (g.park s s.iss.lanes (.bar cl n))
/-- BAR_TEAM (R195). -/
def execBarTeam (n : BitVec 4) (s : State) : Out := barOp s false n.toNat
/-- BAR_CLUSTER (R195). -/
def execBarCluster (n : BitVec 4) (s : State) : Out := barOp s true n.toNat

/-- EVSIG (R197). -/
def execEvsig (b : SReg) (s : State) : Out :=
  begin_ s { sr := [b.toNat] } fun g =>
    annHold s (match complete (releaseAll (loseIdem s g) s.iss.g g) g with
      | .next t => .next (signalEvent t (ctxPart s g.id.ctx) (fld (g.sreg b.toNat) 0 16))
      | o => o)

/-- The partition's next launch identifier, which skips 0 (R351). -/
def nextIdent (s : State) (p : Nat) : Nat × State :=
  let n := cget 1 s.idents p
  (n, { s with idents := cset 1 s.idents p (if n + 1 = 2 ^ 32 then 1 else n + 1) })

def queueKey (p q : Nat) : Nat := 64 * p + q
def Queue.empty : Queue :=
  { en := false, host := false, pre := false, prio := 0, ctx := 0, ring := 0, log2n := 4, head := 0, tail := 0,
    entries := [], headLaunch := none, armed := false, signalled := false }
def queueOf (s : State) (p q : Nat) : Queue := (tget s.queues (queueKey p q)).getD Queue.empty
def putQueue (s : State) (p q : Nat) (x : Queue) : State := { s with queues := tput s.queues (queueKey p q) x }

/-- The launch that a group belongs to. -/
def launchOf (s : State) (g : Group) : Option Nat :=
  match g.id.tid.bind fun t => tget s.teams t with
  | some t => some t.lid
  | none => (s.launches.find? fun p => p.2.ident == g.id.launch && p.2.ctx == g.id.ctx).map (·.1)

/-- LAUNCH (R198, R349, R351). -/
def execLaunch (a b : SReg) (c : XOp) (s : State) : Out :=
  begin_ s { sr := b.toNat :: (b.toNat + 1) :: XOp.reg c } fun g =>
    let x := g.opX c
    let va := g.spair b.toNat
    if fld x 7 25 ≠ 0 then faultWord s cIllegal
    else match checkAccess s g.core g.id.ctx va 128 .read anyFmt (natural 64) with
      | (s, .error f) => failLanes s g 0 ((lanesOf s.iss.lanes).map fun l => (l, f, va))
      | (s, .ok _) =>
        if capsBusy s s.iss.g then stall s
        else if !fenceClear s s.iss.g g 5 then longStall s g
        else
          let s := releaseAll s s.iss.g g
          let p := ctxPart s g.id.ctx
          let q := queueOf s p (fld x 1 6)
          let s := loseIdem s g
          if q.entries.length ≥ 32 ∨ q.en = false ∨ q.ctx ≠ g.id.ctx then complete s (g.setS a.toNat 0)
          else
            let (n, s) := nextIdent s p
            let parent := if bit x 0 then launchOf s g else none
            let s := match parent with
              | some l => { s with launches := tupd s.launches l fun y => { y with count := y.count + 1 } }
              | none => s
            let s := putQueue s p (fld x 1 6)
              { q with entries := q.entries ++ [{ words := [], addr := some va, ctx := g.id.ctx, ident := n,
                                                  parent := parent }] }
            complete s (g.setS a.toNat (word n))

/-- SYM_WAIT (R199). -/
def execSymWait (c : XOp) (s : State) : Out :=
  begin_ s { sr := XOp.reg c } fun g =>
    let x := g.opX c
    let ks := (g.syms.filter fun p => bit x p.1)
    if ks.all fun p => p.2.delivered then
      complete s (ks.foldl (fun h p => h.collapseAll p.1) g).releaseSyms
    else longStall s g

end Sys2Proof.Machine
end

