-- ==== Sys2Proof/Machine/Lanes.lean ====
section
/-! DEFINITION. What every per-lane access shares (R225 to R228): the address of each lane (R162, R226), the
checks of every lane before any access takes effect, watchpoints (R416, R417), requests to peers that do not
answer (R401), the results of loads, and the forms of symbolic loads (R52, R60). -/

namespace Sys2Proof.Machine

/-! Access types (R170, R229). -/

/-- Size in bytes of an access type. -/
def AccTy.bytes : AccTy → Nat
  | .b8 => 1
  | .i8 => 1
  | .rawB8 => 1
  | .b16 => 2
  | .i16 => 2
  | .rawB16 => 2
  | .b64 => 8
  | .rawB64 => 8
  | .b128 => 16
  | _ => 4
/-- v registers an access type fills or stores. -/
def AccTy.regs : AccTy → Nat
  | .b64 => 2
  | .rawB64 => 2
  | .b128 => 4
  | _ => 1
def AccTy.raw : AccTy → Bool
  | .rawB8 => true
  | .rawB16 => true
  | .rawB32 => true
  | .rawB64 => true
  | _ => false
/-- The form kind of a symbolic load: floating, integer, or none (R52). -/
def AccTy.form : AccTy → Option Bool
  | .b32 => some false
  | .i32 => some false
  | .n32 => some false
  | .f32 => some true
  | _ => none
/-- The words of the destination registers of a loaded value (R229). -/
def AccTy.words (t : AccTy) (v : Nat) : List Word :=
  match t with
  | .i8 => [((BitVec.ofNat 8 v).signExtend 32)]
  | .i16 => [((BitVec.ofNat 16 v).signExtend 32)]
  | _ => (List.range (AccTy.regs t)).map fun i => word (v / 2 ^ (32 * i))

/-! Addresses (R162, R226). -/

def MemOp.vregs : MemOp → List Nat
  | .idx _ i => [i.toNat]
  | .pair i => [i.toNat, i.toNat + 1]
  | .idxFar _ i _ => [i.toNat]
  | .pairFar i _ => [i.toNat, i.toNat + 1]
  | _ => []
def MemOp.sregs (glob : Bool) (m : MemOp) : List Nat :=
  let base (b : SReg) : List Nat := if glob then [b.toNat, b.toNat + 1] else [b.toNat]
  match m with
  | .off b _ => base b
  | .offFar b _ => base b
  | .idx b _ => base b
  | .idxFar b _ _ => base b
  | _ => []

/-- The base of a memory operand: a pair for the global space, one register otherwise. -/
def Group.memBase (g : Group) (glob : Bool) (b : SReg) : Int :=
  if glob then g.spair b.toNat else (g.sreg b.toNat).toNat
/-- The 64-bit pair form, whose high word a 32-bit space ignores. -/
def Group.memPair (g : Group) (glob : Bool) (i : VReg) (l : Nat) : Int :=
  if glob then g.vpair i.toNat l else (g.vword i.toNat l).toNat

/-- The address of a lane, its immediate offset counted in `unit` bytes (R162, R166, R226). -/
def Group.memAddr (g : Group) (glob : Bool) (unit : Nat) (m : MemOp) (l : Nat) : Nat :=
  let a : Int := match m with
    | .off b n => g.memBase glob b + n.toNat * unit
    | .offFar b n => g.memBase glob b + n.toInt
    | .idx b i => g.memBase glob b + (g.vword i.toNat l).toInt
    | .idxFar b i n => g.memBase glob b + (g.vword i.toNat l).toInt + n.toInt
    | .pair i => g.memPair glob i l
    | .pairFar i n => g.memPair glob i l + n.toInt
  (a % (if glob then 2 ^ 64 else 2 ^ 32)).toNat

/-! Checks of every lane. -/

/-- Lanes checked in turn: the failures with their addresses, and what each other lane's check gave. -/
def checkLanes {α : Type} (chk : State → Nat → State × Except Fail α) (addr : Nat → Nat) (s : State) :
    List Nat → State × List (Nat × Fail × Nat) × List (Nat × α)
  | [] => (s, [], [])
  | l :: ls =>
    match chk s l with
    | (s, .error f) =>
      let r := checkLanes chk addr s ls
      (r.1, (l, f, addr l) :: r.2.1, r.2.2)
    | (s, .ok x) =>
      let r := checkLanes chk addr s ls
      (r.1, r.2.1, (l, x) :: r.2.2)

/-- A request to a peer that does not answer waits for its reply, until VLTO (R401). -/
def peerHold (s : State) (g : Group) (ptes : List (BitVec 128)) (k : Out) : Out :=
  match ptes.find? (peerSilent s) with
  | none => k
  | some e =>
    let r : VlReq := { peer := ptePeer e, g := s.iss.g, ctx := g.id.ctx, since := s.time, cmd := none }
    .next (bump { s with vlreqs := tput s.vlreqs s.fresh r })

/-! The points of an instruction's accesses in the memory order (R116, R117, R127). -/

/-- One access of a lane: the key of its bytes, the leaf that translates them, which of the lane's bytes they are, and,
once it is made, the value found. -/
structure Point where
  lane : Nat
  key : Nat
  pte : Nat
  n : Nat
  off : Nat
  got : Nat
  deriving DecidableEq, Repr

def Point.leaf (p : Point) : BitVec 128 := BitVec.ofNat 128 p.pte
/-- A point as the numbers that a group keeps of it, and back. -/
def Point.nums (p : Point) : List Nat := [p.lane, p.key, p.pte, p.n, p.off, p.got]
def pointsOf : List Nat → List Point
  | a :: b :: c :: d :: e :: f :: ns => { lane := a, key := b, pte := c, n := d, off := e, got := f } :: pointsOf ns
  | _ => []

/-- The points of an access of `n` bytes of a lane: one of 16 bytes is two of 8, in ascending order (R117). -/
def lanePoints (n l : Nat) (p : Loc) : List Point :=
  let x (n off : Nat) : Point := { lane := l, key := p.key + off, pte := p.pte.toNat, n := n, off := off, got := 0 }
  if n = 16 then [x 8 0, x 8 8] else [x n 0]

/-- Points made in turn, each by `f`, with what each found. -/
def makePoints (f : State → Point → State × Nat) (s : State) : List Point → State × List Point
  | [] => (s, [])
  | p :: ps =>
    let r := f s p
    let t := makePoints f r.1 ps
    (t.1, { p with got := r.2 } :: t.2)

/-- The requests of a list of points: each point by itself, or gathered those of one key, in the order of their lowest
lanes (R127). -/
def requestsOf (gather : Bool) (ps : List Point) : List (List Point) :=
  if gather then (ps.map (·.key)).eraseDups.map fun k => ps.filter fun p => p.key == k else ps.map ([·])

/-- An instruction makes its accesses: all that are left, and `k` ends it; or the next requests only, and the rest at a
later moment. `done` are those already made. -/
def inParts (s : State) (g : Group) (gather : Bool) (f : State → Point → State × Nat) (done todo : List Point)
    (k : State → List Point → Out) : Out :=
  let rs := requestsOf gather todo
  if s.iss.cut = 0 ∨ rs.length ≤ s.iss.cut then
    let r := makePoints f s todo
    k r.1 (done ++ r.2)
  else
    let r := makePoints f s (rs.take s.iss.cut).flatten
    let made := done ++ r.2
    later r.1 g 20 (made.length :: (made ++ (rs.drop s.iss.cut).flatten).flatMap Point.nums)

/-- What a group in the midst of its accesses has made, and has to make. -/
def Group.parts (g : Group) : List Point × List Point :=
  match g.phaseVals with
  | [] => ([], [])
  | n :: ns => ((pointsOf ns).take n, (pointsOf ns).drop n)

/-- One of the accesses to be made next is to scratch of a column that is held (R387, R390). -/
def partsHeld (s : State) (gather : Bool) (todo : List Point) : Bool :=
  let rs := requestsOf gather todo
  (if s.iss.cut = 0 then rs else rs.take s.iss.cut).flatten.any fun p => p.pte == 0 && busHeld s (p.key / 2 ^ 22) 0

/-- An instruction whose accesses need not fall together: it goes on with them, or `start` checks every lane and gives the
first moment's. -/
def partwise (s : State) (g : Group) (gather : Bool) (f : State → Point → State × Nat) (k : State → List Point → Out)
    (start : (State → List Point → Out) → Out) : Out :=
  if g.midst then (if partsHeld s gather g.parts.2 then stall s else inParts s g gather f g.parts.1 g.parts.2 k)
  else start fun s ps => inParts s g gather f [] ps k

/-- The values that the lanes' points found. -/
def laneValues (ps : List Point) : List (Nat × Nat) :=
  (ps.filter fun p => p.off == 0).map fun p =>
    (p.lane, ((ps.filter fun q => q.lane == p.lane).map fun q => q.got * 2 ^ (8 * q.off)).sum)
/-- The lanes of points, each once. -/
def pointLanes (ps : List Point) : List Nat := (ps.filter fun p => p.off == 0).map (·.lane)

/-! Watchpoints (R416, R417). -/

/-- A lane's access as watchpoints see it. -/
structure Seen where
  lane : Nat
  scratch : Bool
  /-- virtual address, or offset in the target team's allocation -/
  at_ : Nat
  n : Nat
  /-- target team of a scratch access -/
  launch : Nat
  teamNo : Nat
  /-- the address as the lane formed it -/
  addr : Nat
  deriving DecidableEq, Repr

/-- Watchpoint `k` of a partition matches an access of a context. -/
def watchMatches (s : State) (p c k : Nat) (rd wr : Bool) (x : Seen) : Bool :=
  let r := kPart p (0x560 + 4 * k)
  let ctl := regGet s r
  let len := fld ctl 14 4
  let a := (regGet s (r + 1)).toNat + (if x.scratch then 0 else (regGet s (r + 2)).toNat % 2 ^ 24 * 2 ^ 32)
  let lo := a / 2 ^ len * 2 ^ len
  bit ctl 31 && fld ctl 18 6 == c && decide (len ≤ 12) && fld ctl 24 2 != 3
    && fld ctl 29 2 == (if x.scratch then 1 else 0)
    && ((rd && bit ctl 27) || (wr && bit ctl 28))
    && (!x.scratch || ((regGet s (r + 2)).toNat == x.teamNo && (regGet s (r + 3)).toNat == x.launch))
    && decide (x.at_ < lo + 2 ^ len) && decide (lo < x.at_ + x.n)

/-- What watchpoints that an issue strikes make of it, if one of them faults: the lowest that matches, the address of the
lowest lane that does, and whether the cluster is to be stopped (R416, R417). -/
structure Struck where
  wp : Nat
  addr : Nat
  sc : Bool
  deriving DecidableEq, Repr

/-- Watchpoints struck by an issue: their trace records, each with the lowest lane that strikes it, and their fault
(R408, R409, R417). -/
def strike (s : State) (g : Group) (rd wr : Bool) (xs : List Seen) : State × Option Struck :=
  let c := g.id.ctx
  let p := ctxPart s c
  let hits := (List.range 4).filterMap fun k =>
    (leastBy Seen.lane (xs.filter (watchMatches s p c k rd wr))).map fun x => (k, x)
  let ctl (k : Nat) : Word := regGet s (kPart p (0x560 + 4 * k))
  let t := (hits.filter fun h => fld (ctl h.1) 24 2 != 0).foldl (fun s h =>
    emit s 0x0E (stackOf g.core) p (srcWedge g.core g.wedge) (h.1 + 2 ^ 32 * (h.2.addr % 2 ^ 32))
      { g.names 0 with lane := h.2.lane }) s
  let faults := hits.filter fun h => fld (ctl h.1) 24 2 != 1
  match hits, leastBy Seen.lane (hits.map (·.2)) with
  | h :: _, some low =>
    (t, if faults.isEmpty then none
        else some { wp := h.1, addr := low.addr, sc := faults.any fun f => bit (ctl f.1) 26 })
  | _, _ => (t, none)

/-- After an instruction has performed every access: the WATCH fault of its lanes, pcv past it (R417), and the broadcast
that SC asks for (R418). -/
def watched (g : Group) (rd wr : Bool) (xs : List Seen) (o : Out) : Out :=
  match o with
  | .next t =>
    if t.iss.done then
      match strike t g rd wr xs with
      | (t, none) => .next t
      | (t, some x) =>
        let t := raiseFault t t.iss.g t.iss.lanes cWatch false t.iss.next { detail := x.wp, aux := some x.addr, frec := none }
        .next (if x.sc then broadcast t g.id.ctx g.id.launch g.id.teamNo else t)
    else .next t
  | o => o

/-- A scratch access as watchpoints see it. -/
def seenScratch (s : State) (g : Group) (l addr n : Nat) : Seen :=
  match scrTarget s g.id.tid addr with
  | some (_, t, off) => { lane := l, scratch := true, at_ := off, n := n, launch := t.launch, teamNo := t.teamNo, addr := addr }
  | none => { lane := l, scratch := true, at_ := 0, n := 0, launch := 0, teamNo := 0, addr := addr }
def seenGlobal (l addr n : Nat) : Seen :=
  { lane := l, scratch := false, at_ := addr, n := n, launch := 0, teamNo := 0, addr := addr }

/-! The frame of a per-lane access. -/

/-- A per-lane access: `dst` registers named, `data` registers read, a memory operand; it waits for earlier
captures (R136) and for room in the flag it is charged to (R157). A fault of its checks outranks SYM_POISON (R384). -/
def laneMem (s : State) (rule : PfxRule) (dst data mv ms : List Nat) (flag : Group → Nat)
    (k : Group → List Nat → Out) : Out :=
  let rs := data ++ mv
  begin_ s { rule := rule, v := dst ++ rs, vr := rs, sr := ms } fun g =>
    let ex := lanesOf (execMask s g)
    blockingAccess s g rs ex (k g (ex.filter fun l => (firstPoison g mv [l]).isNone))
      (annHold s (charged s g (flag g) (k g ex)))

/-- Masked-off lanes of `n` destination registers take 0 under ZERO (R225). -/
def zeroOff (s : State) (g : Group) (a n : Nat) : Group :=
  if zeroing s then
    { g with v := csets (.val 0) g.v ((lanesOf (s.iss.lanes &&& ~~~(execMask s g))).flatMap fun l =>
        (List.range n).map fun i => (vkey (a + i) l, Elem.val 0)) }
  else g

/-- The results of an ordinary load or atomic, which its destination receives when it completes (R157). -/
def deliverLanes (s : State) (g : Group) (a n flag : Nat) (vals : List (Nat × List Word)) (ext : Bool) : Out :=
  completeOp s (zeroOff s g a n) flag
    (vals.flatMap fun p => (List.range n).map fun i => (vkey (a + i) p.1, nthW p.2 i)) [] none ext

/-- A load or store that meets a limit of R53 waits, or forces a release. -/
def symLimit (s : State) (g : Group) : Out :=
  match g.forceRelease with
  | some g2 => .next (putGroup s s.iss.g g2)
  | none => longStall s g

/-- The group with a new symbol whose forms stand in the executing lanes' elements of `a` (R52); `known` says
that X is fixed already. Nothing where a limit of R53 is met. -/
def Group.newForms (g : Group) (a : Nat) (flt : Bool) (ex : List Nat) (xs : Cells Word) (bad : Word) (known : Bool)
    (stamp : Nat) : Option (Nat × Group) :=
  match g.freeSym with
  | none => none
  | some k =>
    let e : Elem := if flt then .form k 0x3F800000 0x80000000 true true else .form k 1 0 false false
    let g2 : Group :=
      { g with
        v := csets (.val 0) g.v (ex.map fun l => (vkey a l, e))
        syms := tput g.syms k { always := g.mode == 2, flt := flt, xs := xs, pois := bad, delivered := false,
                                known := known, stamp := stamp, due := none } }
    if g2.formRegs ≤ 16 then some (k, g2) else none

/-- A symbolic load performed: X of each lane whose checks passed, poison in the others (R52, R59, R60).
`s0` is the state in which nothing has been performed. -/
def symbolicLoad (s0 s : State) (g : Group) (a : Nat) (flt : Bool) (ex : List Nat) (vals : List (Nat × Word))
    (bad : List Nat) : Out :=
  match (zeroOff s g a 1).newForms a flt ex (csets 0 [] vals) (maskOf bad) true s.fresh with
  | some (_, g2) => complete (bump s) g2
  | none => symLimit s0 g

/-- A load makes forms: the class is symbolic, MODE is 1 or 2 and the type has a form (R52). -/
def formKind (g : Group) (sym : Bool) (t : AccTy) : Option Bool :=
  if sym && g.mode != 0 then AccTy.form t else none
/-- The flag a load is charged to: none where it makes forms (R58). -/
def loadFlag (s : State) (sym : Bool) (t : AccTy) (g : Group) : Nat :=
  if (formKind g sym t).isSome then 15 else s.iss.flagA

/-- A symbolic load that makes forms, once its checks are made: `perform` finds the values of the lanes that passed; lanes
that only wait make it wait (R52, R60). -/
def symbolicEnd (s : State) (g : Group) (flt : Bool) (a : Nat) (ex : List Nat) (bad : List (Nat × Fail × Nat))
    (perform : State → State × List Point) (xs : List Seen) : Out :=
  if bad.any fun b => b.2.1.cause == 0 then stall s
  else
    let r := perform s
    watched g true false xs
      (symbolicLoad s r.1 g a flt ex ((laneValues r.2).map fun p => (p.1, word p.2)) (bad.map (·.1)))

/-- The bytes a store of a type takes from its data registers in a lane (R229). -/
def Group.storeValue (g : Group) (t : AccTy) (a l : Nat) : Nat :=
  ((List.range (AccTy.regs t)).foldl (fun n i => n + (g.vword (a + i) l).toNat * 2 ^ (32 * i)) 0)
    % 2 ^ (8 * AccTy.bytes t)

end Sys2Proof.Machine
end

