-- ==== Sys2Proof/Machine/LoadStore.lean ====
section
/-! DEFINITION. Lane loads and stores of global, scratch and surface space (classes 0x20 to 0x28, R229 to
R232), with the decoding of TB pages (R72, R75 to R77, R230). -/

namespace Sys2Proof.Machine

/-! Global space. -/

/-- A load without `.raw` decodes a TB page (R230). -/
def decodes (t : AccTy) (fmt : Nat) : Bool := !AccTy.raw t && fmt != 0
/-- Stored bytes that a load covers. -/
def loadBytes (t : AccTy) (fmt : Nat) : Nat :=
  if decodes t fmt then max 1 (AccTy.bytes t / (if fmt = 1 then 2 else 4)) else AccTy.bytes t
/-- An 8-bit decoding load is forbidden (R230). -/
def loadForbids (t : AccTy) (fmt : Nat) : Bool := decodes t fmt && AccTy.bytes t == 1
/-- A store without `.raw` to a TB page is forbidden (R76, R230). -/
def storeForbids (t : AccTy) (fmt : Nat) : Bool := !AccTy.raw t && fmt != 0

/-- The block of the byte at an offset of a TB page (R75). -/
def tbBlockOf (fmt off : Nat) : Nat := if fmt = 1 then off / 32 else off / 16
/-- Key of the exponents of the block that holds a byte of a TB page (R75). -/
def scaleKey (pte : BitVec 128) (key : Nat) : Nat := pteScale pte + 2 * tbBlockOf (pteFmt pte) (key % 65536)

/-- The checks of a load of a lane: those of R228, and the exponents' line not aboard. -/
def checkLoad (ts : List TlbEntry) (s : State) (core c va : Nat) (t : AccTy) : State × Except Fail Loc :=
  match checkAccessIn ts s core c va 1 .read (loadForbids t) (loadBytes t) with
  | (s, .error f) => (s, .error f)
  | (s, .ok p) =>
    let f := pteFmt p.pte
    let sk := scaleKey p.pte p.key
    match aboardAt s p.key (loadBytes t f) va, (if decodes t f then aboardIn s sk 2 else none) with
    | some (k, line), _ => (s, .error { failPlain with cause := cAlias, slot := k, line := line })
    | _, some (k, line) => (s, .error { failPlain with cause := cAlias, slot := k, line := line })
    | none, none => (s, .ok p)

/-- A read served afresh at the slice, with a new lease. -/
def readFresh (s : State) (core key n tid : Nat) : State × Nat :=
  let r := readSlice (reach { s with l1 := cdel s.l1 (l1Key core (key / 256)) } core (key / 1024)) key n tid
  (grantCopy r.1 core key tid, r.2)

/-- Element `i` of a decoding access at a byte key, as the value of R72. -/
def tbElementAt (pte : BitVec 128) (data scale i : Nat) : Fl :=
  let tb8 := pteFmt pte == 1
  tbDecode tb8 (scale % 256) (scale / 256 % 256) (data / 2 ^ (tbBits tb8 * i) % 2 ^ tbBits tb8)

/-- What a load finds at a point (R229, R230). -/
def loadPoint (s : State) (core : Nat) (t : AccTy) (p : Point) : State × Nat :=
  let e := p.leaf
  if decodes t (pteFmt e) then
    let d := readFresh s core p.key p.n (pteTid e)
    let x := readFresh d.1 core (scaleKey e p.key) 2 (pteTid e)
    (x.1, ((List.range (AccTy.bytes t / 2)).foldl (fun v i =>
      v + bf16.write rne false false (tbElementAt e d.2 x.2 i) * 2 ^ (16 * i)) 0))
  else readCore s core p.key p.n (pteTid e)
/-- The points of a load of the lanes that passed its checks. -/
def loadPoints (t : AccTy) (ps : List (Nat × Loc)) : List Point :=
  ps.flatMap fun p => lanePoints (loadBytes t (pteFmt p.2.pte)) p.1 p.2

/-- The results of a load, awaited in its destination (R229, R157); `xs` is what watchpoints see of it. -/
def loadEnd (s : State) (g : Group) (t : AccTy) (a : Nat) (ps : List Point) (xs : List Seen) : Out :=
  watched g true false xs
    (deliverLanes s g.settled a (AccTy.regs t) s.iss.flagA ((laneValues ps).map fun p => (p.1, AccTy.words t p.2)) false)
/-- The part of a store's value that a point writes. -/
def Group.pointValue (g : Group) (t : AccTy) (a : Nat) (p : Point) : Nat :=
  g.storeValue t a p.lane / 2 ^ (8 * p.off) % 2 ^ (8 * p.n)

/-- Values of every lane, in lane order (R116). -/
def performLanes {α β : Type} (f : State → α → State × β) (s : State) : List (Nat × α) → State × List (Nat × β)
  | [] => (s, [])
  | (l, x) :: ls =>
    let r := f s x
    let t := performLanes f r.1 ls
    (t.1, (l, r.2) :: t.2)

/-- `ldg` and `ldg.sym` (R229). -/
def globalLoad (s : State) (sym : Bool) (t : AccTy) (a : VReg) (m : MemOp) : Out :=
  laneMem s .plain ((List.range (AccTy.regs t)).map (a.toNat + ·)) [] (MemOp.vregs m) (MemOp.sregs true m) (loadFlag s sym t)
    fun g ex =>
      let addr := g.memAddr true (AccTy.bytes t) m
      let f (s : State) (p : Point) : State × Nat := loadPoint s g.core t p
      let seen (ps : List Point) : List Seen :=
        (pointLanes ps).map fun l => seenGlobal l (addr l) ((ps.filter fun p => p.lane == l).map (·.n)).sum
      partwise s g false f (fun s ps => loadEnd s g t a.toNat ps (seen ps)) fun go =>
        let r := checkLanes (fun u l => checkLoad s.tlb u g.core g.id.ctx (addr l) t) addr s ex
        if !r.2.1.isEmpty && (formKind g sym t).isNone then failLanes r.1 g 0 r.2.1
        else peerHold r.1 g (r.2.2.map fun p => p.2.pte)
          (match formKind g sym t with
           | none => go r.1 (loadPoints t r.2.2)
           | some flt =>
             symbolicEnd r.1 g flt a.toNat ex r.2.1 (makePoints f · (loadPoints t r.2.2)) (seen (loadPoints t r.2.2)))

/-- `stg` (R229). -/
def globalStore (s : State) (t : AccTy) (a : VReg) (m : MemOp) : Out :=
  laneMem s .noZero [] ((List.range (AccTy.regs t)).map (a.toNat + ·)) (MemOp.vregs m) (MemOp.sregs true m) (fun _ => s.iss.flagB)
    fun g ex =>
      let n := AccTy.bytes t
      let addr := g.memAddr true n m
      let f (s : State) (p : Point) : State × Nat :=
        (writeCore s g.core p.key p.n (g.pointValue t a.toNat p) (pteTid p.leaf), 0)
      partwise s g false f
        (fun s ps => watched g false true ((pointLanes ps).map fun l => seenGlobal l (addr l) n)
          (completeOp s g.settled s.iss.flagB [] [] none false)) fun go =>
        let r := checkLanes (fun u l => checkAccessIn s.tlb u g.core g.id.ctx (addr l) n .write (storeForbids t) (natural n))
          addr s ex
        if !r.2.1.isEmpty then failLanes r.1 g 1 r.2.1
        else peerHold r.1 g (r.2.2.map fun p => p.2.pte)
          (go (loseIdem r.1 g) (r.2.2.flatMap fun p => lanePoints n p.1 p.2))

/-- LDG (R229, R230). -/
def execLdg (t : AccTy) (a : VReg) (bc : MemOp) (s : State) : Out := globalLoad s false t a bc
/-- LDG_SYM (R52, R229). -/
def execLdgSym (t : AccTy) (a : VReg) (bc : MemOp) (s : State) : Out := globalLoad s true t a bc
/-- STG (R229, R230). -/
def execStg (t : AccTy) (a : VReg) (bc : MemOp) (s : State) : Out := globalStore s t a bc

/-! Scratch. -/

/-- Scratch checks of every lane. -/
def checkScratchLanes (s : State) (g : Group) (addr : Nat → Nat) (n : Nat) (ex : List Nat) :
    State × List (Nat × Fail × Nat) × List (Nat × Nat) :=
  checkLanes (fun s l => (s, checkScratch s g.id.tid (addr l) n n)) addr s ex

/-- The lanes' store reaches another column, which ends idempotent status (R364). -/
def loseIfRemote (s : State) (g : Group) (keys : List Nat) : State :=
  if keys.any fun k => k / 2 ^ 22 != g.core then loseIdem s g else s

/-- The points of scratch accesses of `n` bytes. -/
def scratchPoints (n : Nat) (ps : List (Nat × Nat)) : List Point :=
  ps.flatMap fun p => lanePoints n p.1 { key := p.2, pte := 0, level := 0, va := 0 }

/-- `lds` and `lds.sym` (R229). -/
def scratchLoad (s : State) (sym : Bool) (t : AccTy) (a : VReg) (m : MemOp) : Out :=
  laneMem s .plain ((List.range (AccTy.regs t)).map (a.toNat + ·)) [] (MemOp.vregs m) (MemOp.sregs false m) (loadFlag s sym t)
    fun g ex =>
      let n := AccTy.bytes t
      let addr := g.memAddr false n m
      let f (s : State) (p : Point) : State × Nat := scrRead s g.core p.key p.n
      let seen (ps : List Point) : List Seen := (pointLanes ps).map fun l => seenScratch s g l (addr l) n
      partwise s g false f (fun s ps => loadEnd s g t a.toNat ps (seen ps)) fun go =>
        let r := checkScratchLanes s g addr n ex
        match formKind g sym t with
        | none => if !r.2.1.isEmpty then failLanes s g 0 r.2.1 else go s (scratchPoints n r.2.2)
        | some flt =>
          symbolicEnd s g flt a.toNat ex r.2.1 (makePoints f · (scratchPoints n r.2.2)) (seen (scratchPoints n r.2.2))

/-- `sts` (R229). -/
def scratchStore (s : State) (t : AccTy) (a : VReg) (m : MemOp) : Out :=
  laneMem s .noZero [] ((List.range (AccTy.regs t)).map (a.toNat + ·)) (MemOp.vregs m) (MemOp.sregs false m) (fun _ => s.iss.flagB)
    fun g ex =>
      let n := AccTy.bytes t
      let addr := g.memAddr false n m
      let f (s : State) (p : Point) : State × Nat := (scrWrite s g.core p.key p.n (g.pointValue t a.toNat p), 0)
      partwise s g false f
        (fun s ps => watched g false true ((pointLanes ps).map fun l => seenScratch s g l (addr l) n)
          (completeOp s g.settled s.iss.flagB [] [] none false)) fun go =>
        let r := checkScratchLanes s g addr n ex
        if !r.2.1.isEmpty then failLanes s g 1 r.2.1
        else go (loseIfRemote s g (r.2.2.map (·.2))) (scratchPoints n r.2.2)

/-- LDS (R229). -/
def execLds (t : AccTy) (a : VReg) (bc : MemOp) (s : State) : Out := scratchLoad s false t a bc
/-- LDS_SYM (R52, R229). -/
def execLdsSym (t : AccTy) (a : VReg) (bc : MemOp) (s : State) : Out := scratchLoad s true t a bc
/-- STS (R229). -/
def execSts (t : AccTy) (a : VReg) (bc : MemOp) (s : State) : Out := scratchStore s t a bc

/-! Surfaces. -/

/-- Tiles of every lane made resident in turn: the state, whether one waits, and the lanes that fail
(R112 to R114). -/
def readyLanes (s : State) (c : Nat) : List (Nat × Samp) → State × Bool × List (Nat × Fail)
  | [] => (s, false, [])
  | (l, p) :: ps =>
    match ready s c p.slot p.surf p.tile with
    | .ok s _ => readyLanes s c ps
    | .wait s => (s, true, [])
    | .fail s f =>
      let r := readyLanes s c ps
      (r.1, r.2.1, (l, f) :: r.2.2)

/-- The address entry of a surface access in a fault record (R344). -/
def sampleAddr (slotw cw : Nat) : Nat := cw + slotw % 1024 * 2 ^ 32

/-- The surface accesses of an issue: checks, then fills; `k` goes on with the lanes that failed and the
accesses of the others. A wait leaves the issue to be made again. -/
def surfaceLanes (s : State) (g : Group) (b : SReg) (c : VReg) (n : Nat) (ex : List Nat) (mayFail : Bool)
    (kind : Nat) (k : State → List (Nat × Fail × Nat) → List (Nat × Samp) → Out) : Out :=
  let slotw := (g.sreg b.toNat).toNat
  let cw (l : Nat) : Nat := (g.vword c.toNat l).toNat
  let addr (l : Nat) : Nat := sampleAddr slotw (cw l)
  let r := checkLanes (fun s l => (s, checkSample s g.id.ctx slotw (cw l) n)) addr s ex
  if !r.2.1.isEmpty && !mayFail then failLanes s g kind r.2.1
  else match readyLanes s g.id.ctx r.2.2 with
    | (t, true, _) => .next t
    | (t, false, fs) =>
      let bad := r.2.1 ++ fs.map fun f => (f.1, f.2, addr f.1)
      if !bad.isEmpty && !mayFail then failLanes t g kind bad
      else k t bad (r.2.2.filter fun p => !(fs.any fun f => f.1 == p.1))

/-- `ldt` and `ldt.sym` (R229, R232). -/
def surfaceLoad (s : State) (sym : Bool) (t : AccTy) (a : VReg) (b : SReg) (c : VReg) : Out :=
  laneMem s .plain ((List.range (AccTy.regs t)).map (a.toNat + ·)) [] [c.toNat] [b.toNat] (loadFlag s sym t)
    fun g ex =>
      surfaceLanes s g b c (AccTy.bytes t) ex (formKind g sym t).isSome 0 fun s bad ok =>
        let r := performLanes (fun s p => (visitSample s g.core g.id.ctx p, tileRead s g.id.ctx p (AccTy.bytes t))) s ok
        match formKind g sym t with
        | none => deliverLanes r.1 g a.toNat (AccTy.regs t) s.iss.flagA (r.2.map fun p => (p.1, AccTy.words t p.2)) false
        | some flt =>
          if bad.any fun b => b.2.1.cause == 0 then stall s
          else symbolicLoad s r.1 g a.toNat flt ex (r.2.map fun p => (p.1, word p.2)) (bad.map (·.1))

/-- `stt` (R229, R232, R107). -/
def surfaceStore (s : State) (t : AccTy) (a : VReg) (b : SReg) (c : VReg) : Out :=
  laneMem s .noZero [] ((List.range (AccTy.regs t)).map (a.toNat + ·)) [c.toNat] [b.toNat] (fun _ => s.iss.flagB)
    fun g ex =>
      surfaceLanes s g b c (AccTy.bytes t) ex false 1 fun s _ ok =>
        let s := ok.foldl (fun s p =>
          tileWrite (visitSample s g.core g.id.ctx p.2) g.id.ctx p.2 (AccTy.bytes t) (g.storeValue t a.toNat p.1))
          (loseIdem s g)
        completeOp s g s.iss.flagB [] [] none false

/-- LDT (R232). -/
def execLdt (t : AccTy) (a : VReg) (b : SReg) (c : VReg) (s : State) : Out := surfaceLoad s false t a b c
/-- LDT_SYM (R52, R232). -/
def execLdtSym (t : AccTy) (a : VReg) (b : SReg) (c : VReg) (s : State) : Out := surfaceLoad s true t a b c
/-- STT (R232). -/
def execStt (t : AccTy) (a : VReg) (b : SReg) (c : VReg) (s : State) : Out := surfaceStore s t a b c

end Sys2Proof.Machine
end

