-- ==== Sys2Proof/Machine/Atomics.lean ====
section
/-! DEFINITION. Value-returning atomics and reductions (classes 0x2A to 0x2F, R125 to R128, R233, R234). -/

namespace Sys2Proof.Machine

/-- Registers that hold a 32- or 64-bit operand. -/
def wideRegs (wide : Bool) : Nat := if wide then 2 else 1
/-- Data registers of an atomic: twice as many for `cas` (R233). -/
def atomRegs (o : AtomOp) (wide : Bool) : Nat := if o = .cas then 2 * wideRegs wide else wideRegs wide
/-- An operand of an atomic from register `r`. -/
def Group.atomData (g : Group) (wide : Bool) (r l : Nat) : Nat :=
  if wide then g.vpair r l else (g.vword r l).toNat

/-- One lane's operation on an old value: datum or compare in A, new value of `cas` after it (R233, R234). -/
def Group.atomNew (g : Group) (o : AtomOp) (wide : Bool) (a l old : Nat) : Nat :=
  atomStep o wide old (g.atomData wide a l) (if o = .cas then g.atomData wide (a + wideRegs wide) l else 0)

/-- Words of an old value. -/
def oldWords (wide : Bool) (v : Nat) : List Word := (List.range (wideRegs wide)).map fun i => word (v / 2 ^ (32 * i))

/-- A lane's operation on memory read and written by `rd` and `wr`, on the value its predecessor left (R127, R128). -/
def atomPoint (g : Group) (o : AtomOp) (wide : Bool) (a : Nat) (rd : State → Point → State × Nat)
    (wr : State → Point → Nat → State) (s : State) (p : Point) : State × Nat :=
  let r := rd s p
  (wr r.1 p (g.atomNew o wide a p.lane r.2), r.2)

/-- The old values of an atomic, awaited in its destination (R233, R157). -/
def atomEnd (s : State) (g : Group) (wide : Bool) (a : Nat) (ps : List Point) (xs : List Seen) : Out :=
  watched g true true xs
    (deliverLanes s g.settled a (wideRegs wide) s.iss.flagA (ps.map fun p => (p.lane, oldWords wide p.got)) false)

/-- Checks of a global atomic or reduction: a plain page that permits atomics, natural alignment (R230, R234). -/
def checkAtomic (ts : List TlbEntry) (s : State) (g : Group) (wide : Bool) (va : Nat) : State × Except Fail Loc :=
  checkAccessIn ts s g.core g.id.ctx va (wideBytes wide) .atomic plainOnly (natural (wideBytes wide))

/-- `atg` (R234). -/
def globalAtomic (s : State) (o : AtomOp) (wide : Bool) (a : VReg) (m : MemOp) : Out :=
  let n := wideBytes wide
  laneMem s .plain [] ((List.range (atomRegs o wide)).map (a.toNat + ·)) (MemOp.vregs m) (MemOp.sregs true m)
    (fun _ => s.iss.flagA) fun g ex =>
      let addr := g.memAddr true n m
      let f := atomPoint g o wide a.toNat (fun s p => readSlice (reach s g.core (p.key / 1024)) p.key n (pteTid p.leaf))
        (fun s p v => writeCore s g.core p.key n v (pteTid p.leaf))
      partwise s g true f
        (fun s ps => atomEnd s g wide a.toNat ps ((pointLanes ps).map fun l => seenGlobal l (addr l) n)) fun go =>
        let r := checkLanes (fun u l => checkAtomic s.tlb u g wide (addr l)) addr s ex
        if !r.2.1.isEmpty then failLanes r.1 g 2 r.2.1
        else peerHold r.1 g (r.2.2.map fun p => p.2.pte)
          (go (loseIdem r.1 g) (r.2.2.flatMap fun p => lanePoints n p.1 p.2))

/-- `ats` (R234, R124). -/
def scratchAtomic (s : State) (o : AtomOp) (wide : Bool) (a : VReg) (m : MemOp) : Out :=
  let n := wideBytes wide
  laneMem s .plain [] ((List.range (atomRegs o wide)).map (a.toNat + ·)) (MemOp.vregs m) (MemOp.sregs false m)
    (fun _ => s.iss.flagA) fun g ex =>
      let addr := g.memAddr false n m
      let f := atomPoint g o wide a.toNat (fun s p => scrRead s g.core p.key n)
        (fun s p v => scrWrite s g.core p.key n v)
      partwise s g true f
        (fun s ps => atomEnd s g wide a.toNat ps ((pointLanes ps).map fun l => seenScratch s g l (addr l) n)) fun go =>
        let r := checkScratchLanes s g addr n ex
        if !r.2.1.isEmpty then failLanes s g 2 r.2.1
        else go (loseIfRemote s g (r.2.2.map (·.2))) (scratchPoints n r.2.2)

/-- A lane's reduction joins the partial copies of its line on the issuing die, and takes its stamp beyond every lease
(R125). -/
def reducePoint (g : Group) (o : AtomOp) (wide : Bool) (a : Nat) (s : State) (p : Point) : State × Nat :=
  let x : Partial := { addr := p.key, wide := wide, op := o, die := stackOf g.core
                       operand := BitVec.ofNat 64 (g.atomData wide a p.lane), stamp := writeStamp s g.core p.key }
  (stampWrite { s with partials := s.partials ++ [x] } g.core p.key, 0)

/-- `red` (R125, R234). -/
def reduction (s : State) (o : AtomOp) (wide : Bool) (a : VReg) (m : MemOp) : Out :=
  let n := wideBytes wide
  laneMem s .noZero [] ((List.range (wideRegs wide)).map (a.toNat + ·)) (MemOp.vregs m) (MemOp.sregs true m)
    (fun _ => s.iss.flagB) fun g ex =>
      let addr := g.memAddr true n m
      partwise s g false (reducePoint g o wide a.toNat)
        (fun s ps => watched g false true ((pointLanes ps).map fun l => seenGlobal l (addr l) n)
          (completeOp s g.settled s.iss.flagB [] [] none false)) fun go =>
        let r := checkLanes (fun u l => checkAtomic s.tlb u g wide (addr l)) addr s ex
        if !r.2.1.isEmpty then failLanes r.1 g 2 r.2.1
        else peerHold r.1 g (r.2.2.map fun p => p.2.pte)
          (go (loseIdem r.1 g) (r.2.2.flatMap fun p => lanePoints n p.1 p.2))

/-- ATG_32 (R234). -/
def execAtg32 (o : AtomOp) (a : VReg) (bc : MemOp) (s : State) : Out := globalAtomic s o false a bc
/-- ATG_64 (R234). -/
def execAtg64 (o : AtomOp) (a : VReg) (bc : MemOp) (s : State) : Out := globalAtomic s o true a bc
/-- ATS_32 (R234). -/
def execAts32 (o : AtomOp) (a : VReg) (bc : MemOp) (s : State) : Out := scratchAtomic s o false a bc
/-- ATS_64 (R234). -/
def execAts64 (o : AtomOp) (a : VReg) (bc : MemOp) (s : State) : Out := scratchAtomic s o true a bc
/-- RED_32 (R125). -/
def execRed32 (o : AtomOp) (a : VReg) (bc : MemOp) (s : State) : Out := reduction s o false a bc
/-- RED_64 (R125). -/
def execRed64 (o : AtomOp) (a : VReg) (bc : MemOp) (s : State) : Out := reduction s o true a bc

end Sys2Proof.Machine
end

