-- ==== Sys2Proof/Machine/Ring.lean ====
section
/-! DEFINITION. The Annulus ring: slots and passages (R138, R139), windows (R140, R141), and the captures and
watches that stand in the stations (R143, R144). -/

namespace Sys2Proof.Machine

/-! Windows. -/

/-- ANN.WIN of a context: EN, COUNT and BASE (R140). -/
def winReg (s : State) (c : Nat) : Word := regGet s (0x300 + c)
def winEn (w : Word) : Bool := bit w 31
def winCount (w : Word) : Nat := fld w 16 11
def winBase (w : Word) : Nat := fld w 0 11

/-- A slot lies in a context's enabled window (R141). -/
def inWindow (s : State) (c slot : Nat) : Bool :=
  let w := winReg s c
  winEn w && decide (winBase w ≤ slot) && decide (slot < winBase w + winCount w)

/-- The slot and offset of an Annulus address (R139). -/
def ringSlot (a : Nat) : Nat := a / 64 % 2048
def ringOff (a : Nat) : Nat := a % 64

/-- Failure of R141. -/
def failWindow (slot : Nat) : Fail := { failPlain with cause := cWindow, slot := slot }

/-- The checks of an Annulus address of width `n` (R139, R141). -/
def checkRing (s : State) (c a n : Nat) : Except Fail Nat :=
  if 2 ^ 17 ≤ a || !inWindow s c (ringSlot a) then .error (failWindow (ringSlot a))
  else if a % n ≠ 0 then .error (failMem 10)
  else .ok (ringSlot a)

/-! Slots. -/

/-- `n` bytes of a slot from an offset. -/
def ringRead (s : State) (slot off n : Nat) : Nat := rdN s.ring (64 * slot + off) n
def ringWrite (s : State) (slot off n v : Nat) : State := { s with ring := wrN s.ring (64 * slot + off) n v }

/-- Slot s is at station n at memory-layer clock c (R138). -/
def passes (mclk core slot : Nat) : Bool := decide (slot + 2 * core ≤ mclk) && (mclk - slot - 2 * core) % 1152 == 0
/-- The first clock from `t` on at which a slot passes a station. -/
def nextPassage (core slot t : Nat) : Nat :=
  let p := slot + 2 * core
  if t ≤ p then p else p + ceilDiv (t - p) 1152 * 1152

/-! Stations. -/

def capKey (core stamp : Nat) : Nat := core * 2 ^ 40 + stamp
/-- Captures and watches of a station, entered or waiting, oldest first. -/
def stationCaps (s : State) (core : Nat) : List (Nat × Capture) :=
  s.caps.filter fun c => c.1 / 2 ^ 40 == core && !c.2.cancelled
/-- Entries of a station in use (R143). -/
def stationUsed (s : State) (core : Nat) : Nat := ((stationCaps s core).filter fun c => c.2.entry.isSome).length
/-- A capture waits for a free entry of a station, or none is free (R143). -/
def stationFull (s : State) (core : Nat) : Bool :=
  decide (16 ≤ stationUsed s core) || (stationCaps s core).any fun c => c.2.entry.isNone

/-- A word meets a watch's condition (R148). -/
def WatchCond.holds (c : WatchCond) (w cmp : Nat) : Bool :=
  match c with
  | .eq => w == cmp
  | .ne => w != cmp
  | .ge => decide (cmp ≤ w)
  | .lt => decide (w < cmp)

/-- The armed watch behind a station entry, with its group. -/
def watchOf (s : State) (c : Capture) : Option Watch := (s.group c.g).bind fun g => tget g.watches c.oid

/-- An entry's due clock: the first passage four clocks after its entry, for a watch only while its condition
holds (R144, R148). -/
def capDue (s : State) (k : Nat) (c : Capture) : Option Nat :=
  match c.entry with
  | none => none
  | some t =>
    let due := nextPassage (k / 2 ^ 40) c.slot (t + 4)
    if c.cancelled then none
    else if c.kind = 4 then
      match watchOf s c with
      | some w => if WatchCond.holds w.cond (ringRead s c.slot (ringOff w.addr.toNat) 4) w.cmp.toNat
          then some (max due (nextPassage (k / 2 ^ 40) c.slot s.mclk)) else none
      | none => none
    else some due

/-- The symbol of a captured `ann.ld.sym` that is delivered next, with its group, and the clock of it (R149). -/
def symDue (s : State) : Option (Nat × Nat × Nat) :=
  leastBy (fun d => d.2.2) (s.groups.flatMap fun p =>
    if busHeld s p.2.core (4 + p.2.bank) then []
    else p.2.syms.filterMap fun y => if y.2.delivered then none else y.2.due.map fun d => (p.1, y.1, d))

/-- The least due clock of any station entry, or of a symbol captured. -/
def nextDue (s : State) : Option Nat :=
  s.caps.foldl (fun b c =>
    match b, capDue s c.1 c.2 with
    | none, d => d
    | some x, some d => some (min x d)
    | some x, none => some x) ((symDue s).map (·.2.2))

end Sys2Proof.Machine
end

