-- ==== Sys2Proof/Machine/Annulus.lean ====
section
/-! DEFINITION. Annulus instructions (classes 0x31 to 0x34, R241, R242), captures and watches at their passages
(R143 to R149), and their cancelling and re-entry (R140, R150). -/

namespace Sys2Proof.Machine

/-! Entering the station. -/

/-- A capture enters its station, or waits before it (R143). -/
def enterStation (s : State) (core : Nat) (c : Capture) : State :=
  let entry := if stationFull s core then none else some s.mclk
  bump { s with caps := tput s.caps (capKey core s.fresh) { c with entry := entry, stamp := s.fresh } }

/-- Lanes gathered by slot, in ascending order of each set's lowest lane (R143). -/
def bySlot : List (Nat × Nat) → List (Nat × List Nat)
  | [] => []
  | (l, k) :: t =>
    let r := bySlot t
    match r.find? fun p => p.1 == k with
    | some p => (k, l :: p.2) :: r.filter fun q => q.1 != k
    | none => (k, [l]) :: r

/-- An instruction does not issue while its core's station has no free entry (R143). -/
def stationHold (s : State) (g : Group) (k : Out) : Out := if stationFull s g.core then stall s else k

/-- A capture of the issuing group. -/
def newCapture (s : State) (g : Group) (slot kind : Nat) (op : AtomOp) (wide : Bool)
    (lanes : List (Nat × Nat × Dword × Dword)) (dst oid line : Nat) : Capture :=
  { g := s.iss.g, ctx := g.id.ctx, slot := slot, kind := kind, op := op, wide := wide, lanes := lanes, dst := dst,
    oid := oid, line := line, entry := none, cancelled := false, failed := false, stamp := 0, pc := s.iss.a, team := g.id.tid,
    launch := g.id.launch, teamNo := g.id.teamNo, grp := g.id.grp, handle := g.handle }

/-- The captures of a per-lane instruction, one for each slot named (R143). -/
def enterLanes (s : State) (g : Group) (kind : Nat) (op : AtomOp) (wide : Bool) (dst oid : Nat)
    (ok : List (Nat × Nat)) (lane : Nat → Nat × Nat × Dword × Dword) : State :=
  (bySlot ok).foldl (fun s p =>
    enterStation s g.core (newCapture s g p.1 kind op wide (p.2.map lane) dst oid 0)) s

/-! Instructions. -/

/-- The line of an `ann.board`, checked at issue (R241): the package's HBM4, a plain page, 64-byte aligned,
readable and writable. -/
def checkBoard (s : State) (core c va : Nat) : State × Except Fail Loc :=
  if 2 ^ 56 ≤ va then (s, .error (failMem 9))
  else match translate s core c va with
    | (s, .error f) => (s, .error f)
    | (s, .ok l) =>
      let at_ (f : Fail) : Fail := { f with level := l.level, entry := l.pte }
      if pteTgt l.pte ≠ 0 ∨ pteFmt l.pte ≠ 0 then (s, .error (at_ (failMem 7)))
      else if va % 64 ≠ 0 then (s, .error { failMem 10 with level := l.level })
      else if !(allows l.pte .read && allows l.pte .write) then (s, .error (at_ { failMem 1 with cause := cPerm }))
      else (s, .ok { key := leafKey l va, pte := l.pte, level := l.level, va := va })

/-- A fault of every lane at the issue address over one address. -/
def failAll (s : State) (g : Group) (kind : Nat) (f : Fail) (addr : Nat) : Out :=
  failLanes s g kind ((lanesOf s.iss.lanes).map fun l => (l, f, addr))

/-- ANN_BOARD (R241). -/
def execAnnBoard (b : SReg) (s : State) : Out :=
  begin_ s { sr := [b.toNat, b.toNat + 2, b.toNat + 3] } fun g =>
    annHold s (charged s g s.iss.flagB (stationHold s g
      (let addr := (g.sreg b.toNat).toNat
       let va := g.spair (b.toNat + 2)
       match checkRing s g.id.ctx addr 64, checkBoard s g.core g.id.ctx va with
       | .error f, (s, .error e) => if causePrio e.cause < causePrio f.cause then failAll s g 6 e va else failAll s g 6 f addr
       | .error f, (s, .ok _) => failAll s g 6 f addr
       | .ok _, (s, .error f) => failAll s g 6 f va
       | .ok slot, (s, .ok p) =>
         let oid := s.fresh
         let s := enterStation (bump (loseIdem s g)) g.core
           (newCapture s g slot 0 .add false [(pteTid p.pte, va, 0, 0)] 0 oid p.key)
         watched g true false [seenGlobal ((lanesOf s.iss.lanes).headD 0) va 64] (complete s (g.addOp oid s.iss.flagB [] [] none true)))))

/-- ANN_ALIGHT (R241). -/
def execAnnAlight (b : SReg) (s : State) : Out :=
  begin_ s { sr := [b.toNat] } fun g =>
    annHold s (charged s g s.iss.flagB (stationHold s g
      (let addr := (g.sreg b.toNat).toNat
       match checkRing s g.id.ctx addr 64 with
       | .error f => failAll s g 6 f addr
       | .ok slot =>
         let oid := s.fresh
         let seen := match tget s.aboard slot with
           | some x => [seenGlobal ((lanesOf s.iss.lanes).headD 0) x.va 64]
           | none => []
         let s := enterStation (bump (loseIdem s g)) g.core (newCapture s g slot 1 .add false [] 0 oid 0)
         watched g false true seen (complete s (g.addOp oid s.iss.flagB [] [] none true)))))

/-- The Annulus checks of every lane. -/
def checkRingLanes (s : State) (g : Group) (addr : Nat → Nat) (n : Nat) (ex : List Nat) :
    State × List (Nat × Fail × Nat) × List (Nat × Nat) :=
  checkLanes (fun s l => (s, checkRing s g.id.ctx (addr l) n)) addr s ex

/-- `ann.ld` without forms (R241). -/
def annLoad (s : State) (g : Group) (wide : Bool) (a : Nat) (m : MemOp) (ex : List Nat) : Out :=
  stationHold s g
    (let addr := g.memAddr false (wideBytes wide) m
     let r := checkRingLanes s g addr (wideBytes wide) ex
     if !r.2.1.isEmpty then failLanes s g 0 r.2.1
     else
       let oid := s.fresh
       let vw := ex.flatMap fun l => (List.range (wideRegs wide)).map fun i => (vkey (a + i) l, (0 : Word))
       let s := enterLanes (bump s) g 2 .add wide a oid r.2.2 fun l => (l, ringOff (addr l), 0, 0)
       complete s (g.addOp oid s.iss.flagA vw [] none true))

/-- `ann.ld.sym` that makes forms (R149, R52). -/
def annSymLoad (s : State) (g : Group) (flt : Bool) (a : Nat) (m : MemOp) (ex : List Nat) : Out :=
  stationHold s g
    (let addr := g.memAddr false 4 m
     let r := checkRingLanes s g addr 4 ex
     match g.newForms a flt ex [] (maskOf (r.2.1.map (·.1))) r.2.2.isEmpty s.fresh with
     | none => symLimit s g
     | some (k, g2) => complete (enterLanes (bump s) g 5 .add false a k r.2.2 fun l => (l, ringOff (addr l), 0, 0)) g2)

/-- The frame of a per-lane Annulus instruction, without a prefix. -/
def annLanes (s : State) (dst data : List Nat) (m : MemOp) (flag : Group → Nat) (k : Group → List Nat → Out) : Out :=
  laneMem s .no dst data (MemOp.vregs m) (MemOp.sregs false m) flag k

/-- ANN_LD_B32 (R241). -/
def execAnnLdB32 (a : VReg) (bc : MemOp) (s : State) : Out :=
  annLanes s [a.toNat] [] bc (fun _ => s.iss.flagA) fun g ex => annLoad s g false a.toNat bc ex
/-- ANN_LD_B64 (R241). -/
def execAnnLdB64 (a : VReg) (bc : MemOp) (s : State) : Out :=
  annLanes s [a.toNat, a.toNat + 1] [] bc (fun _ => s.iss.flagA) fun g ex => annLoad s g true a.toNat bc ex

/-- A symbolic Annulus load: ordinary while MODE is 0 (R52, R149). -/
def annSymOp (s : State) (flt : Bool) (a : VReg) (m : MemOp) : Out :=
  annLanes s [a.toNat] [] m (fun g => if g.mode = 0 then s.iss.flagA else 15) fun g ex =>
    if g.mode = 0 then annLoad s g false a.toNat m ex else annSymLoad s g flt a.toNat m ex
/-- ANN_LD_SYM_I32 (R149). -/
def execAnnLdSymI32 (a : VReg) (bc : MemOp) (s : State) : Out := annSymOp s false a bc
/-- ANN_LD_SYM_F32 (R149). -/
def execAnnLdSymF32 (a : VReg) (bc : MemOp) (s : State) : Out := annSymOp s true a bc

/-- `ann.op` (R145, R241). -/
def annOp (s : State) (o : AtomOp) (wide : Bool) (a : VReg) (m : MemOp) : Out :=
  annLanes s [] ((List.range (atomRegs o wide)).map (a.toNat + ·)) m (fun _ => s.iss.flagA) fun g ex =>
    stationHold s g
      (let addr := g.memAddr false (wideBytes wide) m
       let r := checkRingLanes s g addr (wideBytes wide) ex
       if !r.2.1.isEmpty then failLanes s g 2 r.2.1
       else
         let oid := s.fresh
         let vw := ex.flatMap fun l =>
           (List.range (wideRegs wide)).map fun i => (vkey (a.toNat + i) l, (0 : Word))
         let datum (r l : Nat) : Dword := BitVec.ofNat 64 (g.atomData wide r l)
         let s := enterLanes (bump (loseIdem s g)) g 3 o wide a.toNat oid r.2.2 fun l =>
           (l, ringOff (addr l), datum a.toNat l, if o = .cas then datum (a.toNat + wideRegs wide) l else 0)
         complete s (g.addOp oid s.iss.flagA vw [] none true))
/-- ANN_OP_32 (R145). -/
def execAnnOp32 (o : AtomOp) (a : VReg) (bc : MemOp) (s : State) : Out := annOp s o false a bc
/-- ANN_OP_64 (R145). -/
def execAnnOp64 (o : AtomOp) (a : VReg) (bc : MemOp) (s : State) : Out := annOp s o true a bc

/-- An unfired watch gives its destination the value it held, and leaves its station (R242). -/
def dropWatch (s : State) (gid : Nat) (g : Group) (w : Nat) : State × Group :=
  match tget g.watches w with
  | none => (s, g)
  | some x =>
    if x.fired then (s, g)
    else
      let sv := match cget (SVal.val 0) g.s x.dst with
        | .pend o old => if o = x.op then cset (SVal.val 0) g.s x.dst (.val old) else g.s
        | .val _ => g.s
      ({ s with caps := s.caps.filter fun c => !(c.2.g == gid && c.2.kind == 4 && c.2.oid == w) },
       ({ g with s := sv, watches := cdel g.watches w }).dropOp x.op)

/-- ANN_WAIT (R148, R242). Its operation is charged to FLAGA until the watch fires, as R144 has it (log 106). -/
def execAnnWait (k : WatchCond) (w : BitVec 2) (a b c : SReg) (s : State) : Out :=
  begin_ s { sr := [b.toNat, c.toNat] } fun g =>
    annHold s (charged s g s.iss.flagA
      (let addr := g.sreg b.toNat
       match checkRing s g.id.ctx addr.toNat 4 with
       | .error f => failAll s g 0 f addr.toNat
       | .ok slot =>
         let d := dropWatch s s.iss.g g w.toNat
         if stationFull d.1 g.core then stall s
         else
           let oid := d.1.fresh
           let x : Watch := { addr := addr, cond := k, cmp := g.sreg c.toNat, dst := a.toNat, op := oid, fired := false }
           let g2 := d.2.addOp oid s.iss.flagA [] [(a.toNat, 0)] none true
           let s2 := enterStation (bump d.1) g.core (newCapture d.1 g slot 4 .add false [] a.toNat w.toNat 0)
           complete s2 { g2 with watches := tput g2.watches w.toNat x }))

/-! Passages. -/

/-- The bank that holds a group's registers is held, so that results wait (R387, R390). -/
def resultHeld (s : State) (gid : Nat) : Bool :=
  match s.group gid with
  | some g => busHeld s g.core (4 + g.bank)
  | none => false

/-- Words of a capture's result kept until the bank is free. -/
def Group.keepElems (g : Group) (oid : Nat) (ws : List (Nat × Word)) : Group :=
  { g with ops := tupd g.ops oid fun o =>
      { o with vw := o.vw.map fun x => ((ws.find? fun w => w.1 == x.1).getD x) } }
/-- Words of a capture's result delivered to elements that still await it. -/
def Group.deliverElems (g : Group) (oid : Nat) (ws : List (Nat × Word)) : Group :=
  let live : List (Nat × Word) := ws.filter fun w => (cget (Elem.val 0) g.v w.1).awaits oid
  { g with
    v := csets (Elem.val 0) g.v (live.map fun w => (w.1, Elem.val w.2))
    ops := tupd g.ops oid fun o => { o with vw := o.vw.filter fun x => !(ws.any fun w => w.1 == x.1) } }

/-- A capture taken off; when it was its instruction's last, the instruction completes (R144, R157), or, where its bank is
held, does so as an access performed. -/
def dropCapture (s : State) (key : Nat) (c : Capture) : State :=
  let held := resultHeld s c.g
  let s := { s with caps := cdel s.caps key }
  let more := s.caps.any fun d => d.2.g == c.g && d.2.oid == c.oid && d.2.kind == c.kind
  updGroup s c.g fun g =>
    let g := { g with replay := g.replay.filter (· != key) }
    if c.kind = 5 then
      { g with syms := tupd g.syms c.oid fun y =>
          if more then y else { y with known := true, due := some (s.mclk + 1) } }
    else if more then g
    else if held then { g with ops := tupd g.ops c.oid fun o => { o with ext := false } }
    else g.finishOp c.oid

/-- The stop record of a station for the group of a capture (R380, R442). -/
def stationRec (s : State) (core : Nat) (c : Capture) (cause : Nat) : StopRec :=
  let u := unitRec s 4 cause (srcStation core)
  { u with pc := c.pc, detail := BitVec.ofNat 64 (c.slot * 2 ^ 32), launch := c.launch, team := c.teamNo, group := c.grp,
           handle := c.handle, aux := BitVec.ofNat 64 (if c.kind = 0 ∧ cause ≠ 0 then (c.lanes.headD (0, 0, 0, 0)).2.1 else 0) }

/-- A capture or watch that fails at its station (R147, R140): it stays outstanding, to be entered again. Of an ANN_ALIAS
that is the model's reading (log 19). -/
def failCapture (s : State) (key : Nat) (c : Capture) (cause : Nat) : State :=
  let core := key / 2 ^ 40
  let s := { s with caps := tput s.caps key { c with cancelled := true, failed := true, entry := none } }
  unitFault s c.ctx (stackOf core) c.team (stationRec s core c cause)

/-- Lanes of a capture in order (R145): loads deliver the word, operations apply to it. -/
def captureLanes (core : Nat) (c : Capture) (s : State) : List (Nat × Nat × Dword × Dword) → State
  | [] => s
  | (l, off, x, y) :: t =>
    let n := wideBytes c.wide
    let old := ringRead s c.slot off n
    let s := if c.kind = 3 then ringWrite s c.slot off n (atomStep c.op c.wide old x.toNat y.toNat) else s
    let held := resultHeld s c.g
    let ws := (oldWords c.wide old).mapIdx fun i w => (vkey (c.dst + i) l, w)
    let s := updGroup s c.g fun g =>
      if c.kind = 5 then { g with syms := tupd g.syms c.oid fun k => { k with xs := cset 0 k.xs l (word old) } }
      else if held then g.keepElems c.oid ws else g.deliverElems c.oid ws
    captureLanes core c s t

/-- A line alights (R145): the slot's bytes go home and the mark is cleared. -/
def alight (s : State) (core slot : Nat) : State :=
  match tget s.aboard slot with
  | none => s
  | some x =>
    writeCore { s with aboard := cdel s.aboard slot } core x.line 64 (ringRead s slot 0 64) x.tid

/-- A line boards a slot, or ANN_ALIAS (R145, R147). -/
def board (s : State) (key : Nat) (c : Capture) : State :=
  let core := key / 2 ^ 40
  if (tget s.aboard c.slot).isSome || s.aboard.any (fun p => p.2.line == c.line) then failCapture s key c cAlias
  else
    let e := c.lanes.headD (0, 0, 0, 0)
    let r := readAgent s core c.line 64 e.1
    let x : Aboard := { line := c.line, team := c.team, va := e.2.1, tid := e.1 }
    dropCapture (ringWrite { r.1 with aboard := tput r.1.aboard c.slot x } c.slot 0 64 r.2) key c

/-- A capture takes effect (R145), and has its place in the memory order (R136): after what its slot has met and, of a
line boarded or brought home, after what the line has met (R137). -/
def capture (s : State) (key : Nat) (c : Capture) : State :=
  let core := key / 2 ^ 40
  let s := visit s core (slotSec c.slot)
  if c.kind = 0 then visit (board s key c) core (slotSec c.slot)
  else if c.kind = 1 then visit (dropCapture (alight s core c.slot) key c) core (slotSec c.slot)
  else dropCapture (captureLanes core c s c.lanes) key c

/-- A watch fires (R148): its destination receives the word and its entry is freed. The load has its place in the order
from the firing on (R136, log 107). -/
def fireWatch (s : State) (key : Nat) (c : Capture) : State :=
  let s := visit { s with caps := cdel s.caps key } (key / 2 ^ 40) (slotSec c.slot)
  let held := resultHeld s c.g
  updGroup s c.g fun g =>
    match tget g.watches c.oid with
    | none => g
    | some x =>
      let w := word (ringRead s c.slot (ringOff x.addr.toNat) 4)
      let g := { g with watches := tput g.watches c.oid { x with fired := true },
                        ops := tupd g.ops x.op fun o => { o with sw := o.sw.map fun p => (p.1, w), ext := o.ext && !held } }
      if held then g else g.finishOp x.op

/-- What is due at a slot's passage at a station now: at most one, in order of entry (R144). -/
def dueNow (s : State) (core slot : Nat) : Option (Nat × Capture) :=
  if passes s.mclk core slot then
    (stationCaps s core).find? fun c =>
      c.2.slot == slot && (match capDue s c.1 c.2 with
        | some d => decide (d ≤ s.mclk)
        | none => false)
  else none

/-- Entries for the slot that this passage has left wait for the next revolution (R144). -/
def passed (s : State) (core slot : Nat) : State :=
  { s with caps := s.caps.map fun c =>
      if c.1 / 2 ^ 40 = core ∧ c.2.slot = slot then
        (c.1, { c.2 with entry := c.2.entry.map fun t => max t (s.mclk - 3) })
      else c }

/-- Captures and watches of a station, chosen by a test, whose slot passes in this very clock take effect: they complete
where the others are cancelled (R150). -/
def passDue (s : State) (core : Nat) (f : Capture → Bool) : State :=
  let due := (s.caps.filter fun p => p.1 / 2 ^ 40 == core && !p.2.cancelled && f p.2).filterMap fun p =>
    (dueNow s core p.2.slot).filter fun q => q.1 == p.1
  due.foldl (fun s p => passed (if p.2.kind = 4 then fireWatch s p.1 p.2 else capture s p.1 p.2) core p.2.slot) s

/-- ANNULUS_CAPTURE (R145): at the slot's passage the station performs the oldest capture due. -/
def execAnnulusCapture (core slot : Nat) (s : State) : Out :=
  match dueNow s core slot with
  | some (k, c) => if c.kind = 4 then .next s else .next (passed (capture s k c) core slot)
  | none => .next s

/-- WATCH_PASSAGE (R148): a watch whose condition holds fires. -/
def execWatchPassage (core slot : Nat) (s : State) : Out :=
  match dueNow s core slot with
  | some (k, c) => if c.kind = 4 then .next (passed (fireWatch s k c) core slot) else .next s
  | none => .next s

/-- STATION_ENTRY (R143): the oldest capture waiting before the station enters it as an entry becomes free. -/
def execStationEntry (core : Nat) (s : State) : Out :=
  if 16 ≤ stationUsed s core then .next s
  else match (stationCaps s core).find? fun c => c.2.entry.isNone with
    | some (k, c) => .next { s with caps := tput s.caps k { c with entry := some s.mclk } }
    | none => .next s

/-! Cancelling and re-entry. -/

/-- Captures and watches chosen by a test are cancelled (R150). -/
def cancelCaps (s : State) (f : Nat → Capture → Bool) : State :=
  { s with caps := s.caps.map fun c => if f c.1 c.2 then (c.1, { c.2 with cancelled := true, entry := none }) else c }

/-- The core at whose station a cancelled capture re-enters: its group's, or its team's once the group has ended;
none while the team is off its core (R150). -/
def reentryCore (s : State) (key : Nat) (c : Capture) : Option Nat :=
  match s.group c.g, c.team with
  | some g, _ => some g.core
  | none, some t => (tget s.teams t).map Team.core
  | none, none => some (key / 2 ^ 40)

/-- A cancelled capture or watch is entered again, where its slot lies in the context's window (R140, R150). -/
def reenter (s : State) (key : Nat) : State :=
  match tget s.caps key with
  | none => s
  | some c =>
    if !c.cancelled then s
    else match reentryCore s key c with
      | none => s
      | some core =>
        if inWindow s c.ctx c.slot then
          let k := capKey core s.fresh
          let s2 := enterStation { s with caps := cdel s.caps key } core { c with cancelled := false, failed := false }
          if c.kind = 4 then s2
          else updGroup s2 c.g fun g => { g with replay := k :: g.replay.filter (· != key) }
        else
          let s := failCapture s key c cWindow
          if c.kind = 4 then s else updGroup s c.g fun g => { g with replay := key :: g.replay.filter (· != key) }

/-- Every cancelled capture and watch of a context re-enters, oldest first (R150). -/
def reenterCtx (s : State) (ctx : Nat) : State :=
  ((s.caps.filter fun c => c.2.ctx == ctx && c.2.cancelled).map (·.1)).foldl reenter s

end Sys2Proof.Machine
end

