-- ==== Sys2Proof/Machine/Fetch.lean ====
section
/-! DEFINITION. Choosing what a group issues: the gates on issue (R34, R375, R376, R387, R401), the issue
address (R26), fetching code as the launch saw it (R151, R152), the clause that holds an offset (R153,
R154), decoding under R173, and what follows an issue (R27, R31). -/

namespace Sys2Proof.Machine

/-- The group was launched after its raster engine had met the halt line, and starts halted (R376). -/
def startsHalted (s : State) (g : Group) : Bool :=
  match g.id.frag.bind (tget s.plans) with
  | some p => p.skid
  | none => false

/-- The halt line lets the group issue: it is down, the group is a handler's, the group is stepped, or the
line has not reached its wedge or did so at most 16 logic clocks ago (R325, R376, R420). -/
def haltAllows (s : State) (g : Group) : Bool :=
  match (ctxOf s g.id.ctx).halt with
  | none => true
  | some h =>
    let u := srcWedge g.core g.wedge
    g.id.handler || g.step == 1 || g.midst || (!h.stopped.contains u && !startsHalted s g
      && match h.arrived.find? fun p => p.1 == u with
        | none => !h.written
        | some p => decide (s.lclk ≤ p.2 + 16))

/-- Clusters of a partition that a request has chosen to vacate (R359, R361). -/
def vacating (s : State) (p : Nat) : List Nat :=
  match tget s.prestat p with
  | some (_, _, cs) => cs
  | none => []
/-- The group's cluster is being vacated, so it issues nothing more (R360, R361, R367). -/
def leaving (s : State) (g : Group) : Bool :=
  match g.id.tid.bind (tget s.teams) with
  | some t => (vacating s t.part).contains t.cid || s.leavers.any fun p => p.1 == t.cid
  | none => false
/-- The group has issued an instruction that it completes before it leaves its core (R361): accesses some of which are made,
or a surface's management, unless a halt holds it. A fence's hold may end elsewhere. -/
def inCourse (s : State) (g : Group) : Bool :=
  g.midst || (g.phase != 0 && g.phase != 30 && !haltedCtx s g.id.ctx)

/-- The bank the core has selected is the group's, and the group is in the active set (R34); a single step needs
neither (R420), nor does the end of an instruction begun. -/
def inPlay (s : State) (g : Group) : Bool :=
  g.step == 1 || g.midst || (leaving s g && inCourse s g)
    || (g.active && (banksOf s g.core).selected == some g.bank)

/-- The group may issue at all now; a quadrant in no partition's mask runs nothing (R323), and with
the logic clock stopped nothing issues (R441). -/
def mayIssue (s : State) (gid : Nat) (g : Group) : Bool :=
  decide (s.pstate = 0) && inPlay s g && (partOfQuad s (quadOf g.core)).isSome && haltAllows s g && (inCourse s g || !leaving s g)
    && !busHeld s g.core (4 + g.bank) && g.replay.isEmpty && !s.vlreqs.any fun p => p.2.g == gid

/-- Eligible lanes with their pcv (R26). A fragment that holds a fault waits for `resume`, or for a single step
(R382, R420). -/
def Group.eligible (g : Group) : List (Nat × Nat) :=
  (List.range 32).filterMap fun l =>
    if (g.lane l).running && (g.step == 1 || !bit g.faulted l) then some (l, (g.lane l).pcv.toNat) else none

/-- The least of a list of numbers. -/
def leastOf : List Nat → Option Nat
  | [] => none
  | a :: t => some (t.foldl min a)

/-- The issue floor and the issue address (R26). -/
def Group.issueAddr (g : Group) : Option (Nat × Nat) :=
  let ps := g.eligible.map (·.2)
  match leastOf (ps.filter fun p => decide (g.floor ≤ p)) with
  | some a => some (g.floor, a)
  | none => (leastOf ps).map fun a => (0, a)

/-- The eligible lanes at an address. -/
def Group.lanesAt (g : Group) (a : Nat) : Word :=
  maskOf ((g.eligible.filter fun p => p.2 == a).map (·.1))

/-! Code. -/

/-- The halfword at a code offset, through translation with execute permission, as the launch saw it (R152, R340); or
why it cannot be fetched, with the offset (R344). -/
def codeHalf (s : State) (g : Group) (off : Nat) : Except (Fail × Nat) Nat :=
  match (checkAccess s g.core g.id.ctx (g.id.codeBase + off) 2 .exec anyFmt (natural 2)).2 with
  | .error f => .error (f, off)
  | .ok l => .ok (rdN ((tget s.codes g.id.code).getD []) l.key 2)

/-- The 32-bit word at a code offset. -/
def codeWord (s : State) (g : Group) (off : Nat) : Except (Fail × Nat) Nat :=
  match codeHalf s g off, codeHalf s g (off + 2) with
  | .ok a, .ok b => .ok (a + 65536 * b)
  | .error f, _ => .error f
  | _, .error f => .error f

/-- A clause: its header's offset and word (R153, R155). -/
structure Clause where
  hdr : Nat
  word : Nat
  deriving DecidableEq, Repr

def Clause.len (c : Clause) : Nat := c.word / 2 ^ 27 + 1
def Clause.stop (c : Clause) : Nat := c.hdr + 4 + 4 * c.len
def Clause.flagB (c : Clause) : Nat := c.word / 2 ^ 23 % 16
def Clause.flagA (c : Clause) : Nat := c.word / 2 ^ 19 % 16
def Clause.wait (c : Clause) : Nat := c.word / 2 ^ 7 % 4096

/-- Offset `h` is where the data region of the group's kernel begins, or where its code image ends, or lies beyond
(R154, R177, log 18). -/
def pastImage (s : State) (g : Group) (h : Nat) : Bool :=
  match tget s.images (g.id.ctx * 2 ^ 64 + (g.id.codeBase + g.id.entry)) with
  | some e => decide (e ≤ h)
  | none => false

/-- The clause of the run from offset `h` on that holds offset `a`, if one does; the run ends at the data region, at the
end of the image, and at a word due as a header that is none or cannot be fetched (R153, R154). -/
def clauseOf (s : State) (g : Group) (a : Nat) : Nat → Nat → Option Clause
  | 0, _ => none
  | n + 1, h =>
    if a < h || pastImage s g h then none
    else match codeWord s g h with
      | .error _ => none
      | .ok w =>
        if w % 128 ≠ 0x7D then none
        else
          let c : Clause := { hdr := h, word := w }
          if a < c.stop then some c else clauseOf s g a n c.stop

/-- Offset `a` is the start of an instruction of a body, a prefix counted with its instruction: `after` says that the word
before offset `o` is a prefix (R154). -/
def startsAt (s : State) (g : Group) (a : Nat) : Nat → Nat → Bool → Except (Fail × Nat) Bool
  | 0, _, _ => .ok false
  | n + 1, o, after =>
    if o = a then .ok (!after)
    else if a < o then .ok false
    else match codeHalf s g o with
      | .error f => .error f
      | .ok h => startsAt s g a n (o + 2 * wordHalves h) (h % 128 == 0x7F)

/-- The word is one that R153 places last: a branch, `call`, `ret` or `exit`, or their long form. -/
def isLast (w : Nat) : Bool :=
  let cls := bitsAt w 1 6
  (cls == 3 && decide (bitsAt w 28 4 ≤ 6)) || (cls == 0x3D && bitsAt w 7 6 == 3 && decide (bitsAt w 27 4 ≤ 6))

/-- What a group does at its next issue. -/
inductive Fetched where
  /-- nothing issues -/
  | wait (s : State)
  /-- a cause arises at the fetch: the lanes' fault, or STEP in place of the issue -/
  | cause (o : Out)
  /-- an instruction word is issued, in the state given -/
  | run (s : State) (i : Instr)

/-- The latch for an address: what the group has taken in of the instruction there. -/
def Group.latchAt (g : Group) (a : Nat) : Latch :=
  match g.latch with
  | some l => if l.at_ = a then l else { at_ := a, entered := false, pfx := none, pfxBad := false }
  | none => { at_ := a, entered := false, pfx := none, pfxBad := false }

/-- Fetch faults, at the address that could not be fetched (R344 KIND 3). -/
def fetchFail (s : State) (g : Group) (f : Fail × Nat) : Out :=
  failLanes s g 3 ((lanesOf s.iss.lanes).map fun l => (l, f.1, (g.id.codeBase + f.2) % 2 ^ 64))

/-- ILLEGAL_OP for lanes that stand at an offset of no instruction (R153, R154), with the word there. -/
def fetchIllegal (s : State) (g : Group) (a : Nat) : Out :=
  let w := match codeWord s g a with
    | .ok x => x
    | .error _ => 0
  faultWord { s with iss := { s.iss with w0 := word w } } cIllegal

/-- The word due at offset `o` of a clause, for lanes at A (R151, R153, R173 rows 1 to 5 and 7). What the bytes at hand
decide comes before a fault on the others. A halfword of OP 0 after a last branch is the `nop` that R153 permits there,
whatever its A and B fields, which only its execution would test (log 102). -/
noncomputable def fetchWord (s : State) (g : Group) (c : Clause) (l : Latch) (o : Nat) : Fetched :=
  match codeHalf s g o with
  | .error f => .cause (fetchFail s g f)
  | .ok h =>
    let n := wordHalves h
    let half (k : Nat) : Nat := match codeHalf s g (o + 2 * k) with
      | .ok x => x
      | .error _ => 0
    let bad := (List.range n).findSome? fun k => match codeHalf s g (o + 2 * k) with
      | .ok _ => none
      | .error f => some f
    let w0 := if n = 1 then h else h + 65536 * half 1
    let w1 := if n = 4 then half 2 + 65536 * half 3
      else if l.pfx.isSome then (match codeWord s g (o - 4) with
        | .ok x => x
        | .error _ => 0) else 0
    let next := o + 2 * n
    let s := { s with iss := { s.iss with ia := o, next := next, hdr := c.hdr, len := c.len, flagA := c.flagA,
                                          flagB := c.flagB, pfx := l.pfx, rsv := l.pfxBad, w0 := word w0, w1 := word w1,
                                          done := false } }
    let flags (f : Nat) : Bool := decide (12 ≤ f) && decide (f ≤ 14)
    if c.stop < next || flags c.flagA || flags c.flagB then .cause (faultWord s cIllegal)
    else match bad with
    | some f => .cause (fetchFail s g f)
    | none =>
      let cls := bitsAt w0 1 6
      let isPfx := n == 2 && cls == 0x3F
      let last := next == c.stop || (next + 2 == c.stop && half n % 32 == 0)
      if n != 1 && isLast w0 && !last then .cause (faultWord s cIllegal)
      else if n == 2 && cls == 0x3E then .cause (faultWord s cIllegal)
      else if isPfx && (l.pfx.isSome || decide (c.stop ≤ next)) then .cause (faultWord s cIllegal)
      else match (decodeHalves [h, half 1, half 2, half 3]).1 with
        | .illegal => .cause (faultWord s cIllegal)
        | .ok i => .run s i
        | .reserved i => .run { s with iss := { s.iss with rsv := true } } i

/-- The group's next issue: the issue address and its lanes, then the word (R26, R153, R154, R156, R421).
An issue that acts in several moments goes on by the same lanes. -/
noncomputable def fetch (s : State) (gid : Nat) : Fetched :=
  match s.group gid with
  | none => .wait s
  | some g =>
    if !mayIssue s gid g then .wait s
    else match (if g.phase = 0 then g.issueAddr else some (g.floor, g.phaseAt)) with
      | none => .wait s
      | some (floor, a) =>
        let lanes := if g.phase = 0 then g.lanesAt a else g.phaseLanes
        let g := { g with floor := floor }
        let l := g.latchAt a
        let s := { putGroup s gid g with iss := { Issue.none with g := gid, lanes := lanes, a := a, ia := a } }
        if g.phase == 0 && g.stepLanes &&& lanes != 0 then
          let s := { s with iss := { s.iss with lanes := g.stepLanes &&& lanes } }
          let s := takeTrap s gid (g.stepLanes &&& lanes) cStep a (fun _ => 0) Detail.plain
          .cause (.next (updGroup s gid fun g => { g with stepLanes := g.stepLanes &&& ~~~lanes }))
        else match clauseOf s g a (a / 8 + 2) g.id.entry, codeHalf s g a with
          | none, .error f =>
            -- a branch's target outside the executable mapping is a memory fault, the end of the run reached otherwise is not
            .cause (if (lanesOf lanes).any fun k => (g.lane k).hop != .along then fetchFail s g f else fetchIllegal s g a)
          | none, .ok _ => .cause (fetchIllegal s g a)
          | some c, _ =>
            let pre := if l.pfx.isSome then 4 else 0
            if a = c.hdr then
              (if l.entered then fetchWord s g c l (c.hdr + 4 + pre)
               else .run { s with iss := { s.iss with next := c.hdr + 4, hdr := c.hdr, len := c.len, flagA := c.flagA,
                                                      flagB := c.flagB, w0 := word c.word } }
                 (.clauseHeader (BitVec.ofNat 5 (c.len - 1)) (BitVec.ofNat 4 c.flagB) (BitVec.ofNat 4 c.flagA)
                   (BitVec.ofNat 12 c.wait)))
            else
              let hop := (lanesOf lanes).any fun k => (g.lane k).hop == .header
              match startsAt s g a 65 (c.hdr + 4) false with
              | .error f => .cause (fetchFail s g f)
              | .ok ok => if hop || !ok then .cause (fetchIllegal s g a) else fetchWord s g c l (a + pre)

/-! After an issue. -/

/-- The pcvs above an address of the eligible lanes that are not among the lanes given. -/
def Group.above (g : Group) (lanes : Word) (a : Nat) : List Nat :=
  (g.eligible.filter fun p => decide (a < p.2) && !bit lanes p.1).map (·.2)

/-- The starvation count reaches 64: the floor moves above the address just issued, to a lane that did not issue there
(R27, R28, R39); with no such lane it falls to 0. -/
def Group.starved (g : Group) : Group :=
  if 64 ≤ g.starve then { g with floor := (leastOf (g.above g.lastLanes g.lastA)).getD 0, starve := 0 } else g

/-- The counts of R27 after an issue at A by the lanes given: they themselves are not among the eligible lanes above A, as
R28 and R39 require (log 91). -/
def Group.counted (g : Group) (lanes : Word) (a : Nat) : Group :=
  let g := { g with lastA := a, lastLanes := lanes }
  if (g.above lanes a).isEmpty then { g with starve := 0 } else ({ g with starve := g.starve + 1 }).starved

/-- The tag of a wedge's sampling falls on the instruction about to issue (R410). -/
def tagIssue (s : State) : State :=
  match s.group s.iss.g with
  | none => s
  | some g =>
    let k := srcWedge g.core g.wedge
    let n := g.names s.iss.lanes
    match tget s.samples k with
    | some x =>
      if x.g.isSome || x.state.isSome || fld s.iss.w0 0 7 == 0x7D || fld s.iss.w0 0 7 == 0x7F then s
      else
        let ex := match s.iss.pfx.bind Pfx.mask with
          | some m => s.iss.lanes &&& g.mreg m
          | none => s.iss.lanes
        let y : Sample := { x with g := some s.iss.g, pc := s.iss.ia, word := s.iss.w0, lanes := ex, launch := n.launch,
                                   team := n.team, group := n.group, lane := n.lane }
        { s with samples := tput s.samples k y }
    | none => s

/-- A lane of a mask is exited, or its group is gone. -/
def exitedIn (s : State) (gid : Nat) (m : Word) : Bool :=
  match s.group gid with
  | some g => (lanesOf m).any fun l => (g.lane l).st == .exited
  | none => true

/-- What became of the tagged instruction in the issue just made (R411): a cause replaced it, its lanes exited, or it
retired. -/
def endSample (s : State) : State :=
  { s with samples := s.samples.map fun p =>
      if p.2.g = some s.iss.g && p.2.state.isNone && p.2.pc = s.iss.ia then
        if s.iss.cause ≠ 0 then (p.1, { p.2 with state := some 2, cause := s.iss.cause })
        else if s.iss.done then (p.1, { p.2 with state := some (if exitedIn s s.iss.g p.2.lanes then 1 else 0) })
        else p
      else p }

/-- An issue or the cause in its place counts toward SKID once the halt line has reached the wedge, but not the issue of
a single step (R376, R380, R420). `old` is the group before it: one that has ended by it counts it in its record. -/
def countSkid (s : State) (up : Bool) (old : Option Group) : State :=
  if up && (s.iss.done || s.iss.cause != 0) then
    match s.group s.iss.g, old with
    | some g, _ => putGroup s s.iss.g { g with skid := g.skid + 1 }
    | none, some g =>
      let x := ctxOf s g.id.ctx
      let mine (r : StopRec) : Bool :=
        r.kind == 0 && r.source == srcWedge g.core g.wedge && r.handle == g.handle
      putCtx s g.id.ctx { x with halt := x.halt.map fun h =>
        { h with recs := h.recs.map fun r => if mine r then { r with skid := min (g.skid + 1) 0xFFFF } else r } }
    | none, none => s
  else s

/-- A cause that takes the place of the issue at its fetch is that of the tagged instruction too (R410, R411); `old` is the
state before it. -/
def tagCause (old s : State) : State :=
  if s.iss.cause = 0 then s else endSample { s with samples := (tagIssue { old with iss := s.iss }).samples }

/-- The halt line has reached the wedge of a group that is not being stepped. -/
def skidding (s : State) (gid : Nat) : Bool :=
  match s.group gid with
  | some g => lineUp s g.id.ctx (srcWedge g.core g.wedge) && g.step != 1
  | none => false

/-- What follows an issue that completed: the latch is cleared, masks are tested (R31), R27 counts the issue unless it was
a `yield` (R28), symbols with no element left are released (R57), and an armed notification marks its lanes (R421). The
lanes that the mask test releases count as eligible lanes of R27, and an issue whose place a fault takes is not counted:
both are the model's choices (log 103). -/
def afterIssue (s : State) (yielded : Bool) : State :=
  let s := endSample s
  if s.iss.done then
    match s.group s.iss.g with
    | none => s
    | some g =>
      let g := ({ g with latch := none, blocked := false, waitSince := none }).testMasks
      let g := if yielded then { g with lastA := s.iss.a, lastLanes := s.iss.lanes } else g.counted s.iss.lanes s.iss.a
      let g := g.releaseSyms
      let g := if g.step = 2 then { g with step := 3, stepLanes := s.iss.lanes }
        else if g.step = 1 then { g with step := 4 } else g
      putGroup s s.iss.g g
  else s

/-- The group stands at a clause header whose WAIT does not hold (R37, R156). -/
def waitsOnFlag (s : State) (g : Group) : Bool :=
  match g.issueAddr with
  | none => false
  | some (_, a) =>
    match codeWord s g a with
    | .error _ => false
    | .ok w => w % 128 == 0x7D && !(g.latchAt a).entered
        && (List.range 12).any fun k => w / 2 ^ (7 + k) % 2 == 1 && g.flag k != 0

end Sys2Proof.Machine
end

