-- ==== Sys2Proof/Machine/Control.lean ====
section
/-! DEFINITION. Branches, calls, exit, traps and tiles (class 0x03, R182 to R188) and lane masks (class 0x04,
R189). -/

namespace Sys2Proof.Machine

/-- The offset of the header after the branch's clause (R183). -/
def nextClause (s : State) : Word := word (s.iss.hdr + 4 * (s.iss.len + 1))
/-- The target of a branch, from its clause's header (R183, R166). -/
def branchTarget (s : State) : BranchOp → Word
  | .near n => word s.iss.hdr + (n.signExtend 32 <<< 2)
  | .far w => word s.iss.hdr + w

/-- A long-form branch offset that is not a multiple of 4 (R166). -/
def BranchOp.bad : BranchOp → Bool
  | .near _ => false
  | .far w => w.toNat % 4 != 0

/-- Lanes of the issue set to a clause header's offset, where R153 looks for a header. -/
def Group.hopTo (g : Group) (m : Word) (t : Word) : Group := g.setLanes m fun l => { l with pcv := t, hop := .header }

/-- BRA (R183). -/
def execBra (n : BranchOp) (s : State) : Out :=
  begin_ s {} fun g =>
    if BranchOp.bad n then faultWord s cIllegal else completeMoved s (g.hopTo s.iss.lanes (branchTarget s n))

/-- A branch on vA: lanes whose value passes the test take it, the others go to the next clause (R183). -/
def branchOn (s : State) (a : VReg) (n : BranchOp) (taken : Word → Bool) : Out :=
  begin_ s { v := [a.toNat], vr := [a.toNat] } fun g =>
    if BranchOp.bad n then faultWord s cIllegal
    else blocking s g [a.toNat] (lanesOf s.iss.lanes)
      (let t := maskOf ((lanesOf s.iss.lanes).filter fun l => taken (g.vword a.toNat l))
       completeMoved s ((g.setLanes (s.iss.lanes &&& ~~~t) fun l => { l with pcv := nextClause s, hop := .along }).hopTo t
         (branchTarget s n)))

/-- BRC_NZ (R183). -/
def execBrcNz (a : VReg) (n : BranchOp) (s : State) : Out := branchOn s a n fun w => w != 0
/-- BRC_Z (R183). -/
def execBrcZ (a : VReg) (n : BranchOp) (s : State) : Out := branchOn s a n fun w => w == 0

/-- Lanes of a mask go to the offsets in vA; a lane whose offset is odd raises ILLEGAL_OP and stays (R183). -/
def goIndirect (s : State) (g : Group) (a : VReg) (m : Word) : Out :=
  let odd := maskOf ((lanesOf m).filter fun l => bit (g.vword a.toNat l) 0)
  let go := m &&& ~~~odd
  let moved := g.lanes.mapIdx fun l x => if bit go l then { x with pcv := g.vword a.toNat l, hop := .offset } else x
  let g2 := { g with lanes := moved }
  if odd = 0 then completeMoved s g2
  else
    let d := Detail.of (s.iss.w0.toNat + 2 ^ 32 * s.iss.w1.toNat)
    let u := raiseFault (putGroup s s.iss.g g2) s.iss.g odd cIllegal false s.iss.a d
    .next { u with iss := { u.iss with done := go != 0 } }

/-- Each lane goes to the offset in vA. An odd offset in a lane outranks SYM_POISON in another (R374, R384). -/
def indirect (s : State) (a : VReg) : Out :=
  begin_ s { v := [a.toNat], vr := [a.toNat] } fun g =>
    let ls := lanesOf s.iss.lanes
    blockingAccess s g [a.toNat] ls
      (goIndirect s g a (maskOf (ls.filter fun l => (g.elem a.toNat l).poison.isNone)))
      (goIndirect s g a s.iss.lanes)

/-- BRI (R183). -/
def execBri (a : VReg) (s : State) : Out := indirect s a
/-- RET (R183). -/
def execRet (a : VReg) (s : State) : Out :=
  -- the same reading of vA as `bri`; the link of a call, a trap or STEP is even
  indirect s a

/-- CALL (R183): vA takes the link, replacing any form (R180). -/
def execCall (a : VReg) (n : BranchOp) (s : State) : Out :=
  begin_ s { v := [a.toNat] } fun g =>
    if BranchOp.bad n then faultWord s cIllegal
    else
      let g2 := (lanesOf s.iss.lanes).foldl (fun x l => x.setElem a.toNat l (.val (nextClause s))) g
      completeMoved s (g2.hopTo s.iss.lanes (branchTarget s n))

/-- Lanes exit: their bits leave every mask (R29). -/
def Group.exitLanes (g : Group) (m : Word) : Group :=
  let g := g.setLanes m fun l => { l with st := .exited, hop := .along }
  (List.range 12).foldl (fun x k => x.setM k (x.mreg k &&& ~~~m)) g

/-- EXIT (R184, R29): the masks are tested again, and the last live lane ends the group. -/
def execExit (s : State) : Out :=
  begin_ s {} fun g =>
    let g2 := (g.exitLanes s.iss.lanes).testMasks
    let t := closeFragLanes { putGroup s s.iss.g g2 with iss := { s.iss with done := true } } g s.iss.lanes
    .next (if g2.live = 0 then endGroup t s.iss.g else t)

/-- ELECT (R185). -/
def execElect (a : SReg) (s : State) : Out :=
  begin_ s {} fun g => complete s (g.setS a.toNat (word ((lanesOf s.iss.lanes).headD 0)))

/-- YIELD (R28, R186): the third row of R27 at once, which hands the issue to a lane that did not yield (R39). -/
def execYield (s : State) : Out :=
  begin_ s {} fun g =>
    complete s { g with floor := (leastOf (g.above s.iss.lanes s.iss.a)).getD 0, starve := 0 }

/-- TRAP (R187): the link is past the `trap`. -/
def execTrap (n : BitVec 14) (s : State) : Out :=
  begin_ s {} fun _ =>
    .next { takeTrap s s.iss.g s.iss.lanes cTrap s.iss.next (fun _ => n.toNat * 2 ^ 16)
              (Detail.of n.toNat) with iss := { s.iss with done := true } }

/-- BRK (R187): pcv is set past the `brk`, then the fault is raised. -/
def execBrk (n : BitVec 14) (s : State) : Out :=
  begin_ s {} fun g =>
    match complete s g with
    | .next t => .next (raiseFault t s.iss.g s.iss.lanes cBrk false s.iss.next
        (Detail.of n.toNat))
    | o => o

/-- SETTILE (R188, R33). -/
def execSettile (b : XOp) (s : State) : Out :=
  begin_ s { sr := XOp.reg b } fun g =>
    let t := (g.opX b).toNat
    if t = 2 ∨ t = 4 ∨ t = 8 ∨ t = 16 ∨ t = 32 then complete s { g with tile := t } else faultWord s cIllegal

/-! Masks (R189). The test of R31 follows the issue. -/

/-- MJOIN (R189). -/
def execMjoin (a : MReg) (s : State) : Out :=
  begin_ s {} fun g => complete s (g.setM a.toNat (g.mreg a.toNat ||| s.iss.lanes))
/-- MLEAVE (R189). -/
def execMleave (a : MReg) (s : State) : Out :=
  begin_ s {} fun g => complete s (g.setM a.toNat (g.mreg a.toNat &&& ~~~s.iss.lanes))
/-- MWAIT (R31, R189). -/
def execMwait (a : MReg) (s : State) : Out :=
  begin_ s {} fun g => completeMoved s (g.park s s.iss.lanes (.mwait a.toNat))
/-- MRD (R189). -/
def execMrd (a : SReg) (b : MReg) (s : State) : Out :=
  begin_ s {} fun g => complete s (g.setS a.toNat (g.mreg b.toNat))
/-- MWR (R189): only bits of live lanes. -/
def execMwr (a : MReg) (b : SReg) (s : State) : Out :=
  begin_ s { sr := [b.toNat] } fun g => complete s (g.setM a.toNat (g.sreg b.toNat &&& g.live))

end Sys2Proof.Machine
end

