-- ==== Sys2Proof/Machine/CrossLane.lean ====
section
/-! DEFINITION. Cross-lane instructions within tiles (classes 0x16 and 0x17, R220 to R224). -/

namespace Sys2Proof.Machine

/-- Base of a lane's tile (R32). -/
def Group.tileBase (g : Group) (l : Nat) : Nat := l / g.tile * g.tile
/-- Every lane slot of the tiles that hold a lane of the mask. -/
def Group.tilesOf (g : Group) (m : Word) : List Nat :=
  (List.range 32).filter fun j => (lanesOf m).any fun l => g.tileBase l == g.tileBase j

/-- The lanes whose source elements a cross-lane instruction uses: those of the executing lanes' tiles, or the
executing lanes alone where ZERO makes the others read 0 (R220). -/
def crossLanes (s : State) (g : Group) : List Nat :=
  if zeroing s then lanesOf (execMask s g) else g.tilesOf (execMask s g)

/-- The value a source lane gives (R220). -/
def Group.crossRead (g : Group) (s : State) (b j : Nat) : Word :=
  if zeroing s && !bit (execMask s g) j then 0
  else if (g.lane j).st == .never then 0 else g.vword b j

/-- The source lane of `xlane` for lane L and operand d (R221). -/
def Group.xlaneFrom (g : Group) (mode l d : Nat) : Nat :=
  let t0 := g.tileBase l
  let inTile (j : Nat) : Nat := if t0 ≤ j ∧ j < t0 + g.tile then j else l
  if mode = 0 then t0 + d % g.tile
  else if mode = 1 then (if d ≤ l then inTile (l - d) else l)
  else if mode = 2 then inTile (l + d)
  else inTile (l ^^^ d)

/-- `blocking` where vB is used in the lanes `bs` and vC in the lanes `ls`: no trap while a form is left in either
(R56, R60; log 20). -/
def blockingTwo (s : State) (g : Group) (b : Nat) (bs cs ls : List Nat) (k : Out) : Out :=
  match formsIn g [b] bs ++ formsIn g cs ls with
  | e :: es => blockOn s g (e :: es)
  | [] =>
    match ((List.range 32).flatMap fun l =>
        ((if bs.contains l then [b] else []) ++ (if ls.contains l then cs else [])).filterMap fun r =>
          (g.elem r l).poison).head? with
    | some y => poisonTrap s g (b :: cs) y
    | none => k

/-- `xlane` (R221). -/
def xlaneOp (s : State) (mode : Nat) (a b : VReg) (c : Src) : Out :=
  begin_ s { rule := .plain, v := a.toNat :: b.toNat :: c.vregs, vr := b.toNat :: c.vregs, sr := c.sregs }
    fun g =>
      blockingTwo s g b.toNat (crossLanes s g) c.vregs (lanesOf (execMask s g))
        (complete s (writeLanes s g a.toNat 1 fun l _ =>
          g.crossRead s b.toNat (g.xlaneFrom mode l (fld (g.src c l) 0 5))))

/-- `poll`, `fold`, `prefix` and `same`: each executing lane takes a function of the executing lanes of its
tile, ascending (R220, R222 to R224). -/
def tileOp (s : State) (rule : PfxRule) (a b : VReg) (f : Group → List Nat → Nat → Word) : Out :=
  begin_ s { rule := rule, v := [a.toNat, b.toNat], vr := [b.toNat] } fun g =>
    blocking s g [b.toNat] (crossLanes s g)
      (complete s (writeLanes s g a.toNat 1 fun l _ =>
        f g ((lanesOf (execMask s g)).filter fun j => g.tileBase j == g.tileBase l) l))

/-- Values combined in order (R223); the first is copied, a NaN with its payload (log 117). -/
def combine (f : Word → Word → Word) : List Word → Word
  | [] => 0
  | w :: ws => ws.foldl f w
/-- A lane's FP32 source, flushed under FTZ (R67). -/
def sourceF32 (s : State) (g : Group) (b : VReg) (j : Nat) : Word := word (fp32.flushIn (ftzOf s) (g.vword b.toNat j).toNat)
/-- FP32 addition under the mode (R223). -/
def addF32 (s : State) (g : Group) (p q : Word) : Word := word (fp32.arith 0 (modeOf s g) (ftzOf s) p.toNat q.toNat)
/-- Equality of `same.f32` (R224). -/
def sameKey (p q : Word) : Bool := p == q || ((p ||| q) &&& 0x7FFFFFFF) == 0

/-- xlane.get, V form (R221). -/
def execXlaneGetV (a b c : VReg) (s : State) : Out := xlaneOp s 0 a b (.v c)
/-- xlane.get, X form (R221). -/
def execXlaneGetX (a b : VReg) (c : XOp) (s : State) : Out := xlaneOp s 0 a b (.x c)
/-- xlane.back, V form (R221). -/
def execXlaneBackV (a b c : VReg) (s : State) : Out := xlaneOp s 1 a b (.v c)
/-- xlane.back, X form (R221). -/
def execXlaneBackX (a b : VReg) (c : XOp) (s : State) : Out := xlaneOp s 1 a b (.x c)
/-- xlane.fwd, V form (R221). -/
def execXlaneFwdV (a b c : VReg) (s : State) : Out := xlaneOp s 2 a b (.v c)
/-- xlane.fwd, X form (R221). -/
def execXlaneFwdX (a b : VReg) (c : XOp) (s : State) : Out := xlaneOp s 2 a b (.x c)
/-- xlane.mix, V form (R221). -/
def execXlaneMixV (a b c : VReg) (s : State) : Out := xlaneOp s 3 a b (.v c)
/-- xlane.mix, X form (R221). -/
def execXlaneMixX (a b : VReg) (c : XOp) (s : State) : Out := xlaneOp s 3 a b (.x c)
/-- poll.some (R222). -/
def execPollSome (a b : VReg) (s : State) : Out := tileOp s .plain a b fun g js _ => if js.any fun j => g.vword b.toNat j != 0 then 1 else 0
/-- poll.every (R222). -/
def execPollEvery (a b : VReg) (s : State) : Out := tileOp s .plain a b fun g js _ => if js.all fun j => g.vword b.toNat j != 0 then 1 else 0
/-- poll.bits (R222). -/
def execPollBits (a b : VReg) (s : State) : Out := tileOp s .plain a b fun g js _ => maskOf (js.filter fun j => g.vword b.toNat j != 0)
/-- fold.add.i32 (R223). -/
def execFoldAddI32 (a b : VReg) (s : State) : Out := tileOp s .plain a b fun g js _ => combine (· + ·) (js.map (g.vword b.toNat))
/-- fold.min.i32 (R223). -/
def execFoldMinI32 (a b : VReg) (s : State) : Out := tileOp s .plain a b fun g js _ => combine (fun p q => if sx q < sx p then q else p) (js.map (g.vword b.toNat))
/-- fold.max.i32 (R223). -/
def execFoldMaxI32 (a b : VReg) (s : State) : Out := tileOp s .plain a b fun g js _ => combine (fun p q => if sx p < sx q then q else p) (js.map (g.vword b.toNat))
/-- fold.add.f32 (R223). -/
def execFoldAddF32 (a b : VReg) (s : State) : Out := 
  tileOp s .round a b fun g js _ => combine (addF32 s g) (js.map (sourceF32 s g b))
/-- prefix.add.i32 (R223). -/
def execPrefixAddI32 (a b : VReg) (s : State) : Out := 
  tileOp s .plain a b fun g js l => combine (· + ·) ((js.filter fun j => decide (j ≤ l)).map (g.vword b.toNat))
/-- prefix.add.f32 (R223). -/
def execPrefixAddF32 (a b : VReg) (s : State) : Out := 
  tileOp s .round a b fun g js l => combine (addF32 s g) ((js.filter fun j => decide (j ≤ l)).map (sourceF32 s g b))
/-- same.b32 (R224). -/
def execSameB32 (a b : VReg) (s : State) : Out := 
  tileOp s .plain a b fun g js l => maskOf (js.filter fun j => g.vword b.toNat j == g.vword b.toNat l)
/-- same.f32 (R224). -/
def execSameF32 (a b : VReg) (s : State) : Out := 
  tileOp s .plain a b fun g js l => maskOf (js.filter fun j => sameKey (g.vword b.toNat j) (g.vword b.toNat l))

end Sys2Proof.Machine
end

