-- ==== Sys2Proof/Machine/Push.lean ====
section
/-! DEFINITION. Pushing engine commands (class 0x36, R274 to R284), their checks (R275), and messages (R285 to
R288). -/

namespace Sys2Proof.Machine

/-! The checks of a command (R275). -/

/-- What the checks before acceptance find. -/
inductive CmdFate where
  | reserved
  | illegal
  | mem (f : Fail) (addr : Nat)
  | ok (extra : List Word)
  deriving DecidableEq, Repr

/-- Words of a list that must be 0. -/
def nonzero (ws : List Word) (ks : List Nat) : Bool := ks.any fun k => nthW ws k != 0
/-- A reserved bit of words 9 and 10, or a reserved scope (R276). -/
def scopesBad (ws : List Word) : Bool :=
  let w := nthW ws 10
  fld w 13 19 != 0 || decide (6 ≤ fld w 4 3) || decide (6 ≤ fld w 0 3)
/-- CFEN with a CFLAG that names no flag (R276). -/
def cflagBad (ws : List Word) : Bool := bit (nthW ws 10) 12 && decide (12 ≤ fld (nthW ws 10) 8 4)
/-- The barrier object of a command, if it names one (R276). -/
def barObj (ws : List Word) : Option Nat := if nthW ws 9 = 0xFFFFFFFF then none else some (nthW ws 9).toNat

/-- Scratch operands checked in turn: address, bytes, alignment. -/
def scratchFate (s : State) (tid : Option Nat) : List (Nat × Nat × Nat) → Option (Fail × Nat)
  | [] => none
  | (a, n, al) :: t =>
    match checkScratch s tid a n al with
    | .error f => some (f, a)
    | .ok _ => scratchFate s tid t

/-- The barrier object, and the word at BAROBJ + 8 of COPY and GATHER. -/
def objectRanges (ws : List Word) (two : Bool) : List (Nat × Nat × Nat) :=
  match barObj ws with
  | some a => if two then [(a, 8, 8), (a + 8, 8, 8)] else [(a, 8, 8)]
  | none => []

/-- The three kinds of check in order, then scratch addresses. -/
def fateOf (s : State) (tid : Option Nat) (res ill : Bool) (rs : List (Nat × Nat × Nat)) (extra : List Word) : CmdFate :=
  if res then .reserved
  else if ill then .illegal
  else match scratchFate s tid rs with
    | some (f, a) => .mem f a
    | none => .ok extra

/-- A value lies in a range. -/
def within (w : Word) (lo hi : Nat) : Bool := decide (lo ≤ w.toNat) && decide (w.toNat ≤ hi)

/-- COPY (R277). -/
def copyFate (s : State) (tid : Option Nat) (ws : List Word) : CmdFate :=
  let w := nthW ws 0
  fateOf s tid
    (fld w 17 15 != 0 || fld w 12 4 != 0 || fld w 10 2 == 3 || fld w 8 2 == 3 || nonzero ws [11, 12, 13, 14, 15] || scopesBad ws)
    (fld w 0 8 != 1 || !within (nthW ws 1) 1 (2 ^ 24) || !within (nthW ws 2) 1 65536 || cflagBad ws)
    (objectRanges ws true) []

/-- Words 0 to 4 and 5 to 9 of a shape record lie in their range, and PERM is a permutation (R279). -/
def shapeOk (sh : List Word) : Bool :=
  ((List.range 10).all fun k => within (nthW sh k) 1 (2 ^ 20))
    && (List.range 5).all fun d => (List.range 5).any fun k => fld (nthW sh 15) (3 * k) 3 == d

/-- The shape record of a TENSOR, read at the push (R279). -/
def shapeOf (s : State) (tid : Option Nat) (ws : List Word) : Except Fail (List Word) :=
  match checkScratch s tid (nthW ws 8).toNat 64 64 with
  | .error f => .error f
  | .ok k => .ok (wordsOf s.scr k 16)

/-- TENSOR with its shape record (R279). -/
def tensorFate (s : State) (tid : Option Nat) (ws : List Word) (shape : Except Fail (List Word)) : CmdFate :=
  let w := nthW ws 0
  let res := fld w 17 15 != 0 || bit w 15 || decide (4 ≤ fld w 12 3) || decide (2 ≤ fld w 10 2) || decide (2 ≤ fld w 8 2)
    || nonzero ws [1, 2, 3, 11, 12, 13, 14, 15] || scopesBad ws
  let ill := fld w 0 8 != 0x11 || (bit w 16 && fld w 12 3 != 1) || cflagBad ws
  match shape with
  | .error f => if res then .reserved else if ill then .illegal else .mem f (nthW ws 8).toNat
  | .ok sh =>
    fateOf s tid (res || fld (nthW sh 15) 15 17 != 0) (ill || !shapeOk sh) (objectRanges ws false) sh

/-- GATHER (R281). -/
def gatherFate (s : State) (tid : Option Nat) (ws : List Word) : CmdFate :=
  let w := nthW ws 0
  fateOf s tid
    (fld w 12 20 != 0 || decide (2 ≤ fld w 10 2) || decide (2 ≤ fld w 8 2) || nonzero ws [11, 12, 13, 14, 15] || scopesBad ws)
    (fld w 0 8 != 0x18 || !within (nthW ws 1) 1 (2 ^ 24) || !within (nthW ws 2) 1 65536 || !within (nthW ws 3) 1 (2 ^ 31)
      || cflagBad ws)
    (objectRanges ws true ++ [((nthW ws 8).toNat, 4 * (nthW ws 1).toNat, 4)]) []

/-- COLL (R282). -/
def collFate (s : State) (tid : Option Nat) (ws : List Word) : CmdFate :=
  let w := nthW ws 0
  fateOf s tid
    (fld w 13 19 != 0 || (fld w 8 4 != 1 && fld w 8 4 != 2) || nonzero ws [11, 12, 13, 14, 15] || scopesBad ws)
    ((fld w 0 8 != 0x20 && fld w 0 8 != 0x21) || !within (nthW ws 2) 2 256 || decide ((nthW ws 2).toNat ≤ (nthW ws 1).toNat)
      || !within (nthW ws 8) 1 65536 || cflagBad ws)
    (objectRanges ws false) []

/-- RAST (R283). -/
def rastFate (s : State) (tid : Option Nat) (ws : List Word) : CmdFate :=
  let w := nthW ws 0
  fateOf s tid (fld w 18 14 != 0 || fld w 16 2 == 3 || nonzero ws [14, 15]) (fld w 0 8 != 0x30) [] []

/-- A running launch of a context, by identifier. -/
def runningLaunch (s : State) (ctx ident : Nat) : Option (Nat × Launch) :=
  s.launches.find? fun p => p.2.ctx == ctx && p.2.ident == ident
/-- Field of a launch descriptor by word, low bit and width (R346). -/
def Launch.f (l : Launch) (k lo n : Nat) : Nat := fld (nthW l.desc k) lo n
/-- Teams of a launch: clusters of the grid times teams of a cluster (R346, R285). -/
def Launch.teams (l : Launch) : Nat :=
  l.f 5 0 16 * l.f 6 0 16 * l.f 7 0 16 * ((l.f 0 10 4 + 1) * (l.f 0 14 3 + 1))

/-- MSG (R285). `teams` gives the number of teams of the destination launch, if it runs. -/
def msgFate (s : State) (tid : Option Nat) (teams : Nat → Option Nat) (ws : List Word) : CmdFate :=
  let w := nthW ws 0
  fateOf s tid (fld w 14 18 != 0)
    (fld w 0 8 != 0x40 || decide (12 < fld w 8 6) || nthW ws 3 == 0xFFFFFFFF
      || (match teams (nthW ws 2).toNat with
          | some n => decide (n ≤ (nthW ws 1).toNat)
          | none => true)) [] []

/-! Acceptance. -/

/-- The queue an OP names (R284). -/
def queueOfOp (op : Nat) : Option CmdKind :=
  if op = 0x01 then some .copy else if op = 0x11 then some .tensor else if op = 0x18 then some .gather
  else if op = 0x20 ∨ op = 0x21 then some .coll else if op = 0x30 then some .rast else if op = 0x40 then some .msg else none

/-- The pushing team is on a core, not saved. -/
def aboardCore (s : State) (tid : Option Nat) : Bool :=
  match tid with
  | some t => (tget s.teams t).isSome
  | none => true

/-- Commands that hold an entry of a core's queue (R275); those of a saved team have left it (R361). -/
def queued (s : State) (core : Nat) (k : CmdKind) : List (Nat × Cmd) :=
  s.cmds.filter fun p => p.2.core == core && p.2.kind == k && p.2.stage == .queued && aboardCore s p.2.tid
def queueFull (s : State) (core : Nat) (k : CmdKind) : Bool := decide (16 ≤ (queued s core k).length)

/-- Teams of the launch a message names: the own one for 0, otherwise one that runs (R285). -/
def teamsOf (s : State) (ctx launch ident : Nat) : Option Nat :=
  (runningLaunch s ctx (if ident = 0 then launch else ident)).map fun p => p.2.teams

/-- The checks of a command of a queue, for the team, context and launch that push it. -/
def cmdFate (s : State) (tid : Option Nat) (ctx launch : Nat) (k : CmdKind) (ws : List Word) : CmdFate :=
  match k with
  | .copy => copyFate s tid ws
  | .tensor => tensorFate s tid ws (shapeOf s tid ws)
  | .gather => gatherFate s tid ws
  | .coll => collFate s tid ws
  | .rast => rastFate s tid ws
  | .msg => msgFate s tid (teamsOf s ctx launch) ws
  | _ => .illegal

/-- The flag that CFEN counts (R276). -/
def cflagOf (k : CmdKind) (ws : List Word) : Nat :=
  match k with
  | .rast => 15
  | .msg => 15
  | _ => if bit (nthW ws 10) 12 then fld (nthW ws 10) 8 4 else 15

/-- The command ends idempotent status (R364). -/
def cmdIdem (k : CmdKind) (ws : List Word) : Bool :=
  match k with
  | .coll => false
  | .rast => false
  | .msg => false
  | _ => fld (nthW ws 0) 10 2 == 1 && !bit (nthW ws 10) 7

/-- A new command of a group, under the next record number. -/
def newCmd (s : State) (g : Group) (gid pc : Nat) (k : CmdKind) (ws extra : List Word) (oid : Nat) : Cmd :=
  { kind := k, words := ws, extra := extra, ctx := g.id.ctx, g := gid, tid := g.id.tid, core := g.core,
    launch := g.id.launch, teamNo := g.id.teamNo, grp := g.id.grp, pc := pc, stage := .queued, pos := 0, dec := 0,
    acc := 0, flag := flagNamed (cflagOf k ws), oid := oid, begun := false, skid := 0, aux := 0,
    num := s.fresh, eng := 0, pushed := s.time, seen := coreTime s g.core, rows := [], cols := [] }

/-- A checked command enters its queue, charged to FLAGB until a unit takes it and to its own flag until it
completes; or sA := 1 where the queue is full (R274 to R276). -/
def acceptCmd (s : State) (g : Group) (a : SReg) (k : CmdKind) (ws extra : List Word) : Out :=
  let t := if cmdIdem k ws then s else loseIdem s g
  if queueFull t g.core k then complete t (g.setS a.toNat 1)
  else if flagFull g (cflagOf k ws) then longStall s g
  else
    let oid := t.fresh
    let s := bump t
    let s := bump { s with cmds := tput s.cmds s.fresh (newCmd s g s.iss.g s.iss.a k ws extra oid) }
    complete s (((g.setS a.toNat 0).charge (cflagOf k ws)).addOp oid s.iss.flagB [] [] none true)

/-- What the checks of a block make of an issue. -/
def fated (s : State) (g : Group) (f : CmdFate) (go : List Word → Out) : Out :=
  match f with
  | .reserved => faultWord s cReserved
  | .illegal => faultWord s cIllegal
  | .mem f a => failAll s g 0 f a
  | .ok extra => go extra

/-- A command checked, then accepted. -/
def pushCmd (s : State) (g : Group) (a : SReg) (k : CmdKind) (ws : List Word) : Out :=
  fated s g (cmdFate s g.id.tid g.id.ctx g.id.launch k ws) (acceptCmd s g a k ws)

/-- A block in which every word passes the checks of its queue. -/
def soundBlock (k : CmdKind) : List Word :=
  let ws (w0 w1 w2 w8 : Word) : List Word := [w0, w1, w2, 0, 0, 0, 0, 0, w8, 0xFFFFFFFF, 0, 0, 0, 0, 0, 0]
  match k with
  | .copy => ws 1 1 1 0
  | .tensor => ws 0x11 0 0 0
  | .gather => ws 0x18 1 1 0 |>.set 3 1
  | .coll => ws 0x120 0 256 1
  | .rast => ws 0x30 0 0 0
  | _ => ws 0x40 0 0 0
/-- A shape record that passes its checks. -/
def soundShape : List Word := List.replicate 15 1 ++ [0x4688]

/-- The checks of a block some of whose words are poisoned: what the other words fail by themselves (R374, R384). -/
def fateKnown (s : State) (g : Group) (k : CmdKind) (bad : List Nat) (ws : List Word) : CmdFate :=
  let us := ws.mapIdx fun i w => if bad.contains i then nthW (soundBlock k) i else w
  match k with
  | .tensor => tensorFate s g.id.tid us (if bad.contains 8 then .ok soundShape else shapeOf s g.id.tid us)
  | .msg => msgFate s g.id.tid
      (fun n => if bad.contains 2 then some (2 ^ 33) else teamsOf s g.id.ctx g.id.launch n) us
  | _ => cmdFate s g.id.tid g.id.ctx g.id.launch k us

/-- A `push` (R274): the block of 16 words from s registers, or from v registers in the lowest lane. A fault of its known
words outranks SYM_POISON (R374, R384). -/
def pushOp (s : State) (k : CmdKind) (vec : Bool) (b : BitVec 7) (a : SReg) : Out :=
  let rs := (List.range 16).map (b.toNat + ·)
  let l := (lanesOf s.iss.lanes).headD 0
  begin_ s { v := if vec then rs else [], vr := if vec then rs else [], sr := if vec then [] else rs } fun g =>
    let ws := rs.map fun r => if vec then g.vword r l else g.sreg r
    let go := annHold s (charged s g s.iss.flagB (pushCmd s g a k ws))
    if vec then
      blockingAccess s g rs [l]
        (fated s g (fateKnown s g k ((List.range 16).filter fun i => (g.elem (b.toNat + i) l).poison.isSome) ws)
          fun _ => stall s)
        go
    else go

/-- PUSH_COPY (R274, R277). -/
def execPushCopy (vec : Bool) (b : BitVec 7) (a : SReg) (s : State) : Out := pushOp s .copy vec b a
/-- PUSH_TENSOR (R274, R279). -/
def execPushTensor (vec : Bool) (b : BitVec 7) (a : SReg) (s : State) : Out := pushOp s .tensor vec b a
/-- PUSH_GATHER (R274, R281). -/
def execPushGather (vec : Bool) (b : BitVec 7) (a : SReg) (s : State) : Out := pushOp s .gather vec b a
/-- PUSH_COLL (R274, R282). -/
def execPushColl (vec : Bool) (b : BitVec 7) (a : SReg) (s : State) : Out := pushOp s .coll vec b a
/-- PUSH_RAST (R274, R283). -/
def execPushRast (vec : Bool) (b : BitVec 7) (a : SReg) (s : State) : Out := pushOp s .rast vec b a
/-- PUSH_MSG (R274, R285). -/
def execPushMsg (vec : Bool) (b : BitVec 7) (a : SReg) (s : State) : Out := pushOp s .msg vec b a

/-- The first list that a core's request engine holds. -/
def listOf (s : State) (core : Nat) : Option (Nat × Cmd) :=
  s.cmds.find? fun p => p.2.core == core && p.2.kind == .list && aboardCore s p.2.tid
/-- A list of a core that is still to be read (R284). -/
def unreadList (s : State) (core : Nat) : Option (Nat × Cmd) :=
  s.cmds.find? fun p => p.2.core == core && p.2.kind == .list && !p.2.begun && aboardCore s p.2.tid

/-- Entry `e` of a list's words. -/
def listEntry (ws : List Word) (e : Nat) : List Word := (List.range 16).map fun i => nthW ws (16 * e + i)
/-- The words of a list of `n` entries in a team's scratch. -/
def listWords (s : State) (tid : Option Nat) (addr n : Nat) : List Word :=
  (List.range n).flatMap fun e => wordsOf s.scr ((scrAccess s tid (addr + 64 * e) 64).getD 0) 16
/-- A list that leaves idempotent status (R364). -/
def listIdem (ws : List Word) (n : Nat) : Bool :=
  (List.range n).all fun e => match queueOfOp (fld (nthW (listEntry ws e) 0) 0 8) with
    | some k => cmdIdem k (listEntry ws e)
    | none => true

/-- PUSHB (R284): the list is handed over, to be read after the group's earlier accesses; a list of the core that is still
to be read turns it away. -/
def execPushb (a b c : SReg) (s : State) : Out :=
  begin_ s { sr := [b.toNat, c.toNat] } fun g =>
    annHold s (charged s g s.iss.flagB
      (let addr := (g.sreg b.toNat).toNat
       let n := (g.sreg c.toNat).toNat
       if n = 0 ∨ 256 < n then faultWord s cIllegal
       else match checkScratch s g.id.tid addr (64 * n) 64 with
         | .error f => failAll s g 0 f addr
         | .ok _ =>
           let s := if listIdem (listWords s g.id.tid addr n) n then s else loseIdem s g
           if (unreadList s g.core).isSome then complete s (g.setS a.toNat 1)
           else
             let oid := s.fresh
             let s := bump s
             let x : Cmd := { newCmd s g s.iss.g s.iss.a .list [] [] oid with flag := none, aux := addr, acc := n }
             complete (bump { s with cmds := tput s.cmds s.fresh x })
               ((g.setS a.toNat 0).addOp oid s.iss.flagB [] [] none true)))

/-! Messages. -/

/-- MSG_SEND (R285): a MSG command of two payload words to a team of the own launch. -/
def execMsgSend (a b c : SReg) (s : State) : Out :=
  begin_ s { sr := [b.toNat, b.toNat + 1, c.toNat, c.toNat + 1] } fun g =>
    annHold s (charged s g s.iss.flagB
      (pushCmd s g a .msg ([0x240, g.sreg b.toNat, 0, g.sreg (b.toNat + 1), g.sreg c.toNat, g.sreg (c.toNat + 1)]
        ++ List.replicate 10 0)))

/-- A source or tag of a receive matches, 0xFFFFFFFF any (R286). -/
def wild (w v : Word) : Bool := w == 0xFFFFFFFF || w == v
/-- A receive takes a message (R286). -/
def Recv.takes (r : Recv) (m : Msg) : Bool := wild r.src (word m.srcTeam) && wild r.tag m.tag

/-- The words of a landing record (R286). -/
def Msg.record (m : Msg) : List Word :=
  [word m.srcTeam, word m.srcLaunch, m.tag, word (4 * m.payload.length)]
    ++ (List.range 12).map fun i => nthW m.payload i

/-- Words written to a team's scratch. -/
def scrWords (s : State) (tid addr : Nat) (ws : List Word) : State :=
  match scrAccess s (some tid) addr (4 * ws.length) with
  | some k => { s with scr := (ws.mapIdx fun i w => (k + 4 * i, w)).foldl (fun m p => wrN m p.1 4 p.2.toNat) s.scr }
  | none => s

/-- A message lands in a team's receive: its record is written, the handle's condition met and the handle
freed (R286). -/
def land (s : State) (tid h : Nat) (r : Recv) (m : Msg) : State :=
  updTeam (scrWords s tid r.landing.toNat m.record) tid fun t =>
    { t with posts := cdel t.posts h, met := if t.met.contains h then t.met else h :: t.met }

/-- The oldest entry for a team in its core's overflow queue that passes a test (R287, R288). -/
def oldestHeld (s : State) (core : Nat) (t : Team) (ok : Msg → Bool) : Option (Nat × Msg) :=
  leastBy (fun p => p.2.entered) (s.msgs.filter fun p =>
    p.2.held == some core && p.2.ctx == t.ctx && p.2.launch == t.launch && p.2.team == t.teamNo && ok p.2)

/-- MSG_RECV (R286, R287): a posted receive first takes the oldest matching entry of the overflow queue. -/
def execMsgRecv (a b : SReg) (s : State) : Out :=
  begin_ s { sr := (List.range 4).map (b.toNat + ·) } fun g =>
    annHold s
      (let addr := (g.sreg (b.toNat + 2)).toNat
       if g.sreg (b.toNat + 3) ≠ 0 then faultWord s cIllegal
       else match checkScratch s g.id.tid addr 64 64, g.id.tid with
         | .error f, _ => failAll s g 1 f addr
         | .ok _, none => failAll s g 1 failPlain addr
         | .ok _, some tid =>
           match tget s.teams tid with
           | none => failAll s g 1 failPlain addr
           | some t =>
             let r : Recv := { src := g.sreg b.toNat, tag := g.sreg (b.toNat + 1), landing := word addr, stamp := s.fresh }
             match (List.range 64).find? fun h => (tget t.posts h).isNone with
             | none => complete s (g.setS a.toNat 0xFFFFFFFF)
             | some h =>
               let s := bump (updTeam s tid fun t => { t with posts := tput t.posts h r, met := t.met.filter (· != h) })
               let s := match oldestHeld s g.core t r.takes with
                 | some (k, m) => land { s with msgs := cdel s.msgs k } tid h r m
                 | none => s
               complete s (g.setS a.toNat (word h)))

/-- MSG_PROBE (R288). -/
def execMsgProbe (a b : SReg) (s : State) : Out :=
  begin_ s { sr := [b.toNat, b.toNat + 1] } fun g =>
    let found : Option (Nat × Msg) := match g.id.tid.bind fun t => tget s.teams t with
      | some t => oldestHeld s g.core t fun m => wild (g.sreg b.toNat) (word m.srcTeam) && wild (g.sreg (b.toNat + 1)) m.tag
      | none => none
    let r : Word × Word := match found with
      | some (_, m) => (word m.srcTeam, m.tag)
      | none => (0xFFFFFFFF, 0xFFFFFFFF)
    complete s ((g.setS a.toNat r.1).setS (a.toNat + 1) r.2)

end Sys2Proof.Machine
end

