-- ==== Sys2Proof/Machine/Peer.lean ====
section
/-! DEFINITION. Transfers between devices: `put.sig` and `getp` (class 0x35, R243, R244, R135). -/

namespace Sys2Proof.Machine

/-- A failing access of a transfer's checks: its KIND of R344, what failed, and the address. -/
abbrev XferFail := Nat × Fail × Nat

/-- A global range checked 4-byte line by line: each of its 256-byte sectors, with every failure. Lines aboard are met
later, as the engine reaches them. -/
def checkRange (s : State) (core c va n align kind : Nat) (need : Need) (bad : Nat → Bool) : State × List XferFail :=
  let first := va / 256
  let last := (va + (n - 1)) / 256
  (List.range (last - first + 1)).foldl (fun r i =>
    let a := if i = 0 then va else (first + i) * 256
    match checkAccess { r.1 with aboard := [] } core c a 1 need bad (fun _ => if i = 0 then align else 1) with
    | (t, .error f) => ({ t with aboard := r.1.aboard }, r.2 ++ [(kind, f, a)])
    | (t, .ok _) => ({ t with aboard := r.1.aboard }, r.2)) (s, [])

/-- Where some access of a transfer failed, the issue raises the cause of the highest priority, for the first of them that
gives it (R374). -/
def xferChecked (s : State) (g : Group) (fs : List XferFail) (k : Out) : Out :=
  match leastBy (fun f => causePrio f.2.1.cause) fs with
  | some (kind, f, a) => failAll s g kind f a
  | none => k

/-- The scalars of R243: destination, source, count, operand, flag address. -/
structure Xfer where
  dst : Nat
  src : Nat
  count : Nat
  arg : Word
  flag : Nat

def xferOf (g : Group) (b : Nat) : Xfer :=
  { dst := g.spair b, src := g.spair (b + 2), count := (g.sreg (b + 4)).toNat, arg := g.sreg (b + 5),
    flag := g.spair (b + 6) }

/-- A count outside its range (R243). -/
def Xfer.bad (x : Xfer) : Bool := x.count % 4 != 0 || decide (x.count < 4) || decide (65536 < x.count)

/-- Bytes of a global source read whole, as words (R244). -/
def readGlobal (s : State) (core c : Nat) : Nat → Nat → State × List Word
  | 0, _ => (s, [])
  | n + 1, va =>
    let p := checkAccess { s with aboard := [] } core c va 4 .read anyFmt (natural 4)
    match p.2 with
    | .error _ => (s, [])
    | .ok l =>
      let r := readSlice { p.1 with aboard := s.aboard } l.key 4 (pteTid l.pte)
      let t := readGlobal r.1 core c n (va + 4)
      (t.1, word r.2 :: t.2)

/-- The line of a source is aboard (R137). -/
def rangeAboard (s : State) (core c va n : Nat) : Option (Nat × Nat) :=
  ((List.range (ceilDiv (va % 64 + n) 64)).filterMap fun i =>
    match (translate s core c (va / 64 * 64 + 64 * i)).2 with
    | .ok l => aboardAt s (leafKey l (va / 64 * 64 + 64 * i)) 64 (va / 64 * 64 + 64 * i)
    | .error _ => none).head?

/-- A transfer enters the request engine (R243), whose queue holds 16 (log 122), with its trace record (R409). -/
def acceptXfer (s : State) (g : Group) (a : SReg) (k : CmdKind) (words extra : List Word) (aux : Nat) : Out :=
  let s := loseIdem s g
  if 16 ≤ ((queued s g.core .putSig).length + (queued s g.core .getp).length) then complete s (g.setS a.toNat 1)
  else
    let x : Cmd := { newCmd s g s.iss.g s.iss.a k words extra 0 with flag := none, aux := aux }
    let s := bump { s with cmds := tput s.cmds s.fresh x }
    complete (emit s 0x08 (stackOf g.core) (ctxPart s g.id.ctx) (srcRequest g.core)
      (2 ^ 32 * (if k = .getp then (nthW words 4).toNat else 0xFFFFFFFF)) (g.names 0)) (g.setS a.toNat 0)

/-- The frame of class 0x35: the block of `n` scalars, after the group's earlier captures. -/
def xferOp (s : State) (n : Nat) (b : SReg) (k : Group → Xfer → Out) : Out :=
  begin_ s { sr := (List.range n).map (b.toNat + ·) } fun g =>
    annHold s (charged s g s.iss.flagB (k g (xferOf g b.toNat)))

/-- The line of a source that is aboard, as a failure. -/
def aliasFails (s : State) (core c va n : Nat) : List XferFail :=
  match rangeAboard s core c va n with
  | some (k, line) => [(0, { failPlain with cause := cAlias, slot := k, line := line }, va)]
  | none => []

/-- `put.sig` (R243, R244): the payload is read whole at the acceptance. -/
def putSig (s : State) (add : Bool) (a b : SReg) : Out :=
  xferOp s 8 b fun g x =>
    let c := g.id.ctx
    if x.bad then failAll s g 0 failPlain x.src
    else
      let r1 := checkRange s g.core c x.src x.count 4 0 .read anyFmt
      let r2 := checkRange r1.1 g.core c x.dst x.count 4 1 .write anyFmt
      let r3 := checkRange r2.1 g.core c x.flag 8 8 (if add then 2 else 1) (if add then .atomic else .write)
        (if add then plainOnly else anyFmt)
      let s := r3.1
      xferChecked s g (r1.2 ++ r2.2 ++ r3.2 ++ aliasFails s g.core c x.src x.count)
        (let r := readGlobal s g.core c (x.count / 4) x.src
         acceptXfer (if 16 ≤ ((queued s g.core .putSig).length + (queued s g.core .getp).length) then s else r.1) g a
           .putSig [word x.dst, word (x.dst / 2 ^ 32), if add then 1 else 0, x.arg, word x.flag,
                    word (x.flag / 2 ^ 32), word x.count] r.2 0)
/-- PUT_SIG_SET (R243). -/
def execPutSigSet (a b : SReg) (s : State) : Out := putSig s false a b
/-- PUT_SIG_ADD (R243). -/
def execPutSigAdd (a b : SReg) (s : State) : Out := putSig s true a b

/-- `getp` at a scope (R243, R244). -/
def getpOp (s : State) (scope : Nat) (a b : SReg) : Out :=
  xferOp s 6 b fun g x =>
    let c := g.id.ctx
    if x.bad then failAll s g 0 failPlain x.src
    else
      let r1 := checkRange s g.core c x.src x.count 4 0 .read anyFmt
      let r2 := checkRange r1.1 g.core c x.dst x.count 4 1 .write anyFmt
      let object : List XferFail := match checkScratch s g.id.tid x.arg.toNat 8 8 with
        | .error f => [(2, f, x.arg.toNat)]
        | .ok _ => []
      xferChecked r2.1 g (r1.2 ++ r2.2 ++ object)
        (acceptXfer r2.1 g a .getp [word x.dst, word (x.dst / 2 ^ 32), word x.src, word (x.src / 2 ^ 32), x.arg,
          word scope, word x.count] [] 0)
/-- GETP_GROUP (R243). -/
def execGetpGroup (a b : SReg) (s : State) : Out := getpOp s 0 a b
/-- GETP_TEAM (R243). -/
def execGetpTeam (a b : SReg) (s : State) : Out := getpOp s 1 a b
/-- GETP_FACET (R243). -/
def execGetpFacet (a b : SReg) (s : State) : Out := getpOp s 2 a b
/-- GETP_CLUSTER (R243). -/
def execGetpCluster (a b : SReg) (s : State) : Out := getpOp s 3 a b
/-- GETP_PACKAGE (R243). -/
def execGetpPackage (a b : SReg) (s : State) : Out := getpOp s 4 a b
/-- GETP_SYSTEM (R243). -/
def execGetpSystem (a b : SReg) (s : State) : Out := getpOp s 5 a b

end Sys2Proof.Machine
end

