-- ==== Sys2Proof/Machine/Engines.lean ====
section
/-! DEFINITION. What runs accepted commands: the request engine, the copy engines (COPY, TENSOR, GATHER, COLL:
R275 to R282), `put.sig` and `getp` (R244, R401), lists (R284), messages (R285 to R287), completion updates (R130,
R276), faults met after acceptance (R265, R442) and units under a halt (R376). -/

namespace Sys2Proof.Machine

/-! Units under the halt line (R376). -/

/-- The logic clock at which a context's halt line reached a unit. -/
def lineAt (s : State) (c u : Nat) : Option Nat :=
  (ctxOf s c).halt.bind fun h => (h.arrived.find? fun p => p.1 == u).map (·.2)
def unitStopped (s : State) (c u : Nat) : Bool :=
  match (ctxOf s c).halt with
  | some h => h.stopped.contains u
  | none => false

/-- Work of a handler team, which the halt line does not stop (R325). -/
def ofHandler (s : State) (tid : Option Nat) : Bool :=
  match tid.bind fun t => tget s.teams t with
  | some t => t.handler
  | none => false
/-- Index of the unit that holds a command, or held it last. -/
def Cmd.unit (x : Cmd) : Nat :=
  match x.stage with
  | .taken u => u
  | .stopped u => u
  | _ => x.eng
/-- A quadrant of a partition, whose units work (R323). -/
def inMask (s : State) (core : Nat) : Bool := (partOfQuad s (quadOf core)).isSome

/-- Source number of the unit a command is with (R407). -/
def Cmd.source (x : Cmd) : Nat :=
  match x.kind with
  | .copy => srcEngine (quadOf x.core) x.unit
  | .tensor => srcEngine (quadOf x.core) x.unit
  | .gather => srcEngine (quadOf x.core) x.unit
  | .coll => srcEngine (quadOf x.core) x.unit
  | .rast => srcDistributor
  | .mbLd => srcMatrix x.core
  | .mbZero => srcMatrix x.core
  | .mmx => srcMatrix x.core
  | .lut => srcMatrix x.core
  | _ => srcRequest x.core

/-- New work of a command may begin: its team is on a core of a partition, and its context's halt line is down. -/
def mayBegin (s : State) (x : Cmd) : Bool :=
  aboardCore s x.tid && inMask s x.core && (ofHandler s x.tid || !haltedCtx s x.ctx)
/-- A command in progress may go on: the line has not reached its unit, or it is within a piece of work that it
ends before it stops (`mid`). -/
def mayGoOn (s : State) (x : Cmd) (mid : Bool) : Bool :=
  aboardCore s x.tid && inMask s x.core && (ofHandler s x.tid
    || (!unitStopped s x.ctx x.source && ((lineAt s x.ctx x.source).isNone || mid)))

/-! Sizes of commands. -/

/-- Destination bytes a unit of work writes. -/
def Cmd.unitBytes (x : Cmd) : Nat :=
  let w := nthW x.words 0
  match x.kind with
  | .copy => if bit w 16 then 2 else 1
  | .tensor => 2 ^ fld w 12 3
  | .coll => if fld w 8 4 = 1 then 34 else 18
  | .putSig => 4
  | .getp => 4
  | _ => 1

/-- Units of work of a command. -/
def Cmd.total (x : Cmd) : Nat :=
  let w (k : Nat) : Nat := (nthW x.words k).toNat
  match x.kind with
  | .copy => w 1 * w 2
  | .tensor => (List.range 5).foldl (fun n d => n * (nthW x.extra d).toNat) 1
  | .gather => w 1 * w 2
  | .coll => w 8
  | .putSig => w 6 / 4
  | .getp => w 6 / 4
  | _ => 0

/-- The word that names a command's barrier object. -/
def Cmd.object (x : Cmd) : Word :=
  match x.kind with
  | .copy => nthW x.words 9
  | .tensor => nthW x.words 9
  | .gather => nthW x.words 9
  | .coll => nthW x.words 9
  | .getp => nthW x.words 4
  | .mbLd => nthW x.words 8
  | .mmx => nthW x.words 10
  | .lut => nthW x.words 10
  | _ => 0xFFFFFFFF

def Cmd.relen (x : Cmd) : Bool := bit (nthW x.words 10) 7
/-- The OP that records and stop records carry. -/
def Cmd.op (x : Cmd) : Nat :=
  match x.kind with
  | .putSig => 0
  | .getp => 0
  | .mbLd => 0
  | .mbZero => 0
  | _ => fld (nthW x.words 0) 0 8

def Cmd.names (x : Cmd) : Names := { launch := x.launch, team := x.teamNo, group := x.grp, lane := 0xFF }

/-! Records and faults (R265, R442). -/

/-- Dot steps or table groups of a matrix command per element, or units per row of an `mb.ld` (R258, R260, R252). -/
def Cmd.steps (x : Cmd) : Nat :=
  let kb := fld (nthW x.words 2) 0 10 + 1
  if x.kind = .lut then 8 * kb else kb
/-- The place of a matrix command: m, n and step (R381); `pos` counts steps. The step's 10 bits name the unit of 32 elements
of K that it lies in (log 95). -/
def Cmd.place (x : Cmd) : Nat :=
  let st := if x.kind = .lut then x.pos % x.steps / 8 else x.pos % x.steps
  if x.kind = .mbLd then x.rows.headD 0 * 2 ^ 13 + st * 8
  else if x.kind = .mbZero then 0
  else x.rows.headD 0 * 2 ^ 20 + x.cols.headD 0 * 2 ^ 13 + st * 8

/-- The stop record of a command (R380, R381). -/
def cmdRec (s : State) (x : Cmd) (cause : Nat) (frec : Option FaultRec) : StopRec :=
  let kind := match x.kind with
    | .list => 5
    | .mbLd => 1
    | .mbZero => 1
    | .mmx => 1
    | .lut => 1
    | _ => 2
  let n := x.acc
  let queuePos := (s.cmds.filter fun p => p.2.core == x.core && decide (p.2.kind = .mbLd ∨ p.2.kind = .mbZero ∨
    p.2.kind = .mmx ∨ p.2.kind = .lut) && p.2.stage != .finished && p.2.pc != x.pc).length
  let detail := if kind = 5 then x.aux else if kind = 1 then (if x.stage = .queued then queuePos else 0) else x.op
  let pos := if kind = 5 then x.pos else if kind = 1 then x.acc * 2 ^ 32 + x.place else x.pos * x.unitBytes
  let aux := if kind = 5 then n - x.pos else x.object.toNat
  { time := s.time, launch := x.launch, team := x.teamNo, group := x.grp, cause := cause, kind := kind, ltf := false,
    skidTrap := false, source := x.source, skid := min x.skid 0xFFFF, pc := x.pc, lmask := 0, sibmask := 0,
    handle := match s.group x.g with
      | some g => g.handle
      | none => 0
    detail := BitVec.ofNat 64 detail, pos := BitVec.ofNat 64 pos, aux := BitVec.ofNat 64 aux, frec := frec }

def putCmd (s : State) (id : Nat) (x : Cmd) : State := { s with cmds := tput s.cmds id x }

/-- A command stops where it is. -/
def stopCmd (s : State) (id : Nat) (x : Cmd) : State := putCmd s id { x with stage := .stopped x.unit }

/-- A command meets a fault after acceptance: it stops, and the halt line of its context rises (R265). -/
def cmdFault (s : State) (id : Nat) (x : Cmd) (cause : Nat) (frec : Option FaultRec) : State :=
  unitFault (stopCmd s id x) x.ctx (stackOf x.core) x.tid (cmdRec s x cause frec)

/-- The same for a failing access of a command: engine reads are KIND 4 of R344 and writes KIND 5. -/
def cmdFail (s : State) (id : Nat) (x : Cmd) (f : Fail) (kind addr : Nat) : State :=
  cmdFault s id x f.cause (if f.rec_ then some (mkRec s f kind x.source [(0, addr)]) else none)

/-! Engine accesses. -/

/-- Where a byte of a command lies. -/
inductive EngAt where
  | glob (va : Nat)
  | scr (a : Nat)
  /-- byte `b` of the row view from pixel x of line y -/
  | surf (slot x y b : Nat)

/-- What an engine's access gives. -/
inductive EngR (α : Type) where
  | ok (s : State) (v : α)
  | wait (s : State)
  | fail (s : State) (f : Fail) (addr : Nat)
  | illegal (s : State)

def EngR.bind {α β : Type} (r : EngR α) (k : State → α → EngR β) : EngR β :=
  match r with
  | .ok s v => k s v
  | .wait s => .wait s
  | .fail s f a => .fail s f a
  | .illegal s => .illegal s

/-- A page of a global access of a command: checks, then peers that do not answer, for which one request of the command
stands (R401). -/
def engGlob {α : Type} (s : State) (x : Cmd) (va n : Nat) (need : Need) (bad : Nat → Bool) (k : State → Loc → EngR α) : EngR α :=
  match checkAccess s x.core x.ctx va n need bad (fun _ => 1) with
  | (s, .error f) => .fail s f va
  | (s, .ok l) =>
    let mine (p : Nat × VlReq) : Bool := p.2.cmd == some x.num
    if peerSilent s l.pte then
      let r : VlReq := { peer := ptePeer l.pte, g := 0, ctx := x.ctx, since := s.time, cmd := some x.num }
      .wait (if s.vlreqs.any mine then s else bump { s with vlreqs := tput s.vlreqs s.fresh r })
    else if s.vlreqs.any mine then k { s with vlreqs := s.vlreqs.filter fun p => !mine p } l
    else k s l

/-- The address entry of byte `b` of a row view in a fault record: its pixel and sample, or the row's first pixel where no
surface gives them (R231, R344). -/
def viewAddr (s : State) (c slot x y b : Nat) : Nat :=
  let at_ (px k : Nat) : Nat := px % 2 ^ 14 + y % 2 ^ 14 * 2 ^ 14 + k * 2 ^ 28 + slot * 2 ^ 32
  match surfAt s c slot with
  | some f => at_ (x + b / (f.samples * f.bytes)) (b % (f.samples * f.bytes) / f.bytes)
  | none => at_ x 0

/-- The sample that holds byte `b` of a row view (R232, R277), with the byte's place in it. -/
def engSample (s : State) (c slot x y b : Nat) : Except Fail (Samp × Nat) :=
  match surfBase s c with
  | none => .error (failMem 8)
  | some _ =>
    match surfAt s c slot with
    | none => .error (failMem 12)
    | some f =>
      let px := x + b / (f.samples * f.bytes)
      let k := b % (f.samples * f.bytes) / f.bytes
      if f.w ≤ px || f.h ≤ y then .error (failMem 12)
      else .ok ({ slot := slot, surf := f, tile := y / 8 * f.tw + px / 8,
                  off := ((y % 8 * 8 + px % 8) * f.samples + k) * f.bytes }, b % f.bytes)

/-- A byte that an engine has reached: its checks have passed. -/
inductive Spot where
  | mem (l : Loc)
  | scr (key : Nat)
  /-- byte `i` of a sample -/
  | tile (p : Samp) (i : Nat)

/-- A byte of a command reached for reading or writing; a spilled tile fills first (R112). -/
def reachByte (s : State) (x : Cmd) (need : Need) (bad : Nat → Bool) : EngAt → EngR Spot
  | .glob va => engGlob s x va 1 need bad fun s l => .ok s (.mem l)
  | .scr a =>
    match scrAccess s x.tid a 1 with
    | some k => if busHeld s (k / 2 ^ 22) 0 then .wait s else .ok s (.scr k)
    | none => .fail s failPlain a
  | .surf slot px y b =>
    let a := viewAddr s x.ctx slot px y b
    match engSample s x.ctx slot px y b with
    | .error f => .fail s f a
    | .ok (p, i) =>
      match ready s x.ctx slot p.surf p.tile with
      | .ok s _ => .ok s (.tile p i)
      | .wait s => .wait s
      | .fail s f => .fail s f a

/-- Bytes reached in turn. -/
def reachBytes (s : State) (x : Cmd) (need : Need) (bad : Nat → Bool) : List EngAt → EngR (List Spot)
  | [] => .ok s []
  | a :: as_ => (reachByte s x need bad a).bind fun s p => (reachBytes s x need bad as_).bind fun s ps => .ok s (p :: ps)

/-- A reached tile is still in the arena. -/
def Spot.here (s : State) (x : Cmd) : Spot → Bool
  | .tile p _ => (tileOf s x.ctx p.slot p.surf p.tile).resident
  | _ => true

/-- A command acquires before its first read (R132, R135). -/
def Cmd.acquires (x : Cmd) : Bool :=
  match x.kind with
  | .copy => bit (nthW x.words 10) 3
  | .tensor => bit (nthW x.words 10) 3
  | .gather => bit (nthW x.words 10) 3
  | .coll => bit (nthW x.words 10) 3
  | .mbLd => bit (nthW x.words 7) 7
  | .mmx => bit (nthW x.words 9) 7
  | .lut => bit (nthW x.words 9) 7
  | _ => true
/-- Bytes of memory as a command reads them (R132, R133). -/
def readFors (s : State) (x : Cmd) (rs : List (Nat × Nat)) (tid : Nat) : State × List Nat :=
  readEngs s x.core x.pushed x.seen x.acquires rs tid
def readFor (s : State) (x : Cmd) (key n tid : Nat) : State × Nat :=
  let r := readFors s x [(key, n)] tid
  (r.1, r.2.headD 0)
/-- A block of a TB page read at one point: its stored bytes, or some of them, and its two exponents (R75, R77). -/
def readBlock (s : State) (x : Cmd) (l : Loc) (n : Nat) : State × Nat × Nat :=
  let r := readFors s x [(l.key, n), (scaleKey l.pte l.key, 2)] (pteTid l.pte)
  (r.1, r.2.getD 0 0, r.2.getD 1 0)
/-- Bytes of scratch as a command reads them (R132, R133). -/
def scrFor (s : State) (x : Cmd) (key n : Nat) : State × Nat :=
  let r := readBack s (fun e => e.reaches s x.core x.pushed x.seen x.acquires) scrOld s.scr [(key, n)]
  (r.1, r.2.headD 0)

/-- The value of a reached byte. -/
def Spot.read (s : State) (x : Cmd) : Spot → State × Nat
  | .mem l => readFor s x l.key 1 (pteTid l.pte)
  | .scr k => scrFor s x k 1
  | .tile p i =>
    let k := arenaKey x.ctx p.slot p.tile + p.off + i
    if s.olds.any fun e => e.key == tileOld + k then
      let r := readBack s (fun e => e.reaches s x.core x.pushed x.seen x.acquires) tileOld s.arena [(k, 1)]
      (r.1, r.2.headD 0)
    else (s, tileRead s x.ctx p p.surf.bytes / 2 ^ (8 * i) % 256)

/-- A write of a command that has arrived and waits to be visible (R130). -/
def lateWrite (s : State) (x : Cmd) (ps : List LatePart) : State :=
  { s with late := s.late ++ [{ cmd := x.num, g := x.g, parts := ps, due := none }] }
/-- Bytes of memory as part of a write. -/
def memPart (l : Loc) (key n v : Nat) : LatePart :=
  { scr := false, key := key, n := n, v := v, tid := pteTid l.pte, team := none }
/-- A reached byte written; a surface's is visible at once (log 116). -/
def Spot.write (s : State) (x : Cmd) (v : Nat) : Spot → State
  | .mem l => lateWrite s x [memPart l l.key 1 v]
  | .scr k => lateWrite s x [{ scr := true, key := k, n := 1, v := v, tid := 0, team := scrOwner s k }]
  | .tile p i =>
    let w := tileRead s x.ctx p p.surf.bytes
    markOlds (tileWrite (stampEng s x.g (sampleSec (arenaKey x.ctx p.slot p.tile + p.off))) x.ctx p p.surf.bytes
      (w - w / 2 ^ (8 * i) % 256 * 2 ^ (8 * i) + v % 256 * 2 ^ (8 * i))) p.surf.bytes x.num none

/-- The bytes at places in turn, little-endian. -/
def readSpots (x : Cmd) : State → List Spot → State × Nat
  | s, [] => (s, 0)
  | s, p :: ps =>
    let r := p.read s x
    let t := readSpots x r.1 ps
    (t.1, r.2 + 256 * t.2)
/-- The bytes of a value written at places in turn. -/
def writeSpots (x : Cmd) : State → Nat → List Spot → State
  | s, _, [] => s
  | s, v, p :: ps => writeSpots x (p.write s x (v % 256)) (v / 256) ps

/-- `n` bytes read at places in turn; the read waits while one of their tiles is gone again. -/
def engBytes (s : State) (x : Cmd) (at_ : Nat → EngAt) (n : Nat) : EngR Nat :=
  (reachBytes s x .read anyFmt ((List.range n).map at_)).bind fun s ps =>
    if ps.all (Spot.here s x) then
      let r := readSpots x s ps
      .ok r.1 r.2
    else .wait s
/-- `n` bytes of a value written at places in turn, none unless all can be (R265). `dec`: decoded bytes may not go to a TB
page (R278). -/
def engPuts (s : State) (x : Cmd) (dec : Bool) (at_ : Nat → EngAt) (n v : Nat) : EngR Nat :=
  (reachBytes s x .write (fun f => dec && f != 0) ((List.range n).map at_)).bind fun s ps =>
    if ps.all (Spot.here s x) then .ok (writeSpots x s v ps) 0 else .wait s

/-- The place of byte `k` of row `j` of an operand (R277). -/
def rowAt (sp : Nat) (lo hi stride : Word) (j k : Nat) : EngAt :=
  if sp = 2 then .surf (fld lo 0 10) (fld hi 0 14) (fld hi 14 14 + j) k
  else
    let base : Nat := lo.toNat + (if sp = 0 then hi.toNat * 2 ^ 32 else 0) + k
    let a : Int := base + stride.toInt * j
    if sp = 0 then .glob (a % 2 ^ 64).toNat else .scr (a % 2 ^ 32).toNat

/-- Element `k` counted from a global address, decoded from its TB page of format `fmt` to BF16 (R72, R278); ILLEGAL_OP on
any other page (R265). -/
def engElement (s : State) (x : Cmd) (base k fmt : Nat) : EngR Nat :=
  let va := if fmt = 1 then base + k else base + k / 2
  engGlob s x va 1 .read anyFmt fun s l =>
    if fmt = 0 ∨ pteFmt l.pte ≠ fmt then .illegal s
    else match aboardIn s (scaleKey l.pte l.key) 2 with
      | some (sl, line) => .fail s { failPlain with cause := cAlias, slot := sl, line := line } va
      | none =>
        let r := readBlock s x l 1
        let data := if fmt = 1 then r.2.1 else r.2.1 / 2 ^ (4 * (k % 2))
        .ok r.1 (bf16.write rne false false (tbElementAt l.pte data r.2.2 0))

/-- `n` elements from element `k` on, two bytes each. -/
def engElements (x : Cmd) (base fmt : Nat) : State → Nat → Nat → EngR Nat
  | s, 0, _ => .ok s 0
  | s, n + 1, k =>
    (engElement s x base k fmt).bind fun s v => (engElements x base fmt s n (k + 1)).bind fun s w => .ok s (v + 65536 * w)

/-- Element `k` of a row, which begins at a block boundary of the TB page there (R278). -/
def engDecoded (s : State) (x : Cmd) (row k : Nat) : EngR Nat :=
  engGlob s x row 1 .read anyFmt fun s l =>
    if row % 65536 % tbBytes (pteFmt l.pte == 1) ≠ 0 then .illegal s else engElement s x row k (pteFmt l.pte)

/-! Completion updates (R130, R276). -/

/-- What a completion update releases at a scope is visible to its observers: the command's writes, and all that its group
had made or observed before the push (R129, R130). -/
def releaseCmd (s : State) (x : Cmd) (scope : Nat) : State :=
  let s := landThose s fun w => w.cmd == x.num
  publish s x.core (((x.tid.bind (tget s.teams)).map Team.cid).getD 0) scope (max (engTime s x.g) x.seen)

/-- A team's barrier object lowered modulo 2^64. -/
def lowerObject (s : State) (tid : Option Nat) (obj : Word) (n : Nat) : State :=
  if obj = 0xFFFFFFFF then s
  else match scrAccess s tid obj.toNat 8 with
    | some k => { s with scr := wrN s.scr k 8 (((rdN s.scr k 8 : Int) - n) % 2 ^ 64).toNat }
    | none => s
/-- The 64-bit word at BAROBJ + 8 stored. -/
def storeBeside (s : State) (tid : Option Nat) (obj : Word) (v : Nat) : State :=
  if obj = 0xFFFFFFFF then s
  else match scrAccess s tid (obj.toNat + 8) 8 with
    | some k => { s with scr := wrN s.scr k 8 v }
    | none => s

/-- A group's flag charged by a command is discharged. -/
def dropFlag (s : State) (x : Cmd) : State := updGroup s x.g fun g => g.discharge x.flag

/-- A command goes: its completion update is done. -/
def removeCmd (s : State) (id : Nat) (x : Cmd) : State :=
  let s := dropFlag (boundLate { s with cmds := cdel s.cmds id } x.num) x
  emit s 0x09 (stackOf x.core) (ctxPart s x.ctx) x.source (x.op + 2 ^ 32 * x.object.toNat) x.names

/-- Work of a command has been done up to a place: the object falls as the bytes arrive where nothing is to be
released (R276), a GATHER's clamp count stored before the last of it (R281), and sectors that end after the halt line
arrived are counted (R376). -/
def advanceCmd (s : State) (id : Nat) (x : Cmd) (pos : Nat) : State :=
  let u := x.unitBytes
  let owed := pos * u - x.dec
  let s := if x.kind = .gather && decide (x.total ≤ pos) then storeBeside s x.tid x.object x.acc else s
  let s := if x.relen then s else lowerObject s x.tid x.object owed
  let sector := x.pos * u / 256 != pos * u / 256
  putCmd s id { x with
    pos := pos
    dec := if x.relen then x.dec else max x.dec (pos * u)
    skid := if sector && (lineAt s x.ctx x.source).isSome then x.skid + 1 else x.skid
    stage := if x.total ≤ pos then .finished else x.stage }

/-- Within a 256-byte sector of its destination. -/
def Cmd.midSector (x : Cmd) : Bool := x.pos * x.unitBytes % 256 != 0

/-- The outcome of a unit of work. -/
inductive Unit1 where
  | done (s : State) (x : Cmd)
  | wait (s : State)
  | fail (s : State) (f : Fail) (kind addr : Nat)
  | illegal (s : State)

/-- Units of work of a taken command, until it waits, stops or ends. -/
def runUnits (step : State → Cmd → Unit1) (id : Nat) : Nat → State → State
  | 0, s => s
  | n + 1, s =>
    match tget s.cmds id with
    | none => s
    | some x =>
      match x.stage with
      | .taken _ =>
        if !mayGoOn s x x.midSector then s
        else match step s x with
          | .done s y => runUnits step id n (advanceCmd s id y (y.pos + 1))
          | .wait s => s
          | .fail s f kind addr => cmdFail s id x f kind addr
          | .illegal s => cmdFault s id x cIllegal none
      | _ => s

/-- A command with a barrier object waits while the column that holds the object is held (R387, R390). -/
def cmdHeld (s : State) (x : Cmd) : Bool :=
  x.object != 0xFFFFFFFF && match scrAccess s x.tid x.object.toNat 8 with
    | some k => busHeld s (k / 2 ^ 22) 0
    | none => false

/-- An event of a kind of command. -/
def cmdEvent (k : CmdKind) (step : State → Cmd → Unit1) (id n : Nat) (s : State) : Out :=
  match tget s.cmds id with
  | some x => if x.kind = k && !cmdHeld s x then .next (runUnits step id n s) else .next s
  | none => .next s

/-- A read, then a write, of a unit of work. -/
def moveUnit (x : Cmd) (r : EngR Nat) (w : State → Nat → EngR Nat) : Unit1 :=
  match r with
  | .wait s => .wait s
  | .fail s f a => .fail s f 4 a
  | .illegal s => .illegal s
  | .ok s v =>
    match w s v with
    | .ok s _ => .done s x
    | .wait s => .wait s
    | .fail s f a => .fail s f 5 a
    | .illegal s => .illegal s

/-! Taking commands (R275). -/

def engineKind (k : CmdKind) : Bool := k = .copy || k = .tensor || k = .gather || k = .coll

/-- A copy engine of a quadrant is busy. A COLL that has joined keeps its contribution aside (R289). -/
def engineBusy (s : State) (quad u : Nat) : Bool :=
  s.cmds.any fun p => engineKind p.2.kind && quadOf p.2.core == quad && !(p.2.kind == .coll && p.2.begun)
    && (match p.2.stage with
      | .taken v => v == u
      | .stopped v => v == u
      | _ => false)

/-- The queue of a number of `push`'s minors. -/
def kindOfQueue (q : Nat) : Option CmdKind :=
  if q = 0 then some .copy else if q = 1 then some .tensor else if q = 2 then some .gather else if q = 3 then some .coll
  else if q = 5 then some .msg else none

/-- The pushing group's FLAGB charge ends: a unit has taken the command (R157). -/
def takeCharge (s : State) (x : Cmd) : State := updGroup s x.g fun g => g.finishOp x.oid

/-- A MSG command leaves for the on-die network, a release at package scope of its group's earlier writes (R285). -/
def sendMsg (s : State) (id : Nat) (x : Cmd) : State :=
  let s := releaseCmd s x 4
  let m : Msg := { ctx := x.ctx, launch := if nthW x.words 2 = 0 then x.launch else (nthW x.words 2).toNat,
                   team := (nthW x.words 1).toNat, srcTeam := x.teamNo, srcLaunch := x.launch, tag := nthW x.words 3,
                   payload := (List.range (fld (nthW x.words 0) 8 6)).map fun i => nthW x.words (4 + i),
                   held := none, refused := false, sender := x.g, unit := x.core, entered := 0 }
  let s := bump { s with cmds := cdel s.cmds id, msgs := tput s.msgs s.fresh m }
  emit s 0x09 (stackOf x.core) (ctxPart s x.ctx) x.source (x.op + 2 ^ 32 * x.object.toNat) x.names

/-- What a core's request engine hands to the copy engines next: a command put aside with its team, which is back, or the
oldest of a queue (R275, R289). -/
def nextHandoff (s : State) (core : Nat) (k : CmdKind) : Option (Nat × Cmd) :=
  match s.cmds.find? fun p => p.2.core == core && p.2.kind == k && p.2.stage == .aside && aboardCore s p.2.tid with
  | some p => some p
  | none => (queued s core k).head?

/-- REQUEST_ENGINE_HANDOFF (R275): the oldest command of a queue goes to the unit that runs it. A COPY stores its
promise as an engine takes it (R278). -/
def execRequestEngineHandoff (core queue unit : Nat) (s : State) : Out :=
  match kindOfQueue queue with
  | none => .next s
  | some k =>
    match nextHandoff s core k with
    | none => .next s
    | some (id, x) =>
      if !mayBegin s x then .next s
      else if k = .msg then
        .next (sendMsg (emit (takeCharge s x) 0x08 (stackOf core) (ctxPart s x.ctx) x.source
          (x.op + 2 ^ 32 * x.object.toNat) x.names) id x)
      else if 16 ≤ unit || engineBusy s (quadOf core) unit || (k == .copy && cmdHeld s x) then .next s
      else
        let y := { x with stage := .taken unit, oid := 0, eng := unit, begun := x.begun || x.kind != .coll }
        if x.stage = .aside then .next (putCmd s id y)
        else
          let s := putCmd (takeCharge s x) id y
          let s := if k = .copy then
              chose (storeBeside s x.tid x.object ((s.time + Config.promiseAfter s.free) % 2 ^ 64))
            else s
          .next (emit s 0x08 (stackOf core) (ctxPart s x.ctx) y.source (y.op + 2 ^ 32 * y.object.toNat) y.names)

/-! COPY (R277, R278). -/

/-- A surface operand's row length is not a multiple of the bytes of a pixel (R277, R232). -/
def rowBad (s : State) (x : Cmd) (sp : Nat) (lo : Word) (bytes : Nat) : Bool :=
  sp == 2 && match surfAt s x.ctx (fld lo 0 10) with
    | some f => bytes % (f.samples * f.bytes) != 0
    | none => false

/-- One destination byte, or one decoded element, of a COPY. -/
def copyUnit (s : State) (x : Cmd) : Unit1 :=
  let w (k : Nat) : Word := nthW x.words k
  let dec := bit (w 0) 16
  let len := (w 1).toNat
  let j := x.pos / len
  let k := x.pos % len
  let ssp := fld (w 0) 8 2
  let dsp := fld (w 0) 10 2
  let src (k : Nat) : EngAt := rowAt ssp (w 4) (w 5) (w 3) j k
  let dst (k : Nat) : EngAt := rowAt dsp (w 6) (w 7) (w 8) j k
  let rowStart (lo hi : Word) : Nat := viewAddr s x.ctx (fld lo 0 10) (fld hi 0 14) (fld hi 14 14 + j) 0
  if rowBad s x ssp (w 4) len then .fail s (failMem 10) 4 (rowStart (w 4) (w 5))
  else if rowBad s x dsp (w 6) (len * x.unitBytes) then .fail s (failMem 10) 5 (rowStart (w 6) (w 7))
  else if dec then
    match src 0 with
    | .glob row => moveUnit x (engDecoded s x row k) fun s v => engPuts s x true (fun i => dst (2 * k + i)) 2 v
    | _ => .illegal s
  else moveUnit x (engBytes s x (fun _ => src k) 1) fun s v => engPuts s x false (fun _ => dst k) 1 v

/-- COPY_COMMAND (R278): the next `n` bytes or elements in row-major destination order. -/
def execCopyCommand (cmd n : Nat) (s : State) : Out := cmdEvent .copy copyUnit cmd n s

/-! TENSOR (R279, R280). -/

/-- The source index of destination coordinates (R280): edge clamp per source dimension. -/
def tensorIndex (sh : List Word) (xs : List Nat) : Nat :=
  let perm (d : Nat) : Nat := fld (nthW sh 15) (3 * d) 3
  let ext (i : Nat) : Nat := (nthW sh (5 + i)).toNat
  let c (i : Nat) : Nat :=
    ((List.range 5).find? fun d => perm d == i).elim 0 fun d =>
      (clampI 0 ((ext i : Int) - 1) ((nthW sh (10 + i)).toInt + xs.getD d 0)).toNat
  c 0 + ext 0 * (c 1 + ext 1 * (c 2 + ext 2 * (c 3 + ext 3 * c 4)))

/-- The coordinates of destination element `n`, x0 fastest. -/
def tensorCoords (sh : List Word) (n : Nat) : List Nat :=
  ((List.range 5).foldl (fun (r : List Nat × Nat) d =>
    (r.1 ++ [r.2 % (nthW sh d).toNat], r.2 / (nthW sh d).toNat)) ([], n)).1

/-- The format of the page that a TENSOR with DEC counts its elements by: that of its base, TB8 where the base is not
translated to a TB page (log 96). -/
def tensorFmt (s : State) (x : Cmd) (base : Nat) : Nat :=
  match (translate s x.core x.ctx base).2 with
  | .ok l => if pteFmt l.pte = 2 then 2 else 1
  | .error _ => 1

/-- One element of a TENSOR; with DEC, a source address counts elements of the TB page. Without it a TB page gives the
bytes it holds (log 38). -/
def tensorUnit (s : State) (x : Cmd) : Unit1 :=
  let w (k : Nat) : Word := nthW x.words k
  let size := 2 ^ fld (w 0) 12 3
  let i := tensorIndex x.extra (tensorCoords x.extra x.pos)
  let ssp := fld (w 0) 8 2
  let dst (k : Nat) : EngAt := rowAt (fld (w 0) 10 2) (w 6) (w 7) 0 0 (x.pos * size + k)
  let src (k : Nat) : EngAt := rowAt ssp (w 4) (w 5) 0 0 (i * size + k)
  if bit (w 0) 16 then
    match rowAt ssp (w 4) (w 5) 0 0 0 with
    | .glob base =>
      moveUnit x (engElement s x base i (tensorFmt s x base)) fun s v => engPuts s x true dst 2 v
    | _ => .illegal s
  else moveUnit x (engBytes s x src size) fun s v => engPuts s x false dst size v

/-- TENSOR_COMMAND (R280): the next `n` elements in increasing destination address. -/
def execTensorCommand (cmd n : Nat) (s : State) : Out := cmdEvent .tensor tensorUnit cmd n s

/-! GATHER (R281). The rows read in the current chunk are held in `extra`, the row being written first: its index,
then its bytes as words. -/

/-- The row of an index in the held rows, and the others. -/
def heldRow (n idx : Nat) : Nat → List Word → Option (List Word) × List Word
  | 0, ws => (none, ws)
  | k + 1, ws =>
    if ws.isEmpty then (none, [])
    else if (nthW ws 0).toNat = idx then (some (ws.take n), ws.drop n)
    else
      let r := heldRow n idx k (ws.drop n)
      (r.1, ws.take n ++ r.2)

/-- The format of the page that a GATHER's table begins on: plain in scratch, and where nothing is translated (log 38). -/
def gatherFmt (s : State) (x : Cmd) (table : EngAt) : Nat :=
  match table with
  | .glob base => (match (translate s x.core x.ctx base).2 with
    | .ok l => pteFmt l.pte
    | .error _ => 0)
  | _ => 0
/-- Row `idx` of a GATHER's table, `len` bytes long: as its bytes lie, or of a table on a TB page as the bytes of its decoded
elements (R76, log 38). -/
def gatherRow (s : State) (x : Cmd) (table : Nat → EngAt) (len idx : Nat) : EngR Nat :=
  let f := gatherFmt s x (table 0)
  match table 0 with
  | .glob base =>
    if f = 0 then engBytes s x (fun b => table (idx * len + b)) len
    else
      let a := idx * len
      (engElements x base f s ((a + len - 1) / 2 + 1 - a / 2) (a / 2)).bind fun s v =>
        .ok s (v / 2 ^ (8 * (a % 2)) % 2 ^ (8 * len))
  | _ => engBytes s x (fun b => table (idx * len + b)) len

/-- One destination byte of a GATHER; at the first byte of a row its table row is read, once per index and chunk. -/
def gatherUnit (s : State) (x : Cmd) : Unit1 :=
  let w (k : Nat) : Word := nthW x.words k
  let len := (w 2).toNat
  let i := x.pos / len
  let k := x.pos % len
  let rec1 := 1 + ceilDiv len 4
  let ssp := fld (w 0) 8 2
  let write (s : State) (y : Cmd) : Unit1 :=
    moveUnit y (.ok s ((nthW y.extra (1 + k / 4)).toNat / 2 ^ (8 * (k % 4)) % 256)) fun s v =>
      engPuts s y false (fun _ => rowAt (fld (w 0) 10 2) (w 6) (w 7) 0 0 x.pos) 1 v
  if k ≠ 0 then write s x
  else match scrAccess s x.tid ((w 8).toNat + 4 * i) 4 with
    | none => .fail s failPlain 4 ((w 8).toNat + 4 * i)
    | some ka =>
      if busHeld s (ka / 2 ^ 22) 0 then .wait s
      else
      let entry := scrFor s x ka 4
      let s := entry.1
      let v := (word entry.2).toInt
      let rows := (w 3).toNat
      let idx := (clampI 0 ((rows : Int) - 1) v).toNat
      let acc := if (idx : Int) = v then x.acc else x.acc + 1
      let held := if i % 1024 = 0 then [] else x.extra
      let h := heldRow rec1 idx 1024 held
      match h.1 with
      | some r => write s { x with extra := r ++ h.2, acc := acc }
      | none =>
        match gatherRow s x (rowAt ssp (w 4) (w 5) 0 0) len idx with
        | .wait s => .wait s
        | .fail s f a => .fail s f 4 a
        | .illegal s => .illegal s
        | .ok s v =>
          let r := word idx :: (List.range (rec1 - 1)).map fun j => word (v / 2 ^ (32 * j))
          write s { x with extra := r ++ h.2, acc := acc }

/-- GATHER_COMMAND (R281): the next `n` bytes of destination rows in increasing order. -/
def execGatherCommand (cmd n : Nat) (s : State) : Out := cmdEvent .gather gatherUnit cmd n s

/-! COLL (R282, R82, R83). -/

/-- The two-phase narrow reduction of one block position (R82). -/
def narrowReduce (tb8 sat : Bool) (bs : List TbBlock) : TbBlock :=
  let w := tbBits tb8
  let top := 2 ^ (w - 1)
  let expOf (b : TbBlock) (el : Nat) : Nat := if el / top = 1 then b.e1 else b.e0
  let exps := bs.flatMap fun b => b.els.map (expOf b)
  if exps.contains 255 then tbFlat tb8 255
  else
    let emax := exps.foldl max 0
    if emax = 0 then tbFlat tb8 0
    else
      let q (b : TbBlock) (el : Nat) : Int :=
        let e := expOf b el
        let m : Nat := el % 2 ^ (w - 2) * 2 ^ e * 2 ^ 16 / 2 ^ emax
        if e = 0 then 0 else if el / 2 ^ (w - 2) % 2 = 1 then -(m : Int) else m
      let sum (i : Nat) : Int := (bs.map fun b => q b (b.els.getD i 0)).foldl (· + ·) 0
      tbPack tb8 sat ((List.range 32).map fun i => scaled (decide (sum i < 0)) (sum i).natAbs emax (127 + tbM tb8 + 16))

/-- A block as words: exponents, then elements. -/
def TbBlock.toWords (b : TbBlock) : List Word := (b.e0 :: b.e1 :: b.els).map word
def blockOfWords (ws : List Word) : TbBlock :=
  { e0 := (nthW ws 0).toNat, e1 := (nthW ws 1).toNat, els := (List.range 32).map fun i => (nthW ws (2 + i)).toNat }

/-- The block of a collective at a global address: at a block boundary of a TB page of its format (R282). -/
def collBlock (s : State) (x : Cmd) (va : Nat) (need : Need) (k : State → Loc → EngR Nat) : EngR Nat :=
  let fmt := fld (nthW x.words 0) 8 4
  engGlob s x va (tbBytes (fmt == 1)) need anyFmt fun s l =>
    if pteFmt l.pte ≠ fmt ∨ va % tbBytes (fmt == 1) ≠ 0 then .illegal s
    else match aboardIn s (scaleKey l.pte l.key) 2 with
      | some (sl, line) => .fail s { failPlain with cause := cAlias, slot := sl, line := line } va
      | none => k s l

/-- Address of a block of a collective. -/
def collVa (x : Cmd) (k : Nat) : Nat :=
  ((nthW x.words k).toNat + (nthW x.words (k + 1)).toNat * 2 ^ 32
    + x.pos * tbBytes (fld (nthW x.words 0) 8 4 == 1)) % 2 ^ 64

/-- The commands joined to a collective (R282). -/
def joinedTo (s : State) (x : Cmd) : List (Nat × Cmd) :=
  s.cmds.filter fun p => p.2.kind == .coll && p.2.begun && nthW p.2.words 3 == nthW x.words 3
/-- What every rank names alike. -/
def Cmd.collForm (x : Cmd) : Word × Word × Word := (nthW x.words 0, nthW x.words 2, nthW x.words 8)
/-- A command may not join: it disagrees with a joined rank, or repeats its RANK. -/
def joinBad (s : State) (x : Cmd) : Bool :=
  (joinedTo s x).any fun p => p.2.collForm != x.collForm || nthW p.2.words 1 == nthW x.words 1

/-- A rank whose destination is written: every rank with OP 0x21, rank 0 with 0x20. -/
def Cmd.collWrites (x : Cmd) : Bool := fld (nthW x.words 0) 0 8 == 0x21 || nthW x.words 1 == 0

/-- Once every rank has contributed its block of one position, the result is in every engine; ranks that receive
none go on (R282). `acc`: 0 to read, 1 contributed, 2 result here, 3 contribution taken. -/
def collMeet (s : State) (x : Cmd) : State :=
  let here := (joinedTo s x).filter fun p => p.2.pos == x.pos && p.2.acc == 1
  if here.length < (nthW x.words 2).toNat then s
  else
    let w := nthW x.words 0
    let r := narrowReduce (fld w 8 4 == 1) (bit w 12) (here.map fun p => blockOfWords p.2.extra)
    here.foldl (fun s p =>
      if p.2.collWrites then putCmd s p.1 { p.2 with acc := 2, extra := r.toWords }
      else putCmd s p.1 { p.2 with acc := 3, extra := [] }) s

/-- The result written at a rank's destination. -/
def collWrite (s : State) (x : Cmd) : EngR Nat :=
  let b := blockOfWords x.extra
  collBlock s x (collVa x 6) .write fun s l =>
    let bytes := tbToBytes (fld (nthW x.words 0) 8 4 == 1) b
    .ok (lateWrite s x [memPart l l.key bytes.length (bytes.foldr (fun y acc => acc * 256 + y.toNat) 0),
                        memPart l (scaleKey l.pte l.key) 2 (b.e0 + 256 * b.e1)]) 0

/-- A step of a rank: it joins, reads its block, or writes the result. -/
def collStep (s : State) (id : Nat) (x : Cmd) : State :=
  if !x.begun then (if joinBad s x then cmdFault s id x cIllegal none else putCmd s id { x with begun := true })
  else if x.acc = 0 then
    let tb8 := fld (nthW x.words 0) 8 4 == 1
    match collBlock s x (collVa x 4) .read fun s l =>
      let r := readBlock s x l (tbBytes tb8)
      .ok r.1 (r.2.2 + 65536 * r.2.1) with
    | .wait s => s
    | .fail s f a => cmdFail s id x f 4 a
    | .illegal s => cmdFault s id x cIllegal none
    | .ok s v =>
      let b : TbBlock := { e0 := v % 256, e1 := v / 256 % 256
                           els := (List.range 32).map fun i => v / 65536 / 2 ^ (tbBits tb8 * i) % 2 ^ tbBits tb8 }
      collMeet (putCmd s id { x with acc := 1, extra := b.toWords }) x
  else if x.acc = 2 then
    match collWrite s x with
    | .wait s => s
    | .fail s f a => cmdFail s id x f 5 a
    | .illegal s => cmdFault s id x cIllegal none
    | .ok s _ => advanceCmd s id { x with acc := 0, extra := [] } (x.pos + 1)
  else if x.acc = 3 then advanceCmd s id { x with acc := 0 } (x.pos + 1)
  else s

/-- Steps of a rank in turn. -/
def collSteps (id : Nat) : Nat → State → State
  | 0, s => s
  | n + 1, s =>
    match tget s.cmds id with
    | none => s
    | some x =>
      match x.stage with
      | .taken _ => if mayGoOn s x (x.midSector || decide (2 ≤ x.acc)) then collSteps id n (collStep s id x) else s
      | _ => s

/-- COLL_COMMAND (R282). -/
def execCollCommand (cmd n : Nat) (s : State) : Out :=
  match tget s.cmds cmd with
  | some x => if x.kind = .coll && !cmdHeld s x then .next (collSteps cmd n s) else .next s
  | none => .next s

/-! Transfers between devices (R244, R401). The request engine runs them. -/

/-- A 64-bit word of two command words. -/
def Cmd.pair (x : Cmd) (k : Nat) : Nat := (nthW x.words k).toNat + (nthW x.words (k + 1)).toNat * 2 ^ 32

/-- A transfer goes on while its context runs. -/
def xferRuns (s : State) (x : Cmd) : Bool := decide (x.stage = .queued) && mayBegin s x

/-- A transfer fails after its acceptance (R244): a memory fault, also for a destination line aboard, and it is given up, so
that its flag or object never changes. -/
def xferFail (s : State) (id : Nat) (x : Cmd) (f : Fail) (kind addr : Nat) : State :=
  let s := cmdFail s id x (if f.cause = cAlias then failPlain else f) kind addr
  { s with cmds := cdel s.cmds id }

/-- Words of a transfer in turn, each read and written at the destination. -/
def runXfer (rd wr : State → Cmd → Nat → EngR Nat) (id : Nat) : Nat → State → State
  | 0, s => s
  | n + 1, s =>
    match tget s.cmds id with
    | none => s
    | some x =>
      if !xferRuns s x || decide (x.total ≤ x.pos) then s
      else match moveUnit x (rd s x 0) fun s v => wr s x v with
        | .wait s => s
        | .fail s f kind a => xferFail s id x f kind a
        | .illegal s => s
        | .done s _ => runXfer rd wr id n (putCmd s id { x with pos := x.pos + 1 })

/-- A word written for a command at a global address, which is 4-byte aligned. -/
def putAt (s : State) (x : Cmd) (va v : Nat) : EngR Nat :=
  engGlob s x va 4 .write anyFmt fun s l => .ok (lateWrite s x [memPart l l.key 4 v]) 0

/-- The next word of a transfer written at its destination. -/
def putWord (s : State) (x : Cmd) (v : Nat) : EngR Nat := putAt s x ((x.pair 0 + 4 * x.pos) % 2 ^ 64) v
/-- The next payload word of a `put.sig`, which was read at its acceptance. -/
def payloadWord (s : State) (x : Cmd) (_ : Nat) : EngR Nat := .ok s (nthW x.extra x.pos).toNat
/-- PUT_SIG_DELIVERY (R244): the next `n` words of the payload. -/
def execPutSigDelivery (cmd n : Nat) (s : State) : Out :=
  match tget s.cmds cmd with
  | some x => if x.kind = .putSig then .next (runXfer payloadWord putWord cmd n s) else .next s
  | none => .next s

/-- PUT_SIG_FLAG (R244, R401): the flag store or add, once the payload is written, as one 64-bit atomic and a release at
system scope of the payload and the group's earlier writes (R135). -/
def execPutSigFlag (cmd : Nat) (s : State) : Out :=
  match tget s.cmds cmd with
  | none => .next s
  | some x =>
    if x.kind ≠ .putSig || !xferRuns s x || decide (x.pos < x.total) then .next s
    else
      let add := nthW x.words 2 = 1
      match engGlob s x (x.pair 4) 8 (if add then .atomic else .write) (if add then plainOnly else anyFmt) fun s l =>
        let r := readSlice (releaseCmd s x 5) l.key 8 (pteTid l.pte)
        let v := (nthW x.words 3).toNat
        .ok (writeEng r.1 x.g x.num none l.key 8 (if add then (r.2 + v) % 2 ^ 64 else v) (pteTid l.pte)) 0 with
      | .ok s _ => .next (removeCmd s cmd x)
      | .wait s => .next s
      | .fail s f a => .next (xferFail s cmd x f 5 a)
      | .illegal s => .next s

/-- The next word of a `getp`, read from its source. -/
def getWord (s : State) (x : Cmd) (_ : Nat) : EngR Nat :=
  engGlob s x ((x.pair 2 + 4 * x.pos) % 2 ^ 64) 4 .read anyFmt fun s l =>
    let r := readFor s x l.key 4 (pteTid l.pte)
    .ok r.1 r.2
/-- GETP_TRANSFER (R244): the next `n` words; with the last one its writes are visible at its scope, and its barrier object
falls by the byte count. -/
def execGetpTransfer (cmd n : Nat) (s : State) : Out :=
  match tget s.cmds cmd with
  | none => .next s
  | some x =>
    if x.kind ≠ .getp || cmdHeld s x then .next s
    else
      let s := runXfer getWord putWord cmd n s
      match tget s.cmds cmd with
      | none => .next s
      | some x =>
        if x.total ≤ x.pos && aboardCore s x.tid then
          .next (removeCmd (lowerObject (releaseCmd s x (nthW x.words 5).toNat) x.tid x.object (4 * x.total)) cmd x)
        else .next s

/-- VL_REPLY_TIMEOUT (R401): a request with no reply for VLTO raises MEM_FAULT. -/
def execVlReplyTimeout (req : Nat) (s : State) : Out :=
  match tget s.vlreqs req with
  | none => .next s
  | some r =>
    if s.time < r.since + 1000 * fld (regGet s 0x885) 0 16 then .next s
    else
      let s := { s with vlreqs := cdel s.vlreqs req }
      match r.cmd with
      | some id =>
        (match tget s.cmds id with
         | some x =>
           if x.stage = .finished then .next s
           else if x.kind = .putSig ∨ x.kind = .getp then .next (xferFail s id x failPlain 4 0)
           else .next (cmdFail s id x failPlain 4 0)
         | none => .next s)
      | none =>
        match (s.group r.g).bind fun g => (g.issueAddr.map fun a => (g, a)) with
        | some (g, _, a) => .next (raiseFault s r.g (g.lanesAt a) cMem false a (failDetail s failPlain 0 0 []))
        | none => .next s

/-! Lists (R284). -/

/-- A list is read whole from its team's scratch, and its FLAGB charge ends. -/
def readList (s : State) (id : Nat) (x : Cmd) : State :=
  putCmd (takeCharge s x) id { x with words := listWords s x.tid x.aux x.acc, begun := true, oid := 0 }

/-- The next entry of a list that has been read is checked and enters its queue; a full queue waits. -/
def enterEntry (s : State) (id : Nat) (x : Cmd) : State :=
  let ws := listEntry x.words x.pos
  match queueOfOp (fld (nthW ws 0) 0 8) with
  | none => cmdFault s id x cIllegal none
  | some k =>
    match cmdFate s x.tid x.ctx x.launch k ws with
    | .reserved => cmdFault s id x cReserved none
    | .illegal => cmdFault s id x cIllegal none
    | .mem f a => if f.cause = 0 then s else cmdFail s id x f 4 a
    | .ok extra =>
      let full := match s.group x.g with
        | some g => flagFull g (cflagOf k ws)
        | none => false
      if queueFull s x.core k || full then s
      else
        let y : Cmd := { x with kind := k, words := ws, extra := extra, stage := .queued, pos := 0, dec := 0, acc := 0,
                                begun := false, flag := flagNamed (cflagOf k ws), skid := 0, aux := 0, num := s.fresh }
        let s := updGroup s x.g fun g => g.charge (cflagOf k ws)
        let s := bump { s with cmds := tput s.cmds s.fresh y }
        if x.acc ≤ x.pos + 1 then { s with cmds := cdel s.cmds id } else putCmd s id { x with pos := x.pos + 1 }

/-- The list was pushed by a single step, whose pushes are accepted within the halt (R420, log 120). -/
def steppedList (s : State) (x : Cmd) : Bool :=
  match s.group x.g with
  | some g => g.step == 1 || g.step == 4
  | none => false

/-- The request engine may go on with a list. -/
def listGoes (s : State) (x : Cmd) : Bool :=
  decide (x.stage = .queued) && (mayBegin s x || (steppedList s x && inMask s x.core)) && match scrAccess s x.tid x.aux 64 with
    | some k => !busHeld s (k / 2 ^ 22) 0
    | none => true

/-- PUSHB_LIST_READ (R284): a list is read, in ascending address order; or, of a list that has been read, the next entry
enters its queue. -/
def execPushbListRead (core : Nat) (s : State) : Out :=
  match unreadList s core, listOf s core with
  | some (id, x), _ => .next (if listGoes s x then readList s id x else s)
  | none, some (id, x) => .next (if listGoes s x then enterEntry s id x else s)
  | none, none => .next s

/-! Messages (R287). -/

/-- The team that a message goes to, if it is on a core. -/
def msgTeam (s : State) (m : Msg) : Option (Nat × Team) :=
  s.teams.find? fun p => p.2.ctx == m.ctx && p.2.launch == m.launch && p.2.teamNo == m.team
/-- The team is off its core, or not yet placed. -/
def msgWaits (s : State) (m : Msg) : Bool :=
  (s.saved.any fun c => c.2.cluster.ctx == m.ctx && (c.2.saved.any fun t => t.team.launch == m.launch && t.team.teamNo == m.team))
    || (match runningLaunch s m.ctx m.launch with
        | some (_, l) => decide (l.nextLin ≤ m.team / ((l.f 0 10 4 + 1) * (l.f 0 14 3 + 1)))
        | none => false)

/-- An earlier message of the group to the same team, or of the core's request engine to that team or to another that the
same core can receive for, is still under way (R285, R392). -/
def msgBehind (s : State) (id : Nat) (m : Msg) : Bool :=
  s.msgs.any fun p => decide (p.1 < id) && (p.2.sender == m.sender || p.2.unit == m.unit) && p.2.held.isNone
    && ((p.2.ctx == m.ctx && p.2.launch == m.launch && p.2.team == m.team)
      || (!p.2.refused && !haltedCtx s p.2.ctx && match msgTeam s p.2, msgTeam s m with
        | some (_, t), some (_, u) => t.core == u.core
        | _, _ => false))

/-- The first posted receive, in posting order, that takes a message (R287). -/
def firstPost (t : Team) (m : Msg) : Option (Nat × Recv) :=
  leastBy (fun p => p.2.stamp) (t.posts.filter fun p => p.2.takes m)

/-- MSG_ARRIVAL (R287): matched, queued, refused with MSG_OVERFLOW, held or discarded. -/
def execMsgArrival (msg : Nat) (s : State) : Out :=
  match tget s.msgs msg with
  | none => .next s
  | some m =>
    if m.held.isSome || m.refused || haltedCtx s m.ctx || msgBehind s msg m then .next s
    else match msgTeam s m with
      | none => if msgWaits s m then .next s else .next { s with msgs := cdel s.msgs msg }
      | some (tid, t) =>
        if busHeld s t.core 0 || !inMask s t.core then .next s
        else match firstPost t m with
        | some (h, r) => .next (land { s with msgs := cdel s.msgs msg } tid h r m)
        | none =>
          if ((s.msgs.filter fun p => p.2.held == some t.core).length) < 64 then
            .next (bump { s with msgs := tput s.msgs msg { m with held := some t.core, entered := s.fresh } })
          else
            let s := { s with msgs := tput s.msgs msg { m with refused := true } }
            let r : StopRec := { unitRec s 0 cMsg (srcRequest t.core) with
              launch := m.launch, team := m.team, detail := BitVec.ofNat 64 m.team, aux := BitVec.ofNat 64 m.tag.toNat }
            .next (unitFault s m.ctx (stackOf t.core) (some tid) r)

end Sys2Proof.Machine
end

