-- ==== Sys2Proof/Machine/Filter.lean ====
section
/-! DEFINITION. The Locus: the records it writes to a partition's trace buffer (R412), the filter program's
words over a record (R413, R414) and triggers (R415, R418). While a filter word executes, `iss.g` names the
Locus. -/

namespace Sys2Proof.Machine

def putLocus (s : State) (k : Nat) (l : Locus) : State := { s with locus := tput s.locus k l }

/-- A record written whole to the partition's buffer, or lost and counted (R412). -/
def bufferRecord (s : State) (p : Nat) (ws : List Word) : State :=
  let tbuf := regGet64 s (kPart p 0x510)
  let sz := regGet s (kPart p 0x512)
  let units := fld sz 0 20 * 128
  let n := ws.length / 8
  let ptr := (regGet s (kPart p 0x513)).toNat
  let off := ptr % 2 ^ 31
  let frozen := bit (regGet s (kPart p 0x550)) 31
  if tbuf % 2 = 0 || frozen then s
  else
    let lost := regSet s (kPart p 0x514) (regGet s (kPart p 0x514) + 1)
    let wrap := decide (units < off + n)
    if wrap && (!bit sz 31 || decide (units < n)) then lost
    else
      let o := if wrap then 0 else off
      let base := tbuf % 2 ^ 56 / 4096 * 4096 + 32 * o
      let s := (List.range ws.length).foldl (fun s i => writeSlice s (base + 4 * i) 4 (nthW ws i).toNat 0) s
      regSet s (kPart p 0x513) (word ((if wrap then 2 ^ 31 else ptr / 2 ^ 31 * 2 ^ 31) + o + n))

/-- The record under the filter is kept or dropped, and a freeze waiting for it takes effect (R413, R415). -/
def endRecord (s : State) (k : Nat) (keep : Bool) : State :=
  let l := locusOf s k
  match l.cur with
  | none => s
  | some (p, ws) =>
    let s := if keep then bufferRecord s p ws else s
    let s := if l.freeze then regSet s (kPart p 0x550) (regGet s (kPart p 0x550) ||| 0x80000000) else s
    putLocus s k { l with cur := none, verdict := none, freeze := false, index := 0 }

/-- A filter word acts on the record of its Locus (R413): `f` gives the registers and the next index. -/
def filterStep (s : State) (f : Locus → Cells Word × Nat) : Out :=
  let l := locusOf s s.iss.g
  match l.cur with
  | none => .fault .noRecord
  | some _ => .next (putLocus s s.iss.g { l with q := (f l).1, index := (f l).2 })

def Locus.reg (l : Locus) (r : BitVec 4) : Word := cget 0 l.q r.toNat
/-- A register result, and the next word. -/
def filterAlu (s : State) (d : BitVec 4) (f : Locus → Word) : Out :=
  filterStep s fun l => (cset 0 l.q d.toNat (f l), l.index + 1)
/-- A forward branch (R414). -/
def filterBranch (s : State) (imm : BitVec 14) (f : Locus → Bool) : Out :=
  filterStep s fun l => (l.q, if f l then l.index + 1 + imm.toNat else l.index + 1)

/-- FILTER_ADD (R414). -/
def execFilterAdd (d a b : BitVec 4) (s : State) : Out := filterAlu s d fun l => l.reg a + l.reg b
/-- FILTER_SUB (R414). -/
def execFilterSub (d a b : BitVec 4) (s : State) : Out := filterAlu s d fun l => l.reg a - l.reg b
/-- FILTER_AND (R414). -/
def execFilterAnd (d a b : BitVec 4) (s : State) : Out := filterAlu s d fun l => l.reg a &&& l.reg b
/-- FILTER_OR (R414). -/
def execFilterOr (d a b : BitVec 4) (s : State) : Out := filterAlu s d fun l => l.reg a ||| l.reg b
/-- FILTER_XOR (R414). -/
def execFilterXor (d a b : BitVec 4) (s : State) : Out := filterAlu s d fun l => l.reg a ^^^ l.reg b
/-- FILTER_SHL (R414). -/
def execFilterShl (d a b : BitVec 4) (s : State) : Out :=
  filterAlu s d fun l => l.reg a <<< ((l.reg b).toNat % 32)
/-- FILTER_SHR (R414). -/
def execFilterShr (d a b : BitVec 4) (s : State) : Out :=
  filterAlu s d fun l => l.reg a >>> ((l.reg b).toNat % 32)
/-- FILTER_ADDI (R414). -/
def execFilterAddi (d a : BitVec 4) (imm : BitVec 14) (s : State) : Out :=
  filterAlu s d fun l => l.reg a + imm.signExtend 32
/-- FILTER_ANDI (R414). -/
def execFilterAndi (d a : BitVec 4) (imm : BitVec 14) (s : State) : Out :=
  filterAlu s d fun l => l.reg a &&& imm.zeroExtend 32
/-- FILTER_SHLI (R414). -/
def execFilterShli (d a : BitVec 4) (imm : BitVec 5) (s : State) : Out :=
  filterAlu s d fun l => l.reg a <<< imm.toNat
/-- FILTER_SHRI (R414). -/
def execFilterShri (d a : BitVec 4) (imm : BitVec 5) (s : State) : Out :=
  filterAlu s d fun l => l.reg a >>> imm.toNat
/-- FILTER_LDLO (R414): bits [31:16] keep their value. -/
def execFilterLdlo (d : BitVec 4) (imm : BitVec 16) (s : State) : Out :=
  filterAlu s d fun l => (l.reg d &&& 0xFFFF0000) ||| imm.zeroExtend 32
/-- FILTER_LDHI (R414): bits [15:0] keep their value. -/
def execFilterLdhi (d : BitVec 4) (imm : BitVec 16) (s : State) : Out :=
  filterAlu s d fun l => (l.reg d &&& 0x0000FFFF) ||| (imm.zeroExtend 32 <<< 16)
/-- FILTER_BEQ (R414). -/
def execFilterBeq (a b : BitVec 4) (imm : BitVec 14) (s : State) : Out :=
  filterBranch s imm fun l => l.reg a == l.reg b
/-- FILTER_BNE (R414). -/
def execFilterBne (a b : BitVec 4) (imm : BitVec 14) (s : State) : Out :=
  filterBranch s imm fun l => l.reg a != l.reg b
/-- FILTER_BLTU (R414). -/
def execFilterBltu (a b : BitVec 4) (imm : BitVec 14) (s : State) : Out :=
  filterBranch s imm fun l => decide (l.reg a < l.reg b)
/-- FILTER_BGEU (R414). -/
def execFilterBgeu (a b : BitVec 4) (imm : BitVec 14) (s : State) : Out :=
  filterBranch s imm fun l => decide (l.reg b ≤ l.reg a)
/-- FILTER_KEEP (R413). -/
def execFilterKeep (s : State) : Out :=
  match (locusOf s s.iss.g).cur with
  | none => .fault .noRecord
  | some _ => .next (endRecord s s.iss.g true)
/-- FILTER_DROP (R413). -/
def execFilterDrop (s : State) : Out :=
  match (locusOf s s.iss.g).cur with
  | none => .fault .noRecord
  | some _ => .next (endRecord s s.iss.g false)

/-- Key of a partition's FCNT counter (R412). -/
def fcntKey (p : Nat) (c : BitVec 4) : Nat := kPart p (0x530 + 2 * c.toNat)

/-- FILTER_COUNT (R414): an atomic 64-bit add. -/
def execFilterCount (a : BitVec 4) (byReg : Bool) (c : BitVec 4) (s : State) : Out :=
  let l := locusOf s s.iss.g
  match l.cur with
  | none => .fault .noRecord
  | some (p, _) =>
    let n := if byReg then (l.reg a).toNat else 1
    let k := fcntKey p c
    .next (putLocus (regSet64 s k ((regGet64 s k + n) % 2 ^ 64)) s.iss.g { l with index := l.index + 1 })
/-- FILTER_RDCNT (R414). -/
def execFilterRdcnt (d c : BitVec 4) (s : State) : Out :=
  let l := locusOf s s.iss.g
  match l.cur with
  | none => .fault .noRecord
  | some (p, _) =>
    .next (putLocus s s.iss.g { l with q := cset 0 l.q d.toNat (regGet s (fcntKey p c)), index := l.index + 1 })

/-- FILTER_TRIG (R415): the broadcast names the context of the record's launch, whether or not its team still runs. -/
def execFilterTrig (t : BitVec 2) (s : State) : Out :=
  let l := locusOf s s.iss.g
  match l.cur with
  | none => .fault .noRecord
  | some (p, ws) =>
    let act := fld (regGet s (kPart p 0x550)) (2 * t.toNat) 2
    let l := { l with index := l.index + 1, freeze := l.freeze || act % 2 == 1 }
    let s := putLocus s s.iss.g l
    let team := (nthW ws 4).toNat
    let launch := (nthW ws 5).toNat
    .next (if act / 2 = 1 && team != 0xFFFFFFFF then
        (match tget s.launchCtx (p * 2 ^ 32 + launch) with
         | some c => broadcast s c launch team
         | none => s)
      else s)

/-- LOCUS_FILTER (R412, R413): a Locus with no record under its filter adopts the partition's program and takes the next
record, its words in q0 to q15; with no program in force the record is kept. -/
def execLocusFilter (k : Nat) (s : State) : Out :=
  let l := locusOf s k
  match l.cur, l.queue with
  | none, (p, ws) :: rest =>
    let q := csets 0 [] ((List.range 16).map fun i => (i, nthW ws i))
    let s := putLocus s k { l with queue := rest, cur := some (p, ws), q := q, index := 0, verdict := none }
    let prog := (tget s.filters (16 + p)).getD []
    let s := { s with filters := tput s.filters (8 * k + p) prog }
    .next (if prog.isEmpty then endRecord s k true else s)
  | _, _ => .next s

/-- The word at which a Locus stands: none where it has no record. Past the last word the record is kept. -/
def filterWord (s : State) (k : Nat) : Option Word :=
  let l := locusOf s k
  match l.cur with
  | none => none
  | some (p, _) => ((tget s.filters (8 * k + p)).getD [])[l.index]?

end Sys2Proof.Machine
end

