-- ==== Sys2Proof/Machine/MemCtl.lean ====
section
/-! DEFINITION. Fences, `ack`, `tdisc`, prefetches and the management of surfaces (class 0x30, R93, R109, R120,
R123, R134, R235 to R239). -/

namespace Sys2Proof.Machine

/-! Ordering. -/

/-- A management instruction waits in its course, by a long-latency dependence (R37, R134, R238). -/
def laterLong (s : State) (g : Group) (phase : Nat) (vals : List Nat) : Out := later s { g with blocked := true } phase vals

/-- A fence holds the group until what its scope names is visible (R134, R123): no lane of it issues meanwhile (`phase`
30). -/
def fenceOp (s : State) (scope : Nat) : Out :=
  begin_ s {} fun g =>
    if fenceClear s s.iss.g g scope then complete (fenced s s.iss.g g scope) g.settled else laterLong s g 30 []

/-- FENCE_GROUP (R134). -/
def execFenceGroup (s : State) : Out := fenceOp s 0
/-- FENCE_TEAM (R134). -/
def execFenceTeam (s : State) : Out := fenceOp s 1
/-- FENCE_FACET (R123, R134). -/
def execFenceFacet (s : State) : Out := fenceOp s 2
/-- FENCE_CLUSTER (R134). -/
def execFenceCluster (s : State) : Out := fenceOp s 3
/-- FENCE_PACKAGE (R134). -/
def execFencePackage (s : State) : Out := fenceOp s 4
/-- FENCE_SYSTEM (R134). -/
def execFenceSystem (s : State) : Out := fenceOp s 5

/-- ACK (R120). -/
def execAck (s : State) : Out := begin_ s {} fun g => complete (dropCopies s g.core) g

/-- Every reduction in a partial copy merged into its line. -/
def mergeAll (s : State) : State := (s.partials.map fun p => p.addr / 1024).foldl mergeLine s

/-- TDISC (R93, R235). -/
def execTdisc (b : SReg) (s : State) : Out :=
  begin_ s { sr := [b.toNat] } fun g =>
    let id := fld (g.sreg b.toNat) 0 10
    annHold s (complete (if id = 0 then loseIdem s g else discard (mergeAll (loseIdem s g)) id) g)

/-- A prefetch: lanes whose address would fault, or that name host or peer memory, are ignored (R235). -/
def prefetchOp (s : State) (m : MemOp) (act : State → Group → Loc → State) : Out :=
  begin_ s { v := MemOp.vregs m, vr := MemOp.vregs m, sr := MemOp.sregs true m } fun g =>
    let ex := lanesOf s.iss.lanes
    blocking s g (MemOp.vregs m) ex
      (let addr := g.memAddr true 256 m
       let r := checkLanes (fun t l => checkAccessIn s.tlb t g.core g.id.ctx (addr l) 1 .read anyFmt (natural 1)) addr s ex
       complete ((r.2.2.filter fun p => pteTgt p.2.pte == 0).foldl (fun s p => act s g p.2) r.1) g)

/-- The sector filled into its slice (R235). -/
def fillSlice (s : State) (p : Loc) : State := fillSector s (p.key / 256) (pteTid p.pte)
/-- The 256-byte line loaded into the core's L1 with a lease, or into its slice where the core has no L1. -/
def fillL1 (s : State) (core : Nat) (p : Loc) : State :=
  if (lentGranules s core).isEmpty then fillSlice s p
  else grantCopy (readSlice s (p.key / 256 * 256) 256 (pteTid p.pte)).1 core p.key (pteTid p.pte)

/-- PREFETCH_L1 (R235). -/
def execPrefetchL1 (bc : MemOp) (s : State) : Out := prefetchOp s bc fun s g p => fillL1 s g.core p
/-- PREFETCH_SLICE (R235). -/
def execPrefetchSlice (bc : MemOp) (s : State) : Out := prefetchOp s bc fun s _ p => fillSlice s p

/-! Surface management. These act in several moments: `phase` counts them, from 100 on for `surf.decomp`, and
`phaseVals` holds the slot and what the instruction read at its issue. -/

/-- The definition block of `surf.def` (R236), as a surface. -/
def surfOfBlock (b : Nat) : Surf :=
  let f (lo n : Nat) : Nat := b / 2 ^ lo % 2 ^ n
  { fmt := f 0 8, samples := if f 8 2 = 1 then 4 else 1, evict := f 10 1 == 1, comp := f 11 1 == 1, tid := f 22 10,
    w := f 32 14 + 1, h := f 48 14 + 1, home := f 64 56, clear := f 128 128 }

/-- What gives status 3 (R237): reserved fields, CLEAR bytes, codes and the limits of R101. -/
def blockBad (b : Nat) : Bool :=
  let f (lo n : Nat) : Nat := b / 2 ^ lo % 2 ^ n
  let u := surfOfBlock b
  f 12 10 != 0 || f 46 2 != 0 || f 62 2 != 0 || f 64 16 != 0 || f 120 8 != 0 || decide (2 ≤ f 8 2) || u.bytes == 0
    || decide (2 ^ (8 * u.bytes) ≤ u.clear) || (decide (6 ≤ u.fmt) && u.samples == 4)

/-- The home region is mapped writable in the context (R101). -/
def homeMapped (s : State) (g : Group) (u : Surf) : Bool :=
  let first := u.home / 65536
  let last := (u.home + u.tiles * u.tileBytes - 1) / 65536
  decide (u.home + u.tiles * u.tileBytes ≤ 2 ^ 56) && (List.range (last - first + 1)).all fun i =>
    match translate s g.core g.id.ctx ((first + i) * 65536) with
    | (_, .ok l) => pf l.pte 7 1 == 1
    | (_, .error _) => false

/-- The table entry of a defined surface (R99), as its words. -/
def entryOf (u : Surf) : Nat :=
  u.fmt + (if u.samples = 4 then 2 ^ 8 else 0) + (if u.evict then 2 ^ 10 else 0) + (if u.comp then 2 ^ 11 else 0)
    + 2 ^ 12 + u.tid * 2 ^ 32 + (u.w - 1) * 2 ^ 64 + (u.h - 1) * 2 ^ 80 + u.tiles * 2 ^ 96 + u.home * 2 ^ 192
    + u.clear * 2 ^ 256

/-- Columns that a surface's squares hash to, ascending (R103). -/
def surfCores (s : State) (c slot : Nat) (u : Surf) : List Nat :=
  let cs := (List.range u.tiles).filterMap (tileCore s c slot u)
  (List.range 576).filter cs.contains

/-- A management instruction ends with a status in its register. -/
def surfDone (s : State) (g : Group) (a : SReg) (st : Nat) : Out :=
  complete s (g.setS a.toNat (word st)).settled
/-- The same for `surf.def`, whose status is a charged result (R237). -/
def surfDefDone (s : State) (g : Group) (a : SReg) (st : Nat) : Out :=
  completeOp s g.settled s.iss.flagA [] [(a.toNat, word st)] none false
/-- The result of an operation that leaves one in a scalar: it comes when the operation is performed (R157). -/
def Group.opResult (g : Group) (oid : Nat) (w : Word) : Group :=
  { g with ops := tupd g.ops oid fun o => { o with sw := o.sw.map fun r => (r.1, w), ext := false } }

/-- A `surf.def` under way has its status, its group's result (R237). -/
def defEnd (s : State) (oid st : Nat) (x : DefJob) : State :=
  mapGroups { s with defs := cdel s.defs oid } fun k g => if k = x.g then g.opResult oid (word st) else g

/-- Another `surf.def` of a slot has begun its reservations. -/
def defining (s : State) (oid : Nat) (x : DefJob) : Bool :=
  s.defs.any fun p => p.1 != oid && p.2.ctx == x.ctx && p.2.slot == x.slot && p.2.begun

/-- The next step of a `surf.def` under way (R103, R237): status 2 where the slot is VALID; what becomes of another
definition of the slot is waited for; then one column after another is reserved, and with the last the entry is written. -/
def defStep (s : State) (oid : Nat) : State :=
  match tget s.defs oid with
  | none => s
  | some x =>
    let u := surfOfBlock x.block
    if (surfAt s x.ctx x.slot).isSome then defEnd s oid 2 x
    else if defining s oid x then s
    else
      let s := { s with defs := tput s.defs oid { x with begun := true } }
      let cores := surfCores s x.ctx x.slot u
      match cores.find? fun k => (resvOf s k x.ctx x.slot).isNone with
      | some k =>
        (match reserve s (ctxPart s x.ctx) k x.ctx x.slot (resvBytes u (tilesIn s k x.ctx x.slot u).length) with
         | .done s => s
         | .wait s => s
         | .full s => defEnd { s with resvs := s.resvs.filter fun r => !(r.ctx == x.ctx && r.slot == x.slot) } oid 1 x)
      | none =>
        if cores.isEmpty then defEnd s oid 1 x
        else defEnd (entryWrite (stampSurface s x.core x.ctx x.slot) x.ctx x.slot 0 64 (entryOf u)) oid 0 x

/-- A `surf.def` that can take a step: no spill and no retirement is under way. -/
def defReady (s : State) : Option Nat :=
  if s.spills.isEmpty && s.retire.isNone then
    (s.defs.find? fun p => (surfAt s p.2.ctx p.2.slot).isSome || !defining s p.1 p.2).map (·.1)
  else none

/-- SURF_DEF (R236, R237): a valid block's definition goes on by itself, and its status is a charged result: the group's next
instructions may come before it. -/
def execSurfDef (a b c : SReg) (s : State) : Out :=
  begin_ s { sr := [b.toNat, c.toNat] } fun g =>
    annHold s (charged s g s.iss.flagA
      (let addr := (g.sreg b.toNat).toNat
       let slotw := (g.sreg c.toNat).toNat
       match surfBase s g.id.ctx, checkScratch s g.id.tid addr 32 32 with
       | none, _ => failLanes s g 0 ((lanesOf s.iss.lanes).map fun l => (l, failMem 8, addr))
       | _, .error f => failLanes s g 0 ((lanesOf s.iss.lanes).map fun l => (l, f, addr))
       | some _, .ok k =>
         let block := rdN s.scr k 32
         let s := loseIdem s g
         if 1024 ≤ slotw || blockBad block then surfDefDone s g a 3
         else if !homeMapped s g (surfOfBlock block) then surfDefDone s g a 4
         else
           let x : DefJob := { g := s.iss.g, core := g.core, ctx := g.id.ctx, tid := g.id.tid, slot := slotw, block := block,
                               begun := false }
           completeOp { s with defs := tput s.defs s.fresh x } g s.iss.flagA [] [(a.toNat, 0)] none true))

/-- A management instruction on a defined slot, or status 2 (R238); it waits while another one is at work on
the slot (R239). -/
def surfManage (s : State) (a c : SReg) (k : State → Group → Nat → Surf → Out) : Out :=
  begin_ s { sr := [c.toNat] } fun g =>
    annHold s
      (let slotw := (g.sreg c.toNat).toNat
       let busy := atWorkOn s (some s.iss.g) g.id.ctx slotw fun p => decide (50 ≤ p)
       match surfBase s g.id.ctx, surfAt s g.id.ctx slotw with
       | none, _ => failLanes s g 0 ((lanesOf s.iss.lanes).map fun l => (l, failMem 8, slotw))
       | some _, none => surfDone (loseIdem s g) g a 2
       | some _, some u =>
         if 1024 ≤ slotw then surfDone (loseIdem s g) g a 2
         else if busy || s.spills.any (fun q => q.2.ctx == g.id.ctx && q.2.slot == slotw) then longStall s g
         else k (loseIdem s g) g slotw u)

/-- SURF_DROP (R238). -/
def execSurfDrop (a c : SReg) (s : State) : Out :=
  surfManage s a c fun s g slot _ =>
    let s := forgetSpilled (forgetSurface (stampSurface s g.core g.id.ctx slot) g.id.ctx slot) (g.id.ctx * 1024 + slot)
    let s := { s with
      tris := s.tris.map fun p => if p.2.ctx = g.id.ctx then (p.1, { p.2 with dropped := slot :: p.2.dropped }) else p
      plans := s.plans.map fun p => if p.2.ctx = g.id.ctx then (p.1, { p.2 with dropped := slot :: p.2.dropped }) else p }
    surfDone (entryWrite s g.id.ctx slot 0 64 0) g a 0

/-- Every column of a surface is touched (R110). -/
def touchAll (s : State) (c slot : Nat) : State :=
  { s with resvs := s.resvs.map fun r => if r.ctx = c ∧ r.slot = slot then { r with touched := s.time } else r }

/-- A failed home write of `surf.clr` or `surf.decomp` raises the fault of R403, and the instruction waits at its phase:
it goes on there after `resume`. -/
def homeFailed (s : State) (g : Group) (slot : Nat) (u : Surf) (t : Nat) (f : Fail) (phase : Nat) (vals : List Nat) : Out :=
  let core := (tileCore s g.id.ctx slot u t).getD g.core
  match later s g phase (slot :: vals) with
  | .next s => .next (spillFailed s g.id.ctx slot core u t f)
  | o => o
/-- Until the halt that a failed home write raised is over, the instruction makes no further attempt. -/
def afterFailure (s : State) (g : Group) (k : Out) : Out :=
  if haltedCtx s g.id.ctx && g.step != 1 then longStall s g else k

/-- One tile cleared without compression (R109): in the arena, or in its home slot. -/
def clearRaw (g : Group) (slot : Nat) (u : Surf) (s : State) (t : Nat) : Except Fail State :=
  let c := g.id.ctx
  let es := List.replicate u.elems u.clear
  let x := tileOf s c slot u t
  if x.resident then
    .ok (putTile { s with arena := layElems s.arena (arenaKey c slot t) u.bytes es } c slot t { x with mode := 0, dirty := true })
  else homeWrite s c slot ((tileCore s c slot u t).getD g.core) u t 0 es

/-- A step on each tile of a list, up to the first that fails. -/
def eachTile (f : State → Nat → Except Fail State) : List Nat → State → State × Option (Nat × Fail)
  | [], s => (s, none)
  | t :: ts, s =>
    match f s t with
    | .ok s => eachTile f ts s
    | .error e => (s, some (t, e))

/-- SURF_CLR (R109, R238): phase 50, with the tile that a failed home write left it at. -/
def execSurfClr (a c : SReg) (s : State) : Out :=
  surfManage s a c fun s g slot u =>
    let ctx := g.id.ctx
    let s := stampSurface (touchAll s ctx slot) g.core ctx slot
    let lo := tileKey ctx slot 0
    if u.comp then
      let one (p : Nat × Tile) : Nat × Tile :=
        if lo ≤ p.1 && p.1 < lo + 2 ^ 22 then (p.1, { p.2 with mode := 1, dirty := true }) else p
      let s := { s with tiles := s.tiles.map one }
      let s := ((s.tiles.filter fun p => decide (lo ≤ p.1) && decide (p.1 < lo + 2 ^ 22) && p.2.resident).map
          fun p => p.1 - lo).foldl (fun s t =>
        { s with arena := layElems s.arena (arenaKey ctx slot t) u.bytes (List.replicate u.elems u.clear) }) s
      surfDone s g a 0
    else
      let first := if g.phase = 50 then g.phaseVals.getD 1 0 else 0
      let go : Out :=
        match eachTile (clearRaw g slot u) ((List.range u.tiles).drop first) s with
        | (s, none) => surfDone s g a 0
        | (s, some (t, f)) => homeFailed s g slot u t f 50 [t]
      if g.phase = 50 then afterFailure s g go else go

/-- A resident tile recoded raw (R109 step 2). -/
def rawTile (g : Group) (slot : Nat) (u : Surf) (s : State) (t : Nat) : State :=
  let c := g.id.ctx
  let es := tileElems s c slot u t
  putTile { s with arena := layElems s.arena (arenaKey c slot t) u.bytes es } c slot t { tileOf s c slot u t with mode := 0 }
/-- A resident tile written raw to its home slot (R109 step 3). -/
def homeRaw (g : Group) (slot : Nat) (u : Surf) (s : State) (t : Nat) : Except Fail State :=
  let c := g.id.ctx
  match homeWrite s c slot ((tileCore s c slot u t).getD g.core) u t 0 (tileElems s c slot u t) with
  | .ok s => .ok (putTile s c slot t { tileOf s c slot u t with dirty := false })
  | .error f => .error f

/-- SURF_DECOMP (R109, R238): phase 100 on brings the tiles back one after another, in tile order; then every tile is
recoded raw and written home, which becomes visible at system scope, and COMP is cleared. -/
def execSurfDecomp (a c : SReg) (s : State) : Out :=
  surfManage s a c fun s g slot u =>
    let ctx := g.id.ctx
    let t := g.phase - 100
    if g.phase = 0 && slotHeld s none ctx slot then longStall s g
    else if t < u.tiles then
      match ready s ctx slot u t with
      | .ok s _ => later s g (100 + t + 1) [slot]
      | .wait s => laterLong s g (100 + t) [slot]
      | .fail s f => failLanes (putGroup s s.iss.g g.settled) g.settled 0 ((lanesOf s.iss.lanes).map fun l => (l, f, homeVa u t))
    else
      let go : Out :=
        let ts := List.range u.tiles
        match eachTile (homeRaw g slot u) ts (ts.foldl (rawTile g slot u) (touchAll s ctx slot)) with
        | (s, none) =>
          let e := entryRead s ctx slot 0 4
          surfDone (entryWrite (publishAll s) ctx slot 0 4 (if e / 2 ^ 11 % 2 = 1 then e - 2 ^ 11 else e)) g a 0
        | (s, some (t, f)) => homeFailed s g slot u t f (100 + u.tiles) [1]
      if g.phaseVals.length = 2 then afterFailure s g go else go

end Sys2Proof.Machine
end

