-- ==== Sys2Proof/Machine/Place.lean ====
section
/-! DEFINITION. Places on a core: bank demand (R47), places of a wedge (R34), context banks (R324), code as it stands
at a launch (R152), the trap word (R371), and a group at its launch (R45). -/

namespace Sys2Proof.Machine

/-! Demand. -/

/-- Bytes of a wedge's vector or hypervector bank in one context (R47). -/
def bankBytes : Nat := 524288

/-- `k` more groups of one demand fit a wedge of a bank (R34, R47), beside its groups and the space that ended groups of
its teams still take (R43). -/
def wedgeRoom (s : State) (core bank wedge k nv nh nc : Nat) : Bool :=
  let gs := wedgeGroups s core bank wedge
  let kept := (s.teams.filter fun t => t.2.core == core && t.2.bank == bank).flatMap fun t =>
    t.2.ended.filter fun e => e.1 == wedge
  decide (gs.length + k ≤ 32)
    && decide ((gs.map fun p => vecBytes p.2.id.nv).sum + (kept.map (·.2.1)).sum + k * vecBytes nv ≤ bankBytes)
    && decide ((gs.map fun p => hypBytes p.2.id.nhr p.2.id.ncr).sum + (kept.map (·.2.2)).sum + k * hypBytes nh nc ≤ bankBytes)

/-- The lowest free place of a wedge. -/
def freePlace (s : State) (core bank wedge : Nat) : Nat :=
  ((List.range 32).find? fun k => !((wedgeGroups s core bank wedge).any fun p => p.2.slot == k)).getD 0

/-! Banks (R324). -/

/-- The handler core of a partition, if it names one (R326). -/
def handlerCore (s : State) (p : Nat) : Option Nat :=
  let h := fld (regGet s (kPart p 0x54)) 0 10
  if h = 0x3FF then none else some h
/-- Bank 3 of the core named in SYS.HCORE, kept for handler teams. -/
def keptBank (s : State) (core bank : Nat) : Bool :=
  bank == 3 && match partOfQuad s (quadOf core) with
    | some p => handlerCore s p == some core
    | none => false
/-- The bank number exists on the core (R367). -/
def bankUsable (s : State) (core bank : Nat) : Bool := decide (bank < usableBanks s core)
def boundTo (s : State) (core bank : Nat) : Option Nat := ((banksOf s core).bound[bank]?).join
/-- A bank holds no group, and no team that is still to retire (R324, R43). -/
def bankEmpty (s : State) (core bank : Nat) : Bool :=
  !(s.groups.any fun p => p.2.core == core && p.2.bank == bank) && !s.teams.any fun t => t.2.core == core && t.2.bank == bank
/-- SCH.BANKPOL.POL and SLICE of a partition (R348). -/
def bankPol (s : State) (p : Nat) : Bool := bit (regGet s (kPart p 0x200)) 0

def setBound (s : State) (core bank : Nat) (c : Option Nat) : State :=
  let b := banksOf s core
  putBanks s core { b with
    bound := b.bound.set bank c
    selected := if c.isNone && b.selected == some bank then none else b.selected }

/-- A core selects a bank (R324, R355), with its trace record. -/
def selectBank (s : State) (core bank : Nat) : State :=
  let b := banksOf s core
  if b.selected = some bank then putBanks s core { b with since := s.time }
  else
    let s := putBanks s core { b with selected := some bank, since := s.time }
    match boundTo s core bank with
    | some c => emit s 0x0A (stackOf core) (ctxPart s c) srcSequencer (bank + 256 * c) Names.none
    | none => s

/-- The bank in which a context's work is placed on a core: the one bound to it, or an empty one that may be bound
(R324, R353). -/
def bankFor (s : State) (core c : Nat) : Option Nat :=
  let own := (List.range 4).find? fun b => bankUsable s core b && boundTo s core b == some c && !keptBank s core b
  match own with
  | some b => some b
  | none => (List.range 4).find? fun b => bankUsable s core b && !keptBank s core b && bankEmpty s core b
      && ((boundTo s core b).isNone || !bankPol s (ctxPart s c))

/-- The bank is bound to the context, once it is free of another's binding. -/
def bindFor (s : State) (core bank c : Nat) : State :=
  if boundTo s core bank = some c then s else setBound s core bank (some c)

/-! Code (R152, R371). -/

/-- The bytes of memory as they stand now, held for the fetches of a launch. -/
def snapshot (s : State) : Nat × State :=
  let s := mergeAll s
  (s.fresh, bump { s with codes := tput s.codes s.fresh s.mem })

/-- A 32-bit word of a code snapshot at a code offset, with execute permission. -/
def snapWord (s : State) (core c code base off : Nat) : Option Nat :=
  match (checkAccess s core c (base + off) 2 .exec anyFmt (natural 2)).2,
        (checkAccess s core c (base + off + 2) 2 .exec anyFmt (natural 2)).2 with
  | .ok a, .ok b =>
    let m := (tget s.codes code).getD []
    some (rdN m a.key 2 + 65536 * rdN m b.key 2)
  | _, _ => none

/-- The local-trap handler of a kernel (R371). -/
def trapEntryOf (s : State) (core c code base entry : Nat) : Option Nat :=
  if entry < 4 then none
  else match snapWord s core c code base (entry - 4) with
    | none => none
    | some w => if w % 128 = 1 ∧ w / 128 ≠ 0 then some (w / 128 * 4) else none

/-! Groups. -/

/-- A lane as launched at an entry (R25). -/
def Lane.born (entry : Nat) : Lane := { Lane.never with st := .running, pcv := word entry, hop := .header }

/-- A group at its launch (R45, R48, R49): `lanes` launched, scalars given, MODE from `.sym`. -/
def Group.born (id : GroupId) (core bank wedge slot : Nat) (lanes : Nat → Option Lane) (args : List Word) (sym : Nat) : Group :=
  { id := id, core := core, bank := bank, wedge := wedge, slot := slot
    lanes := (List.range 32).map fun l => (lanes l).getD Lane.never
    v := [], m := [], f := [], h := [], c := []
    s := csets (.val 0) [] ((args.mapIdx fun i w => (i + 1, SVal.val w)))
    tile := 32, cause := 0, causeUp := false, faulted := 0, rmode := 0, mode := sym, lfsr := word (1 + id.grp), tieSrc := true, tieReg := 0, syms := []
    floor := 0, starve := 0, lastA := 0, lastLanes := 0, latch := none, phase := 0, phaseVals := [], phaseAt := 0, phaseLanes := 0
    active := false, order := 0, entered := 0, readySince := none, forced := false, waitSince := none, blocked := false, ready := false
    watches := [], ctxSel := id.ctx
    ops := [], waits := [], arrived := none, skid := 0, step := 0, stepLanes := 0, replay := [], sent := [] }

/-- A group takes its place: in the active set while fewer than 8 are there (R34). -/
def seatGroup (s : State) (gid : Nat) (g : Group) : State :=
  let n := ((wedgeGroups s g.core g.bank g.wedge).filter fun p => p.2.active).length
  bump (putGroup s gid { g with active := decide (n < 8), order := s.fresh, entered := s.lclk, readySince := none,
                                forced := false })

end Sys2Proof.Machine
end

