-- ==== Sys2Proof/Machine/Raster.lean ====
section
/-! DEFINITION. Immediate-mode rendering: acceptance of triangles (R290 to R293), setup, coverage and interpolation
(R294 to R296), fragment groups (R297), `ropz` and `ropc` (R240), the bank units (R298 to R303, R443), and the
completion of every engine command (R130, R301). -/

namespace Sys2Proof.Machine

/-! Draw states (R290, R291). -/

def dsEntry (ds : List Word) : Nat := blockBits ds 0 64
def dsVregs (ds : List Word) : Nat := blockBits ds 160 8
def dsSym (ds : List Word) : Nat := blockBits ds 168 2
def dsDfunc (ds : List Word) : Nat := blockBits ds 140 3
def dsDwrite (ds : List Word) : Bool := blockBits ds 139 1 == 1
def dsBlend (ds : List Word) (t : Nat) : Bool := blockBits ds (75 + 16 * t) 1 == 1
def dsWmask (ds : List Word) (t : Nat) : Nat := blockBits ds (76 + 16 * t) 4
def dsArgs (ds : List Word) : List Word := (List.range 10).map fun i => word (blockBits ds (192 + 32 * i) 32)

/-- The surfaces a draw state binds. -/
def dsSurfs (s : State) (c : Nat) (ds : List Word) : List (Option Surf) := (dsSlots ds).map (surfAt s c)

/-- A surface of the draw state: they have one width, height and sample count (R291). -/
def dsSurf (s : State) (c : Nat) (ds : List Word) : Option Surf := (dsSlots ds).head?.bind (surfAt s c)

/-- A draw state passes the distributor's checks (R291). -/
def dsOk (s : State) (c : Nat) (ds : List Word) : Bool :=
  let us := (dsSurfs s c ds).filterMap id
  blockBits ds 170 22 == 0 && blockBits ds 143 17 == 0 && dsSym ds != 3 && decide (8 ≤ dsVregs ds)
    && decide (dsVregs ds ≤ 128) && dsEntry ds % 4 == 0 && us.length == (dsSlots ds).length
    && (dsTargets ds).all (fun t => match surfAt s c (dsSlot ds t) with
        | some u => u.fmt == 1 || u.fmt == 2 || u.fmt == 3 || (u.fmt == 5 && !dsBlend ds t)
        | none => false)
    && (!dsDen ds || (match surfAt s c (dsDslot ds) with
        | some u => u.fmt == 4
        | none => false))
    && (match us with
        | [] => true
        | u :: t => t.all fun x => x.w == u.w && x.h == u.h && x.samples == u.samples)

/-! Setup (R294). -/

/-- A vertex: snapped x and y, then z and 1/w as exact fractions. -/
structure Vertex where
  x : Int
  y : Int
  z : Int × Nat
  q : Int × Nat

/-- A vertex of a RAST command, unless it discards its triangle (R294). -/
def vertexOf (ws : List Word) (i : Nat) : Option Vertex :=
  let f (k : Nat) : Fl := fp32.decode (nthW ws (1 + 4 * i + k)).toNat
  match f 0, f 1, f 2, f 3 with
  | .fin _ nx dx, .fin _ ny dy, .fin _ nz dz, .fin _ nq dq =>
    let x := roundInt rne (nx * 256) dx
    let y := roundInt rne (ny * 256) dy
    let out (v : Int) : Bool := decide (v < -(2 ^ 22)) || decide (2 ^ 22 ≤ v)
    if out x || out y || decide (nq ≤ 0) then none else some { x := x, y := y, z := (nz, dz), q := (nq, dq) }
  | _, _, _, _ => none

/-- Vertices of a triangle as pushed, and its signed area. -/
structure Setup where
  v0 : Vertex
  v1 : Vertex
  v2 : Vertex
  area : Int

/-- The setup of a triangle, unless it is discarded or culled (R294). -/
def setupOf (ws : List Word) : Option Setup :=
  match vertexOf ws 0, vertexOf ws 1, vertexOf ws 2 with
  | some a, some b, some c =>
    let area := (b.x - a.x) * (c.y - a.y) - (c.x - a.x) * (b.y - a.y)
    let cull := fld (nthW ws 0) 16 2
    if area = 0 ∨ (cull = 1 ∧ area < 0) ∨ (cull = 2 ∧ 0 < area) then none
    else some { v0 := a, v1 := b, v2 := c, area := area }
  | _, _, _ => none

/-- The edge function of a directed edge at a point (R295). -/
def edgeFn (a b : Vertex) (px py : Int) : Int := (b.x - a.x) * (py - a.y) - (b.y - a.y) * (px - a.x)
/-- A directed edge is top or left (R295). -/
def topLeft (a b : Vertex) : Bool := (b.y == a.y && decide (b.x < a.x)) || decide (b.y < a.y)

/-- The sample points of a pixel, in 1/256 pixel (R295). -/
def samplePoints (samples : Nat) : List (Int × Int) :=
  if samples = 1 then [(128, 128)] else [(96, 32), (224, 96), (32, 160), (160, 224)]

/-- A sample point is covered (R295). -/
def Setup.covers (t : Setup) (px py : Int) : Bool :=
  let b := if t.area < 0 then t.v2 else t.v1
  let c := if t.area < 0 then t.v1 else t.v2
  let ok (p q : Vertex) : Bool :=
    let e := edgeFn p q px py
    decide (0 < e) || (e == 0 && topLeft p q)
  ok t.v0 b && ok b c && ok c t.v0

/-- Covered samples of a pixel. -/
def Setup.cover (t : Setup) (u : Surf) (x y : Nat) : Nat :=
  if u.w ≤ x ∨ u.h ≤ y then 0
  else ((samplePoints u.samples).mapIdx fun k p => if t.covers (256 * x + p.1) (256 * y + p.2) then 2 ^ k else 0).sum

/-- Edge functions opposite each vertex, directed as pushed (R296). -/
def Setup.edges (t : Setup) (px py : Int) : List Int :=
  [edgeFn t.v1 t.v2 px py, edgeFn t.v2 t.v0 px py, edgeFn t.v0 t.v1 px py]

/-- Σ e_i · r_i over a common denominator. -/
def weigh (es : List Int) (rs : List (Int × Nat)) : List Int × Nat :=
  let den := rs.foldl (fun d r => d * r.2) 1
  (es.zipWith (fun e r => e * r.1 * ((den / r.2 : Nat) : Int)) rs, den)

/-- n / d rounded to FP32 at RNE, for d ≠ 0. -/
def ratio32 (n d : Int) : Word := word (fp32.round rne false false false (if d < 0 then -n else n) d.natAbs)

/-- Depth at a sample point (R296). -/
def Setup.depth (t : Setup) (px py : Int) : Word :=
  let r := weigh (t.edges px py) [t.v0.z, t.v1.z, t.v2.z]
  ratio32 (r.1.foldl (· + ·) 0) (t.area * r.2)

/-- b1 and b2 at a pixel (R296). -/
def Setup.bary (t : Setup) (x y : Nat) : Word × Word :=
  let r := weigh (t.edges (256 * x + 128) (256 * y + 128)) [t.v0.q, t.v1.q, t.v2.q]
  let d := r.1.foldl (· + ·) 0
  if d = 0 ∨ decide (0 < d) ≠ decide (0 < t.area) then (word fp32.nan, word fp32.nan)
  else (ratio32 (r.1.getD 1 0) d, ratio32 (r.1.getD 2 0) d)

/-! Squares. -/

/-- The squares inside a surface that a snapped bounding box touches, row by row (R293). -/
def Setup.squares (t : Setup) (u : Surf) : List (Nat × Nat) :=
  let lo (a b c : Int) : Nat := ((min a (min b c)) / 2048).toNat
  let hi (a b c : Int) : Int := (max a (max b c)) / 2048
  let cols := (List.range u.tw).filter fun x => decide (lo t.v0.x t.v1.x t.v2.x ≤ x) && decide ((x : Int) ≤ hi t.v0.x t.v1.x t.v2.x)
  let rows := (List.range u.th).filter fun y => decide (lo t.v0.y t.v1.y t.v2.y ≤ y) && decide ((y : Int) ≤ hi t.v0.y t.v1.y t.v2.y)
  rows.flatMap fun y => cols.map fun x => (x, y)

/-- The anchor column of a square of a draw state (R443). -/
def anchorCore (s : State) (c : Nat) (ds : List Word) (sx sy : Nat) : Option Nat :=
  match dsSlots ds with
  | [] => none
  | a :: _ => squareCore s (ctxPart s c) a sx sy

/-! Acceptance (R291, R292). -/

/-- The draw-state slot of a context read through translation (R291, R328). -/
def readDrawState (s : State) (x : Cmd) (slot : Nat) : State × Except (Fail × Nat) (List Word) :=
  let b := regGet64 s (kCtx x.ctx 0x104)
  if b % 2 = 0 then (s, .error (failPlain, 0))
  else
    let va := b % 2 ^ 56 / 16384 * 16384 + 64 * slot
    match checkAccess s x.core x.ctx va 64 .read anyFmt (natural 64) with
    | (s, .error f) => (s, .error (f, va))
    | (s, .ok l) =>
      let r := readFor s x l.key 64 (pteTid l.pte)
      (r.1, .ok ((List.range 16).map fun i => word (r.2 / 2 ^ (32 * i))))

/-- Acceptance stalls while the oldest unfinished triangle of the context is 2^31 or more behind (R292). -/
def tooFarBehind (s : State) (c : Nat) : Bool :=
  match s.tris.find? fun p => p.2.ctx == c with
  | some (_, t) => decide (2 ^ 31 ≤ ((ctxOf s c).seq + 2 ^ 32 - t.seq) % 2 ^ 32)
  | none => false

/-- A RAST command that meets a fault at its acceptance keeps its place and its entry (R275, R291, R442). -/
def rastFault (s : State) (x : Cmd) (cause : Nat) (frec : Option FaultRec) : State :=
  unitFault s x.ctx (stackOf x.core) x.tid (cmdRec s x cause frec)

/-- RAST_ACCEPT (R291 to R294). -/
def execRastAccept (cmd : Nat) (s : State) : Out :=
  match tget s.cmds cmd with
  | none => .next s
  | some x =>
    if x.kind ≠ .rast || x.stage ≠ .queued || (queued s x.core .rast).head?.map (·.1) ≠ some cmd || !mayBegin s x
        || tooFarBehind s x.ctx then .next s
    else match readDrawState s x (fld (nthW x.words 0) 8 8) with
      | (s, .error (f, va)) =>
        .next (rastFault s x f.cause (if f.rec_ then some (mkRec s f 4 x.source [(0, va)]) else none))
      | (s, .ok ds) =>
        if !dsOk s x.ctx ds then .next (rastFault s x cIllegal none)
        else
          let c := ctxOf s x.ctx
          let seq := c.seq
          let s := putCtx s x.ctx { c with seq := (seq + 1) % 2 ^ 32 }
          let s := emit (takeCharge s x) 0x08 (stackOf x.core) (ctxPart s x.ctx) srcDistributor (0x30 + 2 ^ 32 * 0xFFFFFFFF) x.names
          let quads := match setupOf x.words, dsSurf s x.ctx ds with
            | some t, some u => (List.range 8).filter fun q => (t.squares u).any fun p =>
                (anchorCore s x.ctx ds p.1 p.2).map quadOf == some q
            | _, _ => []
          if quads.isEmpty then .next (removeCmd s cmd x)
          else
            let r := snapshot s
            let t : Tri := { ctx := x.ctx, seq := seq, cmd := cmd, ds := ds, words := x.words, launch := x.launch,
                             quads := quads, code := r.1, surf := dsSurf s x.ctx ds, dropped := [] }
            let s := putCmd r.2 cmd { x with stage := .taken 0, oid := 0, begun := true }
            .next (bump { s with tris := tput s.tris s.fresh t })

/-! Raster engines (R293, R297). -/

/-- Runs of up to 8 of a list. -/
def runsOf8 {α : Type} : Nat → List α → List (List α)
  | 0, _ => []
  | _ + 1, [] => []
  | n + 1, a :: t => ((a :: t).take 8) :: runsOf8 n ((a :: t).drop 8)

/-- The fragment groups of a square (R297), as their lanes. -/
def squareGroups (t : Setup) (u : Surf) (sx sy : Nat) : List (List FragLane) :=
  let quadPx (q : Nat) : List (Nat × Nat) :=
    (List.range 4).map fun i => (8 * sx + 2 * (q % 4) + i % 2, 8 * sy + 2 * (q / 4) + i / 2)
  let listed := (List.range 16).filter fun q => (quadPx q).any fun p => t.cover u p.1 p.2 != 0
  (runsOf8 2 listed).map fun run => (run.mapIdx fun j q => (quadPx q).mapIdx fun i p =>
    let b := t.bary p.1 p.2
    { lane := 4 * j + i, px := p.1, py := p.2, cover := t.cover u p.1 p.2, b1 := b.1, b2 := b.2
      depth := (samplePoints u.samples).map fun o => t.depth (256 * p.1 + o.1) (256 * p.2 + o.2)
      subs := [], closed := false, pass := none, did := [] }).flatten

/-- TRIANGLE_SETUP (R294 to R297), on the surfaces that the acceptance found (R291): a raster engine whose groups have all launched takes its next triangle and lists
its fragment groups with the bank units. -/
def execTriangleSetup (quad : Nat) (s : State) : Out :=
  if (partOfQuad s quad).isNone || s.plans.any fun p => p.2.quad == quad && !p.2.launched then .next s
  else match s.tris.find? fun p => p.2.quads.contains quad with
    | none => .next s
    | some (id, t) =>
      let own := match tget s.cmds t.cmd with
        | some x => ofHandler s x.tid
        | none => false
      if !own && (unitStopped s t.ctx (srcRaster quad) || (lineAt s t.ctx (srcRaster quad)).isSome) then .next s
      else
        let s := { s with tris := tput s.tris id { t with quads := t.quads.filter (· != quad) } }
        match setupOf t.words, t.surf with
        | some su, some u =>
          .next ((su.squares u).foldl (fun s p =>
            match anchorCore s t.ctx t.ds p.1 p.2 with
            | none => s
            | some core =>
              if quadOf core ≠ quad then s
              else (squareGroups su u p.1 p.2).foldl (fun s ls =>
                let pl : Plan := { tri := id, ctx := t.ctx, seq := t.seq, quad := quad, core := core, sx := p.1, sy := p.2,
                                   lanes := ls, launched := false, skid := false, order := s.fresh, charges := [], g := 0,
                                   wrote := [], dropped := t.dropped, failed := [] }
                bump { s with plans := tput s.plans s.fresh pl }) s) s)
        | _, _ => .next s

/-- The names of a fragment group (R297). -/
def fragId (x : Plan) (t : Tri) (pid : Nat) : GroupId :=
  { ctx := x.ctx, tid := none, launch := t.launch, teamNo := 0xFFFFFFFF, grp := 0, ngrp := 1, tx := 0, ty := 0, nw := 1,
    nh := 1, cx := 0, cy := 0, cz := 0, gx := 1, gy := 1, gz := 1, sup := false, handler := false,
    codeBase := dsEntry t.ds, entry := 0, trapEntry := none, code := t.code, nv := dsVregs t.ds, nhr := 0, ncr := 0,
    frag := some pid }

/-- Registers v0 to v7 of a fragment lane (R297). -/
def fragRegs (f : FragLane) : List (Nat × Elem) :=
  ([word (f.px + 65536 * f.py), f.b1, f.b2, word f.cover] ++ f.depth).mapIdx fun r w => (vkey r f.lane, Elem.val w)

/-- A fragment group at its launch (R297). -/
def fragGroup (x : Plan) (t : Tri) (pid bank wedge slot : Nat) : Group :=
  let front := match setupOf t.words with
    | some su => decide (0 < su.area)
    | none => false
  let args := [nthW t.words 13, word t.seq, word (fld (nthW t.words 0) 8 8 + (if front then 256 else 0)),
    word (x.sx + 65536 * x.sy), 0] ++ dsArgs t.ds
  let lane (l : Nat) : Option Lane := (x.lanes.find? fun f => f.lane == l).map fun f =>
    { Lane.born 0 with px := f.px, py := f.py, cover := f.cover }
  let g := Group.born (fragId x t pid) x.core bank wedge slot lane args (dsSym t.ds)
  { g with v := csets (.val 0) [] (x.lanes.flatMap fragRegs) }

/-- FRAGMENT_GROUP_LAUNCH (R297, R298): the engine's next group is launched on a wedge with room, in its context's
bank, while the bank unit's window of 256 expected groups has room. -/
def execFragmentGroupLaunch (quad core wedge bank : Nat) (s : State) : Out :=
  match s.plans.find? fun p => p.2.quad == quad && !p.2.launched with
  | none => .next s
  | some (pid, x) =>
    match tget s.tris x.tri with
    | none => .next s
    | some t =>
      let window := (s.plans.filter fun p => p.2.core == core && p.2.launched && planOpen s p.2).length
      if x.core ≠ core || !inMask s core || decide (s.pstate ≠ 0) || busHeld s core (4 + bank) || 4 ≤ wedge || 256 ≤ window || bankFor s core x.ctx ≠ some bank
          || !wedgeRoom s core bank wedge 1 (dsVregs t.ds) 0 0 || unitStopped s x.ctx (srcRaster quad) then .next s
      else
        let s := bindFor s core bank x.ctx
        let gid := s.fresh
        let g := fragGroup x t pid bank wedge (freePlace s core bank wedge)
        let s := seatGroup (bump s) gid g
        .next { s with plans := tput s.plans pid { x with
          launched := true, g := gid, skid := (lineAt s x.ctx (srcRaster quad)).isSome } }

/-! Submissions (R240). -/

/-- A submission of every executing lane: `what` 0 for `ropz`, 1 + t for target t; `words` and the sample mask of a
lane. One to a target that the draw state does not bind is empty, and so is a helper lane's (R298). -/
def submit (s : State) (g : Group) (ex : List Nat) (what : Nat) (words : Nat → List Word) (mask : Nat → Nat) : Out :=
  match g.id.frag.bind fun p => (tget s.plans p).map fun x => (p, x) with
  | none => faultWord s cIllegal
  | some (pid, x) =>
    let key (l : Nat) : Nat := 8 * l + what
    if ex.any fun l => g.sent.contains (key l) || !(x.lanes.any fun f => f.lane == l) then faultWord s cIllegal
    else
      let bound := match tget s.tris x.tri with
        | some t => if what = 0 then dsDen t.ds else (dsTargets t.ds).contains (what - 1)
        | none => false
      let g := { g with sent := ex.map key ++ g.sent }
      let ex := ex.filter fun l => x.lanes.any fun f => f.lane == l && f.cover != 0
      if !bound || ex.isEmpty then completeOp s g s.iss.flagB [] [] none false
      else
        let lanes := x.lanes.map fun f =>
          if ex.contains f.lane then { f with subs := f.subs ++ [{ what := what, mask := mask f.lane, words := words f.lane }] }
          else f
        let x := { x with lanes := lanes, charges := x.charges ++ ex.map fun l => (key l, s.fresh) }
        completeOp { s with plans := tput s.plans pid x } g s.iss.flagB [] [] none true

/-- ROPZ (R240). -/
def execRopz (a c : VReg) (s : State) : Out :=
  laneMem s .noZero [] [a.toNat, c.toNat] [] [] (fun _ => s.iss.flagB) fun g ex =>
    submit s g ex 0 (fun l => [g.vword a.toNat l]) (fun l => fld (g.vword c.toNat l) 0 4)
/-- ROPC (R240). -/
def execRopc (a : VReg) (b : SReg) (c : VReg) (s : State) : Out :=
  laneMem s .noZero [] (c.toNat :: (List.range 4).map (a.toNat + ·)) [] [b.toNat] (fun _ => s.iss.flagB) fun g ex =>
    submit s g ex (1 + fld (g.sreg b.toNat) 0 2) (fun l => (List.range 4).map fun i => g.vword (a.toNat + i) l)
      (fun l => fld (g.vword c.toNat l) 0 4)

/-! Bank units (R298 to R302). -/

/-- A depth function (R299). -/
def depthPass (f : Nat) (src old : Word) : Bool :=
  let a := fp32.decode src.toNat
  let b := fp32.decode old.toNat
  let ord := !(a.isNan || b.isNan)
  match f with
  | 0 => false
  | 1 => ord && a.lt b
  | 2 => ord && a.eq b
  | 3 => ord && (a.lt b || a.eq b)
  | 4 => ord && b.lt a
  | 5 => !(ord && a.eq b)
  | 6 => ord && (b.lt a || a.eq b)
  | _ => true

/-- Bytes of a colour channel (R100). -/
def chanBytes (fmt : Nat) : Nat := if fmt = 1 then 1 else if fmt = 2 then 2 else 4
/-- A stored channel decoded to FP32 (R300). -/
def decodeChan (fmt w : Nat) : Word :=
  if fmt = 1 then word (fp32.round rne false false false w 255)
  else if fmt = 2 then word (fp32.write rne false false (fp16.decode w))
  else word w
/-- A channel encoded (R300). -/
def encodeChan (fmt : Nat) (w : Word) : Nat :=
  if fmt = 1 then
    match fp32.decode w.toNat with
    | .nan => 0
    | .inf neg => if neg then 0 else 255
    | .fin _ n d => if n ≤ 0 then 0 else if (d : Int) ≤ n then 255 else (roundInt rne (n * 255) d).toNat
  else if fmt = 2 then fp16.write rne false false (fp32.decode w.toNat)
  else w.toNat

/-- A channel of the source-over blend (R300): colour channels are weighted by sa, alpha is not. -/
def blendChan (alpha : Bool) (src sa old : Word) : Word :=
  let one := fp32.decode 0x3F800000
  let a := fp32.decode sa.toNat
  let t := fp32.decode (fp32.write rne false false (Fl.add rne one a.neg))
  let d := fp32.decode old.toNat
  let x := if alpha then a else (fp32.decode src.toNat).mul a
  word (fp32.write rne false false (Fl.add rne x (d.mul t)))

/-- The stored sample after a colour write (R299, R300). -/
def colourSample (fmt wmask : Nat) (blend : Bool) (src : List Word) (old : Nat) : Nat :=
  if fmt = 5 then (if wmask % 2 = 1 then (nthW src 0).toNat else old)
  else
    let n := 8 * chanBytes fmt
    let ch (i : Nat) : Nat := old / 2 ^ (n * i) % 2 ^ n
    (List.range 4).foldl (fun v i =>
      let w := if blend then blendChan (i == 3) (nthW src i) (nthW src 3) (decodeChan fmt (ch i)) else nthW src i
      v + (if wmask / 2 ^ i % 2 = 1 then encodeChan fmt w else ch i) * 2 ^ (n * i)) 0

/-- A lane of a fragment group in a bank unit's list: plan, lane, submission to apply. -/
structure Due where
  pid : Nat
  plan : Plan
  tri : Tri
  frag : FragLane
  sub : Sub

/-- What a fragment lane may apply next: its depth part first, then each bound target's colours, but for targets whose
writes have stopped (R303); a lane that has exited owes nothing but empty submissions (R298, R240). -/
def FragLane.next (f : FragLane) (ds : List Word) (failed : List Nat) : Option Sub :=
  let owed := (f.owed ds).filter fun w => w == 0 || !failed.contains (dsSlot ds (w - 1))
  let sub (w : Nat) : Option Sub :=
    match f.subs.find? fun x => x.what == w with
    | some x => some x
    | none => if f.closed then some { what := w, mask := 0, words := [] } else none
  if owed.contains 0 then sub 0 else owed.findSome? sub

/-- The surface slot that a submission goes to. -/
def Due.slot (d : Due) : Nat := if d.sub.what = 0 then dsDslot d.tri.ds else dsSlot d.tri.ds (d.sub.what - 1)

/-- The submissions that a bank unit may apply: of the lanes at the front of their pixels' lists (R298), unless the group's
writes to that tile have stopped (R303). -/
def duesAt (s : State) (core : Nat) : List Due :=
  ((s.plans.filter fun p => p.2.core == core).foldl (fun (r : List (Nat × Nat × Nat) × List Due) p =>
    match tget s.tris p.2.tri with
    | none => r
    | some t =>
      p.2.lanes.foldl (fun r f =>
        if (f.owed t.ds).isEmpty then r
        else
          let k := (p.2.ctx, f.px, f.py)
          let due := if r.1.contains k then []
            else (((f.next t.ds p.2.failed).map fun x => ({ pid := p.1, plan := p.2, tri := t, frag := f, sub := x } : Due)).filter
              fun d => !p.2.failed.contains d.slot).toList
          (k :: r.1, r.2 ++ due)) r) ([], [])).2

/-- The sample of a pixel in a bound surface. -/
def pixelSample (u : Surf) (slot px py k : Nat) : Samp :=
  { slot := slot, surf := u, tile := py / 8 * u.tw + px / 8, off := ((py % 8 * 8 + px % 8) * u.samples + k) * u.bytes }

/-- The covered samples of a lane's submission. -/
def Due.samples (d : Due) (m : Nat) : List Nat := (List.range 4).filter fun k =>
  d.frag.cover / 2 ^ k % 2 == 1 && d.sub.mask / 2 ^ k % 2 == 1 && m / 2 ^ k % 2 == 1

/-- A surface slot is among those that a group's bank unit has written. -/
def Plan.write (p : Plan) (slot : Nat) : Plan := { p with wrote := if p.wrote.contains slot then p.wrote else slot :: p.wrote }

/-- The depth part (R299): the depth samples written, and the samples that pass. -/
def applyDepth (s : State) (d : Due) (u : Surf) : State × Nat :=
  let z := nthW d.sub.words 0
  let slot := dsDslot d.tri.ds
  (d.samples 15).foldl (fun r k =>
    let p := pixelSample u slot d.frag.px d.frag.py k
    if depthPass (dsDfunc d.tri.ds) z (word (tileRead r.1 d.plan.ctx p u.bytes)) then
      (if dsDwrite d.tri.ds then tileLay r.1 d.plan.ctx p u.bytes z.toNat else r.1, r.2 + 2 ^ k)
    else r) (s, 0)

/-- The covered samples of a lane's submission that are tested or written. -/
def Due.live (d : Due) : List Nat :=
  d.samples (if d.sub.what ≠ 0 && dsDen d.tri.ds then d.frag.pass.getD 0 else 15)

/-- The colours of a target (R299, R300). -/
def applyColour (s : State) (d : Due) (t : Nat) (u : Surf) : State :=
  d.live.foldl (fun s k =>
    let p := pixelSample u (dsSlot d.tri.ds t) d.frag.px d.frag.py k
    tileLay s d.plan.ctx p u.bytes
      (colourSample u.fmt (dsWmask d.tri.ds t) (dsBlend d.tri.ds t) d.sub.words (tileRead s d.plan.ctx p u.bytes))) s

/-- A submission reads or writes its tile: one with no sample left, a colour with no channel to write, and a depth test
that never or always passes and writes nothing do not. -/
def Due.touches (d : Due) : Bool :=
  !d.live.isEmpty &&
    (if d.sub.what = 0 then dsDfunc d.tri.ds != 0 && (dsDfunc d.tri.ds != 7 || dsDwrite d.tri.ds)
     else dsWmask d.tri.ds (d.sub.what - 1) != 0)

/-- The tiles that a group's bank unit has written are recoded, once its last submission has been applied (R302). -/
def closePlan (s : State) (pid : Nat) : State :=
  match tget s.plans pid with
  | none => s
  | some p =>
    if planOpen s p then s
    else
      let s := p.wrote.foldl (fun s slot =>
        if p.dropped.contains slot then s
        else match surfAt s p.ctx slot with
          | some u => recodeTile s p.ctx slot u (p.sy * u.tw + p.sx)
          | none => s) s
      { s with plans := tput s.plans pid { p with wrote := [] } }

/-- A submission has been applied: it leaves its list, and with the last one of its issue the instruction is
performed (R301, R157). -/
def subDone (s : State) (d : Due) (pass : Option Nat) (wrote : Bool) : State :=
  let f := { d.frag with
    did := d.sub.what :: d.frag.did, pass := pass
    subs := d.frag.subs.filter fun x => x.what != d.sub.what }
  let key := 8 * d.frag.lane + d.sub.what
  let rest := d.plan.charges.filter fun c => c.1 != key
  let plan := { (if wrote then d.plan.write d.slot else d.plan) with
    lanes := d.plan.lanes.map fun x => if x.lane = d.frag.lane then f else x
    charges := rest }
  let s := closePlan { s with plans := tput s.plans d.pid plan } d.pid
  match d.plan.charges.find? fun c => c.1 == key with
  | some (_, oid) => if rest.any fun c => c.2 == oid then s else updGroup s d.plan.g fun g => g.finishOp oid
  | none => s

/-- A fault of a bank unit, in the RAST command's stop record (R303, R442); the group's writes to that tile stop. -/
def bankFault (s : State) (core : Nat) (d : Due) (f : Fail) : State :=
  let addr := d.frag.px + d.frag.py * 2 ^ 14 + d.slot * 2 ^ 32
  let s := { s with plans := tput s.plans d.pid { d.plan with failed := d.slot :: d.plan.failed } }
  match tget s.cmds d.tri.cmd with
  | none => s
  | some x =>
    let r := cmdRec s x f.cause (if f.rec_ then some (mkRec s f 5 (srcBank core) [(0, addr)]) else none)
    unitFault s x.ctx (stackOf core) x.tid { r with source := srcBank core }

/-- A submission applied to its pixel (R299); a spilled tile fills first (R303), and a surface dropped since is gone (R304). -/
def applyDue (s : State) (core : Nat) (d : Due) : State :=
  let c := d.plan.ctx
  let all := (d.live.map fun k => 2 ^ k).sum
  if !d.touches then
    subDone s d (if d.sub.what = 0 then some (if dsDfunc d.tri.ds = 7 then all else 0) else d.frag.pass) false
  else match (if d.plan.dropped.contains d.slot then none else surfAt s c d.slot) with
    | none => bankFault s core d (failMem 12)
    | some u =>
      match ready s c d.slot u (d.frag.py / 8 * u.tw + d.frag.px / 8) with
      | .wait s => s
      | .fail s f => bankFault s core d f
      | .ok s _ =>
        if d.sub.what = 0 then
          let r := applyDepth s d u
          subDone r.1 d (some r.2) (dsDwrite d.tri.ds && r.2 != 0)
        else subDone (applyColour s d (d.sub.what - 1) u) d d.frag.pass true

/-- BANK_UNIT_APPLY (R298 to R303): one of the submissions that may be applied, as the device chooses among pixels. -/
def execBankUnitApply (core : Nat) (s : State) : Out :=
  if !inMask s core then .next s
  else match duesAt s core with
  | [] => .next s
  | [d] => .next (applyDue s core d)
  | d :: ds => .next (applyDue (chose s) core ((d :: ds).getD (chooseOf s (ds.length + 1)) d))

/-! Completion. -/

/-- Every fragment group of a triangle has ended, and every submission has been applied (R301). -/
def triDone (s : State) (id : Nat) (t : Tri) : Bool :=
  t.quads.isEmpty && s.plans.all fun p =>
    p.2.tri != id || (p.2.launched && !planOpen s p.2 && (tget s.groups p.2.g).isNone)

/-- ENGINE_COMPLETION (R130, R276, R301): a finished command's update. Without RELEN, a COPY or TENSOR may make its
decrements, a sector at a time, and then clear its flag, before its writes are visible. -/
def execEngineCompletion (cmd : Nat) (s : State) : Out :=
  match tget s.cmds cmd with
  | none => .next s
  | some x =>
    if x.kind = .rast then
      match s.tris.find? fun p => p.2.cmd == cmd with
      | some (id, t) =>
        if triDone s id t && decide (x.stage = .taken 0) then
          .next (removeCmd { s with tris := cdel s.tris id, plans := s.plans.filter fun p => p.2.tri != id,
                                    codes := cdel s.codes t.code } cmd x)
        else .next s
      | none => .next s
    else if !engineKind x.kind || cmdHeld s x || !aboardCore s x.tid then .next s
    else
      let all := x.total * x.unitBytes
      match x.stage with
      | .finished =>
        if x.relen then
          .next (removeCmd (lowerObject (releaseCmd s x (fld (nthW x.words 10) 4 3)) x.tid x.object all) cmd x)
        else .next (removeCmd (lowerObject s x.tid x.object (all - x.dec)) cmd x)
      | _ => .next s

end Sys2Proof.Machine
end

