-- ==== Sys2Proof/Machine/Matrix.lean ====
section
/-! DEFINITION. Matrix instructions (class 0x37, R245 to R264): the B store and its owner, the matrix queue, `mb.ld`,
`mb.zero`, dense computation and table lookup. -/

namespace Sys2Proof.Machine

/-! Formats (R248). -/

/-- Bytes of a 32-element unit of a format. -/
def unitSize (f : Nat) : Nat :=
  if f ≤ 1 then 64 else if f ≤ 3 then 32 else if f = 4 then 34 else if f = 5 then 18 else if f = 6 then 4 else 8
/-- Bytes of an element of D. -/
def dSize (f : Nat) : Nat := if f ≤ 1 then 2 else if f = 8 then 4 else 1
/-- The floating format of codes 0 to 3 and 8. -/
def matFmt (f : Nat) : Fmt :=
  if f = 0 then bf16 else if f = 1 then fp16 else if f = 2 then e4m3 else if f = 3 then e5m2 else fp32
/-- The surface format that equals an element format (R256, R257). -/
def matSurf (f : Nat) : Option Nat := if f = 0 then some 6 else if f = 2 then some 7 else if f = 3 then some 8 else none

/-- Element `i` of a unit of a format (R62, R72). -/
def unitElem (f raw i : Nat) : Fl :=
  if f = 4 ∨ f = 5 then
    let tb8 := f = 4
    let n := 8 * tbBytes tb8
    tbDecode tb8 (raw / 2 ^ n % 256) (raw / 2 ^ (n + 8) % 256) (raw / 2 ^ (tbBits tb8 * i) % 2 ^ tbBits tb8)
  else
    let w := if f ≤ 1 then 16 else 8
    (matFmt f).decode (raw / 2 ^ (w * i) % 2 ^ w)

/-! The B store (R247) and the queue (R246). -/

/-- Key of byte `o` of slice `j` of a core's B store. -/
def bKey (core j o : Nat) : Nat := core * 2 ^ 22 + j * 2 ^ 15 + o

def matrixKind (k : CmdKind) : Bool := k = .mbLd || k = .mbZero || k = .mmx || k = .lut
/-- The commands of a core's matrix queue, in acceptance order; those of a saved team have left it (R264). -/
def matrixQueue (s : State) (core : Nat) : List (Nat × Cmd) :=
  s.cmds.filter fun p => p.2.core == core && matrixKind p.2.kind && aboardCore s p.2.tid
/-- The 8 entries of the queue are taken (R246). -/
def matrixFull (s : State) (core : Nat) : Bool :=
  decide (8 ≤ ((matrixQueue s core).filter fun p => p.2.stage != .finished).length)
/-- The command the queue runs. -/
def matrixHead (s : State) (core : Nat) : Option (Nat × Cmd) :=
  ((matrixQueue s core).filter fun p => p.2.stage != .finished).head?

/-! Checks (R250). -/

/-- A scratch range, as scratchFate takes it. -/
def objRange (w : Word) : List (Nat × Nat × Nat) := if w = 0xFFFFFFFF then [] else [(w.toNat, 8, 8)]

/-- A rectangle of a surface named by a matrix command (R250 row 4). -/
def rectFail (s : State) (c slot fmt x y w h : Nat) : Option Fail :=
  match surfBase s c with
  | none => some (failMem 8)
  | some _ =>
    match surfAt s c slot with
    | none => some (failMem 12)
    | some u => if u.samples ≠ 1 ∨ u.fmt ≠ fmt ∨ u.w < x + w ∨ u.h < y + h then some (failMem 12) else none

/-- The first failure of a list of rectangles, then of scratch ranges. -/
def rangesFate (s : State) (tid : Option Nat) (bad : Bool) (rects : List (Option Fail × Nat)) (rs : List (Nat × Nat × Nat))
    (extra : List Word) : CmdFate :=
  if bad then .mem failPlain 0
  else match rects.find? fun r => r.1.isSome with
    | some (some f, a) => .mem f a
    | _ =>
      match scratchFate s tid rs with
      | some (f, a) => .mem f a
      | none => .ok extra

/-- A flag code of a matrix block that names none that exists (R251, R254). -/
def flagBad (f : Nat) : Bool := decide (12 ≤ f) && decide (f ≤ 14)

/-- The checks of an `mb.ld` descriptor (R250 to R252). -/
def mbLdFate (s : State) (tid : Option Nat) (c : Nat) (ws : List Word) : CmdFate :=
  let w (k : Nat) : Word := nthW ws k
  let space := fld (w 0) 0 2
  let sf := fld (w 0) 4 4
  let bf := fld (w 0) 8 4
  let n := fld (w 1) 0 7 + 1
  let kb := fld (w 2) 0 10 + 1
  let place := if space = 1 then w 4 != 0
    else if space = 2 then fld (w 3) 10 22 != 0 || fld (w 4) 28 4 != 0 || w 5 != 0
    else false
  let slot := fld (w 3) 0 10
  if fld (w 0) 2 2 != 0 || fld (w 0) 12 20 != 0 || bit (w 1) 7 || fld (w 1) 15 17 != 0 || fld (w 2) 10 22 != 0
      || fld (w 6) 15 17 != 0 || fld (w 7) 8 24 != 0 || nonzero ws [9, 10, 11, 12, 13, 14, 15] || space == 3 || decide (8 < sf)
      || decide (8 < bf) || decide (6 ≤ fld (w 7) 4 3) || flagBad (fld (w 7) 0 4) || place then .reserved
  else
    let dec := space == 0 && (sf == 4 || sf == 5) && bf == 0
    let pair := if space = 2 then sf == bf && (matSurf sf).isSome else (sf == bf && decide (sf ≤ 7)) || dec
    let fmtBad := space == 2 && match surfAt s c slot with
      | some u => some u.fmt != matSurf sf
      | none => false
    if !pair || fmtBad || decide (127 < fld (w 1) 8 7 + (n - 1)) || decide (512 < kb) then .illegal
    else
      let len := kb * unitSize bf
      let rects := if space = 2 then
          [(rectFail s c slot ((matSurf sf).getD 0) (fld (w 4) 0 14) (fld (w 4) 14 14) (32 * kb) n, slot * 2 ^ 32 + (w 4).toNat)]
        else []
      let rows := if space = 1 then (List.range n).map fun j => (((w 3).toNat + j * (w 5).toNat) % 2 ^ 32, kb * unitSize sf, 1) else []
      rangesFate s tid (decide (32768 < fld (w 6) 0 15 + len)) rects (rows ++ objRange (w 8)) []

/-- The reserved fields of a parameter block (R254). -/
def mmxReserved (ws : List Word) : Bool :=
  let w (k : Nat) : Word := nthW ws k
  let asrc := fld (w 0) 22 2
  let ddst := fld (w 0) 24 2
  let fmt (lo : Nat) : Bool := decide (8 < fld (w 0) lo 4)
  let a := if asrc = 0 then w 4 != 0 || fld (w 3) 7 25 != 0
    else if asrc = 1 then fld (w 4) 22 10 != 0
    else fld (w 4) 28 4 != 0 || fld (w 3) 10 22 != 0
  let d := if ddst = 0 then fld (w 7) 22 10 != 0 else fld (w 7) 28 4 != 0 || fld (w 6) 10 22 != 0
  fld (w 0) 26 6 != 0 || fld (w 1) 12 4 != 0 || fld (w 1) 23 9 != 0 || fld (w 2) 10 22 != 0 || fld (w 5) 15 17 != 0
    || fld (w 9) 12 20 != 0 || nonzero ws [11, 12, 13, 14, 15] || decide (2 < fld (w 0) 0 8) || fmt 8 || fmt 12 || fmt 16
    || asrc == 3 || decide (2 ≤ ddst) || decide (6 ≤ fld (w 9) 4 3) || decide (6 ≤ fld (w 9) 8 3) || flagBad (fld (w 9) 0 4)
    || a || d

/-- The registers an `mmx` reads (R256). -/
def mmxRegs (ws : List Word) : List Nat :=
  let w := nthW ws 0
  let af := fld w 8 4
  if fld w 22 2 = 0 ∧ af ≤ 3 then
    (List.range (ceilDiv ((fld (nthW ws 2) 0 10 + 1) * unitSize af) 4)).map (fld (nthW ws 3) 0 7 + ·)
  else []

/-- Two ranges overlap. -/
def overlap (a n b m : Nat) : Bool := decide (a < b + m) && decide (b < a + n)

/-- The checks of a parameter block (R250, R254 to R257). -/
def mmxFate (s : State) (tid : Option Nat) (c nv : Nat) (lut : Bool) (ws extra : List Word) : CmdFate :=
  let w (k : Nat) : Word := nthW ws k
  let op := fld (w 0) 0 8
  let af := fld (w 0) 8 4
  let bf := fld (w 0) 12 4
  let df := fld (w 0) 16 4
  let asrc := fld (w 0) 22 2
  let ddst := fld (w 0) 24 2
  let m := fld (w 1) 0 12 + 1
  let n := fld (w 1) 16 7 + 1
  let kb := fld (w 2) 0 10 + 1
  let alen := kb * unitSize af
  let dlen := n * dSize df
  let ast := (w 4).toNat
  let dst := (w 7).toNat
  let abase := (w 3).toNat
  let dbase := (w 6).toNat
  let ax := fld (w 4) 0 14
  let ay := fld (w 4) 14 14
  let dx := fld (w 7) 0 14
  let dy := fld (w 7) 14 14
  if mmxReserved ws then .reserved
  else
    let formats := if op = 0 then !lut && decide (af ≤ 5) && decide (bf ≤ 5)
      else lut && decide (af ≤ 1) && bf == 5 + op
    let dOk := decide (df ≤ 3) || df == 8
    let aOk := if asrc = 0 then decide (af ≤ 3) && decide (m ≤ 32) && decide (alen ≤ 128)
      else if asrc = 1 then abase % 2 == 0 && ast % 2 == 0 && (m == 1 || decide (alen ≤ ast))
      else (matSurf af).isSome
    let sOk := if ddst = 0 then dbase % dSize df == 0 && dst % dSize df == 0 && (m == 1 || decide (dlen ≤ dst))
      else (matSurf df).isSome
    let clash := (asrc == 1 && ddst == 0 && overlap abase ((m - 1) * ast + alen) dbase ((m - 1) * dst + dlen))
      || (asrc == 2 && ddst == 1 && abase == dbase && overlap ax (32 * kb) dx n && overlap ay m dy m)
    let rs := mmxRegs ws
    if !formats || !dOk || !aOk || !sOk || clash then .illegal
    else if rs.any (fun r => decide (nv ≤ r)) || (asrc == 0 && abase % 4 != 0) then .illegal
    else
      let rects := (if asrc = 2 then [(rectFail s c abase ((matSurf af).getD 0) ax ay (32 * kb) m, abase * 2 ^ 32 + ast)] else [])
        ++ (if ddst = 1 then [(rectFail s c dbase ((matSurf df).getD 0) dx dy n m, dbase * 2 ^ 32 + dst)] else [])
      let rows (base stride len : Nat) : List (Nat × Nat × Nat) := (List.range m).map fun j => (base + j * stride, len, 1)
      let rs := (if asrc = 1 then rows abase ast alen else []) ++ (if ddst = 0 then rows dbase dst dlen else [])
      rangesFate s tid (decide (32768 < fld (w 5) 0 15 + kb * unitSize bf)) rects (rs ++ objRange (w 10)) extra

/-! Issue. -/

/-- The frame of class 0x37 (R245, R246, R250): a fragment group may not; another team's store, or a full queue, holds
the group, a long-latency dependence. -/
def matrixOp (s : State) (sr : List Nat) (k : Group → Nat → Out) : Out :=
  begin_ s { sr := sr } fun g =>
    match g.id.tid with
    | none => faultWord s cIllegal
    | some tid =>
      if (tget s.bowner g.core).any (· != tid) || matrixFull s g.core then longStall s g else annHold s (k g tid)

/-- A checked matrix command enters; the store is claimed (R245, R246). -/
def enterMatrix (s : State) (g : Group) (tid : Nat) (k : CmdKind) (ws extra : List Word) (cflag : Nat) (charge : Bool) : Out :=
  let oid := s.fresh
  let x : Cmd := { newCmd (bump s) g s.iss.g s.iss.a k ws extra (if charge then oid else 0) with flag := flagNamed cflag }
  let s := bump s
  let s := bump { s with cmds := tput s.cmds s.fresh x, bowner := tput s.bowner g.core tid }
  let g := g.charge cflag
  complete s (if charge then g.addOp oid s.iss.flagB [] [] none true else g)

/-- MB_LD (R249, R251). -/
def execMbLd (b : SReg) (s : State) : Out :=
  matrixOp s [b.toNat] fun g tid => charged s g s.iss.flagB
    (let addr := (g.sreg b.toNat).toNat
     match checkScratch s (some tid) addr 64 64 with
     | .error f => failAll s g 0 f addr
     | .ok k =>
       let ws := wordsOf s.scr k 16
       fated s g (mbLdFate s (some tid) g.id.ctx ws) fun extra =>
         let f := fld (nthW ws 7) 0 4
         if flagFull g f then longStall s g else enterMatrix s g tid .mbLd ws extra f true)

/-- MB_ZERO (R249, R253). -/
def execMbZero (b : SReg) (s : State) : Out :=
  matrixOp s [b.toNat, b.toNat + 1] fun g tid => charged s g s.iss.flagB
    (let o := g.sreg b.toNat
     let n := g.sreg (b.toNat + 1)
     if fld o 15 17 ≠ 0 ∨ fld n 16 16 ≠ 0 then faultWord s cReserved
     else if 32768 < o.toNat + n.toNat then failAll s g 0 failPlain o.toNat
     else enterMatrix s g tid .mbZero [o, n, 0] [] 15 true)

/-- A register source read at the issue (R256): row m from lane m, 0 in a lane never launched. -/
def regRows (g : Group) (ws : List Word) : List Word :=
  (List.range (fld (nthW ws 1) 0 12 + 1)).flatMap fun m =>
    (mmxRegs ws).map fun r => if (g.lane m).st = .never then 0 else g.vword r m

/-- An `mmx` with its block read (R250): forms in a register source block first; a fault of the block outranks SYM_POISON
(R374, R384). -/
def mmxBlock (s : State) (g : Group) (tid : Nat) (lut : Bool) (ws : List Word) : Out :=
  let rs := (mmxRegs ws).filter fun r => decide (r < g.id.nv)
  let ls := List.range (min 32 (fld (nthW ws 1) 0 12 + 1))
  let fate := mmxFate s (some tid) g.id.ctx g.id.nv lut ws (regRows g ws)
  if vWaits g rs then stall s
  else blockingAccess s g rs ls (fated s g fate fun _ => stall s)
    (fated s g fate fun extra =>
      let f := fld (nthW ws 9) 0 4
      if flagFull g f then longStall s g
      else
        enterMatrix (if bit (nthW ws 9) 11 || fld (nthW ws 0) 24 2 == 1 then loseIdem s g else s) g tid
          (if lut then .lut else .mmx) ws extra f false)

/-- `mmx` and `mmx.lut` from scratch. -/
def mmxScratch (s : State) (lut : Bool) (b : SReg) : Out :=
  matrixOp s [b.toNat] fun g tid =>
    let addr := (g.sreg b.toNat).toNat
    match checkScratch s (some tid) addr 64 64 with
    | .error f => failAll s g 0 f addr
    | .ok k => mmxBlock s g tid lut (wordsOf s.scr k 16)
/-- `mmx.r` and `mmx.lut.r`. -/
def mmxRegBlock (s : State) (lut : Bool) (b : SReg) : Out :=
  let rs := (List.range 16).map (b.toNat + ·)
  matrixOp s rs fun g tid => mmxBlock s g tid lut (rs.map g.sreg)

/-- MMX (R249). -/
def execMmx (b : SReg) (s : State) : Out := mmxScratch s false b
/-- MMX_LUT (R249). -/
def execMmxLut (b : SReg) (s : State) : Out := mmxScratch s true b
/-- MMX_R (R249). -/
def execMmxR (b : SReg) (s : State) : Out := mmxRegBlock s false b
/-- MMX_LUT_R (R249). -/
def execMmxLutR (b : SReg) (s : State) : Out := mmxRegBlock s true b

/-! The queue's events. -/


/-- One of the entries of a list, which the device chooses, put first (R252, R257). -/
def chosenFirst (s : State) (xs : List Nat) : State × List Nat :=
  if xs.length ≤ 1 then (s, xs)
  else
    let i := chooseOf s xs.length
    (chose s, xs.getD i 0 :: xs.eraseIdx i)
def mbRows (x : Cmd) : Nat := fld (nthW x.words 1) 0 7 + 1
def mmxM (x : Cmd) : Nat := fld (nthW x.words 1) 0 12 + 1
def mmxN (x : Cmd) : Nat := fld (nthW x.words 1) 16 7 + 1
def mmxK (x : Cmd) : Nat := fld (nthW x.words 2) 0 10 + 1
def mmxAf (x : Cmd) : Nat := fld (nthW x.words 0) 8 4

/-- The rows of a command that are still to do, in an order that the device chooses; for D, and the elements of the first
of them (R252, R257). -/
def withRows (s : State) (x : Cmd) (rows : List Nat) : State × Cmd :=
  let r := chosenFirst s rows
  if x.kind = .mbLd || rows.isEmpty then (r.1, { x with rows := r.2, cols := [] })
  else
    let c := chosenFirst r.1 (List.range (mmxN x))
    (c.1, { x with rows := r.2, cols := c.2 })
/-- The element of D that comes next: of the row at work, or of another (R257). -/
def nextElem (s : State) (x : Cmd) : State × Cmd :=
  if x.cols.length ≤ 1 then withRows s x x.rows.tail
  else
    let c := chosenFirst s x.cols.tail
    (c.1, { x with cols := c.2 })

/-- Where D[m][n] lies (R257). -/
def dAt (x : Cmd) (m n i : Nat) : EngAt :=
  let w (k : Nat) : Word := nthW x.words k
  let df := fld (w 0) 16 4
  if fld (w 0) 24 2 = 0 then .scr ((w 6).toNat + m * (w 7).toNat + n * dSize df + i)
  else .surf (fld (w 6) 0 10) (fld (w 7) 0 14) (fld (w 7) 14 14 + m) (n * dSize df + i)
/-- The start of C: the prior D widened, or +0 (R258). -/
def startC (s : State) (x : Cmd) (m n : Nat) : EngR Nat :=
  let df := fld (nthW x.words 0) 16 4
  if bit (nthW x.words 0) 20 then
    (engBytes s x (dAt x m n) (dSize df)).bind fun s v => .ok s (fp32.write rne false false ((matFmt df).decode v))
  else .ok s 0
/-- An element of D is about to be computed: C as its stop record would show it (R264, R381). -/
def atStart (s : State) (x : Cmd) : Cmd :=
  if x.kind = .mbLd || x.kind = .mbZero then x
  else { x with acc := match startC s x (x.rows.headD 0) (x.cols.headD 0) with
    | .ok _ c => c
    | _ => 0 }

/-- MATRIX_QUEUE_ACCEPT (R246): the oldest issued command enters the queue; its FLAGB charge ends. -/
def execMatrixQueueAccept (core : Nat) (s : State) : Out :=
  match (matrixQueue s core).find? fun p => p.2.stage == .queued with
  | none => .next s
  | some (id, x) =>
    let r := withRows (takeCharge s x) { x with stage := .taken 0, oid := 0 }
      (if x.kind = .mbZero then [] else List.range (if x.kind = .mbLd then mbRows x else mmxM x))
    .next (emit (putCmd r.1 id (atStart s r.2)) 0x08 (stackOf core) (ctxPart s x.ctx) x.source
      (x.op + 2 ^ 32 * x.object.toNat) x.names)

/-- Steps of a queue's running command, until it waits, stops or ends. -/
def runMatrix (k : CmdKind) (total : Cmd → Nat) (step : State → Cmd → Unit1) (core : Nat) : Nat → State → State
  | 0, s => s
  | n + 1, s =>
    match matrixHead s core with
    | none => s
    | some (id, x) =>
      let goes := if x.begun then mayGoOn s x false else mayBegin s x
      if x.kind ≠ k || decide (x.stage ≠ .taken 0) || !goes || busHeld s core 1 then s
      else match step s { x with begun := true } with
        | .done s y =>
          let pos := y.pos + 1
          runMatrix k total step core n
            (putCmd s id { y with pos := pos, stage := if total y ≤ pos then .finished else y.stage })
        | .wait s => s
        | .fail s f kind addr => cmdFail s id x f kind addr
        | .illegal s => cmdFault s id x cIllegal none

/-! `mb.ld` (R252). -/

/-- A record built from a block of a TB page: elements, then exponents (R252, R75, R77). -/
def tbRecord (s : State) (x : Cmd) (tb8 : Bool) (va : Nat) : EngR Nat :=
  engGlob s x va (tbBytes tb8) .read anyFmt fun s l =>
    if pteFmt l.pte ≠ (if tb8 then 1 else 2) then .illegal s
    else match aboardIn s (scaleKey l.pte l.key) 2 with
      | some (sl, line) => .fail s { failPlain with cause := cAlias, slot := sl, line := line } va
      | none =>
        let r := readBlock s x l (tbBytes tb8)
        .ok r.1 (r.2.1 + r.2.2 * 2 ^ (8 * tbBytes tb8))

/-- Bytes of a plain page; ILLEGAL_OP on a TB page (R252). -/
def plainBytes (s : State) (x : Cmd) : Nat → Nat → EngR Nat
  | 0, _ => .ok s 0
  | n + 1, va =>
    (engGlob s x va 1 .read anyFmt fun s l =>
      if pteFmt l.pte ≠ 0 then .illegal s
      else
        let r := readFor s x l.key 1 (pteTid l.pte)
        .ok r.1 r.2).bind fun s v => (plainBytes s x n ((va + 1) % 2 ^ 64)).bind fun s w => .ok s (v + 256 * w)

/-- The elements of a record decoded, as a BF16 unit (R252, R72). -/
def bfUnit (tb8 : Bool) (raw : Nat) : Nat :=
  (List.range 32).foldl (fun v i =>
    v + bf16.write rne false false (unitElem (if tb8 then 4 else 5) raw i) * 2 ^ (16 * i)) 0

/-- The page format of a row's first page (R252). -/
def rowFmt (s : State) (x : Cmd) (row : Nat) (k : State → Nat → EngR Nat) : EngR Nat :=
  engGlob s x row 1 .read anyFmt fun s l => k s (pteFmt l.pte)

/-- A unit of a source row, in the B store's layout (R252). -/
def mbUnit (s : State) (x : Cmd) (j u : Nat) : EngR Nat :=
  let w (k : Nat) : Word := nthW x.words k
  let space := fld (w 0) 0 2
  let sf := fld (w 0) 4 4
  let bf := fld (w 0) 8 4
  let n := unitSize sf
  if space = 2 then
    engBytes s x (fun i => .surf (fld (w 3) 0 10) (fld (w 4) 0 14) (fld (w 4) 14 14 + j) (u * n + i)) n
  else if space = 1 then
    engBytes s x (fun i => .scr (((w 3).toNat + j * (w 5).toNat + u * n + i) % 2 ^ 32)) n
  else
    let row := (x.pair 3 + j * (w 5).toNat) % 2 ^ 64
    rowFmt s x row fun s f =>
      let fmt := sf - 3
      let dec := bf == 0 && (sf == 4 || sf == 5)
      if !dec && (decide (sf ≤ 3) || decide (6 ≤ sf) || f == 0) then plainBytes s x n ((row + u * n) % 2 ^ 64)
      else if f ≠ fmt ∨ row % 65536 % tbBytes (fmt == 1) ≠ 0 then .illegal s
      else (tbRecord s x (fmt == 1) ((row + u * tbBytes (fmt == 1)) % 2 ^ 64)).bind fun s raw =>
        .ok s (if dec then bfUnit (fmt == 1) raw else raw)

/-- One unit of an `mb.ld` written to its slice; the row after the last of one is the device's choice. -/
def mbStep (s : State) (x : Cmd) : Unit1 :=
  let kb := fld (nthW x.words 2) 0 10 + 1
  let j := x.rows.headD 0
  let u := x.pos % kb
  let size := unitSize (fld (nthW x.words 0) 8 4)
  let key := bKey x.core (fld (nthW x.words 1) 8 7 + j) (fld (nthW x.words 6) 0 15 + u * size)
  match moveUnit x (mbUnit s x j u) fun s v => .ok { s with bst := wrN s.bst key size v } 0 with
  | .done s x =>
    if u + 1 < kb then .done s x
    else
      let r := withRows s x x.rows.tail
      .done r.1 r.2
  | r => r

/-- MB_LD_COMMAND (R252): the next `n` units. -/
def execMbLdCommand (core n : Nat) (s : State) : Out :=
  .next (runMatrix .mbLd (fun x => mbRows x * x.steps) mbStep core n s)

/-- MB_ZERO_COMMAND (R253). -/
def execMbZeroCommand (core : Nat) (s : State) : Out :=
  .next (runMatrix .mbZero (fun _ => 1) (fun s x =>
    let o := (nthW x.words 0).toNat
    let n := (nthW x.words 1).toNat
    .done { s with bst := (List.range 128).foldl (fun m j => zeroRange m (bKey x.core j o) n) s.bst } x) core 1 s)

/-! Dense computation and table lookup (R256 to R260). -/

/-- Words of a row of A. -/
def rowWords (x : Cmd) : Nat := ceilDiv (mmxK x * unitSize (mmxAf x)) 4

/-- A row of A read whole, each element once (R256). -/
def readRow (s : State) (x : Cmd) (m : Nat) : EngR Nat :=
  let w (k : Nat) : Word := nthW x.words k
  engBytes s x (fun i =>
    if fld (w 0) 22 2 = 1 then .scr ((w 3).toNat + m * (w 4).toNat + i)
    else .surf (fld (w 3) 0 10) (fld (w 4) 0 14) (fld (w 4) 14 14 + m) i) (mmxK x * unitSize (mmxAf x))

/-- Unit `u` of row `m` of A from the held row. -/
def heldUnit (x : Cmd) (m u : Nat) : Nat :=
  let base := if fld (nthW x.words 0) 22 2 = 0 then m * rowWords x else 0
  let n := unitSize (mmxAf x)
  let bytes := (List.range (rowWords x)).foldr (fun i v => (nthW x.extra (base + i)).toNat + v * 2 ^ 32) 0
  bytes / 2 ^ (8 * (u * n)) % 2 ^ (8 * n)

/-- C after one dot step, or one group of a table lookup (R258, R260). -/
def stepC (s : State) (x : Cmd) (m n st : Nat) (c : Word) : Word :=
  let bf := fld (nthW x.words 0) 12 4
  let op := fld (nthW x.words 0) 0 8
  let u := if x.kind = .lut then st / 8 else st
  let a := heldUnit x m u
  let b := rdN s.bst (bKey x.core n (fld (nthW x.words 5) 0 15 + u * unitSize bf)) (unitSize bf)
  if x.kind = .lut then
    let g := st % 8
    let as_ := (List.range 4).map fun i => word (fp32.write rne false false (unitElem (mmxAf x) a (4 * g + i)))
    let t0 := b / 2 ^ (4 * g) % 16
    let t1 := b / 2 ^ (32 + 4 * g) % 16
    addRne c (lutValue op as_ t0 t1)
  else dotStep ((List.range 32).map fun i => (unitElem (mmxAf x) a i).mul (unitElem bf b i)) c

/-- One dot step or table group; the last of an element writes it (R258 to R260). -/
def mmxStep (s : State) (x : Cmd) : Unit1 :=
  let st := x.pos % x.steps
  let m := x.rows.headD 0
  let n := x.cols.headD 0
  let df := fld (nthW x.words 0) 16 4
  let held := fld (nthW x.words 0) 22 2 == 0 || x.aux == m + 1
  let row : EngR Nat := if held then .ok s 0 else readRow s x m
  match row with
  | .wait s => .wait s
  | .fail s f a => .fail s f 4 a
  | .illegal s => .illegal s
  | .ok s v =>
    let x : Cmd := if held then x
      else { x with aux := m + 1, extra := (List.range (rowWords x)).map fun i => word (v / 2 ^ (32 * i)) }
    match (if st = 0 then startC s x m n else .ok s x.acc) with
    | .wait s => .wait s
    | .fail s f a => .fail s f 4 a
    | .illegal s => .illegal s
    | .ok s c =>
      let c2 := stepC s x m n st (word c)
      if st + 1 < x.steps then .done s { x with acc := c2.toNat }
      else match moveUnit x (.ok s (finalD (matFmt df) (bit (nthW x.words 0) 21) (nthW x.words 8) c2)) fun s v =>
          engPuts s x false (dAt x m n) (dSize df) v with
        | .done s x =>
          let r := nextElem s x
          .done r.1 (atStart r.1 r.2)
        | r => r

def mmxTotal (x : Cmd) : Nat := mmxM x * mmxN x * x.steps

/-- DENSE_COMPUTATION (R258): the next `n` dot steps. -/
def execDenseComputation (core n : Nat) (s : State) : Out := .next (runMatrix .mmx mmxTotal mmxStep core n s)
/-- TABLE_LOOKUP (R260): the next `n` groups. -/
def execTableLookup (core n : Nat) (s : State) : Out := .next (runMatrix .lut mmxTotal mmxStep core n s)

/-- The count a matrix command's object falls by (R252, R262). -/
def matrixCount (x : Cmd) : Nat :=
  if x.kind = .mbLd then mbRows x * mmxK x * unitSize (fld (nthW x.words 0) 8 4)
  else if x.kind = .mbZero then 0
  else mmxM x * mmxN x * dSize (fld (nthW x.words 0) 16 4)

/-- MATRIX_COMPLETION (R262): the oldest finished command clears its flag and lowers its object, once; with RELEN its writes
are visible at scope REL first. -/
def execMatrixCompletion (core : Nat) (s : State) : Out :=
  match (matrixQueue s core).find? fun p => p.2.stage == .finished with
  | none => .next s
  | some (id, x) =>
    let rel := (x.kind = .mmx || x.kind = .lut) && bit (nthW x.words 9) 11
    if cmdHeld s x then .next s
    else
      let s := if rel then releaseCmd s x (fld (nthW x.words 9) 8 3) else s
      .next (removeCmd (lowerObject s x.tid x.object (matrixCount x)) id x)

end Sys2Proof.Machine
end

