-- ==== Sys2Proof/Machine/Wedge.lean ====
section
/-! DEFINITION. Events of the wedges and their groups: the starvation floor (R27), swaps (R37, R38), releases of
waits, timed sleep and barriers (R40, R41, R195, R196, R395), and the arrival of results (R57, R157). -/

namespace Sys2Proof.Machine

/-- STARVATION_FLOOR (R27): at a count of 64 the floor moves above the address just issued. -/
def execStarvationFloor (g : Nat) (s : State) : Out :=
  match s.group g with
  | none => .next s
  | some gr => if 64 ≤ gr.starve then .next (putGroup s g gr.starved) else .next s

/-! Swaps. -/

/-- The pending group of a wedge that has been ready longest (R34, R37). -/
def longestReady (gs : List (Nat × Group)) : Option (Nat × Group) :=
  (gs.filter fun p => !p.2.active && p.2.readySince.isSome).foldl (fun (b : Option (Nat × Group)) p =>
    match b with
    | none => some p
    | some q => if p.2.readySince.getD 0 < q.2.readySince.getD 0 then some p else b) none

/-- A long-latency dependence of an active group (R37): every live lane parked, more than 32 logic clocks at a header, or
an issue held by one of the waits that the rules name so (a symbol, a full flag, a fence, a queue). -/
def longWait (s : State) (g : Group) : Bool :=
  g.eligible.isEmpty || g.blocked
    || match g.waitSince with
      | some t => decide (t + 32 < s.lclk)
      | none => false

/-- GROUP_SWAP (R34, R37): in the selected bank of a core, an active group with a long-latency dependence changes places
with the pending group that has been ready longest. -/
def execGroupSwap (g : Nat) (s : State) : Out :=
  match s.group g with
  | none => .next s
  | some gr =>
    if gr.active && (banksOf s gr.core).selected == some gr.bank && longWait s gr then
      match longestReady (wedgeGroups s gr.core gr.bank gr.wedge) with
      | some (n, _) => .next (activate (deactivate s g) n false)
      | none => .next s
    else .next s

/-- FORCED_SWAP (R38): the selected bank's longest active group of a wedge makes way for a pending group ready for 48
logic clocks. -/
def execForcedSwap (core wedge : Nat) (s : State) : Out :=
  match (banksOf s core).selected with
  | none => .next s
  | some bank =>
    let gs := wedgeGroups s core bank wedge
    match longestReady gs with
    | none => .next s
    | some (n, p) =>
      if s.lclk < p.readySince.getD 0 + 48 then .next s
      else
        let out := (gs.filter fun q => q.2.active && (!q.2.forced || decide (q.2.entered + 64 ≤ s.lclk))).foldl
          (fun (b : Option (Nat × Group)) q =>
            match b with
            | none => some q
            | some r => if q.2.order < r.2.order then some q else b) none
        match out with
        | some (o, _) => .next (activate (deactivate s o) n true)
        | none => .next s

/-! Releases. -/

/-- The group's wedge has stopped under a halt, so nothing of the group moves (R376, R384). -/
def asleep (s : State) (g : Group) : Bool :=
  !g.id.handler && g.step != 1 && (unitStopped s g.id.ctx (srcWedge g.core g.wedge) || startsHalted s g)

/-- WAIT_RELEASE (R40, R192): the joined condition holds, or the deadline has passed. -/
def execWaitRelease (g w : Nat) (s : State) : Out :=
  match s.group g with
  | none => .next s
  | some gr =>
    match tget gr.waits w with
    | none => .next s
    | some a =>
      let late := match a.deadline with
        | some d => decide (d ≤ s.time)
        | none => false
      if !asleep s gr && (late || joined s gr a.any a.conds) then .next (releaseWait s g w) else .next s

/-- SLEEP_RELEASE (R41, R193): lanes whose instant has come go on; at a promise's instant the object is tested, and a
nonzero one gives PROMISE_MISS. The lanes that parked with the named one are released with it. -/
def execSleepRelease (g lane : Nat) (s : State) : Out :=
  match s.group g with
  | none => .next s
  | some gr =>
    let x := gr.lane lane
    let ls := (List.range 32).filter fun l => (gr.lane l).st == x.st && (gr.lane l).pcv == x.pcv
    if asleep s gr then .next s
    else match x.st with
      | .sleep t => if t ≤ s.time then .next (putGroup s g (gr.release ls)) else .next s
      | .promise addr p =>
        match scrAccess s gr.id.tid addr.toNat 8 with
        | none => .next s
        | some k =>
          if busHeld s (k / 2 ^ 22) 0 then .next s
          else if rdN s.scr k 8 = 0 then .next (putGroup s g (gr.release ls))
          else match p with
            | some t =>
              if t ≤ s.time then
                .next (promiseMiss (putGroup s g (gr.release ls)) g (maskOf ls) (x.pcv.toNat + x.adv) addr.toNat t)
              else .next s
            | none => .next s
      | _ => .next s

/-! Barriers. -/

/-- A group all of whose live lanes are parked at one barrier arrives, once the hold of its fence has ended (R195,
R196). -/
def arriveBar (s : State) (g : Nat) (gr : Group) : State :=
  match gr.barOf, gr.id.tid with
  | some (cl, n), some t =>
    if gr.arrived.isSome || capsBusy s g || !fenceClear s g gr (if cl then 3 else 1) || (cl && !fenceClear s g gr 2) then s
    else
      let s := fenced s g gr (if cl then 3 else 1)
      let s := putGroup (if cl then fenced s g gr 2 else s) g { gr with arrived := some (cl, n) }
      if cl then s else testTeamBars s t
  | _, _ => s

/-- BARRIER_ARRIVAL (R195, R196). -/
def execBarrierArrival (g : Nat) (s : State) : Out :=
  match s.group g with
  | none => .next s
  | some gr => .next (if asleep s gr then s else arriveBar s g gr)

/-- A team all of whose groups with live lanes have arrived at one cluster barrier sends its packet; a team whose groups
have all ended is counted out (R395). -/
def arriveRouter (s : State) (tid : Nat) (t : Team) : State :=
  match liveGroups s tid with
  | [] => testClusterBars s t.cid
  | (_, g0) :: gs =>
    match g0.arrived with
    | some (true, n) =>
      if gs.all fun p => p.2.arrived == some (true, n) then
        testClusterBars { s with clusters := tupd s.clusters t.cid fun c =>
          { c with arrivals := if c.arrivals.contains (tid, n) then c.arrivals else c.arrivals ++ [(tid, n)] } } t.cid
      else s
    | _ => s

/-- BARRIER_ROUTER_ARRIVAL (R395). -/
def execBarrierRouterArrival (tid : Nat) (s : State) : Out :=
  match tget s.teams tid with
  | none => .next s
  | some t => .next (arriveRouter s tid t)

/-! Results. -/

/-- SYMBOL_DELIVERY (R57, R61), of an `ann.ld.sym` in the memory-layer clock after its capture (R149). -/
def execSymbolDelivery (g k : Nat) (s : State) : Out :=
  match s.group g with
  | none => .next s
  | some gr =>
    match tget gr.syms k with
    | some y =>
      if y.known && !y.delivered && y.due.all (· ≤ s.mclk) && !busHeld s gr.core (4 + gr.bank) then
        .next (putGroup s g (gr.deliver k))
      else .next s
    | none => .next s

/-- ACCESS_PERFORMED (R157, R158): a long-latency operation of the group that no other unit completes. -/
def execAccessPerformed (g op : Nat) (s : State) : Out :=
  match s.group g with
  | none => .next s
  | some gr =>
    match tget gr.ops op with
    | some o => if o.ext || busHeld s gr.core (4 + gr.bank) then .next s else .next (putGroup s g (gr.finishOp op))
    | none => .next s

end Sys2Proof.Machine
end

