-- ==== Sys2Proof/Machine/Sched.lean ====
section
/-! DEFINITION. The launch sequencer: descriptors and their checks (R346, R347), the tree of completion (R42 to R44),
queues (R348 to R351), placement and restore (R353, R354, R363), banks (R355), the event table's extension (R357) and
spatial pre-emption (R358 to R365). -/

namespace Sys2Proof.Machine

/-! Descriptors. -/

/-- Shape of the clusters of a launch. -/
def Launch.w (l : Launch) : Nat := l.f 0 10 4 + 1
def Launch.h (l : Launch) : Nat := l.f 0 14 3 + 1
/-- Lanes of a team, and its groups (R20). -/
def Launch.lanes (l : Launch) : Nat := l.f 0 0 10 + 1
def Launch.ngrp (l : Launch) : Nat := ceilDiv l.lanes 32
def Launch.scrg (l : Launch) : Nat := l.f 1 16 7
def Launch.nv (l : Launch) : Nat := l.f 0 20 8
def Launch.nhr (l : Launch) : Nat := l.f 1 0 5
def Launch.ncr (l : Launch) : Nat := l.f 1 5 2
def Launch.gx (l : Launch) : Nat := l.f 5 0 16
def Launch.gy (l : Launch) : Nat := l.f 6 0 16
def Launch.gz (l : Launch) : Nat := l.f 7 0 16
def Launch.codeBase (l : Launch) : Nat := l.f 2 0 32 + 2 ^ 32 * l.f 3 0 32
def Launch.entry (l : Launch) : Nat := l.f 4 0 32
def Launch.status (l : Launch) : Nat := l.f 12 0 32 + 2 ^ 32 * l.f 13 0 32
/-- Clusters of the grid. -/
def Launch.clusters (l : Launch) : Nat := l.gx * l.gy * l.gz
/-- Groups of a team on a wedge (R21). -/
def onWedge (ngrp wedge : Nat) : Nat := ((List.range ngrp).filter fun g => g % 4 == wedge).length

/-- Quadrants of a partition. -/
def partQuads (s : State) (p : Nat) : List Nat := (List.range 8).filter fun q => partMask s p / 2 ^ q % 2 == 1
def partCores (s : State) (p : Nat) : List Nat := (partQuads s p).flatMap fun q => (List.range 72).map (q * 72 + ·)
/-- The core by which the sequencer translates for a partition. -/
def seqCore (s : State) (p : Nat) : Nat := (partQuads s p).headD 0 * 72

/-- Cores of a rectangle of a quadrant, row by row (R23). -/
def rectCores (quad x y w h : Nat) : List Nat :=
  (List.range h).flatMap fun ty => (List.range w).map fun tx => coreAt quad (x + tx) (y + ty)
/-- Origins of a shape in a quadrant (R23). -/
def origins (w h : Nat) : List (Nat × Nat) :=
  (List.range (7 - h)).flatMap fun y => (List.range (13 - w)).map fun x => (x, y)
def degraded (s : State) (core : Nat) : Bool := (columnOf s core).degraded

/-- A bank of an otherwise empty core holds a team of the launch (R347 code 5). -/
def fitsEmpty (s : State) (l : Launch) (core : Nat) : Bool :=
  !degraded s core && (List.range 4).any (fun b => bankUsable s core b && !keptBank s core b)
    && (List.range 4).all fun wd =>
      let k := onWedge l.ngrp wd
      decide (k ≤ 32) && decide (k * vecBytes l.nv ≤ bankBytes) && decide (k * hypBytes l.nhr l.ncr ≤ bankBytes)

/-- The code of the first failing check of R347; 0 where every check passes. -/
def descCode (s : State) (l : Launch) : Nat :=
  let w := nthW l.desc
  if fld (w 0) 28 4 ≠ 0 ∨ fld (w 1) 23 9 ≠ 0 ∨ fld (w 1) 7 9 ≠ 0 ∨ fld (w 5) 16 16 ≠ 0 ∨ fld (w 6) 16 16 ≠ 0
      ∨ fld (w 7) 16 16 ≠ 0 ∨ fld (w 10) 5 27 ≠ 0 ∨ fld (w 11) 16 16 ≠ 0 ∨ w 14 ≠ 0 ∨ w 15 ≠ 0 ∨ w 31 ≠ 0
      ∨ (bit (w 10) 4 = true ∧ fld (w 11) 0 16 = 0) then 1
  else if l.nv < 8 ∨ 128 < l.nv ∨ l.f 0 18 2 = 3 ∨ 16 < l.nhr ∨ l.ncr = 3 ∨ 64 < l.scrg ∨ 12 < l.w * l.h ∨ 12 < l.w
      ∨ 6 < l.h then 2
  else if l.clusters = 0 ∨ 2 ^ 24 < l.clusters then 3
  else if l.codeBase % 4 ≠ 0 ∨ l.entry % 4 ≠ 0 ∨ 2 ^ 56 ≤ l.codeBase ∨ l.status % 8 ≠ 0 then 4
  else if !(partCores s l.part).any (fitsEmpty s l) then 5
  else if !(partQuads s l.part).any (fun q => (origins l.w l.h).any fun o =>
      (rectCores q o.1 o.2 l.w l.h).all fun k => !degraded s k) then 6
  else 0

/-! Completion (R42 to R44). -/

/-- The event and the interrupt of a level: 0 team, 1 cluster, 2 grid, 3 launch; each is a release at system scope of what
the level's teams have done (R44). A handler's launch runs from no queue, and the vector it raises is a free choice. -/
def levelDone (s : State) (l : Launch) (level : Nat) : State :=
  let ev := if level = 0 then l.f 8 0 16 else if level = 1 then l.f 8 16 16 else if level = 2 then l.f 9 0 16 else l.f 9 16 16
  let s := if ev ≠ 0 || bit (nthW l.desc 10) level then publishAll (mergeAll s) else s
  let s := signalEvent s l.part ev
  if bit (nthW l.desc 10) level then
    let q := if l.handler then chooseOf s 64 else l.queue
    let s := if l.handler then chose s else s
    { s with irqs := s.irqs ++ [64 + 64 * l.part + q] }
  else s

/-- The status word of a launch (R347): through translation; a failure is a fault of the launch's context, recorded by
the sequencer (R442). -/
def writeStatus (s : State) (l : Launch) (code : Nat) : State :=
  if l.status = 0 then s
  else match checkAccess s (seqCore s l.part) l.ctx l.status 8 .write anyFmt (natural 8) with
    | (s, .ok p) => writeSlice s p.key 8 (l.ident * 2 ^ 32 + code) (pteTid p.pte)
    | (s, .error f) =>
      let u := unitRec s 6 f.cause srcSequencer
      unitFault s l.ctx (stackOf (seqCore s l.part)) none
        { u with launch := l.ident, aux := BitVec.ofNat 64 l.status
                 frec := if f.rec_ then some (mkRec s f 5 srcSequencer [(0, l.status)]) else none }

/-- The launch level completes: the status word, its event and interrupt, then its parent's counter (R42). -/
def finishLaunch : Nat → State → Launch → Nat → State
  | 0, s, _, _ => s
  | n + 1, s, l, code =>
    let s := levelDone (writeStatus s l code) l 3
    match l.parent with
    | none => s
    | some p =>
      match tget s.launches p with
      | none => s
      | some x =>
        let x := { x with count := x.count - 1 }
        if x.count = 0 then finishLaunch n { s with launches := cdel s.launches p } x 0
        else { s with launches := tput s.launches p x }

/-- A cluster of a launch completes; with the last one its grid does, and then the launch may (R42). -/
def clusterDone (s : State) (lid : Nat) : State :=
  match tget s.launches lid with
  | none => s
  | some l =>
    let s := levelDone s l 1
    if 1 < l.left then { s with launches := tput s.launches lid { l with left := l.left - 1 } }
    else
      let s := levelDone s l 2
      let l := { l with left := 0, count := l.count - 1 }
      if l.count = 0 then finishLaunch (s.launches.length + 1) { s with launches := cdel s.launches lid } l 0
      else { s with launches := tput s.launches lid l }

/-- A team's scratch granules are freed; `keep` leaves its bytes for its context (R88). -/
def freeScratch (s : State) (t : Team) (keep : Bool) : State :=
  t.grans.foldl (fun s i =>
    if keep then { s with granules := tput s.granules (granKey t.core i) { owner := none, lastCtx := some t.ctx } }
    else { s with granules := tput s.granules (granKey t.core i) { owner := none, lastCtx := none }
                  scr := zeroRange s.scr (t.core * 2 ^ 22 + i * 65536) 65536 }) s

/-- The handler slot is released: bank 3 of the team's core is emptied and unbound (R325). -/
def releaseSlot (s : State) (t : Team) : State :=
  let s := putCtx (setBound s t.core 3 none) t.ctx (ctxOf s t.ctx).handled
  { s with slot := cdel s.slot t.part }

/-- A team retires (R43): the writes of its commands become visible (R44), its scratch and B store are freed, messages to it dropped, and its level completes. -/
def retireTeam (s : State) (tid : Nat) (t : Team) : State :=
  let s := emit (landAll s) 0x02 (stackOf t.core) t.part srcSequencer t.core { Names.none with launch := t.launch, team := t.teamNo }
  let s := freeB (freeScratch s t true) t.core tid
  let s := { s with
    teams := cdel s.teams tid
    caps := s.caps.filter fun p => p.2.team != some tid
    msgs := s.msgs.filter fun p => !(p.2.ctx == t.ctx && p.2.launch == t.launch && p.2.team == t.teamNo) }
  let s := if t.handler then releaseSlot s t else s
  let s := match tget s.launches t.lid with
    | some l => levelDone s l 0
    | none => s
  match tget s.clusters t.cid with
  | none => s
  | some c =>
    if 1 < c.left then { s with clusters := tput s.clusters t.cid { c with left := c.left - 1 } }
    else clusterDone { s with clusters := cdel s.clusters t.cid } t.lid

/-- TEAM_RETIRE (R43): once every group has ended, and the team's commands and captures are done or cancelled, one that has
failed at its station apart (R140); a line that it boarded and that is still aboard gives ANN_ALIAS, once. Of several lines the
record names the one in the lowest slot, the model's choice (log 119). -/
def execTeamRetire (tid : Nat) (s : State) : Out :=
  match tget s.teams tid with
  | none => .next s
  | some t =>
    if t.left ≠ 0 || s.cmds.any (fun p => p.2.tid == some tid) || s.caps.any (fun p => p.2.team == some tid && (!p.2.cancelled || p.2.failed)) then .next s
    else match s.aboard.find? fun p => p.2.team == some tid with
      | none => .next (retireTeam s tid t)
      | some (slot, x) =>
        if t.aliased then .next s
        else
          let r : StopRec := { unitRec s 6 cAlias srcSequencer with
            launch := t.launch, team := t.teamNo, detail := BitVec.ofNat 64 slot, aux := BitVec.ofNat 64 x.va }
          .next (unitFault (updTeam s tid fun t => { t with aliased := true }) t.ctx (stackOf t.core) (some tid) r)

/-! Queues (R348 to R351). -/

/-- QTAIL_DOORBELL (R349). -/
def execQtailDoorbell (p q tail : Nat) (s : State) : Out :=
  .next (if portOpen s false then putQueue s p q { queueOf s p q with tail := tail % 65536 } else s)

/-- RING_ENTRY_MOVE (R349): the entry at HEAD enters the hardware queue while it has room. A launch that arrives in
state 1 returns the device to run (R441). -/
def execRingEntryMove (p q : Nat) (s : State) : Out :=
  let x := queueOf s p q
  let n := 2 ^ x.log2n
  if !x.en || !x.host || x.head % n == x.tail % n || decide (32 ≤ x.entries.length) then .next s
  else
    let at_ := hostKey + x.ring * 4096 + 128 * (x.head % n)
    let s := (readSpan s at_ 128 0).1
    let e : QEntry :=
      { words := wordsOf s.mem at_ 32, addr := none, ctx := x.ctx, ident := 0,
        parent := none }
    .next (putQueue { s with pstate := if s.pstate = 1 then 0 else s.pstate } p q
      { x with entries := x.entries ++ [e], head := (x.head + 1) % n })

/-- The words of a descriptor at a global address, read through the context's translation. -/
def readDesc (s : State) (core c va : Nat) : Option (List Word) :=
  match (checkAccess s core c va 128 .read anyFmt (natural 64)).2,
        (checkAccess s core c (va + 64) 64 .read anyFmt (natural 64)).2 with
  | .ok a, .ok b =>
    let m := (mergeAll s).mem
    some (wordsOf m a.key 16 ++ wordsOf m b.key 16)
  | _, _ => none

/-- A launch of an entry, numbered, with its code as it stands now (R351, R152). -/
def startLaunch (s : State) (part queue ctx ident : Nat) (desc : List Word) (parent : Option Nat) (handler : Bool) :
    Launch × State :=
  let n : Nat × State := if ident = 0 then nextIdent s part else (ident, s)
  let c := snapshot n.2
  let l : Launch := { part := part, queue := queue, ctx := ctx, ident := n.1, desc := desc, code := c.1, nextLin := 0,
                      left := 0, count := 1, parent := parent, handler := handler }
  ({ l with left := l.clusters },
   { c.2 with launchCtx := tput c.2.launchCtx (part * 2 ^ 32 + n.1) ctx })

/-- A head with WEN arms its wait, or tries again later (R350). -/
def armHead (s : State) (p q : Nat) (l : Launch) : State :=
  if bit (nthW l.desc 10) 4 then
    match evArm s p (l.f 11 0 16) (.head q) with
    | some s => putQueue s p q { queueOf s p q with armed := true }
    | none => s
  else s

/-- QUEUE_HEAD (R347, R350, R351): the first entry becomes head, is numbered and checked, and arms its wait; a launch that
fails a check completes at once. -/
def execQueueHead (p q : Nat) (s : State) : Out :=
  let x := queueOf s p q
  match x.headLaunch with
  | some lid =>
    (match tget s.launches lid with
     | some l => if x.armed then .next s else .next (armHead s p q l)
     | none => .next s)
  | none =>
    match x.entries with
    | [] => .next s
    | e :: es =>
      if !x.en || !ctxValid s e.ctx || ctxPart s e.ctx ≠ p then .next s
      else match (match e.addr with
          | none => some e.words
          | some va => readDesc s (seqCore s p) e.ctx va) with
        | none => .next s
        | some ws =>
          let (l, s) := startLaunch s p q e.ctx e.ident ws e.parent false
          let code := descCode s l
          if code ≠ 0 then
            .next (finishLaunch (s.launches.length + 2) (putQueue s p q { x with entries := es }) l code)
          else
            let lid := s.fresh
            let s := bump { s with launches := tput s.launches lid l }
            .next (armHead (putQueue s p q { x with headLaunch := some lid, armed := false, signalled := false }) p q l)

/-! Placement (R353). -/

/-- Work to place: a launch, and a saved cluster of it, or its next cluster. -/
structure Due1 where
  lid : Nat
  l : Launch
  cid : Option Nat
  lin : Nat

/-- Saved clusters of a launch, the first in linear order. -/
def firstSaved (s : State) (lid : Nat) : Option (Nat × SavedCluster) :=
  leastBy (fun p => p.2.cluster.lin) (s.saved.filter fun p => p.2.cluster.lid == lid)

/-- The next cluster of a launch (R350, R363): saved ones first. -/
def nextCluster (s : State) (lid : Nat) (l : Launch) : Option Due1 :=
  if haltedCtx s l.ctx then none
  else match firstSaved s lid with
    | some (cid, c) => some { lid := lid, l := l, cid := some cid, lin := c.cluster.lin }
    | none =>
      let x := queueOf s l.part l.queue
      if x.headLaunch = some lid ∧ (bit (nthW l.desc 10) 4 = false ∨ x.signalled = true) ∧ l.nextLin < l.clusters then
        some { lid := lid, l := l, cid := none, lin := l.nextLin }
      else none

/-- What a queue has to place: the next cluster of each of its launches, the oldest first. -/
def queueDues (s : State) (p q : Nat) : List Due1 :=
  s.launches.filterMap fun x =>
    if x.2.part = p ∧ x.2.queue = q ∧ x.2.handler = false then nextCluster s x.1 x.2 else none

/-- A saved team of the work at a cluster position. -/
def Due1.savedAt (s : State) (d : Due1) (tx ty : Nat) : Option SavedTeam :=
  match d.cid.bind (tget s.saved) with
  | some c => c.saved.find? fun t => t.team.tx == tx && t.team.ty == ty
  | none => none
/-- The position holds a team to place. -/
def Due1.hasTeam (s : State) (d : Due1) (tx ty : Nat) : Bool := d.cid.isNone || (d.savedAt s tx ty).isSome

/-- Groups that a team of the work brings to a wedge. -/
def Due1.groupsOn (s : State) (d : Due1) (tx ty wd : Nat) : Nat :=
  match d.savedAt s tx ty with
  | some t => if t.flushed then onWedge d.l.ngrp wd else (t.groups.filter fun g => g.2.id.grp % 4 == wd).length
  | none => onWedge d.l.ngrp wd
def Due1.ownsB (s : State) (d : Due1) (tx ty : Nat) : Bool :=
  match d.savedAt s tx ty with
  | some t => t.bstore.isSome
  | none => false

/-- A core meets the conditions of R353 for a team of the work. -/
def coreFits (s : State) (d : Due1) (core tx ty : Nat) : Bool :=
  !degraded s core && (match bankFor s core d.l.ctx with
    | none => false
    | some b => (List.range 4).all fun wd => wedgeRoom s core b wd (d.groupsOn s tx ty wd) d.l.nv d.l.nhr d.l.ncr)
    && decide (d.l.scrg ≤ (lentGranules s core).length) && (!d.ownsB s tx ty || (tget s.bowner core).isNone)

/-- A rectangle meets them for the whole cluster. -/
def rectFits (s : State) (d : Due1) (quad x y : Nat) : Bool :=
  (partQuads s d.l.part).contains quad && decide (x + d.l.w ≤ 12) && decide (y + d.l.h ≤ 6)
    && (List.range d.l.h).all fun ty => (List.range d.l.w).all fun tx =>
      coreFits s d (coreAt quad (x + tx) (y + ty)) tx ty
/-- Some rectangle of the partition does. -/
def fitsSomewhere (s : State) (d : Due1) : Bool :=
  (partQuads s d.l.part).any fun q => (origins d.l.w d.l.h).any fun o => rectFits s d q o.1 o.2

/-- Granules for a team, lowest first (log 121), with what R88 gives their bytes, and without the L1 lines that were in them; `zero`
clears them all. -/
def takeGranules (s : State) (core tid ctx n : Nat) (zero : Bool) : List Nat × State :=
  let is := (lentGranules s core).take n
  let s := { s with l1 := s.l1.filter fun p => !(p.1 / 2 ^ 60 == core && is.contains p.2.gran) }
  (is, is.foldl (fun s i =>
    let keep := !zero && (granOf s core i).lastCtx == some ctx
    { s with granules := tput s.granules (granKey core i) { owner := some tid, lastCtx := none }
             scr := if keep then s.scr else zeroRange s.scr (core * 2 ^ 22 + i * 65536) 65536 }) s)

/-- The names and facts of a group of a launch (R51). -/
def groupId (s : State) (l : Launch) (c : Cluster) (tid tx ty gi : Nat) : GroupId :=
  { ctx := l.ctx, tid := some tid, launch := l.ident, teamNo := c.lin * (l.w * l.h) + ty * l.w + tx, grp := gi,
    ngrp := l.ngrp, tx := tx, ty := ty, nw := l.w, nh := l.h, cx := c.lin % l.gx, cy := c.lin / l.gx % l.gy,
    cz := c.lin / l.gx / l.gy, gx := l.gx, gy := l.gy, gz := l.gz, sup := ctxSup s l.ctx || l.handler,
    handler := l.handler, codeBase := l.codeBase, entry := l.entry,
    trapEntry := trapEntryOf s (seqCore s l.part) l.ctx l.code l.codeBase l.entry, code := l.code, nv := l.nv,
    nhr := l.nhr, ncr := l.ncr, frag := none }

/-- The groups of a team start at the kernel entry (R25, R45). -/
def seatTeam (s : State) (l : Launch) (c : Cluster) (tid core bank tx ty : Nat) : State :=
  (List.range l.ngrp).foldl (fun s gi =>
    let lane (k : Nat) : Option Lane := if 32 * gi + k < l.lanes then some (Lane.born l.entry) else none
    let g := Group.born (groupId s l c tid tx ty gi) core bank (gi % 4) (freePlace s core bank (gi % 4)) lane
      ((l.desc.drop 16).take 15) (l.f 0 18 2)
    seatGroup (bump s) s.fresh g) s

/-- A core with no bank selected takes the one that work comes into, while the sequencer selects banks (R324, R355). -/
def noteBank (s : State) (core bank p : Nat) : State :=
  if (banksOf s core).selected.isNone && !bankPol s p then selectBank s core bank else s

/-- A team starts on a core, or starts afresh there (R365). -/
def placeTeam (s : State) (l : Launch) (lid cid : Nat) (c : Cluster) (tid core bank tx ty : Nat) (zero : Bool) : State :=
  let s := bindFor s core bank l.ctx
  let g := takeGranules s core tid l.ctx l.scrg zero
  let t : Team :=
    { ctx := l.ctx, part := l.part, lid := lid, cid := cid, launch := l.ident,
      teamNo := c.lin * (l.w * l.h) + ty * l.w + tx, core := core, bank := bank, tx := tx, ty := ty, left := l.ngrp,
      grans := g.1, idem := l.f 0 17 1 == 1 && !l.handler, handler := l.handler, posts := [], met := [], aliased := false,
      ended := [] }
  let s := seatTeam { g.2 with teams := tput g.2.teams tid t } l c tid core bank tx ty
  noteBank (emit s 0x01 (stackOf core) l.part srcSequencer core { Names.none with launch := l.ident, team := t.teamNo })
    core bank l.part

/-- Whether a command belongs to the matrix queue. -/
def matrixCmd (x : Cmd) : Bool := decide (x.kind = .mbLd ∨ x.kind = .mbZero ∨ x.kind = .mmx ∨ x.kind = .lut)

/-- A saved team comes back on a core (R363): its state is put back, its captures re-enter, its commands continue. Its new
core has seen what the old one had. -/
def restoreTeam (s : State) (l : Launch) (x : SavedTeam) (core bank : Nat) : State :=
  let tid := x.tid
  let s := bindFor s core bank l.ctx
  let g := takeGranules s core tid l.ctx x.team.grans.length true
  let t := { x.team with core := core, bank := bank, grans := g.1 }
  let key (off : Nat) : Nat := core * 2 ^ 22 + g.1.getD (off / 65536) 0 * 65536 + off % 65536
  let s := { g.2 with
    teams := tput g.2.teams tid t
    scr := x.scratch.foldl (fun m b => wrByte m (key b.1) b.2) g.2.scr
    bst := match x.bstore with
      | some bs => bs.foldl (fun m b => wrByte m (core * 2 ^ 22 + b.1) b.2) g.2.bst
      | none => g.2.bst
    bowner := if x.bstore.isSome then tput g.2.bowner core tid else g.2.bowner
    cmds := g.2.cmds.map fun c => if c.2.tid = some tid then (c.1, { c.2 with core := core }) else c }
  let s := x.groups.foldl (fun s p =>
    seatGroup s p.1 { p.2 with core := core, bank := bank, wedge := p.2.id.grp % 4,
                               slot := freePlace s core bank (p.2.id.grp % 4) }) s
  let s := ((s.caps.filter fun c => c.2.team == some tid && c.2.cancelled).map (·.1)).foldl reenter (acquire s core)
  noteBank (emit s 0x04 (stackOf core) l.part srcSequencer core { Names.none with launch := t.launch, team := t.teamNo })
    core bank l.part

/-- A cluster is placed with its origin (R353, R354, R363). -/
def placeCluster (s : State) (d : Due1) (quad x y : Nat) : State :=
  let l := d.l
  let cores := (List.range l.h).flatMap fun ty => (List.range l.w).map fun tx => (tx, ty, coreAt quad (x + tx) (y + ty))
  match d.cid.bind fun k => (tget s.saved k).map fun c => (k, c) with
  | some (cid, sc) =>
    let c := { sc.cluster with quad := quad, x0 := x, y0 := y }
    let s := { s with saved := cdel s.saved cid, clusters := tput s.clusters cid c }
    cores.foldl (fun s q =>
      match sc.saved.find? fun t => t.team.tx == q.1 && t.team.ty == q.2.1, bankFor s q.2.2 l.ctx with
      | some t, some b =>
        if t.flushed then placeTeam s l d.lid cid c t.tid q.2.2 b q.1 q.2.1 true else restoreTeam s l t q.2.2 b
      | _, _ => s) s
  | none =>
    let cid := s.fresh
    let n := l.w * l.h
    let c : Cluster := { lid := d.lid, part := l.part, ctx := l.ctx, lin := d.lin, quad := quad, x0 := x, y0 := y, w := l.w,
                         h := l.h, left := n, teams := (List.range n).map (cid + 1 + ·), arrivals := [] }
    let s := { s with fresh := cid + n + 1, clusters := tput s.clusters cid c
                      launches := tput s.launches d.lid { l with nextLin := d.lin + 1 } }
    let s := (List.range n).foldl (fun s i =>
      let q := cores.getD i (0, 0, 0)
      match bankFor s q.2.2 l.ctx with
      | some b => placeTeam s l d.lid cid c (cid + 1 + i) q.2.2 b q.1 q.2.1 false
      | none => s) s
    if d.lin + 1 < l.clusters then s
    else
      let x := queueOf s l.part l.queue
      putQueue s l.part l.queue { x with headLaunch := none, entries := x.entries.tail, armed := false, signalled := false }

/-! Vacating (R361 to R365). -/

/-- Bytes of a saved team, in whole granules of 64 KiB (R362). -/
def teamGranules (s : State) (tid : Nat) (t : Team) : Nat :=
  let gs := s.groups.filter fun p => p.2.id.tid == some tid
  let regs := (gs.map fun p => vecBytes p.2.id.nv + hypBytes p.2.id.nhr p.2.id.ncr + 4096).sum
  ceilDiv (regs + 4096) 65536 + t.grans.length + (if tget s.bowner t.core = some tid then 64 else 0)

/-- Granules of the save area in use in a partition, and its size (R348, R362). -/
def savedGranules (s : State) (p : Nat) : Nat :=
  ((s.saved.filter fun c => c.2.cluster.part == p).map fun c => c.2.granules).sum
def saveArea (s : State) (p : Nat) : Nat := fld (regGet s (kPart p 0x214)) 0 16

/-- Resident teams of a cluster. -/
def clusterTeams (s : State) (c : Cluster) : List (Nat × Team) :=
  c.teams.filterMap fun t => (tget s.teams t).map fun x => (t, x)
/-- Teams of a cluster that would be saved, and the granules they need. -/
def toSave (s : State) (c : Cluster) : List (Nat × Team) := (clusterTeams s c).filter fun p => !p.2.idem
def granulesOfCluster (s : State) (c : Cluster) : Nat := ((toSave s c).map fun p => teamGranules s p.1 p.2).sum
/-- The saved teams of clusters fit the free part of the save area. -/
def savesFit (s : State) (p : Nat) (cs : List Nat) : Bool :=
  decide (savedGranules s p + (cs.map fun k =>
    match tget s.clusters k with
    | some c => granulesOfCluster s c
    | none => 0).sum ≤ saveArea s p)

/-- A symbolic Annulus load of a cluster is still to be captured, so its symbol is not yet delivered (R61, R361); one that
a halt has cancelled is saved as it stands (R366). -/
def symsOutstanding (s : State) (cs : List Nat) : Bool :=
  s.caps.any fun p => p.2.kind == 5 && !p.2.cancelled && match p.2.team.bind (tget s.teams) with
    | some t => cs.contains t.cid
    | none => false

/-- A group as it is saved (R361): results of accesses already issued written, symbols delivered. -/
def Group.atRest (g : Group) : Group :=
  let g := (g.ops.filter fun o => !o.2.ext).foldl (fun g o => g.finishOp o.1) g
  (g.syms.filter fun y => y.2.known && !y.2.delivered).foldl (fun g y => g.deliver y.1) g

/-- The vertical buses that a team's state travels by are held on a core (R387, R390). -/
def moveHeld (s : State) (core bank : Nat) (ownsB : Bool) : Bool :=
  busHeld s core 0 || busHeld s core (4 + bank) || (ownsB && busHeld s core 1)
/-- A cluster may leave its cores: its groups stand between instructions, its symbols are delivered (R61), its copy-engine
commands stand at a sector boundary (R289), and the buses are free (R387). -/
def mayVacate (s : State) (cid : Nat) : Bool :=
  !symsOutstanding s [cid] && match tget s.clusters cid with
    | none => true
    | some c => (c.teams.filterMap fun t => (tget s.teams t).map fun x => (t, x)).all fun p =>
        !moveHeld s p.2.core p.2.bank (tget s.bowner p.2.core == some p.1)
          && !(s.groups.any fun g => g.2.id.tid == some p.1 && inCourse s g.2)
          && s.cmds.all fun q => q.2.tid != some p.1 || !engineKind q.2.kind || q.2.kind == .coll || !q.2.midSector
              || (match q.2.stage with
                | .taken _ => false
                | _ => true)

/-- The free places of a bank's active sets are filled (R34). -/
def refill (s : State) (core bank : Nat) : State :=
  (List.range 32).foldl (fun s i => fillActive s core bank (i % 4)) s

/-- A team is flushed (R365). -/
def flushTeam (s : State) (tid : Nat) (t : Team) : State × SavedTeam :=
  let s := landAll s
  let gs := (s.groups.filter fun p => p.2.id.tid == some tid).map (·.1)
  let s := gs.foldl dropGroup s
  let s := { s with caps := s.caps.filter fun c => c.2.team != some tid
                    cmds := s.cmds.filter fun c => c.2.tid != some tid
                    defs := s.defs.filter fun x => x.2.tid != some tid
                    teams := cdel s.teams tid }
  (freeB (freeScratch s t false) t.core tid,
   { tid := tid, team := t, groups := [], scratch := [], bstore := none, flushed := true })

/-- A command of a saved team (R289): its engine is free, and it goes on in another; a joined COLL keeps its contribution
where it is. -/
def Cmd.saved (x : Cmd) : Cmd :=
  if engineKind x.kind && !(x.kind == .coll && x.begun) then
    match x.stage with
    | .taken _ => { x with stage := .aside }
    | .stopped _ => { x with stage := .aside }
    | _ => x
  else x

/-- A team is saved (R361), its commands' writes with it. Captures due in this very clock complete, and the others are cancelled (R150). -/
def saveTeam (s : State) (tid : Nat) (t : Team) : State × SavedTeam :=
  let s := passDue (landAll s) t.core fun c => c.team == some tid
  let t := { (tget s.teams tid).getD t with ended := [] }
  let gs := (s.groups.filter fun p => p.2.id.tid == some tid).map fun p => (p.1, p.2.atRest)
  let cells (m : List Host.Cell) (base n off : Nat) : List Host.Cell :=
    (m.filter fun c => decide (base ≤ c.1) && decide (c.1 < base + n)).map fun c => (c.1 - base + off, c.2)
  let owns := tget s.bowner t.core == some tid
  let x : SavedTeam :=
    { tid := tid, team := t, groups := gs
      scratch := (t.grans.mapIdx fun i g => cells s.scr (t.core * 2 ^ 22 + g * 65536) 65536 (i * 65536)).flatten
      bstore := if owns then some (cells s.bst (t.core * 2 ^ 22) (2 ^ 22) 0) else none
      flushed := false }
  let s := emit s 0x03 (stackOf t.core) t.part srcSequencer t.core { Names.none with launch := t.launch, team := t.teamNo }
  let s := { s with
    groups := s.groups.filter fun p => p.2.id.tid != some tid
    teams := cdel s.teams tid
    msgs := s.msgs.map fun m =>
      if m.2.ctx = t.ctx ∧ m.2.launch = t.launch ∧ m.2.team = t.teamNo then (m.1, { m.2 with held := none }) else m
    vlreqs := s.vlreqs.filter fun r => !s.cmds.any fun c => r.2.cmd == some c.1 && c.2.tid == some tid
    cmds := s.cmds.map fun c => if c.2.tid = some tid then (c.1, c.2.saved) else c }
  let s := cancelCaps s fun _ c => c.team == some tid
  (freeB (freeScratch s t false) t.core tid, x)

/-- A cluster is taken off its cores (R361): idempotent teams are flushed, their barrier arrivals with them (R365), the
others saved. -/
def vacateCluster (s : State) (cid : Nat) : State :=
  match tget s.clusters cid with
  | none => s
  | some c =>
    let ts := clusterTeams s c
    let n := granulesOfCluster s c
    let r := ts.foldl (fun (r : State × List SavedTeam) p =>
      let q := if p.2.idem then flushTeam r.1 p.1 p.2 else saveTeam r.1 p.1 p.2
      (q.1, r.2 ++ [q.2])) (s, [])
    let c := { c with arrivals := c.arrivals.filter fun a => !ts.any fun t => t.1 == a.1 && t.2.idem }
    let s := { r.1 with clusters := cdel r.1.clusters cid
                        leavers := r.1.leavers.filter fun p => p.1 != cid
                        saved := tput r.1.saved cid { cid := cid, cluster := c, saved := r.2, granules := n } }
    ts.foldl (fun s p => refill s p.2.core p.2.bank) s

/-- A cluster may be pre-empted by a request of a priority (R358). -/
def preemptible (s : State) (c : Cluster) (prio : Nat) : Bool :=
  match tget s.launches c.lid with
  | some l => decide ((queueOf s l.part l.queue).prio < prio) && !ctxSup s l.ctx && !l.handler
  | none => false

/-- PRIO of a queue's work. -/
def Due1.prio (s : State) (d : Due1) : Nat := (queueOf s d.l.part d.l.queue).prio

/-- Clusters with a team on one of the cores. -/
def overlapping (s : State) (cores : List Nat) : List (Nat × Cluster) :=
  s.clusters.filter fun c => (clusterTeams s c.2).any fun t => cores.contains t.2.core

/-- The cores of the resident teams of clusters, each once: those that vacating them vacates. -/
def coresOf (s : State) (cids : List Nat) : List Nat :=
  (cids.flatMap fun k => match tget s.clusters k with
    | some c => (clusterTeams s c).map fun t => t.2.core
    | none => []).eraseDups

/-- What pre-empting for a head at a rectangle takes: the clusters, the cores vacated, the teams to save (R360). -/
def headRoom (s : State) (d : Due1) (quad x y : Nat) : Option (List Nat × Nat × Nat) :=
  let cores := rectCores quad x y d.l.w d.l.h
  let vs := (overlapping s cores).filter fun c => preemptible s c.2 (d.prio s)
  let cids := vs.map (·.1)
  if cids.isEmpty || !savesFit s d.l.part cids then none
  else if rectFits (cids.foldl vacateCluster s) d quad x y then
    some (cids, (coresOf s cids).length, (vs.map fun c => (toSave s c.2).length).sum)
  else none

/-- The rectangle that R360 chooses: fewest cores, fewest teams to save, lowest quadrant, row, column. -/
def headChoice (s : State) (d : Due1) : Option (Nat × Nat × Nat × List Nat) :=
  ((partQuads s d.l.part).flatMap fun q => (origins d.l.w d.l.h).filterMap fun o =>
    (headRoom s d q o.1 o.2).map fun r => (r.2.1, r.2.2, q, o.1, o.2, r.1)).foldl
    (fun (b : Option (Nat × Nat × Nat × Nat × Nat × List Nat)) r =>
      match b with
      | none => some r
      | some c => if r.1 < c.1 ∨ (r.1 = c.1 ∧ r.2.1 < c.2.1) then some r else b) none
    |>.map fun r => (r.2.2.1, r.2.2.2.1, r.2.2.2.2.1, r.2.2.2.2.2)

/-- A queue's work can be placed, by pre-emption if its queue has PRE (R350, R360). -/
def canPlace (s : State) (d : Due1) : Bool :=
  fitsSomewhere s d || (d.cid.isNone && (queueOf s d.l.part d.l.queue).pre && (headChoice s d).isSome)

/-- The queue whose turn it is (R350): the highest PRIO with a cluster that can be placed, equal PRIO by rotation. -/
def queueTurn (s : State) (p : Nat) : Option (Nat × Due1) :=
  let last := cget 0 s.rotq p
  let qs := (List.range 64).map fun i => (last + 1 + i) % 64
  (qs.filterMap fun q => ((queueDues s p q).find? (canPlace s)).map fun d => (q, d)).foldl
    (fun (b : Option (Nat × Due1)) x =>
      match b with
      | none => some x
      | some y => if y.2.prio s < x.2.prio s then some x else b) none

/-- The buses of a rectangle's cores are free for what a placement writes (R387, R390). -/
def rectFree (s : State) (d : Due1) (quad x y : Nat) : Bool :=
  (List.range d.l.h).all fun ty => (List.range d.l.w).all fun tx =>
    let core := coreAt quad (x + tx) (y + ty)
    !moveHeld s core ((bankFor s core d.l.ctx).getD 0) (d.ownsB s tx ty)

/-- The clusters that leave their cores for a head of a partition (R360). -/
def markLeavers (s : State) (p : Nat) (cids : List Nat) : State :=
  { s with leavers := (s.leavers.filter fun x => x.2 != p) ++ cids.map fun k => (k, p) }

/-- CLUSTER_PLACEMENT (R350, R353, R354, R360, R363): the sequencer places one cluster at an origin that qualifies, or
pre-empts for a head of a queue with PRE: the clusters of the rectangle stop issuing, and leave once they may (R361). -/
def execClusterPlacement (p q quad x y : Nat) (s : State) : Out :=
  if s.pstate ≠ 0 then .next s
  else match queueTurn s p with
    | none => .next (markLeavers s p [])
    | some (k, d) =>
      if k ≠ q then .next s
      else
        let s2 := { markLeavers s p [] with rotq := cset 0 s.rotq p q }
        if !rectFree s d quad x y then .next s
        else if rectFits s d quad x y then .next (placeCluster s2 d quad x y)
        else if fitsSomewhere s d then .next (markLeavers s p [])
        else match headChoice s d with
          | some (cq, cx, cy, cids) =>
            if cq = quad ∧ cx = x ∧ cy = y then
              (if cids.all (mayVacate s) then .next (placeCluster (cids.foldl vacateCluster s2) d quad x y)
               else .next (markLeavers s p cids))
            else .next s
          | none => .next s

/-! Banks (R355). -/

/-- A bank may be selected: bound, its context not halted, and with a group that is ready. -/
def bankRunnable (s : State) (core bank : Nat) : Bool :=
  match boundTo s core bank with
  | none => false
  | some c => !haltedCtx s c
      && s.groups.any fun p => p.2.core == core && p.2.bank == bank && p.2.ready

/-- The rank of a bank's context: the highest PRIO of the queues of its running launches. -/
def bankRank (s : State) (core bank : Nat) : Nat :=
  match boundTo s core bank with
  | none => 0
  | some c => ((s.launches.filter fun l => l.2.ctx == c && !l.2.handler).map fun l =>
      (queueOf s l.2.part l.2.queue).prio).foldl max 0

/-- The bank of a running handler team stays selected. -/
def handlerHolds (s : State) (core : Nat) : Bool := s.teams.any fun t => t.2.handler && t.2.core == core

/-- BANK_ROTATION (R355): a core selects the runnable bank whose context ranks highest; banks of equal rank take turns
every SLICE microseconds. -/
def execBankRotation (core bank : Nat) (s : State) : Out :=
  match partOfQuad s (quadOf core) with
  | none => .next s
  | some p =>
    let b := banksOf s core
    let run (k : Nat) : Bool := bankRunnable s core k
    let slice := fld (regGet s (kPart p 0x200)) 4 8
    if bankPol s p || handlerHolds s core || !run bank || b.selected == some bank
        || (List.range 4).any (fun k => run k && decide (bankRank s core bank < bankRank s core k)) then .next s
    else match b.selected with
      | none => .next (selectBank s core bank)
      | some cur =>
        if run cur && bankRank s core cur == bankRank s core bank then
          let turn := ((List.range 3).map fun i => (cur + 1 + i) % 4).find? fun k =>
            run k && bankRank s core k == bankRank s core cur
          if slice ≠ 0 ∧ b.since + 1000 * slice ≤ s.time ∧ turn = some bank then .next (selectBank s core bank) else .next s
        else .next (selectBank s core bank)

/-! Pre-emption by request (R359). -/

/-- The first set of clusters of a list, in its order of preference, whose cores number exactly `n`; `have_` are the cores
of those already taken. -/
def pickSet (n : Nat) : List (Nat × List Nat) → List Nat → Option (List Nat)
  | [], have_ => if have_.length = n then some [] else none
  | (cid, ks) :: t, have_ =>
    if have_.length = n then some []
    else
      let u := have_ ++ ks.filter fun k => !have_.contains k
      if u.length ≤ n then
        match pickSet n t u with
        | some r => some (cid :: r)
        | none => pickSet n t have_
      else pickSet n t have_

/-- A cluster put among others: those whose teams are all idempotent first, then the youngest launch (R359). -/
def insertPref (s : State) (c : Nat × Cluster) : List (Nat × Cluster) → List (Nat × Cluster)
  | [] => [c]
  | x :: t =>
    let idle (c : Nat × Cluster) : Bool := (toSave s c.2).isEmpty
    if (idle c && !idle x) || (idle c == idle x && decide (x.2.lid < c.2.lid)) then c :: x :: t else x :: insertPref s c t

/-- PREEMPT_REQUEST (R359): a written request looks for its set; with none, or without room to save it, it fails. -/
def execPreemptRequest (p : Nat) (s : State) : Out :=
  match tget s.prestat p with
  | some (1, _, []) =>
    let w := regGet s (kPart p 0x220)
    let n := fld w 0 10
    let vs := (s.clusters.filter fun c => c.2.part == p && preemptible s c.2 (fld w 16 3)).foldl (fun t c => insertPref s c t) []
    (match (if n = 0 ∨ 576 < n then none else pickSet n (vs.map fun c => (c.1, coresOf s [c.1])) []) with
     | some cids =>
       if savesFit s p cids then .next { s with prestat := tput s.prestat p (1, 0, cids) }
       else .next { s with prestat := tput s.prestat p (3, 0, []) }
     | none => .next { s with prestat := tput s.prestat p (3, 0, []) })
  | _ => .next s

/-- VACATE_COMPLETE (R361): the save writes of a request's clusters are performed, and its cores count as vacated. -/
def execVacateComplete (p : Nat) (s : State) : Out :=
  match tget s.prestat p with
  | some (1, _, c :: cs) =>
    if !(c :: cs).all (mayVacate s) then .next s
    else
      let s := (c :: cs).foldl vacateCluster s
      .next { s with prestat := tput s.prestat p (2, fld (regGet s (kPart p 0x220)) 0 10, []) }
  | _ => .next s

/-! Named events. -/

/-- The first entry of the extension becomes an entry of the table. -/
def unextend : List EvEntry → List EvEntry
  | [] => []
  | e :: es => if e.ext then { e with ext := false } :: es else e :: unextend es

/-- EXTENSION_MOVE_BACK (R357). -/
def execExtensionMoveBack (p : Nat) (s : State) : Out :=
  let t := evTable s p
  if (t.filter fun e => !e.ext).length < 4096 then .next { s with events := tput s.events p (unextend t) } else .next s

end Sys2Proof.Machine
end

