-- ==== Sys2Proof/Machine/Halts.lean ====
section
/-! DEFINITION. Halts: the line reaches units and they stop (R375, R376, R379), the stop area (R377, R378, R380, R344),
the handler slot (R325, R326, R368), and lowering the line (R331, R382, R383). -/

namespace Sys2Proof.Machine

/-! Units that work for a context. -/

/-- A command of the context that its halt line stops. -/
def halts (s : State) (c : Nat) (x : Cmd) : Bool := x.ctx == c && aboardCore s x.tid && !ofHandler s x.tid
/-- A group of the context that its halt line stops. -/
def Group.haltsWith (g : Group) (c : Nat) : Bool := g.id.ctx == c && !g.id.handler
/-- A capture or watch of the context that its halt line cancels. -/
def capHalts (s : State) (c : Nat) (x : Capture) : Bool := x.ctx == c && !x.cancelled && !ofHandler s x.team
/-- A command run by a core's request engine. -/
def atRequest (x : Cmd) : Bool := decide (x.kind = .list ∨ x.kind = .msg ∨ x.kind = .putSig ∨ x.kind = .getp)
/-- Triangles of a context sent to a raster engine whose groups it has not begun to launch: not set up there, or set up with
none of the groups launched (R379). -/
def trisWaiting (s : State) (c quad : Nat) : List Tri :=
  (s.tris.filter fun p => p.2.ctx == c && (p.2.quads.contains quad ||
    (let mine := s.plans.filter fun x => x.2.tri == p.1 && x.2.quad == quad
     !mine.isEmpty && mine.all fun x => !x.2.launched))).map (·.2)

/-- Source numbers of the units that work for a context (R376). -/
def workUnits (s : State) (c : Nat) : List Nat :=
  ((s.groups.filter fun p => p.2.haltsWith c).map fun p => srcWedge p.2.core p.2.wedge)
    ++ ((s.caps.filter fun p => capHalts s c p.2).map fun p => srcStation (p.1 / 2 ^ 40))
    ++ (s.cmds.filterMap fun p =>
      if !halts s c p.2 then none
      else if engineKind p.2.kind then (match p.2.stage with
        | .queued => some (srcRequest p.2.core)
        | .aside => some (srcRequest p.2.core)
        | _ => some p.2.source)
      else if matrixCmd p.2 then some (srcMatrix p.2.core)
      else if atRequest p.2 || (p.2.kind == .rast && p.2.stage == .queued) then some (srcRequest p.2.core)
      else none)
    ++ ((List.range 8).filter fun q => !(trisWaiting s c q).isEmpty
        || s.plans.any fun p => p.2.ctx == c && p.2.quad == q && !p.2.launched).map srcRaster

/-- A change to a raised line. -/
def updHalt (s : State) (c : Nat) (f : Halt → Halt) : State :=
  let x := ctxOf s c
  putCtx s c { x with halt := x.halt.map f }
/-- A unit has stopped under a context's halt. -/
def markStopped (s : State) (c u : Nat) : State :=
  updHalt s c fun h => { h with stopped := if h.stopped.contains u then h.stopped else u :: h.stopped }

/-! The line reaches a unit. -/

/-- Captures and watches of the context that stand at a station are cancelled; those due at this clock complete
(R150, R376). Each group's cancelled ones are counted in the station's record for it (R379, R381). -/
def stopStation (s : State) (c core : Nat) : State :=
  let s := passDue s core (capHalts s c)
  let gone := s.caps.filter fun p => p.1 / 2 ^ 40 == core && capHalts s c p.2
  let s := cancelCaps s fun k _ => gone.any fun p => p.1 == k
  gone.foldl (fun s p =>
    let r := stationRec s core { p.2 with slot := 0, line := 0 } 0
    let nc := if p.2.kind = 4 then 0 else 1
    updHalt s c fun h =>
      let mine (q : StopRec) : Bool :=
        q.kind == 4 && q.source == r.source && q.handle == r.handle && q.team == r.team && q.group == r.group
          && q.launch == r.launch && q.cause == 0
      if h.recs.any mine then
        { h with recs := h.recs.map fun q =>
            if mine q then { q with detail := q.detail + BitVec.ofNat 64 nc, pos := q.pos + BitVec.ofNat 64 (1 - nc) } else q }
      else { h with recs := h.recs ++ [{ r with detail := BitVec.ofNat 64 nc, pos := BitVec.ofNat 64 (1 - nc) }] }) s

/-- HALT_LINE_ARRIVAL (R376): the line reaches a unit, which begins its skid; a station stops at once. -/
def execHaltLineArrival (c u : Nat) (s : State) : Out :=
  match (ctxOf s c).halt with
  | none => .next s
  | some h =>
    if h.written || h.arrived.any (fun p => p.1 == u) then .next s
    else
      let s := updHalt s c fun h => { h with arrived := h.arrived ++ [(u, s.lclk)] }
      if srcStation 0 ≤ u ∧ u < srcStation 576 then .next (markStopped (stopStation s c (u - srcStation 0)) c u)
      else .next s

/-! A unit stops. -/

/-- The fragment of a group for a record without a cause: the lanes next to issue, or its live lanes. -/
def Group.nextLanes (g : Group) : Word :=
  match g.issueAddr with
  | some (_, a) => g.lanesAt a
  | none => maskOf ((lanesOf g.live).filter fun l => (g.lane l).pcv == g.pcOf g.live)

/-- A wedge stops: SKID enters its groups' records, and a group that issued in the skid without a cause gets a record
(R376, R379). -/
def stopWedge (s : State) (c u : Nat) : State :=
  let gs := s.groups.filter fun p => p.2.haltsWith c && srcWedge p.2.core p.2.wedge == u
  gs.foldl (fun s p =>
    let mine (r : StopRec) : Bool := r.kind == 0 && r.source == u && r.handle == p.2.handle
    let h := (ctxOf s c).halt
    let has := match h with
      | some h => h.recs.any mine
      | none => false
    if has then
      updHalt s c fun h => { h with recs := h.recs.map fun r => if mine r then { r with skid := min p.2.skid 0xFFFF } else r }
    else if p.2.skid ≠ 0 then
      addRec s c (groupRec s p.2 p.2.nextLanes 0 false false (p.2.pcOf p.2.nextLanes).toNat Detail.plain)
    else s) (stopStation s c (u / 4))

/-- A copy engine ends the sector that its command is in, and stops it (R376, R379). -/
def stopEngine (s : State) (c u : Nat) : State :=
  let ids := (s.cmds.filter fun p => halts s c p.2 && engineKind p.2.kind && p.2.source == u && (match p.2.stage with
    | .taken _ => true
    | _ => false)).map (·.1)
  ids.foldl (fun s id =>
    match tget s.cmds id with
    | none => s
    | some x =>
      let step := if x.kind = .copy then copyUnit else if x.kind = .tensor then tensorUnit else gatherUnit
      let s := if x.kind = .coll then collSteps id 256 s else runUnits step id 256 s
      match tget s.cmds id with
      | none => s
      | some x =>
        match x.stage with
        | .taken _ => addRec (stopCmd s id x) c (cmdRec s x 0 none)
        | _ => s) s

/-- A matrix array stops at the end of a dot step or table group (R376, R264). -/
def stopMatrix (s : State) (c core : Nat) : State :=
  match matrixHead s core with
  | none => s
  | some (id, x) =>
    if halts s c x && x.begun && decide (x.stage = .taken 0) then
      let x := { x with skid := match lineAt s c x.source with
        | some t => s.lclk - t
        | none => 0 }
      addRec (stopCmd s id x) c (cmdRec s x 0 none)
    else s

/-- A request engine stops: its list, and transfers that it has begun, have their records (R376, R379). -/
def stopRequest (s : State) (c core : Nat) : State :=
  (s.cmds.filter fun p => halts s c p.2 && p.2.core == core && atRequest p.2 && p.2.stage == .queued
      && (p.2.kind == .list || p.2.pos != 0)).foldl (fun s p => addRec s c (cmdRec s p.2 0 none)) s

/-- A raster engine has a group of a context that it can still launch. -/
def rasterCan (s : State) (c quad : Nat) : Bool :=
  match s.plans.find? fun p => p.2.quad == quad && !p.2.launched with
  | none => false
  | some (_, x) =>
    x.ctx == c && match bankFor s x.core c, tget s.tris x.tri with
      | some b, some t => (List.range 4).any fun w => wedgeRoom s x.core b w 1 (dsVregs t.ds) 0 0
      | _, _ => false

/-- A raster engine stops: the triangles that it has not begun have a record, under the names of the RAST command of the
first (R376, R379 to R381). -/
def stopRaster (s : State) (c quad : Nat) : State :=
  match trisWaiting s c quad with
  | [] => s
  | t :: ts =>
    let low := ts.foldl (fun (b t : Tri) => if t.seq < b.seq then t else b) t
    let r := match tget s.cmds low.cmd with
      | some x => { cmdRec s x 0 none with kind := 3, group := 0xFF, source := srcRaster quad }
      | none => unitRec s 3 0 (srcRaster quad)
    addRec s c { r with
      launch := low.launch
      skid := min 0xFFFF (s.plans.filter fun p => p.2.ctx == c && p.2.quad == quad && p.2.skid).length
      detail := BitVec.ofNat 64 low.seq, pos := BitVec.ofNat 64 (nthW low.words 13).toNat
      aux := BitVec.ofNat 64 (ts.length + 1) }

/-- SKID_STOP (R376): a unit that the line has reached stops at its bound and counts its skid. A raster engine first
launches every group of its current triangle. -/
def execSkidStop (c u : Nat) (s : State) : Out :=
  match (ctxOf s c).halt with
  | none => .next s
  | some h =>
    if h.written || h.stopped.contains u || !h.arrived.any (fun p => p.1 == u) then .next s
    else if u < srcMatrix 0 then
      .next (if s.groups.any fun p => p.2.haltsWith c && srcWedge p.2.core p.2.wedge == u && p.2.midst then s
        else markStopped (stopWedge s c u) c u)
    else if u < srcStation 0 then .next (markStopped (stopMatrix s c (u - srcMatrix 0)) c u)
    else if srcEngine 0 0 ≤ u ∧ u < srcRaster 0 then .next (markStopped (stopEngine s c u) c u)
    else if srcRaster 0 ≤ u ∧ u < srcDistributor then
      (if rasterCan s c (u - srcRaster 0) then .next s
       else .next (markStopped (stopRaster s c (u - srcRaster 0)) c u))
    else if srcRequest 0 ≤ u ∧ u < srcBank 0 then .next (markStopped (stopRequest s c (u - srcRequest 0)) c u)
    else .next (markStopped s c u)

/-! The stop area (R378, R380, R344). -/

/-- A field of a block: its value at its lowest bit. -/
def field (lo n v : Nat) : Nat := v % 2 ^ n * 2 ^ lo

/-- The 64 bytes of a stop record (R380). -/
def stopBlock (r : StopRec) : Nat :=
  field 448 64 r.time + field 416 32 r.launch + field 384 32 r.team + field 376 8 r.group + field 368 8 r.cause
    + field 364 4 r.kind
    + field 360 4 ((if r.frec.isSome then 1 else 0) + (if r.ltf then 2 else 0) + (if r.skidTrap then 4 else 0))
    + field 344 16 r.source + field 328 16 r.skid + field 288 32 r.handle + field 256 32 r.pc
    + field 224 32 r.lmask.toNat + field 192 32 r.sibmask.toNat + field 128 64 r.detail.toNat + field 64 64 r.pos.toNat
    + field 0 64 r.aux.toNat

/-- The 288 bytes of a fault record (R344). -/
def faultBlock (f : FaultRec) : Nat :=
  field 128 128 f.entry.toNat + field 64 64 f.time + field 32 32 f.lmask.toNat + field 28 4 f.kind + field 24 4 f.reason
    + field 20 4 f.level + field 0 16 f.source
    + (f.addrs.map fun p => field (256 + 64 * p.1) 64 p.2).sum

/-- The 384 bytes of a slot (R378). -/
def slotBlock (r : StopRec) : Nat :=
  stopBlock r + match r.frec with
    | some f => faultBlock f * 2 ^ 512
    | none => 0

/-- HCAUSE of R378: the highest-priority cause among the records, HALT or DBGSTOP if none has one. -/
def Halt.cause (h : Halt) : Nat :=
  (h.recs.foldl (fun (b : Option Nat) r =>
    if r.cause = 0 then b
    else match b with
      | none => some r.cause
      | some c => if causePrio r.cause < causePrio c then some r.cause else some c) none).getD h.base

/-- The header (R378), with CAP as it stands. -/
def headerBlock (h : Halt) (seq cap : Nat) : Nat :=
  field 192 64 h.time + field 160 32 seq + field 144 16 h.src + field 128 8 h.cause
    + field 96 32 (h.recs.length - cap) + field 64 32 (min h.recs.length cap) + field 0 32 cap

/-- A record goes before another (R379): by TIME, then by SOURCE. -/
def StopRec.before (a b : StopRec) : Bool := decide (a.time < b.time) || (a.time == b.time && decide (a.source < b.source))
/-- A record put in its place, after its equals. -/
def insertRec (r : StopRec) : List StopRec → List StopRec
  | [] => [r]
  | x :: t => if r.before x then r :: x :: t else x :: insertRec r t
def sortRecs (rs : List StopRec) : List StopRec := rs.foldl (fun t r => insertRec r t) []

/-- 64-byte pieces written in turn through a context's translation (R340); none is left out unless one fails. -/
def putPieces (core c : Nat) : Nat → Nat → Nat → State → State × Bool
  | 0, _, _, s => (s, true)
  | n + 1, va, v, s =>
    match checkAccess s core c va 64 .write anyFmt (natural 64) with
    | (s, .error _) => (s, false)
    | (s, .ok p) => putPieces core c n (va + 64) (v / 2 ^ 512) (writeSlice s p.key 64 (v % 2 ^ 512) (pteTid p.pte))

/-- Slots written in turn. -/
def putSlots (core c : Nat) : List StopRec → Nat → State → State × Bool
  | [], _, s => (s, true)
  | r :: rs, va, s =>
    match putPieces core c 6 va (slotBlock r) s with
    | (s, true) => putSlots core c rs (va + 384) s
    | (s, false) => (s, false)

/-- Address of a context's handler descriptor, where HDESC is in force (R328). -/
def handlerDesc (s : State) (c : Nat) : Option Nat :=
  let v := regGet64 s (kCtx c 0x52)
  if v % 2 = 1 then some (v / 2 ^ 16 % 2 ^ 40 * 2 ^ 16 + v / 64 % 64 * 64) else none

/-- The records in the order of their slots (R379): those placed before stay where they are, and those that came since
follow them (log 97). -/
def Halt.arranged (h : Halt) : Halt := { h with recs := h.recs.take h.placed ++ sortRecs (h.recs.drop h.placed) }

/-- The stop area of a halt whose records are arranged (R378); false where it cannot be written. -/
def putStopArea (s : State) (c : Nat) (h : Halt) : State × Bool :=
  match handlerDesc s c with
  | none => (s, false)
  | some va =>
    let core := seqCore s (ctxPart s c)
    match checkAccess s core c (va + 128) 64 .write anyFmt (natural 64) with
    | (s, .error _) => (s, false)
    | (s, .ok p) =>
      let r := readSlice s p.key 4 (pteTid p.pte)
      match putPieces core c 1 (va + 128) (headerBlock h (ctxOf s c).halts r.2) r.1 with
      | (s, false) => (s, false)
      | (s, true) => putSlots core c (h.recs.take r.2) (va + 192) s

/-- No handler runs for a halt: the host interrupt of SYS.CTXCTL is raised (R325, R377). -/
def noHandlerFor (s : State) (c : Nat) : State :=
  let s := updHalt s c fun h => { h with noHandler := true }
  { s with irqs := s.irqs ++ [c] }

/-- The stop area is written, and what the context has done up to the stop is released at system scope with it (R377). -/
def storeStopArea (s : State) (c : Nat) (h : Halt) : State × Bool :=
  let h := h.arranged
  let r := putStopArea s c h
  (publishAll (mergeAll (updHalt r.1 c fun x =>
    { x with recs := h.recs, placed := h.recs.length, written := true })), r.2)

/-- STOP_AREA_WRITE (R377): once every unit has stopped, the stop area is written and published. The record of a fault that
comes after that enters it later (R375, log 97). -/
def execStopAreaWrite (c : Nat) (s : State) : Out :=
  match (ctxOf s c).halt with
  | none => .next s
  | some h =>
    if h.written then
      .next (if h.placed < h.recs.length then (storeStopArea s c h).1 else s)
    else if !(workUnits s c).all (fun u => h.stopped.contains u) then .next s
    else
      let r := storeStopArea s c h
      let s := r.1
      if !r.2 || (handlerCore s (ctxPart s c)).isNone then .next (noHandlerFor s c)
      else if bit (regGet s (kCtx c 0x51)) 0 then .next { s with irqs := s.irqs ++ [c] }
      else .next s

/-! The handler slot (R325). -/

/-- The context whose handler runs next: the earliest halt, the lower number on equal TIME. -/
def nextHandled (s : State) (p : Nat) : Option Nat :=
  ((List.range 64).foldl (fun (b : Option (Nat × Nat)) c =>
    match (ctxOf s c).halt with
    | some h =>
      if ctxValid s c && ctxPart s c == p && h.written && !h.noHandler && (ctxOf s c).handler.isNone then
        (match b with
         | some x => if h.time < x.1 then some (h.time, c) else b
         | none => some (h.time, c))
      else b
    | none => b) none).map (·.2)

/-- A handler descriptor passes R347 and R325 on its core. -/
def handlerFits (s : State) (l : Launch) (core : Nat) : Bool :=
  descCode s l == 0 && l.gx == 1 && l.gy == 1 && l.gz == 1 && l.w == 1 && l.h == 1
    && decide (usableBanks s core = 4) && bankEmpty s core 3 && decide (l.scrg ≤ (lentGranules s core).length)
    && (List.range 4).all fun wd => wedgeRoom s core 3 wd (onWedge l.ngrp wd) l.nv l.nhr l.ncr

/-- The handler team is launched in bank 3 of its core. -/
def launchHandler (s : State) (p c core : Nat) (ws : List Word) : State :=
  let s := setBound s core 3 (some c)
  let s := selectBank s core 3
  let (l, s) := startLaunch s p 64 c 0 ws none true
  let lid := s.fresh
  let cl : Cluster := { lid := lid, part := p, ctx := c, lin := 0, quad := quadOf core, x0 := coreX core, y0 := coreY core,
                        w := 1, h := 1, left := 1, teams := [lid + 2], arrivals := [] }
  let s := { s with fresh := lid + 3, launches := tput s.launches lid { l with nextLin := 1 }
                    clusters := tput s.clusters (lid + 1) cl, slot := tput s.slot p c }
  let s := putCtx s c { ctxOf s c with handler := some (lid + 2), served := (ctxOf s c).halts }
  placeTeam s l lid (lid + 1) cl (lid + 2) core 3 0 0 false

/-- HANDLER_START (R325): with the slot free, the next halted context's descriptor is checked and its handler team
launched; one that cannot run is treated as HDESC.EN = 0. In state 1 the launch first returns the device to run (R441). -/
def execHandlerStart (p : Nat) (s : State) : Out :=
  if (tget s.slot p).isSome || decide (1 < s.pstate) then .next s
  else match nextHandled s p with
    | none => .next s
    | some c =>
      match handlerCore s p, (handlerDesc s c).bind fun va => readDesc s (seqCore s p) c va with
      | some core, some ws =>
        if busHeld s core 7 || busHeld s core 0 then .next s
        else
        let (l, _) := startLaunch s p 64 c 1 ws none true
        if handlerFits s l core then .next (launchHandler { s with pstate := 0 } p c core ws) else .next (noHandlerFor s c)
      | _, _ => .next (noHandlerFor s c)

/-- The handler core that the host's write of a mask, or the loss of bank 3, gives a partition (R326, R368). -/
def firstHandlerCore (s : State) (p : Nat) : Nat :=
  ((partCores s p).find? fun k => !degraded s k && usableBanks s k == 4).getD 0x3FF

/-- HANDLER_CORE_MOVE (R368): once the slot is free. -/
def execHandlerCoreMove (p : Nat) (s : State) : Out :=
  match handlerCore s p with
  | none => .next s
  | some k =>
    if (tget s.slot p).isSome || (usableBanks s k == 4 && !degraded s k) then .next s
    else .next (regSet s (kPart p 0x54) (word (firstHandlerCore s p)))

/-! The line is lowered (R331, R382, R383). -/

/-- A group that goes on after a halt: its masks are tested afresh, its skid and its held faults are over. -/
def Group.resumed (g : Group) : Group := { g with causeUp := false, faulted := 0, skid := 0 }.testMasks

/-- A command that stopped goes on where it stood. -/
def Cmd.resumed (x : Cmd) (begunTri : Bool) : Cmd :=
  match x.stage with
  | .stopped u =>
    if atRequest x || (x.kind == .rast && !begunTri) then { x with stage := .queued, skid := 0 }
    else { x with stage := .taken u, skid := 0 }
  | .aside => { x with skid := 0 }
  | _ => { x with skid := 0 }

/-- The halt line of a context is lowered: its work goes on, and cancelled captures replay (R150). -/
def lowerLine (s : State) (c : Nat) : State :=
  let s := putCtx s c { ctxOf s c with halt := none }
  let s := mapGroups s fun _ g => if g.haltsWith c then g.resumed else g
  let s := { s with
    cmds := s.cmds.map fun p =>
      if p.2.ctx = c then (p.1, p.2.resumed (s.tris.any fun t => t.2.cmd == p.1)) else p
    msgs := s.msgs.map fun p => if p.2.ctx = c then (p.1, { p.2 with refused := false }) else p
    plans := s.plans.map fun p => if p.2.ctx = c then (p.1, { p.2 with skid := false, failed := [] }) else p }
  let s := reenterCtx s c
  let s := (s.teams.filter fun t => t.2.ctx == c && !t.2.handler).foldl (fun s t => testTeamBars s t.1) s
  (s.clusters.filter fun x => x.2.ctx == c).foldl (fun s x => testClusterBars s x.1) s

end Sys2Proof.Machine
end

