-- ==== Sys2Proof/Machine/Regs.lean ====
section
/-! DEFINITION. System and special registers: what each reads and what a write does, for a supervisor group and for the
host's management window (R5, R48 to R51, R140, R200, R326 to R328, R348, R386, R394, R398, R402, R406, R412,
R416, R418, R419, R435, R438, R439), then `rdsr` and `wrsr`. -/

namespace Sys2Proof.Machine

/-! Fields. -/

/-- A word whose bits under a mask are written (R5). -/
def masked (old w m : Word) : Word := (old &&& ~~~m) ||| (w &&& m)
/-- A register's writable bits written. -/
def regField (s : State) (k : Nat) (w m : Word) : State := regSet s k (masked (regGet s k) w m)
/-- Bits of a register cleared by the ones of a write (R5). -/
def regClear (s : State) (k : Nat) (w m : Word) : State := regSet s k (regGet s k &&& ~~~(w &&& m))

/-- A half of a 64-bit register written (R326): the low word is held; with the high word the pair takes effect. `cur` is
the low word where none is held. -/
def pairWrite (s : State) (k : Nat) (high : Bool) (cur w : Word) (f : State → Nat → State) : State :=
  if high then f { s with held := cdel s.held k } (((tget s.held k).getD cur).toNat + 2 ^ 32 * w.toNat)
  else { s with held := tput s.held k w }

/-- A 64-bit register with writable bits. -/
def pairField (s : State) (k : Nat) (high : Bool) (w : Word) (m : Nat) : State :=
  pairWrite s k high (regGet s k) w fun s v =>
    regSet64 s k ((BitVec.ofNat 64 v &&& BitVec.ofNat 64 m) ||| (BitVec.ofNat 64 (regGet64 s k) &&& ~~~BitVec.ofNat 64 m)).toNat

/-- Some context is VALID. -/
def anyValid (s : State) : Bool := (List.range 64).any (ctxValid s)

/-! Windows of the Annulus (R140). -/

/-- Two windows share a slot. -/
def windowsMeet (a b : Word) : Bool :=
  decide (winBase a < winBase b + winCount b) && decide (winBase b < winBase a + winCount a)

/-- Captures and watches on the slots of a context's window are cancelled, those due at this clock complete, and each
group concerned has its stop record (R140, R150, R381). -/
def cancelWindow (s : State) (c : Nat) : State :=
  let mine (x : Nat × Capture) : Bool := x.2.ctx == c && !x.2.cancelled && inWindow s c x.2.slot
  let due := (s.caps.filter mine).filterMap fun x =>
    match dueNow s (x.1 / 2 ^ 40) x.2.slot with
    | some q => if q.1 = x.1 then some x else none
    | none => none
  let s1 := due.foldl (fun s x =>
    passed (if x.2.kind = 4 then fireWatch s x.1 x.2 else capture s x.1 x.2) (x.1 / 2 ^ 40) x.2.slot) s
  let gone := s1.caps.filter mine
  let s2 := cancelCaps s1 fun k _ => gone.any fun x => x.1 == k
  let firsts := (gone.foldl (fun (seen : List (Nat × Capture)) x =>
    if seen.any fun y => y.2.g == x.2.g && y.1 / 2 ^ 40 == x.1 / 2 ^ 40 then seen else seen ++ [x]) [])
  firsts.foldl (fun s x =>
    let own := gone.filter fun y => y.2.g == x.2.g && y.1 / 2 ^ 40 == x.1 / 2 ^ 40
    let ws := (own.filter fun y => y.2.kind == 4).length
    let r := stationRec s (x.1 / 2 ^ 40) x.2 cWindow
    unitFault s c (stackOf (x.1 / 2 ^ 40)) x.2.team
      { r with detail := r.detail + BitVec.ofNat 64 (own.length - ws), pos := BitVec.ofNat 64 ws }) s2

/-- A window is disabled (R140): captures cancelled, lines alighted, the slots closed. -/
def closeWindow (s : State) (c : Nat) (w : Word) : State :=
  let win := winReg s c
  let s := cancelWindow s c
  let s := (List.range (winCount win)).foldl (fun s i => alight s (seqCore s (ctxPart s c)) (winBase win + i)) s
  regSet s (0x300 + c) w

/-- A write to ANN.WINc (R140). -/
def windowWrite (s : State) (c : Nat) (v : Word) : State :=
  let w := v &&& 0x87FF07FF
  let old := winReg s c
  if winEn w then
    if winCount w = 0 ∨ 1152 < winBase w + winCount w then s
    else if (List.range 64).any fun k => k != c && winEn (winReg s k) && windowsMeet (winReg s k) w then s
    else if winEn old then s
    else regSet { s with ring := zeroRange s.ring (64 * winBase w) (64 * winCount w) } (0x300 + c) w
  else if winEn old then closeWindow s c w
  else regSet s (0x300 + c) w

/-! Partitions and contexts (R323, R326, R327). -/

/-- A host write of a partition's quadrant mask (R323, R326). -/
def partqSet (s : State) (p : Nat) (w : Word) : State :=
  let m := w.toNat % 256
  if (List.range 8).any fun k => k != p && (List.range 8).any fun q => m / 2 ^ q % 2 == 1 && partMask s k / 2 ^ q % 2 == 1 then s
  else
    let s := regSet s (0x48 + p) (word m)
    regSet s (kPart p 0x54) (word (firstHandlerCore s p))

/-- A write of SYS.HCORE (R326). -/
def hcoreSet (s : State) (p : Nat) (w : Word) : State :=
  let k := fld w 0 10
  if (tget s.slot p).isSome || !(partCores s p).contains k || degraded s k || usableBanks s k != 4 then s
  else regSet s (kPart p 0x54) (word k)

/-- Work of a context that keeps it VALID (R327). -/
def ctxBusy (s : State) (c : Nat) : Bool :=
  s.teams.any (fun t => t.2.ctx == c) || s.saved.any (fun x => x.2.cluster.ctx == c) || s.launches.any (fun l => l.2.ctx == c)
    || s.queues.any (fun q => q.2.entries.any fun e => e.ctx == c) || (ctxOf s c).handler.isSome || haltedCtx s c

/-- A context is created (R327): its registers take their reset values, its draw sequence starts at 0 and its surfaces are
gone. -/
def createCtx (s : State) (c : Nat) : State :=
  let old (k : Nat) : Bool := k / 65536 == 16 + c && k != kCtx c 0x55
  let s := { s with
    regs := (s.regs.filter fun r => !old r.1).filter fun r => r.1 != 0x300 + c
    held := s.held.filter fun r => !old r.1
    tiles := s.tiles.filter fun t => t.1 / 2 ^ 32 != c
    arena := s.arena.filter fun b => b.1 / 4096 / 2 ^ 32 != c
    resvs := s.resvs.filter fun r => r.ctx != c
    defs := s.defs.filter fun x => x.2.ctx != c
    spilled := s.spilled.filter fun p => p.2 / 1024 != c
    olds := s.olds.filter fun e => !(decide (tileOld ≤ e.key) && (e.key - tileOld) / 4096 / 2 ^ 32 == c) }
  putCtx s c { ctxOf s c with seq := 0, tableZeroed := false }

/-- A context is made invalid (R327, R324, R140): its banks are unbound and its window disabled. -/
def dropCtx (s : State) (c : Nat) : State :=
  let s := s.banks.foldl (fun s b => (List.range 4).foldl (fun s i =>
    if boundTo s b.1 i = some c then setBound s b.1 i none else s) s) s
  let s := { s with images := s.images.filter fun p => p.1 / 2 ^ 64 != c }
  if winEn (winReg s c) then closeWindow s c (winReg s c &&& 0x7FFFFFFF) else s

/-- A host write of SYS.CTXCFG (R327). -/
def ctxcfgSet (s : State) (c : Nat) (v : Word) : State :=
  let w := v &&& 0xF8000000
  let was := ctxValid s c
  let p := fld w 28 3
  let sup := bit w 27
  let now := bit w 31
  if was && now && (p != ctxPart s c || sup != ctxSup s c) then s
  else if sup && (List.range 64).any fun k => k != c && ctxValid s k && ctxPart s k == p && ctxSup s k then s
  else if partMask s p = 0 then s
  else if was && !now && ctxBusy s c then s
  else
    let s := if was && !now then dropCtx s c else s
    let s := if !was && now then createCtx s c else s
    regSet s (kCtx c 0x55) w

/-! Power states (R441). -/

/-- The SRAM layer is zeroed (R440 step 3): scratch, B stores, arenas and register banks. -/
def zeroSram (s : State) : State :=
  { s with scr := [], bst := [], arena := [], tiles := [], resvs := [], granules := [], l1 := [], bowner := [] }
/-- Subnetworks 1 to 3 off (R393). -/
def subnetsOff (s : State) : State := regSet s 0x801 3

/-- HBM4 and UCIe are trained (R440 step 3). That they fail, a free choice, is a package failure (R438): HLT.CTL.FAIL is
set, and no context is VALID that could be halted. -/
def trained (s : State) : State := { chose s with failed := s.failed || chooseOf s 2 == 1 }

/-- A write of PWR.PSTATE (R441). -/
def pstateSet (s : State) (w : Word) : State :=
  let p := fld w 0 2
  let up (s : State) : State := if s.pstate = 2 then zeroSram (trained s) else s
  if p = 0 then { up s with pstate := 0 }
  else if p = 1 then (if s.teams.isEmpty then subnetsOff { up s with pstate := 1 } else s)
  else if p = 2 then (if anyValid s then s else { s with pstate := 2 })
  else s

/-! Debug (R412, R414, R418 to R421). -/

/-- A filter word that a load refuses at an index of a program of `n` words (R414). -/
def filterBad (n i : Nat) (w : Word) : Bool :=
  let op := fld w 26 6
  let a := fld w 18 4
  let b := fld w 14 4
  let d := fld w 22 4
  let imm := fld w 0 14
  if op ≤ 6 then imm != 0
  else if op = 8 || op = 9 then b != 0
  else if op = 0x0A || op = 0x0B then b != 0 || decide (32 ≤ imm)
  else if op = 0x0C || op = 0x0D then fld w 16 6 != 0
  else if 0x10 ≤ op ∧ op ≤ 0x13 then d != 0 || decide (n < i + 1 + imm)
  else if op = 0x20 || op = 0x21 then fld w 0 26 != 0
  else if op = 0x22 then d != 0 || b != 0 || imm / 16 % 512 != 0 || (imm / 2 ^ 13 == 0 && a != 0)
  else if op = 0x23 then d != 0 || a != 0 || b != 0 || decide (4 ≤ imm)
  else if op = 0x24 then a != 0 || b != 0 || decide (16 ≤ imm)
  else true

/-- FLTCTL.LOAD (R412): LEN words from FLTBASE are checked, and adopted or refused whole. -/
def loadFilter (s : State) (p : Nat) : State :=
  let k := kPart p 0x522
  let n := fld (regGet s k) 0 9
  let base := regGet64 s (kPart p 0x520) % 2 ^ 56 / 4 * 4
  let ws := wordsOf (mergeAll s).mem base (min n 256)
  let bad := (List.range ws.length).find? fun i => filterBad n i (nthW ws i)
  match (if bad.isNone && decide (256 < n) then some 256 else bad) with
  | some i => regSet s k (word (2 ^ 30 + i * 2 ^ 20 + n))
  | none => { regSet s k (word n) with filters := tput s.filters (16 + p) ws }

/-- STOPC1.GO (R418): the broadcast names a context of the partition. -/
def sendStop (s : State) (p : Nat) : State :=
  let w := regGet s (kPart p 0x571)
  let c := fld w 24 6
  if ctxValid s c && ctxPart s c == p then broadcast s c (regGet s (kPart p 0x570)).toNat (fld w 0 24) else s

/-- STEPSTAT of a partition: its state, cause kept or cleared. -/
def stepStat (s : State) (p st : Nat) (clear : Bool) : State :=
  let c := if clear then 0 else fld (regGet s (kPart p 0x579)) 0 8
  regSet s (kPart p 0x579) (word (st * 2 ^ 30 + c))
def stepState (s : State) (p : Nat) : Nat := fld (regGet s (kPart p 0x579)) 30 2

/-- The group that STEP.HANDLE names, in the partition and of no handler team. -/
def stepGroup (s : State) (p : Nat) : Option (Nat × Group) :=
  let h := regGet s (kPart p 0x578)
  match groupAt s (fld h 0 10) (fld h 10 2) (fld h 12 2) (fld h 14 5) with
  | none => none
  | some g => (s.group g).bind fun gr => if ctxPart s gr.id.ctx = p ∧ gr.id.handler = false then some (g, gr) else none

/-- A step within a halt starts, or is refused (R420). -/
def startStep (s : State) (p : Nat) : State :=
  match stepGroup s p with
  | some (g, gr) =>
    let gr := { gr with step := 1 }
    if haltedCtx s gr.id.ctx && !gr.eligible.isEmpty then
      { stepStat (putGroup s g gr) p 1 true with steps := tput s.steps p g }
    else stepStat s p 3 true
  | none => stepStat s p 3 true
/-- A step of a running group is armed, or refused (R421). -/
def armStep (s : State) (p : Nat) : State :=
  match stepGroup s p with
  | some (g, gr) =>
    if haltedCtx s gr.id.ctx then stepStat s p 3 true
    else { stepStat (putGroup s g { gr with step := 2 }) p 1 true with steps := tput s.steps p g }
  | none => stepStat s p 3 true
/-- STEP.GO (R419). -/
def goStep (s : State) (p : Nat) : State :=
  if stepState s p = 1 then s else if bit (regGet s (kPart p 0x578)) 30 then armStep s p else startStep s p

/-! Package actions. -/

/-- TCTL.PTMGO (R406). -/
def goPtm (s : State) : State :=
  if bit (regGet s 0x502) 31 && s.ptm.isNone then
    { regSet s 0x502 (regGet s 0x502 &&& 0xDFFFFFFF) with ptm := some s.time }
  else s

/-- A TSTEP takes effect (R406). -/
def stepTime (s : State) (v : Nat) : State :=
  if anyValid s then s else { s with time := (s.time + v) % 2 ^ 64 }

/-- A RETIRE request (R390). -/
def goRetire (s : State) (core bus : Nat) : State :=
  if s.retireState = 1 then s
  else if 576 ≤ core || (columnOf s core).retired.contains bus then { s with retireState := 3 }
  else { s with retireState := 1, retireQueue := (core, bus) :: s.retireQueue }

/-- ATTCTL.GO (R436). -/
def goReport (s : State) : State :=
  if s.report ≠ 0 then s
  else { regSet s 0x600 ((regGet s 0x600 &&& 0xF7FFFFFF) ||| 0x10000000) with report := 1 }

/-! Reading. -/

/-- SYS.CTXCTL (R327). -/
def ctxctl (s : State) (c : Nat) : Word :=
  (regGet s (kCtx c 0x55) &&& 0xF8000000) ||| (if haltedCtx s c then 0x04000000 else 0)
    ||| (if (ctxOf s c).handler.isSome then 0x02000000 else 0) ||| (regGet s (kCtx c 0x51) &&& 1)

/-- VX.REMAP of a core (R386). -/
def remapWord (s : State) (core : Nat) : Word :=
  word (((columnOf s core).units.mapIdx fun u x => match x with
    | some b => (8 + b) * 2 ^ (4 * u)
    | none => 0).sum)

/-- SCH.CAP of a core (R348). -/
def capWord (s : State) (core : Nat) : Word :=
  word ((columnOf s core).retired.length * 256 + arenaBytes s core / 2 ^ 22 * 16 + (if degraded s core then 8 else 0)
    + mappedBanks s core)

/-- A wear indicator (R438); one that nothing has changed is good, with the longest life. -/
def wearOf (s : State) (i : Nat) : Wear := (tget s.wear i).getD { eolh := 0xFFFF, used := 0, state := 0 }
/-- HLT.WEAR (R438). -/
def wearWord (s : State) : Word :=
  let i := fld (regGet s 0x700) 0 16
  let w := wearOf s i
  if i ≤ 4645 then word (w.eolh * 65536 + w.used * 256 + w.state) else 0

/-- Bits of PWR.STAT for the causes that hold (R439): 1 THERM, 2 POWER, 4 WEAR. -/
def causeBits (s : State) : Nat := (if s.causes.contains 0 then 1 else 0) + (if s.causes.contains 1 then 2 else 0)
  + (if s.causes.contains 2 then 4 else 0)

/-- A package register as it reads (R326, R386, R394, R402, R406, R435, R438, R439). -/
def packRead (s : State) (n : Nat) : Word :=
  let r := regGet s n
  if n = 0x40 then 0x09600000 ||| Config.stepping.zeroExtend 32
  else if n = 0x400 then word (s.ratio * 65536) ||| (r &&& 0xF)
  else if n = 0x402 then remapWord s (fld (regGet s 0x401) 0 10)
  else if n = 0x403 then word (s.retireState * 2 ^ 30)
  else if n = 0x500 then word s.time
  else if n = 0x501 then word (s.time / 2 ^ 32)
  else if n = 0x504 ∨ n = 0x505 ∨ n = 0x60B then 0
  else if n = 0x701 then wearWord s
  else if n = 0x702 then (r &&& 1) ||| (if s.failed then 0x80000000 else 0)
  else if n = 0xA00 then word (s.floor * 65536 + causeBits s)
  else if n = 0xA02 then word s.pstate
  else r

/-- A partition's register as it reads (R348, R412, R416, R418, R419); the time registers read the same from every
partition (R406). -/
def partRead (s : State) (p n : Nat) : Word :=
  let r := regGet s (kPart p n)
  let q := queueOf s p (fld (regGet s (kPart p 0x201)) 0 6)
  let t := evTable s p
  if n = 0x202 then
    word ((if q.en then 2 ^ 31 else 0) + (if q.host then 2 ^ 30 else 0) + (if q.pre then 2 ^ 29 else 0)
      + q.entries.length * 256 + q.prio)
  else if n = 0x207 then word q.ctx
  else if n = 0x203 then word (q.ring * 4096 + q.log2n * 256)
  else if n = 0x204 then word (q.ring / 2 ^ 20)
  else if n = 0x205 then word q.head
  else if n = 0x206 then word q.tail
  else if n = 0x212 then
    word ((t.filter fun e => e.ext).length * 2 ^ 13 + (t.filter fun e => !e.ext).length)
  else if n = 0x220 then 0
  else if n = 0x221 then
    (match tget s.prestat p with
     | some (st, k, _) => word (st * 2 ^ 30 + k)
     | none => 0)
  else if n = 0x223 then capWord s (fld (regGet s (kPart p 0x222)) 0 10)
  else if n = 0x571 then r ||| (if stopBusy s p then 0x40000000 else 0)
  else if 0x500 ≤ n ∧ n ≤ 0x50D then packRead s n
  else r

/-- A context's register as it reads (R327, R328). -/
def ctxRead (s : State) (c n : Nat) : Word := if n = 0x51 then ctxctl s c else regGet s (kCtx c n)

/-- A partition's register after a read of it: TBDROP is cleared (R5, R412). -/
def partAfterRead (s : State) (p n : Nat) : State := if n = 0x514 then regSet s (kPart p n) 0 else s
/-- A package register after a read of it: DROPS and RETRY are cleared (R5, R394). -/
def packAfterRead (s : State) (n : Nat) : State :=
  if n = 0x886 then regSet s n 0
  else if 0x8A0 ≤ n ∧ n ≤ 0x8B1 then regSet s n (regGet s n &&& 0xF8000000) else s

/-! Writing. -/

/-- A package register written; `host` by the host. The table classes and ANN.STAT are a supervisor's too; the others are
the host's alone (R326). -/
def packWrite (s : State) (host : Bool) (n : Nat) (w : Word) : State :=
  if 0x140 ≤ n ∧ n ≤ 0x17F then regField s n w (if n = 0x140 then 0xFFFFFFFC else 0xFFFFFFFF)
  else if n = 0x340 then regClear s n w 0x80000000
  else if !host then s
  else if 0x48 ≤ n ∧ n ≤ 0x4F then partqSet s (n - 0x48) w
  else if n = 0x400 then (if 2 ≤ fld w 0 4 ∧ fld w 0 4 ≤ 8 then regSet s n (w &&& 0xF) else s)
  else if n = 0x401 then regField s n w 0x3FF
  else if n = 0x403 then goRetire s (fld w 0 10) (fld w 10 3)
  else if n = 0x502 then
    let s := regField s n w 0x80000000
    if bit w 30 then goPtm s else s
  else if n = 0x503 then (if -500000 ≤ sx w ∧ sx w ≤ 500000 then regSet s n w else s)
  else if n = 0x504 ∨ n = 0x505 then pairWrite s 0x504 (n == 0x505) 0 w stepTime
  else if n = 0x506 then regSet s n w
  else if 0x601 ≤ n ∧ n ≤ 0x608 then regSet s n w
  else if n = 0x609 ∨ n = 0x60A then pairField s 0x609 (n == 0x60A) w 0x00FFFFFFFFFFF000
  else if n = 0x60B then (if bit w 31 then goReport s else s)
  else if n = 0x60C then regClear s n w 0x80000000
  else if n = 0x700 then regField s n w 0xFFFF
  else if n = 0x702 then regField s n w 1
  else if n = 0x800 then
    let s := regField s n w 0xFF
    if 1 ≤ fld w 8 8 ∧ fld w 8 8 ≤ 100 then regField s n w 0xFF00 else s
  else if n = 0x880 then (if anyValid s then s else regField s n w 0x3FF)
  else if n = 0x881 then (if anyValid s then s else regField s n w 0xFFFF)
  else if n = 0x882 ∨ n = 0x883 then
    (if anyValid s then s else pairField s 0x882 (n == 0x883) w 0x00FFFFFFFFFF0000)
  else if n = 0x884 then (if anyValid s then s else regField s n w 0x3FFFFFF)
  else if n = 0x885 then regField s n w 0xFFFF
  else if n = 0x902 ∨ n = 0x90A then regClear s n w 0x80000000
  else if n = 0x903 ∨ n = 0x90B then regSet s n (if fld w 0 6 = 0 then 1 else w &&& 0x3F)
  else if n = 0xA01 then (if 600 ≤ fld w 0 16 ∧ fld w 0 16 ≤ 2400 then regSet s n (w &&& 0xFFFF) else s)
  else if n = 0xA02 then pstateSet s w
  else s

/-- The queue that QSEL names, changed. -/
def selQueue (s : State) (p : Nat) (f : Queue → Queue) : State :=
  let q := fld (regGet s (kPart p 0x201)) 0 6
  putQueue s p q (f (queueOf s p q))

/-- QRING takes effect (R348). -/
def ringSet (p : Nat) (s : State) (v : Nat) : State :=
  selQueue s p fun q => { q with ring := v / 4096, log2n := v / 256 % 16 }

/-- SCH.PREEMPT starts a request (R359). -/
def goPreempt (s : State) (p : Nat) (w : Word) : State :=
  match tget s.prestat p with
  | some (1, _, _) => s
  | _ => { regSet s (kPart p 0x220) (w &&& 0x000703FF) with prestat := tput s.prestat p (1, 0, []) }

/-- TBUF takes effect; setting EN forgets an earlier wrap (R412). -/
def tbufSet (p : Nat) (s : State) (v : Nat) : State :=
  let was := bit (regGet s (kPart p 0x510)) 0
  let s := regSet64 s (kPart p 0x510) (v % 2 ^ 56 / 4096 * 4096 + v % 2)
  if !was && v % 2 == 1 then regField s (kPart p 0x513) 0 0x80000000 else s

/-- A partition's register written; QRING, QTAIL and SAVE and the time registers are the host's alone (R348, R406). -/
def partWrite (s : State) (host : Bool) (p n : Nat) (w : Word) : State :=
  let k := kPart p n
  if n = 0x54 then hcoreSet s p w
  else if n = 0x200 then regField s k w 0xFF1
  else if n = 0x201 then regField s k w 0x3F
  else if n = 0x202 then
    selQueue s p fun q => { q with en := bit w 31, host := bit w 30, pre := bit w 29, prio := fld w 0 3 }
  else if n = 0x207 then selQueue s p fun q => { q with ctx := fld w 0 6 }
  else if n = 0x203 ∨ n = 0x204 then
    (if host then pairWrite s (kPart p 0x203) (n == 0x204) (partRead s p 0x203) w (ringSet p) else s)
  else if n = 0x206 then (if host then selQueue s p fun q => { q with tail := fld w 0 16 } else s)
  else if n = 0x210 ∨ n = 0x211 then
    (if (evTable s p).any fun e => e.ext then s else pairField s (kPart p 0x210) (n == 0x211) w (2 ^ 56 - 1))
  else if n = 0x214 ∨ n = 0x215 then
    (if host then pairField s (kPart p 0x214) (n == 0x215) w (2 ^ 56 - 1) else s)
  else if n = 0x220 then goPreempt s p w
  else if n = 0x222 then regField s k w 0x3FF
  else if 0x500 ≤ n ∧ n ≤ 0x50D then packWrite s host n w
  else if n = 0x510 ∨ n = 0x511 then pairWrite s (kPart p 0x510) (n == 0x511) (regGet s (kPart p 0x510)) w (tbufSet p)
  else if n = 0x512 then regField s k w 0x800FFFFF
  else if n = 0x515 then regField s k w 0xFF
  else if n = 0x518 then regSet s k ((w &&& 0x8000FFFF) ||| (if fld w 0 16 = 0 then 1 else 0))
  else if n = 0x520 ∨ n = 0x521 then pairField s (kPart p 0x520) (n == 0x521) w (2 ^ 56 - 4)
  else if n = 0x522 then
    let s := regField s k w 0x1FF
    if bit w 31 then loadFilter s p else s
  else if 0x530 ≤ n ∧ n ≤ 0x54F then pairField s (kPart p (n / 2 * 2)) (n % 2 == 1) w (2 ^ 64 - 1)
  else if n = 0x550 then regClear (regField s k w 0xFF) k w 0x80000000
  else if 0x560 ≤ n ∧ n ≤ 0x56F then regField s k w (if n % 4 = 0 then 0xFFFFC000 else 0xFFFFFFFF)
  else if n = 0x570 then regSet s k w
  else if n = 0x571 then
    let s := regField s k w 0x3FFFFFFF
    if bit w 31 then sendStop s p else s
  else if n = 0x578 then
    if bit w 31 && stepState s p == 1 then s
    else
      let s := regField s k w 0x4007FFFF
      if bit w 31 then goStep s p else s
  else s

/-- STBASE takes effect; the first time it is enabled the context's surface table reads 0 (R327, R99). -/
def stbaseSet (c : Nat) (s : State) (v : Nat) : State :=
  let s := regSet64 s (kCtx c 0x102) (v % 2 ^ 56 / 65536 * 65536 + v % 2)
  if v % 2 = 1 ∧ (ctxOf s c).tableZeroed = false then
    putCtx (zeroHome (mergeAll s) (v % 2 ^ 56 / 65536 * 65536) 65536) c { ctxOf s c with tableZeroed := true }
  else s

/-- A context's register written (R327, R328). -/
def ctxWrite (s : State) (host : Bool) (c n : Nat) (w : Word) : State :=
  let k := kCtx c n
  if n = 0x51 then regField s k w 1
  else if n = 0x52 ∨ n = 0x53 then pairField s (kCtx c 0x52) (n == 0x53) w 0x00FFFFFFFFFFFFC1
  else if n = 0x55 then (if host then ctxcfgSet s c w else s)
  else if n = 0x100 ∨ n = 0x101 then pairField s (kCtx c 0x100) (n == 0x101) w 0x00FFFFFFFFFFF001
  else if n = 0x102 ∨ n = 0x103 then
    pairWrite s (kCtx c 0x102) (n == 0x103) (regGet s (kCtx c 0x102)) w (stbaseSet c)
  else if n = 0x104 ∨ n = 0x105 then pairField s (kCtx c 0x104) (n == 0x105) w 0x00FFFFFFFFFFC001
  else if n = 0x300 + c then windowWrite s c w
  else s

/-! The numbers (R326, R322). -/

/-- A register held per context, reached through CTXSEL. -/
def perCtx (n : Nat) : Bool := n == 0x51 || n == 0x52 || n == 0x53 || n == 0x55 || (decide (0x100 ≤ n) && decide (n ≤ 0x105))
/-- A register held per partition. -/
def perPart (n : Nat) : Bool :=
  n == 0x54 || (decide (0x200 ≤ n) && decide (n ≤ 0x2FF)) || (decide (0x500 ≤ n) && decide (n ≤ 0x5FF))
/-- A register that the host alone reaches. -/
def hostOnly (n : Nat) : Bool :=
  (decide (0x400 ≤ n) && decide (n ≤ 0x4FF)) || (decide (0x500 ≤ n) && decide (n ≤ 0x50D))
    || (decide (0x600 ≤ n) && decide (n ≤ 0x7FF)) || (decide (0x800 ≤ n) && decide (n ≤ 0xAFF))
/-- A package register of the table. -/
def perPack (n : Nat) : Bool :=
  n == 0x40 || (decide (0x48 ≤ n) && decide (n ≤ 0x4F)) || (decide (0x140 ≤ n) && decide (n ≤ 0x17F)) || n == 0x340 || hostOnly n
/-- A system-register number that R326 lists. -/
def listedReg (n : Nat) : Bool :=
  n == 0x41 || n == 0x50 || perCtx n || perPart n || (decide (0x300 ≤ n) && decide (n ≤ 0x33F)) || perPack n

/-! A supervisor group's access. -/

/-- The value a supervisor group reads at a listed number, and what the read leaves (R323, R326). -/
def supRead (s : State) (g : Group) (n : Nat) : State × Word :=
  let p := ctxPart s g.id.ctx
  if n = 0x41 then (s, word p)
  else if n = 0x50 then (s, word g.ctxSel)
  else if perCtx n then (s, if ctxPart s g.ctxSel = p then ctxRead s g.ctxSel n else 0)
  else if perPart n then (partAfterRead s p n, partRead s p n)
  else if 0x300 ≤ n ∧ n ≤ 0x33F then (s, if ctxPart s (n - 0x300) = p then winReg s (n - 0x300) else 0)
  else (s, packRead s n)

/-- A supervisor group's write at a listed number (R323, R326). -/
def supWrite (s : State) (gid : Nat) (g : Group) (n : Nat) (w : Word) : State :=
  let p := ctxPart s g.id.ctx
  if n = 0x50 then
    (if ctxPart s (fld w 0 6) = p then updGroup s gid fun g => { g with ctxSel := fld w 0 6 } else s)
  else if perCtx n then (if ctxPart s g.ctxSel = p then ctxWrite s false g.ctxSel n w else s)
  else if perPart n then partWrite s false p n w
  else if 0x300 ≤ n ∧ n ≤ 0x33F then (if ctxPart s (n - 0x300) = p then windowWrite s (n - 0x300) w else s)
  else packWrite s false n w

/-! The management window (R398). -/

/-- What an offset of BAR0 names: the package, a partition or a context, and the register number. -/
inductive Window where
  | pack (n : Nat)
  | part (p n : Nat)
  | ctx (c n : Nat)
  deriving DecidableEq, Repr

def windowOf (off : Nat) : Option Window :=
  if off % 4 ≠ 0 then none
  else if off < 0x10000 then some (.pack (off / 4))
  else if 0x100000 ≤ off ∧ off < 0x900000 ∧ off % 0x100000 < 0x10000 then
    some (.part (off / 0x100000 - 1) (off % 0x100000 / 4))
  else if 0xA00000 ≤ off ∧ off < 0xE00000 then some (.ctx ((off - 0xA00000) / 0x10000) ((off - 0xA00000) % 0x10000 / 4))
  else none

/-- Registers of a context as its window shows them: its own, and its ANN.WIN. -/
def ctxHas (c n : Nat) : Bool := perCtx n || n == 0x300 + c

/-- The host's read of an offset (R398, R434). -/
def hostReadReg (s : State) (off : Nat) : State × Word :=
  match windowOf off with
  | some (.pack n) =>
    if perPack n && portOpen s (decide (0x600 ≤ n ∧ n ≤ 0x6FF)) then (packAfterRead s n, packRead s n) else (s, 0)
  | some (.part p n) => if perPart n && portOpen s false then (partAfterRead s p n, partRead s p n) else (s, 0)
  | some (.ctx c n) =>
    if ctxHas c n && portOpen s false then (s, if n = 0x300 + c then winReg s c else ctxRead s c n) else (s, 0)
  | none => (s, 0)

/-- The host's write at an offset (R398, R434). -/
def hostWriteReg (s : State) (off : Nat) (w : Word) : State :=
  match windowOf off with
  | some (.pack n) =>
    if perPack n && portOpen s (decide (0x600 ≤ n ∧ n ≤ 0x6FF)) then packWrite s true n w else s
  | some (.part p n) => if perPart n && portOpen s false then partWrite s true p n w else s
  | some (.ctx c n) => if ctxHas c n && portOpen s false then ctxWrite s true c n w else s
  | none => s

/-! `rdsr` and `wrsr` (R51, R200). -/

/-- `symst` (R48). -/
def Group.symst (g : Group) : Word :=
  word (g.poisBits * 2 ^ 24 + g.pendBits * 2 ^ 16 + g.formRegs * 2 ^ 11 + g.rmode * 2 ^ 8 + g.mode)

/-- A per-group special of R51. -/
def Group.special (g : Group) (n : Nat) : Option Word :=
  let i := g.id
  match n with
  | 0x00 => some (word g.cause)
  | 0x01 => some g.symst
  | 0x02 => some (word ((if g.tieSrc then 2 ^ 31 else 0) + g.tieReg))
  | 0x03 => some g.lfsr
  | 0x04 => some (word g.tile)
  | 0x12 => some (word i.grp)
  | 0x13 => some (word i.ngrp)
  | 0x14 => some (word i.tx)
  | 0x15 => some (word i.ty)
  | 0x16 => some (word i.nw)
  | 0x17 => some (word i.nh)
  | 0x18 => some (word i.cx)
  | 0x19 => some (word i.cy)
  | 0x1A => some (word i.cz)
  | 0x1B => some (word i.gx)
  | 0x1C => some (word i.gy)
  | 0x1D => some (word i.gz)
  | 0x1E => some (word g.core)
  | 0x1F => some (word g.wedge)
  | 0x20 => some (word i.launch)
  | 0x21 => some (word i.ctx)
  | 0x22 => some (word i.codeBase)
  | 0x23 => some (word (i.codeBase / 2 ^ 32))
  | _ => none

/-- A per-lane special of R51. -/
def Group.laneSpecial (g : Group) (n l : Nat) : Option Word :=
  if n = 0x10 then some (word l) else if n = 0x11 then some (word (32 * g.id.grp + l)) else none

/-- A writable special written (R48, R49, R50, R200). -/
def Group.setSpecial (g : Group) (n : Nat) (w : Word) : Option Group :=
  match n with
  | 0x00 => some { g with cause := fld w 0 8 }
  | 0x01 => some { g with
      rmode := if fld w 8 3 ≤ 4 then fld w 8 3 else g.rmode
      mode := if fld w 0 2 = 3 then g.mode else fld w 0 2 }
  | 0x02 => some { g with tieSrc := bit w 31, tieReg := fld w 0 4 }
  | 0x03 => some { g with lfsr := if w = 0 then 1 else w }
  | _ => none

/-- The checks of an `rdsr` or `wrsr` (R173, R322, R326): `known` says whether the number is a user special fit for the
use; then the frame's checks; a register of the host alone is a permission fault. -/
def specialOp (s : State) (n : Nat) (known : Group → Bool) (u : Use) (k : Group → Out) : Out :=
  match s.group s.iss.g with
  | none => .fault .noIssuingGroup
  | some g =>
    if (if n < 0x40 then !known g else g.id.sup && !listedReg n) then faultWord s cIllegal
    else begin_ s { u with priv := decide (0x40 ≤ n) } fun g =>
      if 0x40 ≤ n ∧ hostOnly n = true then faultWord s cPriv else k g

/-- RDSR_S (R200). -/
def execRdsrS (a : SReg) (n : BitVec 14) (s : State) : Out :=
  let k := n.toNat
  specialOp s k (fun g => (g.special k).isSome) {} fun g =>
    if k < 0x40 then complete s (g.setS a.toNat ((g.special k).getD 0))
    else
      let r := supRead s g k
      complete r.1 (g.setS a.toNat r.2)

/-- RDSR_V (R200). -/
def execRdsrV (a : VReg) (n : BitVec 14) (s : State) : Out :=
  let k := n.toNat
  specialOp s k (fun g => (g.special k).isSome || (g.laneSpecial k 0).isSome) { v := [a.toNat] } fun g =>
    if k < 0x40 then
      complete s (writeLanes s g a.toNat 1 fun l _ => ((g.laneSpecial k l).orElse fun _ => g.special k).getD 0)
    else
      let r := supRead s g k
      complete r.1 (writeLanes s g a.toNat 1 fun _ _ => r.2)

/-- WRSR (R200). -/
def execWrsr (a : SReg) (n : BitVec 14) (s : State) : Out :=
  let k := n.toNat
  specialOp s k (fun g => (g.setSpecial k 0).isSome) { sr := [a.toNat] } fun g =>
    let w := g.sreg a.toNat
    if k < 0x40 then complete s ((g.setSpecial k w).getD g)
    else
      match complete s g with
      | .next t => .next (supWrite t s.iss.g g k w)
      | o => o

end Sys2Proof.Machine
end

