-- ==== Sys2Proof/Machine/Fabric.lean ====
section
/-! DEFINITION. Events of the memory system and the fabric: page walks, lapsing copies and TLB entries (R119, R339, R341),
spill writes (R114), host and peer accesses (R90, R121, R147, R400, R401), the vertical ratio (R386, R387), bus retirement
(R367, R388 to R390), subnetworks (R393), links (R394, R396), and the host's register reads and writes (R5, R398). -/

namespace Sys2Proof.Machine

/-- PAGE_WALK (R339, R341): a walk for a unit at a core; its leaf enters the TLBs, a fault leaves nothing. -/
def execPageWalk (core ctx va : Nat) (s : State) : Out :=
  if ctxValid s ctx && partOfQuad s (quadOf core) == some (ctxPart s ctx) && decide (va < 2 ^ 56) then
    .next (translate s core ctx va).1
  else .next s

/-- L1_COPY_LAPSE (R119). -/
def execL1CopyLapse (core line : Nat) (s : State) : Out :=
  match tget s.l1 (l1Key core line) with
  | some c => if c.grant + 2048 ≤ s.time then .next { s with l1 := cdel s.l1 (l1Key core line) } else .next s
  | none => .next s

/-- TLB_ENTRY_DROP (R341). -/
def execTlbEntryDrop (ix : Nat) (s : State) : Out := .next { s with tlb := s.tlb.eraseIdx ix }

/-- SPILL_WRITE_COMPLETION (R114, R403). -/
def execSpillWriteCompletion (req : Nat) (s : State) : Out := .next (spillDone s req)

/-! Accesses from outside (R90, R147). -/

/-- Bytes of a number, little-endian (R4). -/
def bytesOf (n v : Nat) : List Byte := (List.range n).map fun i => BitVec.ofNat 8 (v / 256 ^ i)
/-- The number of a byte list, little-endian. -/
def ofBytes (bs : List Byte) : Nat := bs.foldr (fun b n => b.toNat + 256 * n) 0

/-- The pieces of a local range that lie in one 64-byte line each: address and bytes. -/
def linePieces (a n : Nat) : List (Nat × Nat) :=
  ((List.range (ceilDiv (a % 64 + n) 64)).map fun i =>
    let lo := max a (a / 64 * 64 + 64 * i)
    (lo, min (a + n) (a / 64 * 64 + 64 * i + 64) - lo)).filter fun p => p.2 != 0

/-- EXTHIT and LASTSLOT (R142, R147). -/
def extHit (s : State) (slot : Nat) : State := regSet s 0x340 (word (2 ^ 31 + slot))

/-- A piece read by an agent outside, through its slice. A line aboard is noted, and reads as it was boarded, which is
what memory holds (R147). -/
def outRead (s : State) (who a n : Nat) : State × List Byte :=
  let s := match aboardIn s a n with
    | some (slot, _) => extHit s slot
    | none => s
  let r := readAgent s who a n 0
  (r.1, bytesOf n r.2)
/-- A piece written by an agent outside, its posted writes in their order (R121); to a line aboard it is discarded
(R147). -/
def outWrite (s : State) (who a : Nat) (bs : List Byte) : State :=
  match aboardIn s a bs.length with
  | some (slot, _) => extHit s slot
  | none => writeCore s who a bs.length (ofBytes bs) 0

def outReads (s : State) (who a n : Nat) : State × List Byte :=
  (linePieces a n).foldl (fun r p =>
    let q := outRead r.1 who p.1 p.2
    (q.1, r.2 ++ q.2)) (s, [])
def outWrites (s : State) (who a : Nat) (bs : List Byte) : State :=
  (linePieces a bs.length).foldl (fun s p => outWrite s who p.1 ((bs.drop (p.1 - a)).take p.2)) s

/-- An answer given to a reader outside. -/
def answer (s : State) (v : Nat) : State := { s with hostReads := v :: s.hostReads }

/-- HOST_ACCESS (R90, R121, R397): an access to BAR2, where an offset at or beyond 576 GiB is an unsupported request; or
the host's access to its own memory, as the device sees it. -/
def execHostAccess (target : HostTarget) (addr len : Nat) (data : Option (List Byte)) (s : State) : Out :=
  match target, data with
  | .device, none =>
    if hbmEnd < addr + len then .next s
    else linked s fun s =>
      let r := outReads s agentHost addr len
      .next (answer r.1 (ofBytes r.2))
  | .device, some bs =>
    if hbmEnd < addr + bs.length then .next s else linked s fun s => .next (outWrites s agentHost addr bs)
  | .hostMemory, none =>
    if 2 ^ 56 < addr + len then .next s
    else
      let r := outReads s agentHost (hostKey + addr) len
      .next (answer r.1 (ofBytes r.2))
  | .hostMemory, some bs =>
    if 2 ^ 56 < addr + bs.length then .next s else .next (outWrites s agentHost (hostKey + addr) bs)

/-- The window that peers may reach holds a range (R394, R401). -/
def inPeerWindow (s : State) (a n : Nat) : Bool :=
  let base := regGet64 s 0x882 % 2 ^ 56 / 65536 * 65536
  let size := fld (regGet s 0x884) 0 26 * 65536
  decide (base ≤ a) && decide (a + n ≤ base + size) && decide (a + n ≤ hbmEnd)

/-- PEER_ACCESS (R401): served through this package's slice where its window, and A for an atomic, allow it; otherwise the
reply is "not permitted". A read answers with the bytes that `data` is long, an atomic with the old value. -/
def execPeerAccess (dev : Nat) (kind : PeerOp) (addr : Nat) (data : List Byte) (s : State) : Out :=
  if !inPeerWindow s addr (match kind with
      | .atomic _ wide _ => wideBytes wide
      | _ => data.length) then .next s
  else linked s fun s => match kind with
    | .read =>
      let r := outReads s (agentPeer dev) addr data.length
      .next (answer r.1 (ofBytes r.2))
    | .write => .next (outWrites s (agentPeer dev) addr data)
    | .atomic op wide allowed =>
      let n := wideBytes wide
      if !allowed || addr % n != 0 then .next s
      else
        let r := outReads s (agentPeer dev) addr n
        let old := ofBytes r.2
        let new := atomStep op wide old (ofBytes (data.take n)) (ofBytes ((data.drop n).take n))
        .next (answer (outWrites r.1 (agentPeer dev) addr (bytesOf n new)) old)

/-- VL_FLIT_RECEIVE (R400, R394) of a flit given as its domain in bits 15:0 with bit 16 set when its CRC fails: such a
flit is replayed, and its port counts it (log 108); of the others one of another domain is dropped and counted, and one
of our own is taken. -/
def execVlFlitReceive (port flit : Nat) (s : State) : Out :=
  if 18 ≤ port then .next s
  else if flit / 2 ^ 16 % 2 = 1 then
    let w := regGet s (0x8A0 + port)
    .next (regSet s (0x8A0 + port) (masked w (w + 1) 0x07FFFFFF))
  else linked s fun s =>
  if flit % 2 ^ 16 = fld (regGet s 0x881) 0 16 then .next s
  else .next (regSet s 0x886 (word ((fld (regGet s 0x886) 14 18 + 1) % 2 ^ 18 * 2 ^ 14)))

/-! The vertical crossing (R386, R387). -/

/-- The ratio that should be in force: the larger of REQ and the floor. -/
def wantedRatio (s : State) : Nat := max (fld (regGet s 0x400) 0 4) s.floor

/-- RATIO_CHANGE (R387): every vertical bus stalls for 96 memory-layer clocks. -/
def execRatioChange (s : State) : Out :=
  if wantedRatio s = s.ratio ∨ s.stall.isSome then .next s
  else .next { s with stall := some (s.mclk + 96, wantedRatio s) }

/-- RATIO_STALL_END (R387): CUR takes the new value, with a record to every partition (R409). -/
def execRatioStallEnd (s : State) : Out :=
  match s.stall with
  | none => .next s
  | some (t, r) =>
    if s.mclk < t then .next s
    else .next ((List.range 8).foldl (fun s p => emit s 0x0B 0 p 0xE40 r Names.none) { s with stall := none, ratio := r })

/-! Bus retirement (R367, R388 to R390). -/

/-- The unit that a column gives up next (R389). -/
def dropUnit (c : Column) : Option Nat := [3, 2, 7, 6, 5, 4].find? fun u => (c.units.getD u none).isSome
/-- The unit that a bus holds. -/
def unitOn (c : Column) (bus : Nat) : Option Nat := (List.range 8).find? fun u => c.units.getD u none == some bus

/-- A retirement starts (R390 step 1). -/
def retireJob (s : State) (core bus : Nat) : RetireJob :=
  let c := columnOf s core
  let d := dropUnit c
  let k := unitOn c bus
  { core := core, bus := bus, drop := d, move := if d.isNone || k == d then none else k, copying := false }

/-- Clusters with a team in a bank of a core, handler teams apart. -/
def bankClusters (s : State) (core bank : Nat) : List Nat :=
  ((s.teams.filter fun t => t.2.core == core && t.2.bank == bank && !t.2.handler).map fun t => t.2.cid).eraseDups

/-- Reservations that a retirement spills (R367): of its column, or with the last arena half of the whole partition. -/
def retireResvs (s : State) (j : RetireJob) : List Resv :=
  s.resvs.filter fun r => r.core == j.core
    || (j.drop == some 2 && partMask s (ctxPart s r.ctx) / 2 ^ quadOf j.core % 2 == 1)

/-- The cluster of a list that leaves its cores next: one that may, and whose saved teams fit (R361). -/
def nextToLeave (s : State) (cs : List Nat) : Option Nat :=
  cs.find? fun k => mayVacate s k && match tget s.clusters k with
    | some c => savesFit s c.part [k]
    | none => false

/-- Clusters that a retirement removes: one that may go goes, and the others stop issuing until they may (R361, R367). -/
def retireClusters (s : State) (cs : List Nat) : State :=
  match nextToLeave s cs with
  | some k => vacateCluster s k
  | none => markLeavers s 8 cs

/-- What a retirement must clear before it goes on is cleared, as far as it can be now (R390 step 2); a reservation whose
spill writes failed is tried again once its context runs. -/
def retireDrain (s : State) (j : RetireJob) : State × Bool :=
  match j.drop with
  | none => (s, true)
  | some d =>
    if 4 ≤ d then
      let cs := bankClusters s j.core (d - 4)
      if cs.isEmpty then (s, bankEmpty s j.core (d - 4))
      else (retireClusters s cs, false)
    else
      let rs := retireResvs s j
      let busy (r : Resv) : Bool := s.spills.any fun q => q.2.core == r.core && q.2.ctx == r.ctx && q.2.slot == r.slot
      if rs.isEmpty then (s, true)
      else
        (rs.foldl (fun s r =>
          if busy r || decomping s r.ctx r.slot || slotHeld s none r.ctx r.slot || (r.failed && haltedCtx s r.ctx) then s
          else match surfAt s r.ctx r.slot with
            | some f => startEvict { s with resvs := s.resvs.map fun q =>
                if q.core = r.core ∧ q.ctx = r.ctx ∧ q.slot = r.slot then { q with failed := false } else q } r f
            | none => dropResv s r.core r.ctx r.slot) s, false)

/-- The next retirement that waits starts (R390 step 1), one of a bus not retired since. -/
def nextRetire (s : State) : State :=
  match s.retireQueue.filter fun p => !(columnOf s p.1).retired.contains p.2 with
  | [] => { s with retireQueue := [], retireState := if s.retireState = 1 then 2 else s.retireState }
  | (core, bus) :: rest => { s with retireQueue := rest, retireState := 1, retire := some (retireJob s core bus) }

/-- The last step of a retirement (R390 step 5): the work of a core that is now degraded is vacated, a cluster at a time,
and STATE becomes 2; a retirement that the health monitor asked for meanwhile then starts at once (R438). -/
def retireEmpty (s : State) (j : RetireJob) : State :=
  let cs := if degraded s j.core then (List.range 4).flatMap fun b => bankClusters s j.core b else []
  if cs.isEmpty then nextRetire { s with retire := none, retireState := 2 } else retireClusters s cs

/-- The remap takes effect (R390 steps 4 and 5); a core with 6 buses retired is degraded. -/
def retireFinish (s : State) (j : RetireJob) : State :=
  let c := columnOf s j.core
  let us := match j.drop with
    | none => c.units
    | some d =>
      let sub := c.units.getD d none
      let us := match j.move with
        | some k => c.units.set k sub
        | none => c.units
      us.set d none
  let gone := c.retired ++ [j.bus]
  let s := { s with
    columns := tput s.columns j.core { c with units := us, retired := gone, degraded := decide (6 ≤ gone.length) }
    retire := some { j with drop := none, move := none, copying := false } }
  let s := match j.drop with
    | some d => if 4 ≤ d then setBound s j.core (d - 4) none else s
    | none => s
  retireEmpty s j

/-- BUS_RETIRE (R390): a request waiting starts, or the one under way clears its unit, then copies or finishes. -/
def execBusRetire (s : State) : Out :=
  match s.retire, s.retireQueue with
  | none, [] => .next s
  | none, _ => .next (nextRetire s)
  | some j, _ =>
    if j.copying then .next s
    else if (columnOf s j.core).retired.contains j.bus then .next (retireEmpty s j)
    else
      let r := retireDrain s j
      if !r.2 then .next r.1
      else if j.move.isSome then .next { r.1 with retire := some { j with copying := true } }
      else .next (retireFinish r.1 j)

/-- RETIRE_COPY_DONE (R390): the copy pauses for a stall, and then ends. -/
def execRetireCopyDone (s : State) : Out :=
  match s.retire with
  | some j => if j.copying && s.stall.isNone then .next (retireFinish s j) else .next s
  | none => .next s

/-! The on-die network (R393) and the links (R394, R396). -/

/-- S(n) of SUBSTAT. -/
def subnetState (s : State) (n : Nat) : Nat := fld (regGet s 0x801) (2 * n) 2
def setSubnet (s : State) (n v : Nat) : State :=
  regSet s 0x801 (masked (regGet s 0x801) (word (v * 4 ^ n)) (word (3 * 4 ^ n)))

/-- What a subnetwork's last report left; none has carried anything since reset. -/
def subnetOf (s : State) (n : Nat) : Subnet := (tget s.subnets n).getD { busySince := none, idle := some 0 }
/-- The occupancy of a subnetwork from now on, in percent (log 83). -/
def subnetReport (s : State) (n occ : Nat) : State :=
  let x := subnetOf s n
  let since (b : Bool) (t : Option Nat) : Option Nat := if b then some (t.getD s.time) else none
  { s with subnets := tput s.subnets n { busySince := since (decide (fld (regGet s 0x800) 8 8 < occ)) x.busySince
                                         idle := since (occ == 0) x.idle } }
/-- SUBNET_WAKE (R393): the occupancy of subnetwork n − 1, up to 3, becomes `occ`; subnetwork n wakes when the one below,
which is on, has been over the threshold for 1 µs without a break. -/
def execSubnetWake (n occ : Nat) (s : State) : Out :=
  if n = 0 ∨ 4 < n ∨ subnetState s (n - 1) ≠ 3 then .next s
  else
    let s := subnetReport s (n - 1) occ
    match (subnetOf s (n - 1)).busySince with
    | some t => if n ≤ 3 ∧ subnetState s n = 0 ∧ t + 1000 ≤ s.time ∧ s.pstate = 0 then .next (setSubnet s n 1) else .next s
    | none => .next s
/-- SUBNET_ON (R393). -/
def execSubnetOn (n : Nat) (s : State) : Out :=
  if 1 ≤ n ∧ n ≤ 3 ∧ subnetState s n = 1 then .next (setSubnet s n 3) else .next s
/-- SUBNET_OFF (R393): a subnetwork that has carried nothing for 100 µs of TIME, with the next one off. -/
def execSubnetOff (n : Nat) (s : State) : Out :=
  match (subnetOf s n).idle with
  | some t =>
    if 1 ≤ n ∧ n ≤ 3 ∧ subnetState s n = 3 ∧ (n = 3 ∨ subnetState s (n + 1) = 0) ∧ t + 100000 ≤ s.time then
      .next (setSubnet s n 0)
    else .next s
  | none => .next s

/-- VIMEN_LINK_PORT_TRAINING (R394): UP and LANES of a port, which is down with no lane in use. -/
def execVimenLinkPortTraining (port lanes : Nat) (s : State) : Out :=
  if 18 ≤ port ∨ 8 < lanes then .next s
  else
    let up := if lanes = 0 then 0 else 2 ^ 31
    .next (regSet s (0x8A0 + port) (masked (regGet s (0x8A0 + port)) (word (up + lanes * 2 ^ 27)) 0xF8000000))

/-- UCIE_LANE_LOSS (R396): lanes lost beyond repair halve the bandwidth, and no value changes. -/
def execUcieLaneLoss (lanes : Nat) (s : State) : Out :=
  if lanes = 0 then .next s else .next { s with ucieHalf := true }

/-! The host's registers (R5, R398). -/

/-- REGISTER_WRITE (R5, R398): the host's write at an offset of BAR0. -/
def execRegisterWrite (off val : Nat) (s : State) : Out := linked s fun s => .next (hostWriteReg s off (word val))

/-- RC_REGISTER_READ (R5, R398): the host's read at an offset of BAR0, which clears what reads clear. -/
def execRcRegisterRead (off : Nat) (s : State) : Out := linked s fun s =>
  let r := hostReadReg s off
  .next (answer r.1 r.2.toNat)

end Sys2Proof.Machine
end

