-- ==== Sys2Proof/Machine/Hyper.lean ====
section
/-! DEFINITION. The hypervector unit (class 0x38, R266 to R273). -/

namespace Sys2Proof.Machine

/-! Bits and counters. -/

/-- The number whose bits, lowest first, are a list. -/
def ofBits : List Bool → Nat
  | [] => 0
  | b :: t => (if b then 1 else 0) + 2 * ofBits t
/-- The number of 1 bits among the lowest `n`. -/
def onesIn (v : Nat) : Nat → Nat
  | 0 => 0
  | n + 1 => v % 2 + onesIn (v / 2) n
def popcount (b : BitVec 8192) : Nat := onesIn b.toNat 8192

/-- The values at `n` keys from `k` on of a list in key order that has none below `k`. -/
def cwalk {α : Type} (d : α) : Nat → Nat → Cells α → List α
  | 0, _, _ => []
  | n + 1, k, [] => d :: cwalk d n (k + 1) []
  | n + 1, k, (j, x) :: t => if j = k then x :: cwalk d n (k + 1) t else d :: cwalk d n (k + 1) ((j, x) :: t)
/-- The values at `n` keys from `lo` on; of a list in key order, in one walk over it. -/
def cwindow {α : Type} (d : α) (c : Cells α) (lo n : Nat) : List α :=
  if sorted c then cwalk d n lo (c.filter fun p => decide (lo ≤ p.1)) else (List.range n).map fun i => cget d c (lo + i)
/-- The values at keys from `lo` on replaced by a list. -/
def cfill {α : Type} [DecidableEq α] (d : α) (c : Cells α) (lo : Nat) (xs : List α) : Cells α :=
  (c.filter fun p => decide (p.1 < lo)) ++ ((xs.mapIdx fun i x => (lo + i, x)).filter fun p => decide (p.2 ≠ d))
    ++ c.filter fun p => decide (lo + xs.length ≤ p.1)

/-- The 8192 counters of a c register. -/
def Group.counters (g : Group) (k : Nat) : List Int := cwindow 0 g.c (8192 * k) 8192
def Group.setCounters (g : Group) (k : Nat) (xs : List Int) : Group := { g with c := cfill 0 g.c (8192 * k) xs }

/-- One step of the tie generator (R269). -/
def lfsrStep (w : Word) : Word := (w >>> 1) ^^^ (if bit w 0 then 0x80200003 else 0)

/-! Register operations (R268). -/

/-- HXOR (R268). -/
def execHxor (a b c : HReg) (s : State) : Out :=
  begin_ s { h := [a.toNat, b.toNat, c.toNat], hr := [b.toNat, c.toNat] } fun g =>
    complete s (g.setH a.toNat (g.hreg b.toNat ^^^ g.hreg c.toNat))

/-- HROT (R268): the count is signed, modulo 8192. -/
def execHrot (a b : HReg) (c : XOp) (s : State) : Out :=
  begin_ s { h := [a.toNat, b.toNat], hr := [b.toNat], sr := XOp.reg c } fun g =>
    complete s (g.setH a.toNat ((g.hreg b.toNat).rotateLeft ((g.opX c).toInt % 8192).toNat))

/-- HBUN (R268). -/
def execHbun (a : KReg) (b : HReg) (s : State) : Out :=
  begin_ s { c := [a.toNat], h := [b.toNat], hr := [b.toNat] } fun g =>
    let w := g.hreg b.toNat
    complete s (g.setCounters a.toNat ((g.counters a.toNat).mapIdx fun i x =>
      clampI (-127) 127 (if w.getLsbD i then x + 1 else x - 1)))

/-- HCLR_H (R268). -/
def execHclrH (a : HReg) (s : State) : Out := begin_ s { h := [a.toNat] } fun g => complete s (g.setH a.toNat 0)
/-- HCLR_C (R268). -/
def execHclrC (a : KReg) (s : State) : Out :=
  begin_ s { c := [a.toNat] } fun g => complete s (g.setCounters a.toNat (List.replicate 8192 0))

/-- The majority of counters in increasing order, with the generator's state (R268, R269): `tie` gives the tie
bit of counter i where the generator does not. -/
def majority (tie : Option (BitVec 8192)) : Nat → Word → List Int → List Bool × Word
  | _, w, [] => ([], w)
  | i, w, x :: xs =>
    let (b, w) :=
      if 0 < x then (true, w) else if x < 0 then (false, w)
      else match tie with
        | some t => (t.getLsbD i, w)
        | none => (bit w 0, lfsrStep w)
    let r := majority tie (i + 1) w xs
    (b :: r.1, r.2)

/-- HMAJ (R268, R269): the tie source is read at the issue. -/
def execHmaj (a : HReg) (b : KReg) (s : State) : Out :=
  begin_ s { h := [a.toNat], c := [b.toNat] } fun g =>
    if !g.tieSrc && decide (g.id.nhr ≤ g.tieReg) then faultWord s cIllegal
    else if !g.tieSrc && g.hPending g.tieReg then stall s
    else
      let r := majority (if g.tieSrc then none else some (g.hreg g.tieReg)) 0 g.lfsr (g.counters b.toNat)
      complete s { g.setH a.toNat (BitVec.ofNat 8192 (ofBits r.1)) with lfsr := r.2 }

/-- HPOP (R268). -/
def execHpop (a : SReg) (b : HReg) (s : State) : Out :=
  begin_ s { h := [b.toNat], hr := [b.toNat] } fun g =>
    charged s g s.iss.flagA
      (completeOp s g s.iss.flagA [] [(a.toNat, word (popcount (g.hreg b.toNat)))] none false)
/-- HDIST (R268). -/
def execHdist (a : SReg) (b c : HReg) (s : State) : Out :=
  begin_ s { h := [b.toNat, c.toNat], hr := [b.toNat, c.toNat] } fun g =>
    charged s g s.iss.flagA
      (completeOp s g s.iss.flagA [] [(a.toNat, word (popcount (g.hreg b.toNat ^^^ g.hreg c.toNat)))] none false)

/-! Loads and stores of whole registers (R270). -/

/-- The 64-byte lines of a kibibyte from a base. -/
def kibLines (base : Nat) : List (Nat × Nat) := (List.range 16).map fun i => (i, (base + 64 * i) % 2 ^ 64)
/-- The 8-byte accesses of a kibibyte, as watchpoints see them. -/
def kibSeen (s : State) (g : Group) (glob : Bool) (base : Nat) : List Seen :=
  let l := (lanesOf s.iss.lanes).headD 0
  (List.range 128).map fun i =>
    if glob then seenGlobal l (base + 8 * i) 8 else seenScratch s g l (base + 8 * i) 8

/-- Scratch keys of the 64-byte lines of a kibibyte at a 64-byte-aligned base. -/
def kibScratch (s : State) (g : Group) (base : Nat) : Except Fail (List Nat) :=
  match checkScratch s g.id.tid base 1024 64 with
  | .error f => .error f
  | .ok _ => .ok ((kibLines base).filterMap fun p => scrAccess s g.id.tid p.2 64)

/-- What failing lines of a kibibyte raise, each lane alike: the cause that R374 puts first, at its first line (R344). -/
def kibFail (s : State) (g : Group) (kind : Nat) (fs : List (Nat × Fail × Nat)) : Out :=
  match worstOf fs with
  | some (f, (_, ad) :: _) => failAll s g kind f ad
  | _ => stall s

/-- Checks of a global kibibyte: every line of it (R270). -/
def kibGlobal (s : State) (g : Group) (need : Need) (base : Nat) : State × List (Nat × Fail × Nat) × List (Nat × Loc) :=
  checkLanes (fun t i => checkAccessIn s.tlb t g.core g.id.ctx ((base + 64 * i) % 2 ^ 64) 64 need plainOnly (natural 64))
    (fun i => (base + 64 * i) % 2 ^ 64) s (List.range 16)

/-- `hld` from known line reads: its result comes to hA when it completes. -/
def hldDone (s : State) (g : Group) (a : HReg) (vals : List Nat) (xs : List Seen) : Out :=
  watched g true false xs
    (completeOp s g s.iss.flagA [] [] (some (a.toNat, BitVec.ofNat 8192 (vals.foldr (fun v n => n * 2 ^ 512 + v) 0))) false)

/-- HLD_S (R270). -/
def execHldS (a : HReg) (b : SReg) (s : State) : Out :=
  begin_ s { h := [a.toNat], sr := [b.toNat] } fun g =>
    annHold s (charged s g s.iss.flagA
      (let base := (g.sreg b.toNat).toNat
       match kibScratch s g base with
       | .error f => failAll s g 0 f base
       | .ok ks =>
         let t := performLanes (fun s k => scrRead s g.core k 64) s (ks.map fun k => (0, k))
         hldDone t.1 g a (t.2.map (·.2)) (kibSeen s g false base)))

/-- HLD_G (R270). -/
def execHldG (a : HReg) (b : SReg) (s : State) : Out :=
  begin_ s { h := [a.toNat], sr := [b.toNat, b.toNat + 1] } fun g =>
    annHold s (charged s g s.iss.flagA
      (let base := g.spair b.toNat
       let r := kibGlobal s g .read base
       if !r.2.1.isEmpty then kibFail r.1 g 0 r.2.1
       else
         peerHold r.1 g (r.2.2.map fun p => p.2.pte)
           (let t := performLanes (fun s p => readCore s g.core p.key 64 (pteTid p.pte)) r.1 r.2.2
            hldDone t.1 g a (t.2.map (·.2)) (kibSeen s g true base))))

/-- HST_S (R270). -/
def execHstS (a : HReg) (b : SReg) (s : State) : Out :=
  begin_ s { h := [a.toNat], hr := [a.toNat], sr := [b.toNat] } fun g =>
    annHold s (charged s g s.iss.flagB
      (let base := (g.sreg b.toNat).toNat
       match kibScratch s g base with
       | .error f => failAll s g 1 f base
       | .ok ks =>
         let v := (g.hreg a.toNat).toNat
         let ws := ks.mapIdx fun i k => (k, v / 2 ^ (512 * i))
         let t := ws.foldl (fun s w => scrWrite s g.core w.1 64 w.2) s
         watched g false true (kibSeen s g false base) (completeOp t g s.iss.flagB [] [] none false)))

/-- HST_G (R270). -/
def execHstG (a : HReg) (b : SReg) (s : State) : Out :=
  begin_ s { h := [a.toNat], hr := [a.toNat], sr := [b.toNat, b.toNat + 1] } fun g =>
    annHold s (charged s g s.iss.flagB
      (let base := g.spair b.toNat
       let r := kibGlobal s g .write base
       if !r.2.1.isEmpty then kibFail r.1 g 1 r.2.1
       else
         peerHold r.1 g (r.2.2.map fun p => p.2.pte)
           (let v := (g.hreg a.toNat).toNat
            let t := r.2.2.foldl (fun s p => writeCore s g.core p.2.key 64 (v / 2 ^ (512 * p.1)) (pteTid p.2.pte))
              (loseIdem r.1 g)
            watched g false true (kibSeen s g true base) (completeOp t g s.iss.flagB [] [] none false))))

/-! Moves to and from lanes (R271). -/

/-- HFROM (R271): every lane slot supplies its element, one never launched 0. -/
def execHfrom (a : HReg) (b : VReg) (s : State) : Out :=
  let rs := (List.range 8).map (b.toNat + ·)
  begin_ s { h := [a.toNat], v := rs, vr := rs } fun g =>
    blocking s g rs (List.range 32)
      (let ws := (List.range 256).map fun i =>
         if (g.lane (i % 32)).st == .never then 0 else (g.vword (b.toNat + i / 32) (i % 32)).toNat
       complete s (g.setH a.toNat (BitVec.ofNat 8192 (ws.foldr (fun w n => n * 2 ^ 32 + w) 0))))

/-- HTO (R271). -/
def execHto (a : VReg) (b : HReg) (s : State) : Out :=
  begin_ s { v := (List.range 8).map (a.toNat + ·), h := [b.toNat], hr := [b.toNat] } fun g =>
    charged s g s.iss.flagA
      (let v := (g.hreg b.toNat).toNat
       let vw := (lanesOf s.iss.lanes).flatMap fun l =>
         (List.range 8).map fun k => (vkey (a.toNat + k) l, word (v / 2 ^ (1024 * k + 32 * l)))
       completeOp s g s.iss.flagA vw [] none false)

/-- The nearest entry of an item memory: the least distance, at its lowest index (R272). -/
def nearest (x : BitVec 8192) : Nat → List (BitVec 8192) → Nat × Nat
  | _, [] => (0, 8193)
  | e, y :: ys =>
    let d := popcount (x ^^^ y)
    let r := nearest x (e + 1) ys
    if d ≤ r.2 then (e, d) else r

/-- HMATCH (R272). -/
def execHmatch (a : SReg) (b : HReg) (c : SReg) (s : State) : Out :=
  begin_ s { h := [b.toNat], hr := [b.toNat], sr := [c.toNat, c.toNat + 1] } fun g =>
    annHold s (charged s g s.iss.flagA
      (let base := (g.sreg c.toNat).toNat
       let n := (g.sreg (c.toNat + 1)).toNat
       if n = 0 ∨ 1024 < n then faultWord s cIllegal
       else match checkScratch s g.id.tid base (1024 * n) 1024 with
         | .error f => failAll s g 0 f base
         | .ok _ =>
           let es := (List.range n).map fun e =>
             BitVec.ofNat 8192 (rdN s.scr ((scrAccess s g.id.tid (base + 1024 * e) 1024).getD 0) 1024)
           let r := nearest (g.hreg b.toNat) 0 es
           completeOp s g s.iss.flagA [] [(a.toNat, word r.1), (a.toNat + 1, word r.2)] none false))

/-- HTIE (R273). -/
def execHtie (a : HReg) (s : State) : Out :=
  begin_ s { h := [a.toNat] } fun g => complete s { g with tieSrc := false, tieReg := a.toNat }
/-- HTIE_SEED (R273): 0 is stored as 1. -/
def execHtieSeed (b : SReg) (s : State) : Out :=
  begin_ s { sr := [b.toNat] } fun g =>
    complete s { g with tieSrc := true, lfsr := if g.sreg b.toNat = 0 then 1 else g.sreg b.toNat }

end Sys2Proof.Machine
end

