-- ==== Sys2Proof/Machine/LaneCmp.lean ====
section
/-! DEFINITION. Lane compares into a mask and select (classes 0x0C, 0x0D, 0x18 and 0x19; R207, R208). -/

namespace Sys2Proof.Machine

/-- Mask mA after a compare: executing lanes take the relation, masked-off lanes are cleared under ZERO, every
other bit stands (R207). -/
def compareInto (s : State) (g : Group) (a : Nat) (f : Nat → Bool) : Group :=
  let ex := execMask s g
  let on := maskOf ((lanesOf ex).filter f)
  let off := if zeroing s then s.iss.lanes else ex
  g.setM a ((g.mreg a &&& ~~~off) ||| on)

/-- A compare (R207); its mask is tested again after the issue (R31). -/
def cmpOp (s : State) (a : MReg) (b : VReg) (c : Src) (f : Word → Word → Bool) : Out :=
  let rs := b.toNat :: c.vregs
  begin_ s { rule := .plain, v := rs, vr := rs, sr := c.sregs } fun g =>
    blocking s g rs (lanesOf (execMask s g))
      (complete s (compareInto s g a.toNat fun l => f (g.vword b.toNat l) (g.src c l)))

/-- A floating compare (R207): an imm6 converts to FP32. -/
def fcmpOp (s : State) (a : MReg) (b : VReg) (c : Src) (k : Nat) : Out :=
  let rs := b.toNat :: c.vregs
  begin_ s { rule := .plain, v := rs, vr := rs, sr := c.sregs } fun g =>
    blocking s g rs (lanesOf (execMask s g))
      (complete s (compareInto s g a.toNat fun l => fcmp k (g.vword b.toNat l) (g.srcF fp32 1 c l)))

/-- Select (R208): both value operands are read in every executing lane. -/
def selOp (s : State) (a : VReg) (k : MReg) (b : VReg) (c : Src) : Out :=
  laneOp s .plain a.toNat 1 [] (b.toNat :: c.vregs) c.sregs fun g l _ =>
    if bit (g.mreg k.toNat) l then g.vword b.toNat l else g.src c l

/-- cmp.eq.b32, V form (R207). -/
def execCmpEqB32V (a : MReg) (b c : VReg) (s : State) : Out := cmpOp s a b (.v c) fun b x => b == x
/-- cmp.eq.b32, X form (R207). -/
def execCmpEqB32X (a : MReg) (b : VReg) (c : XOp) (s : State) : Out := cmpOp s a b (.x c) fun b x => b == x
/-- cmp.ne.b32, V form (R207). -/
def execCmpNeB32V (a : MReg) (b c : VReg) (s : State) : Out := cmpOp s a b (.v c) fun b x => b != x
/-- cmp.ne.b32, X form (R207). -/
def execCmpNeB32X (a : MReg) (b : VReg) (c : XOp) (s : State) : Out := cmpOp s a b (.x c) fun b x => b != x
/-- cmp.lt.i32, V form (R207). -/
def execCmpLtI32V (a : MReg) (b c : VReg) (s : State) : Out := cmpOp s a b (.v c) fun b x => decide (sx b < sx x)
/-- cmp.lt.i32, X form (R207). -/
def execCmpLtI32X (a : MReg) (b : VReg) (c : XOp) (s : State) : Out := cmpOp s a b (.x c) fun b x => decide (sx b < sx x)
/-- cmp.le.i32, V form (R207). -/
def execCmpLeI32V (a : MReg) (b c : VReg) (s : State) : Out := cmpOp s a b (.v c) fun b x => decide (sx b ≤ sx x)
/-- cmp.le.i32, X form (R207). -/
def execCmpLeI32X (a : MReg) (b : VReg) (c : XOp) (s : State) : Out := cmpOp s a b (.x c) fun b x => decide (sx b ≤ sx x)
/-- cmp.gt.i32, V form (R207). -/
def execCmpGtI32V (a : MReg) (b c : VReg) (s : State) : Out := cmpOp s a b (.v c) fun b x => decide (sx x < sx b)
/-- cmp.gt.i32, X form (R207). -/
def execCmpGtI32X (a : MReg) (b : VReg) (c : XOp) (s : State) : Out := cmpOp s a b (.x c) fun b x => decide (sx x < sx b)
/-- cmp.ge.i32, V form (R207). -/
def execCmpGeI32V (a : MReg) (b c : VReg) (s : State) : Out := cmpOp s a b (.v c) fun b x => decide (sx x ≤ sx b)
/-- cmp.ge.i32, X form (R207). -/
def execCmpGeI32X (a : MReg) (b : VReg) (c : XOp) (s : State) : Out := cmpOp s a b (.x c) fun b x => decide (sx x ≤ sx b)
/-- cmp.lt.n32, V form (R207). -/
def execCmpLtN32V (a : MReg) (b c : VReg) (s : State) : Out := cmpOp s a b (.v c) fun b x => decide (b.toNat < x.toNat)
/-- cmp.lt.n32, X form (R207). -/
def execCmpLtN32X (a : MReg) (b : VReg) (c : XOp) (s : State) : Out := cmpOp s a b (.x c) fun b x => decide (b.toNat < x.toNat)
/-- cmp.le.n32, V form (R207). -/
def execCmpLeN32V (a : MReg) (b c : VReg) (s : State) : Out := cmpOp s a b (.v c) fun b x => decide (b.toNat ≤ x.toNat)
/-- cmp.le.n32, X form (R207). -/
def execCmpLeN32X (a : MReg) (b : VReg) (c : XOp) (s : State) : Out := cmpOp s a b (.x c) fun b x => decide (b.toNat ≤ x.toNat)
/-- cmp.gt.n32, V form (R207). -/
def execCmpGtN32V (a : MReg) (b c : VReg) (s : State) : Out := cmpOp s a b (.v c) fun b x => decide (x.toNat < b.toNat)
/-- cmp.gt.n32, X form (R207). -/
def execCmpGtN32X (a : MReg) (b : VReg) (c : XOp) (s : State) : Out := cmpOp s a b (.x c) fun b x => decide (x.toNat < b.toNat)
/-- cmp.ge.n32, V form (R207). -/
def execCmpGeN32V (a : MReg) (b c : VReg) (s : State) : Out := cmpOp s a b (.v c) fun b x => decide (x.toNat ≤ b.toNat)
/-- cmp.ge.n32, X form (R207). -/
def execCmpGeN32X (a : MReg) (b : VReg) (c : XOp) (s : State) : Out := cmpOp s a b (.x c) fun b x => decide (x.toNat ≤ b.toNat)
/-- fcmp.eq.f32, V form (R207). -/
def execFcmpEqF32V (a : MReg) (b c : VReg) (s : State) : Out := fcmpOp s a b (.v c) 10
/-- fcmp.eq.f32, X form (R207). -/
def execFcmpEqF32X (a : MReg) (b : VReg) (c : XOp) (s : State) : Out := fcmpOp s a b (.x c) 10
/-- fcmp.lt.f32, V form (R207). -/
def execFcmpLtF32V (a : MReg) (b c : VReg) (s : State) : Out := fcmpOp s a b (.v c) 11
/-- fcmp.lt.f32, X form (R207). -/
def execFcmpLtF32X (a : MReg) (b : VReg) (c : XOp) (s : State) : Out := fcmpOp s a b (.x c) 11
/-- fcmp.le.f32, V form (R207). -/
def execFcmpLeF32V (a : MReg) (b c : VReg) (s : State) : Out := fcmpOp s a b (.v c) 12
/-- fcmp.le.f32, X form (R207). -/
def execFcmpLeF32X (a : MReg) (b : VReg) (c : XOp) (s : State) : Out := fcmpOp s a b (.x c) 12
/-- fcmp.ne.f32, V form (R207). -/
def execFcmpNeF32V (a : MReg) (b c : VReg) (s : State) : Out := fcmpOp s a b (.v c) 13
/-- fcmp.ne.f32, X form (R207). -/
def execFcmpNeF32X (a : MReg) (b : VReg) (c : XOp) (s : State) : Out := fcmpOp s a b (.x c) 13
/-- fcmp.un.f32, V form (R207). -/
def execFcmpUnF32V (a : MReg) (b c : VReg) (s : State) : Out := fcmpOp s a b (.v c) 14
/-- fcmp.un.f32, X form (R207). -/
def execFcmpUnF32X (a : MReg) (b : VReg) (c : XOp) (s : State) : Out := fcmpOp s a b (.x c) 14
/-- sel, V form (R208). -/
def execSelV (a : VReg) (k : MReg) (b c : VReg) (s : State) : Out := selOp s a k b (.v c)
/-- sel, X form (R208). -/
def execSelX (a : VReg) (k : MReg) (b : VReg) (c : XOp) (s : State) : Out := selOp s a k b (.x c)

end Sys2Proof.Machine
end

