-- ==== Sys2Proof/Machine/LaneInt.lean ====
section
/-! DEFINITION. Lane integer arithmetic (classes 0x08 to 0x0B, R204 to R206), its 16-bit forms (R159), and the
moves. -/

namespace Sys2Proof.Machine

/-- The v register of a 16-bit form's field A or B (R159). -/
def half6 (a : BitVec 6) : VReg := a.setWidth 7
def half5 (b : BitVec 5) : VReg := b.setWidth 7

/-- An integer instruction of R204 that changes forms (R54): vA := vB op X. -/
def intXform (s : State) (t : Xform) (a b : VReg) (c : Src) : Out :=
  laneXform s .plain a (fun _ => t) (some b.toNat) (some c) false none

/-- `mad` (R204): the addend is the fourth operand, or vA (R165). -/
def madOp (s : State) (a b : VReg) (c : Src) : Out :=
  laneXform s .dOnly a (fun _ => .mad) (some b.toNat) (some c) false (some ((fourth s).getD a.toNat))

/-- `shl` (R204, R201): a count in a register blocks, an immediate count transforms. -/
def shlOp (s : State) (a b : VReg) (c : Src) : Out :=
  match c with
  | .x (.imm n) => intXform s .shl a b (.x (.imm n))
  | .x (.lit w) => intXform s .shl a b (.x (.lit w))
  | _ => laneOp2 s .plain a b c fun b x => b <<< (x.toNat % 32)

/-- `mov.b32` (R205): forms and marks move with the element. -/
def movOp (s : State) (a : VReg) (c : Src) : Out := laneXform s .plain a (fun _ => .mov) none (some c) false none

/-- Signed and unsigned lesser and greater (R204). -/
def minI (b x : Word) : Word := if sx x < sx b then x else b
def maxI (b x : Word) : Word := if sx b < sx x then x else b
def minN (b x : Word) : Word := if x.toNat < b.toNat then x else b
def maxN (b x : Word) : Word := if b.toNat < x.toNat then x else b
/-- High halves of the 64-bit products (R204). -/
def mulhiI (b x : Word) : Word := wordI (sx b * sx x / 2 ^ 32)
def mulhiN (b x : Word) : Word := word (b.toNat * x.toNat / 2 ^ 32)
/-- Shifts by bits [4:0] (R204). -/
def shrW (b x : Word) : Word := b >>> (x.toNat % 32)
def sraW (b x : Word) : Word := b.sshiftRight (x.toNat % 32)

/-- Absolute value modulo 2^32 (R205). -/
def absW (b : Word) : Word := if bit b 31 then -b else b
/-- Population count, leading zeros and bit reversal (R205). -/
def popc (b : Word) : Word := word ((List.range 32).filter fun i => bit b i).length
def clz (b : Word) : Word := word (if b = 0 then 32 else 31 - b.toNat.log2)
def brev (b : Word) : Word := maskOf ((List.range 32).filter fun i => bit b (31 - i))

/-- Position, length and width taken of a field operand (R205). -/
def bfPos (x : Word) : Nat := fld x 0 5
def bfLen (x : Word) : Nat := min (fld x 8 6) 32
def bfWidth (x : Word) : Nat := min (bfLen x) (32 - bfPos x)
/-- `bfe` (R205). -/
def bfeN (b x : Word) : Word := if bfLen x = 0 then 0 else word (b.toNat / 2 ^ bfPos x % 2 ^ bfWidth x)
def bfeI (b x : Word) : Word :=
  let v := b.toNat / 2 ^ bfPos x % 2 ^ bfWidth x
  if bfLen x = 0 then 0
  else if 2 ^ (bfWidth x - 1) ≤ v then wordI ((v : Int) - 2 ^ bfWidth x) else word v
/-- `bfi` (R205): the field of `b` over the background `a`. -/
def bfi (a b x : Word) : Word :=
  let m : Word := if bfLen x = 0 then 0 else word ((2 ^ bfWidth x - 1) * 2 ^ bfPos x)
  (a &&& ~~~m) ||| ((b <<< bfPos x) &&& m)

/-- `bfi` (R205): the destination is read too. -/
def bfiOp (s : State) (a b : VReg) (c : Src) : Out :=
  laneOp s .plain a.toNat 1 [] (a.toNat :: b.toNat :: c.vregs) c.sregs fun g l _ =>
    bfi (g.vword a.toNat l) (g.vword b.toNat l) (g.src c l)

/-- A 64-bit lane instruction on a pair source (R206). -/
def pairOp (s : State) (a b : VReg) (c : Src) (f : Dword → Word → Dword) : Out :=
  laneOp s .plain a.toNat 2 [] (b.toNat :: (b.toNat + 1) :: c.vregs) c.sregs fun g l i =>
    let r := f (pairOf (g.vword b.toNat l) (g.vword (b.toNat + 1) l)) (g.src c l)
    if i = 0 then loWord r else hiWord r
/-- A widening product into a pair (R206). -/
def wideOp (s : State) (a b : VReg) (c : Src) (f : Word → Word → Dword) : Out :=
  laneOp s .plain a.toNat 2 [] (b.toNat :: c.vregs) c.sregs fun g l i =>
    let r := f (g.vword b.toNat l) (g.src c l)
    if i = 0 then loWord r else hiWord r

/-- add, V form (R204, R54). -/
def execAddV (a b c : VReg) (s : State) : Out := intXform s .add a b (.v c)
/-- add, X form (R204, R54). -/
def execAddX (a b : VReg) (c : XOp) (s : State) : Out := intXform s .add a b (.x c)
/-- sub, V form (R204, R54). -/
def execSubV (a b c : VReg) (s : State) : Out := intXform s .sub a b (.v c)
/-- sub, X form (R204, R54). -/
def execSubX (a b : VReg) (c : XOp) (s : State) : Out := intXform s .sub a b (.x c)
/-- mul, V form (R204, R54). -/
def execMulV (a b c : VReg) (s : State) : Out := intXform s .mul a b (.v c)
/-- mul, X form (R204, R54). -/
def execMulX (a b : VReg) (c : XOp) (s : State) : Out := intXform s .mul a b (.x c)
/-- mulhi.i32, V form (R204). -/
def execMulhiI32V (a b c : VReg) (s : State) : Out := laneOp2 s .plain a b (.v c) mulhiI
/-- mulhi.i32, X form (R204). -/
def execMulhiI32X (a b : VReg) (c : XOp) (s : State) : Out := laneOp2 s .plain a b (.x c) mulhiI
/-- mulhi.n32, V form (R204). -/
def execMulhiN32V (a b c : VReg) (s : State) : Out := laneOp2 s .plain a b (.v c) mulhiN
/-- mulhi.n32, X form (R204). -/
def execMulhiN32X (a b : VReg) (c : XOp) (s : State) : Out := laneOp2 s .plain a b (.x c) mulhiN
/-- mad, V form (R204, R54). -/
def execMadV (a b c : VReg) (s : State) : Out := madOp s a b (.v c)
/-- mad, X form (R204, R54). -/
def execMadX (a b : VReg) (c : XOp) (s : State) : Out := madOp s a b (.x c)
/-- mini32, V form (R204). -/
def execMinI32V (a b c : VReg) (s : State) : Out := laneOp2 s .plain a b (.v c) minI
/-- mini32, X form (R204). -/
def execMinI32X (a b : VReg) (c : XOp) (s : State) : Out := laneOp2 s .plain a b (.x c) minI
/-- maxi32, V form (R204). -/
def execMaxI32V (a b c : VReg) (s : State) : Out := laneOp2 s .plain a b (.v c) maxI
/-- maxi32, X form (R204). -/
def execMaxI32X (a b : VReg) (c : XOp) (s : State) : Out := laneOp2 s .plain a b (.x c) maxI
/-- minn32, V form (R204). -/
def execMinN32V (a b c : VReg) (s : State) : Out := laneOp2 s .plain a b (.v c) minN
/-- minn32, X form (R204). -/
def execMinN32X (a b : VReg) (c : XOp) (s : State) : Out := laneOp2 s .plain a b (.x c) minN
/-- maxn32, V form (R204). -/
def execMaxN32V (a b c : VReg) (s : State) : Out := laneOp2 s .plain a b (.v c) maxN
/-- maxn32, X form (R204). -/
def execMaxN32X (a b : VReg) (c : XOp) (s : State) : Out := laneOp2 s .plain a b (.x c) maxN
/-- and, V form (R204). -/
def execAndV (a b c : VReg) (s : State) : Out := laneOp2 s .plain a b (.v c) (· &&& ·)
/-- and, X form (R204). -/
def execAndX (a b : VReg) (c : XOp) (s : State) : Out := laneOp2 s .plain a b (.x c) (· &&& ·)
/-- or, V form (R204). -/
def execOrV (a b c : VReg) (s : State) : Out := laneOp2 s .plain a b (.v c) (· ||| ·)
/-- or, X form (R204). -/
def execOrX (a b : VReg) (c : XOp) (s : State) : Out := laneOp2 s .plain a b (.x c) (· ||| ·)
/-- xor, V form (R204). -/
def execXorV (a b c : VReg) (s : State) : Out := laneOp2 s .plain a b (.v c) (· ^^^ ·)
/-- xor, X form (R204). -/
def execXorX (a b : VReg) (c : XOp) (s : State) : Out := laneOp2 s .plain a b (.x c) (· ^^^ ·)
/-- shl, V form (R204, R54). -/
def execShlV (a b c : VReg) (s : State) : Out := shlOp s a b (.v c)
/-- shl, X form (R204, R54). -/
def execShlX (a b : VReg) (c : XOp) (s : State) : Out := shlOp s a b (.x c)
/-- shr, V form (R204). -/
def execShrV (a b c : VReg) (s : State) : Out := laneOp2 s .plain a b (.v c) shrW
/-- shr, X form (R204). -/
def execShrX (a b : VReg) (c : XOp) (s : State) : Out := laneOp2 s .plain a b (.x c) shrW
/-- sra, V form (R204). -/
def execSraV (a b c : VReg) (s : State) : Out := laneOp2 s .plain a b (.v c) sraW
/-- sra, X form (R204). -/
def execSraX (a b : VReg) (c : XOp) (s : State) : Out := laneOp2 s .plain a b (.x c) sraW

/-- absi32 (R205). -/
def execAbsI32 (a b : VReg) (s : State) : Out := laneOp1 s .plain a b fun _ => absW
/-- popcb32 (R205). -/
def execPopcB32 (a b : VReg) (s : State) : Out := laneOp1 s .plain a b fun _ => popc
/-- clzb32 (R205). -/
def execClzB32 (a b : VReg) (s : State) : Out := laneOp1 s .plain a b fun _ => clz
/-- brevb32 (R205). -/
def execBrevB32 (a b : VReg) (s : State) : Out := laneOp1 s .plain a b fun _ => brev
/-- bfe.n32, V form (R205). -/
def execBfeN32V (a b c : VReg) (s : State) : Out := laneOp2 s .plain a b (.v c) bfeN
/-- bfe.n32, X form (R205). -/
def execBfeN32X (a b : VReg) (c : XOp) (s : State) : Out := laneOp2 s .plain a b (.x c) bfeN
/-- bfe.i32, V form (R205). -/
def execBfeI32V (a b c : VReg) (s : State) : Out := laneOp2 s .plain a b (.v c) bfeI
/-- bfe.i32, X form (R205). -/
def execBfeI32X (a b : VReg) (c : XOp) (s : State) : Out := laneOp2 s .plain a b (.x c) bfeI
/-- bfi.b32, V form (R205). -/
def execBfiB32V (a b c : VReg) (s : State) : Out := bfiOp s a b (.v c)
/-- bfi.b32, X form (R205). -/
def execBfiB32X (a b : VReg) (c : XOp) (s : State) : Out := bfiOp s a b (.x c)
/-- mov.b32, V form (R205). -/
def execMovB32V (a c : VReg) (s : State) : Out := movOp s a (.v c)
/-- mov.b32, X form (R205). -/
def execMovB32X (a : VReg) (c : XOp) (s : State) : Out := movOp s a (.x c)

/-- add.i64, V form (R206). -/
def execAddI64V (a b c : VReg) (s : State) : Out := pairOp s a b (.v c) fun b x => b + x.signExtend 64
/-- add.i64, X form (R206). -/
def execAddI64X (a b : VReg) (c : XOp) (s : State) : Out := pairOp s a b (.x c) fun b x => b + x.signExtend 64
/-- sub.i64, V form (R206). -/
def execSubI64V (a b c : VReg) (s : State) : Out := pairOp s a b (.v c) fun b x => b - x.signExtend 64
/-- sub.i64, X form (R206). -/
def execSubI64X (a b : VReg) (c : XOp) (s : State) : Out := pairOp s a b (.x c) fun b x => b - x.signExtend 64
/-- shl.b64, V form (R206). -/
def execShlB64V (a b c : VReg) (s : State) : Out := pairOp s a b (.v c) fun b x => b <<< (x.toNat % 64)
/-- shl.b64, X form (R206). -/
def execShlB64X (a b : VReg) (c : XOp) (s : State) : Out := pairOp s a b (.x c) fun b x => b <<< (x.toNat % 64)
/-- shr.n64, V form (R206). -/
def execShrN64V (a b c : VReg) (s : State) : Out := pairOp s a b (.v c) fun b x => b >>> (x.toNat % 64)
/-- shr.n64, X form (R206). -/
def execShrN64X (a b : VReg) (c : XOp) (s : State) : Out := pairOp s a b (.x c) fun b x => b >>> (x.toNat % 64)
/-- sra.i64, V form (R206). -/
def execSraI64V (a b c : VReg) (s : State) : Out := pairOp s a b (.v c) fun b x => b.sshiftRight (x.toNat % 64)
/-- sra.i64, X form (R206). -/
def execSraI64X (a b : VReg) (c : XOp) (s : State) : Out := pairOp s a b (.x c) fun b x => b.sshiftRight (x.toNat % 64)
/-- mul.wide.i32, V form (R206). -/
def execMulWideI32V (a b c : VReg) (s : State) : Out := wideOp s a b (.v c) fun b x => b.signExtend 64 * x.signExtend 64
/-- mul.wide.i32, X form (R206). -/
def execMulWideI32X (a b : VReg) (c : XOp) (s : State) : Out := wideOp s a b (.x c) fun b x => b.signExtend 64 * x.signExtend 64
/-- mul.wide.n32, V form (R206). -/
def execMulWideN32V (a b c : VReg) (s : State) : Out := wideOp s a b (.v c) fun b x => b.zeroExtend 64 * x.zeroExtend 64
/-- mul.wide.n32, X form (R206). -/
def execMulWideN32X (a b : VReg) (c : XOp) (s : State) : Out := wideOp s a b (.x c) fun b x => b.zeroExtend 64 * x.zeroExtend 64

/-! 16-bit forms (R159): operand fields A, A and B. -/

/-- 16-bit addi32 (R159). -/
def execAddI32Half (a : BitVec 6) (b : BitVec 5) (s : State) : Out := intXform s .add (half6 a) (half6 a) (.v (half5 b))
/-- 16-bit subi32 (R159). -/
def execSubI32Half (a : BitVec 6) (b : BitVec 5) (s : State) : Out := intXform s .sub (half6 a) (half6 a) (.v (half5 b))
/-- 16-bit muli32 (R159). -/
def execMulI32Half (a : BitVec 6) (b : BitVec 5) (s : State) : Out := intXform s .mul (half6 a) (half6 a) (.v (half5 b))
/-- 16-bit andb32 (R159). -/
def execAndB32Half (a : BitVec 6) (b : BitVec 5) (s : State) : Out :=
  laneOp2 s .plain (half6 a) (half6 a) (.v (half5 b)) (· &&& ·)
/-- 16-bit orb32 (R159). -/
def execOrB32Half (a : BitVec 6) (b : BitVec 5) (s : State) : Out :=
  laneOp2 s .plain (half6 a) (half6 a) (.v (half5 b)) (· ||| ·)
/-- 16-bit xorb32 (R159). -/
def execXorB32Half (a : BitVec 6) (b : BitVec 5) (s : State) : Out :=
  laneOp2 s .plain (half6 a) (half6 a) (.v (half5 b)) (· ^^^ ·)
/-- 16-bit shrn32 (R159). -/
def execShrN32Half (a : BitVec 6) (b : BitVec 5) (s : State) : Out :=
  laneOp2 s .plain (half6 a) (half6 a) (.v (half5 b)) shrW
/-- 16-bit mini32 (R159). -/
def execMinI32Half (a : BitVec 6) (b : BitVec 5) (s : State) : Out :=
  laneOp2 s .plain (half6 a) (half6 a) (.v (half5 b)) minI
/-- 16-bit shl.b32 (R159). -/
def execShlB32Half (a : BitVec 6) (b : BitVec 5) (s : State) : Out := shlOp s (half6 a) (half6 a) (.v (half5 b))
/-- 16-bit mov.b32 (R159). -/
def execMovB32Half (a : BitVec 6) (b : BitVec 5) (s : State) : Out := movOp s (half6 a) (.v (half5 b))
/-- 16-bit nop (R159): it has no effect. -/
def execNopHalf (s : State) : Out := begin_ s {} fun g => complete s g

end Sys2Proof.Machine
end

