-- ==== Sys2Proof/Machine/LaneFloat.lean ====
section
/-! DEFINITION. Lane floating arithmetic and conversion (classes 0x0E to 0x11, R209 to R215) and its 16-bit
forms (R159). -/

namespace Sys2Proof.Machine

/-- `fadd`, `fsub` and `fmul` (R209), which change forms (R55). -/
def floatXform (s : State) (t : Nat → Bool → Xform) (a b : VReg) (c : Src) : Out :=
  laneXform s .round a (fun g => t (modeOf s g) (ftzOf s)) (some b.toNat) (some c) true none

/-- `ffma` (R209): the addend is the fourth operand, or vA (R165). -/
def ffmaOp (s : State) (a b : VReg) (c : Src) : Out :=
  laneXform s .roundD a (fun g => .ffma (modeOf s g) (ftzOf s)) (some b.toNat) (some c) true
    (some ((fourth s).getD a.toNat))

/-- `fmin` and `fmax` (R210). -/
def minMaxOp (s : State) (isMax : Bool) (a b : VReg) (c : Src) : Out :=
  laneOp s .plain a.toNat 1 [] (b.toNat :: c.vregs) c.sregs fun g l _ =>
    word (fp32.minMax isMax (g.vword b.toNat l).toNat (g.srcF fp32 1 c l).toNat)

/-- fadd.f32, V form (R209, R55). -/
def execFaddF32V (a b c : VReg) (s : State) : Out := floatXform s .fadd a b (.v c)
/-- fadd.f32, X form (R209, R55). -/
def execFaddF32X (a b : VReg) (c : XOp) (s : State) : Out := floatXform s .fadd a b (.x c)
/-- fsub.f32, V form (R209, R55). -/
def execFsubF32V (a b c : VReg) (s : State) : Out := floatXform s .fsub a b (.v c)
/-- fsub.f32, X form (R209, R55). -/
def execFsubF32X (a b : VReg) (c : XOp) (s : State) : Out := floatXform s .fsub a b (.x c)
/-- fmul.f32, V form (R209, R55). -/
def execFmulF32V (a b c : VReg) (s : State) : Out := floatXform s .fmul a b (.v c)
/-- fmul.f32, X form (R209, R55). -/
def execFmulF32X (a b : VReg) (c : XOp) (s : State) : Out := floatXform s .fmul a b (.x c)
/-- ffma.f32, V form (R209, R55). -/
def execFfmaF32V (a b c : VReg) (s : State) : Out := ffmaOp s a b (.v c)
/-- ffma.f32, X form (R209, R55). -/
def execFfmaF32X (a b : VReg) (c : XOp) (s : State) : Out := ffmaOp s a b (.x c)
/-- fmin.f32, V form (R210). -/
def execFminF32V (a b c : VReg) (s : State) : Out := minMaxOp s false a b (.v c)
/-- fmin.f32, X form (R210). -/
def execFminF32X (a b : VReg) (c : XOp) (s : State) : Out := minMaxOp s false a b (.x c)
/-- fmax.f32, V form (R210). -/
def execFmaxF32V (a b c : VReg) (s : State) : Out := minMaxOp s true a b (.v c)
/-- fmax.f32, X form (R210). -/
def execFmaxF32X (a b : VReg) (c : XOp) (s : State) : Out := minMaxOp s true a b (.x c)
/-- fneg.f32 (R211, R55). -/
def execFnegF32 (a b : VReg) (s : State) : Out := laneXform s .plain a (fun _ => .fneg) (some b.toNat) none true none
/-- fabs.f32 (R211). -/
def execFabsF32 (a b : VReg) (s : State) : Out := laneOp1 s .plain a b fun _ w => if (fp32.decode w.toNat).isNan then word fp32.nan else w &&& 0x7FFFFFFF
/-- fclass.f32 (R212). -/
def execFclassF32 (a b : VReg) (s : State) : Out := laneOp1 s .plain a b fun _ => fclass
/-- frnd.f32 (R211). -/
def execFrndF32 (a b : VReg) (s : State) : Out := laneOp1 s .round a b fun g => frnd (modeOf s g) (ftzOf s)
/-- fsqrt.f32 (R213). -/
def execFsqrtF32 (a b : VReg) (s : State) : Out := laneOp1 s .round a b fun g => fsqrt (modeOf s g) (ftzOf s)
/-- frcp.f32 (R213). -/
def execFrcpF32 (a b : VReg) (s : State) : Out := laneOp1 s .round a b fun _ => specialFn 0 (ftzOf s)
/-- frsq.f32 (R213). -/
def execFrsqF32 (a b : VReg) (s : State) : Out := laneOp1 s .round a b fun _ => specialFn 1 (ftzOf s)
/-- fex2.f32 (R213). -/
def execFex2F32 (a b : VReg) (s : State) : Out := laneOp1 s .round a b fun _ => specialFn 2 (ftzOf s)
/-- flg2.f32 (R213). -/
def execFlg2F32 (a b : VReg) (s : State) : Out := laneOp1 s .round a b fun _ => specialFn 3 (ftzOf s)
/-- fsin.f32 (R213). -/
def execFsinF32 (a b : VReg) (s : State) : Out := laneOp1 s .round a b fun _ => specialFn 4 (ftzOf s)
/-- fcos.f32 (R213). -/
def execFcosF32 (a b : VReg) (s : State) : Out := laneOp1 s .round a b fun _ => specialFn 5 (ftzOf s)
/-- cvt (R214, R215): RND and FTZ only where a type is floating (R202). -/
def execCvt (dt : NumTy) (sat : Bool) (st : NumTy) (b a : VReg) (s : State) : Out :=
  laneOp1 s (if (NumTy.fmt dt).isNone && (NumTy.fmt st).isNone then .plain else .round) a b fun g =>
    convert dt st sat (modeOf s g) (ftzOf s)

/-- 16-bit fadd.f32 (R159). -/
def execFaddF32Half (a : BitVec 6) (b : BitVec 5) (s : State) : Out := floatXform s .fadd (half6 a) (half6 a) (.v (half5 b))
/-- 16-bit fsub.f32 (R159). -/
def execFsubF32Half (a : BitVec 6) (b : BitVec 5) (s : State) : Out := floatXform s .fsub (half6 a) (half6 a) (.v (half5 b))
/-- 16-bit fmul.f32 (R159). -/
def execFmulF32Half (a : BitVec 6) (b : BitVec 5) (s : State) : Out := floatXform s .fmul (half6 a) (half6 a) (.v (half5 b))
/-- 16-bit fmin.f32 (R159). -/
def execFminF32Half (a : BitVec 6) (b : BitVec 5) (s : State) : Out := minMaxOp s false (half6 a) (half6 a) (.v (half5 b))
/-- 16-bit fmax.f32 (R159). -/
def execFmaxF32Half (a : BitVec 6) (b : BitVec 5) (s : State) : Out := minMaxOp s true (half6 a) (half6 a) (.v (half5 b))

end Sys2Proof.Machine
end

