-- ==== Sys2Proof/Machine/Packed.lean ====
section
/-! DEFINITION. Packed and dot arithmetic and block packing (classes 0x12 to 0x14, R216 to R219). -/

namespace Sys2Proof.Machine

/-- Both halves of a register computed apart (R216). -/
def halves (f : Nat → Nat → Nat) (b x : Word) : Word :=
  word (f (fld b 0 16) (fld x 0 16) + 2 ^ 16 * f (fld b 16 16) (fld x 16 16))

/-- `padd`, `psub` and `pmul` (R216). -/
def packedOp (s : State) (f : Fmt) (op : Nat) (a b : VReg) (c : Src) : Out :=
  laneOp s .round a.toNat 1 [] (b.toNat :: c.vregs) c.sregs fun g l _ =>
    halves (f.arith op (modeOf s g) (ftzOf s)) (g.vword b.toNat l) (g.srcF f 2 c l)

/-- `pfma` (R216): the addend is vD, or vA. -/
def pfmaOp (s : State) (f : Fmt) (a b : VReg) (c : Src) : Out :=
  let d := (fourth s).getD a.toNat
  laneOp s .roundD a.toNat 1 [] (b.toNat :: d :: c.vregs) c.sregs fun g l _ =>
    let x := g.srcF f 2 c l
    let p := g.vword b.toNat l
    let e := g.vword d l
    let half (i : Nat) : Nat := f.fma (modeOf s g) (ftzOf s) (fld p i 16) (fld x i 16) (fld e i 16)
    word (half 0 + 2 ^ 16 * half 16)

/-- `pmin` and `pmax` (R216). -/
def packedMinMax (s : State) (f : Fmt) (isMax : Bool) (a b : VReg) (c : Src) : Out :=
  laneOp s .plain a.toNat 1 [] (b.toNat :: c.vregs) c.sregs fun g l _ =>
    halves (f.minMax isMax) (g.vword b.toNat l) (g.srcF f 2 c l)

/-- `fdot4` (R217): the addend is vD, or vA. -/
def fdot4Op (s : State) (f : Fmt) (a b : VReg) (c : Src) : Out :=
  let d := (fourth s).getD a.toNat
  laneOp s .roundD a.toNat 1 [] (b.toNat :: d :: c.vregs) c.sregs fun g l _ =>
    fdot4 f (modeOf s g) (ftzOf s) (g.vword b.toNat l) (g.srcF f 4 c l) (g.vword d l)

/-- `tbpack` (R218): one block from all 32 lane slots. -/
def tbpackOp (s : State) (tb8 sat : Bool) (a b : VReg) (c : SReg) : Out :=
  begin_ s { rule := .plain, v := [a.toNat, b.toNat], vr := [b.toNat] } fun g =>
    blocking s g [b.toNat] (List.range 32)
      (let ex := execMask s g
       let t := tbPack tb8 sat ((List.range 32).map fun l =>
         if bit ex l then fp32.decode (g.vword b.toNat l).toNat else .fin false 0 1)
       let g2 := writeLanes s g a.toNat 1 fun l _ => word (t.els.getD l 0)
       complete s (g2.setS c.toNat (if ex = 0 then 0 else word (t.e0 + 256 * t.e1))))

/-- `tbunp` (R219). -/
def tbunpOp (s : State) (tb8 : Bool) (a b : VReg) (c : SReg) : Out :=
  laneOp s .plain a.toNat 1 [] [b.toNat] [c.toNat] fun g l _ =>
    let e := g.sreg c.toNat
    word (fp32.write rne false false
      (tbDecode tb8 (fld e 0 8) (fld e 8 8) (fld (g.vword b.toNat l) 0 (tbBits tb8))))

/-- padd.f16, V form (R216). -/
def execPaddF16V (a b c : VReg) (s : State) : Out := packedOp s fp16 0 a b (.v c)
/-- padd.f16, X form (R216). -/
def execPaddF16X (a b : VReg) (c : XOp) (s : State) : Out := packedOp s fp16 0 a b (.x c)
/-- psub.f16, V form (R216). -/
def execPsubF16V (a b c : VReg) (s : State) : Out := packedOp s fp16 1 a b (.v c)
/-- psub.f16, X form (R216). -/
def execPsubF16X (a b : VReg) (c : XOp) (s : State) : Out := packedOp s fp16 1 a b (.x c)
/-- pmul.f16, V form (R216). -/
def execPmulF16V (a b c : VReg) (s : State) : Out := packedOp s fp16 2 a b (.v c)
/-- pmul.f16, X form (R216). -/
def execPmulF16X (a b : VReg) (c : XOp) (s : State) : Out := packedOp s fp16 2 a b (.x c)
/-- pfma.f16, V form (R216). -/
def execPfmaF16V (a b c : VReg) (s : State) : Out := pfmaOp s fp16 a b (.v c)
/-- pfma.f16, X form (R216). -/
def execPfmaF16X (a b : VReg) (c : XOp) (s : State) : Out := pfmaOp s fp16 a b (.x c)
/-- pmin.f16, V form (R216, R210). -/
def execPminF16V (a b c : VReg) (s : State) : Out := packedMinMax s fp16 false a b (.v c)
/-- pmin.f16, X form (R216, R210). -/
def execPminF16X (a b : VReg) (c : XOp) (s : State) : Out := packedMinMax s fp16 false a b (.x c)
/-- pmax.f16, V form (R216, R210). -/
def execPmaxF16V (a b c : VReg) (s : State) : Out := packedMinMax s fp16 true a b (.v c)
/-- pmax.f16, X form (R216, R210). -/
def execPmaxF16X (a b : VReg) (c : XOp) (s : State) : Out := packedMinMax s fp16 true a b (.x c)
/-- padd.bf16, V form (R216). -/
def execPaddBf16V (a b c : VReg) (s : State) : Out := packedOp s bf16 0 a b (.v c)
/-- padd.bf16, X form (R216). -/
def execPaddBf16X (a b : VReg) (c : XOp) (s : State) : Out := packedOp s bf16 0 a b (.x c)
/-- psub.bf16, V form (R216). -/
def execPsubBf16V (a b c : VReg) (s : State) : Out := packedOp s bf16 1 a b (.v c)
/-- psub.bf16, X form (R216). -/
def execPsubBf16X (a b : VReg) (c : XOp) (s : State) : Out := packedOp s bf16 1 a b (.x c)
/-- pmul.bf16, V form (R216). -/
def execPmulBf16V (a b c : VReg) (s : State) : Out := packedOp s bf16 2 a b (.v c)
/-- pmul.bf16, X form (R216). -/
def execPmulBf16X (a b : VReg) (c : XOp) (s : State) : Out := packedOp s bf16 2 a b (.x c)
/-- pfma.bf16, V form (R216). -/
def execPfmaBf16V (a b c : VReg) (s : State) : Out := pfmaOp s bf16 a b (.v c)
/-- pfma.bf16, X form (R216). -/
def execPfmaBf16X (a b : VReg) (c : XOp) (s : State) : Out := pfmaOp s bf16 a b (.x c)
/-- pmin.bf16, V form (R216, R210). -/
def execPminBf16V (a b c : VReg) (s : State) : Out := packedMinMax s bf16 false a b (.v c)
/-- pmin.bf16, X form (R216, R210). -/
def execPminBf16X (a b : VReg) (c : XOp) (s : State) : Out := packedMinMax s bf16 false a b (.x c)
/-- pmax.bf16, V form (R216, R210). -/
def execPmaxBf16V (a b c : VReg) (s : State) : Out := packedMinMax s bf16 true a b (.v c)
/-- pmax.bf16, X form (R216, R210). -/
def execPmaxBf16X (a b : VReg) (c : XOp) (s : State) : Out := packedMinMax s bf16 true a b (.x c)
/-- fdot4.e4m3, V form (R217). -/
def execFdot4E4m3V (a b c : VReg) (s : State) : Out := fdot4Op s e4m3 a b (.v c)
/-- fdot4.e4m3, X form (R217). -/
def execFdot4E4m3X (a b : VReg) (c : XOp) (s : State) : Out := fdot4Op s e4m3 a b (.x c)
/-- fdot4.e5m2, V form (R217). -/
def execFdot4E5m2V (a b c : VReg) (s : State) : Out := fdot4Op s e5m2 a b (.v c)
/-- fdot4.e5m2, X form (R217). -/
def execFdot4E5m2X (a b : VReg) (c : XOp) (s : State) : Out := fdot4Op s e5m2 a b (.x c)
/-- tbpacktb8 (R218). -/
def execTbpackTb8 (a b : VReg) (c : SReg) (s : State) : Out := tbpackOp s true false a b c
/-- tbpacktb4 (R218). -/
def execTbpackTb4 (a b : VReg) (c : SReg) (s : State) : Out := tbpackOp s false false a b c
/-- tbpacksattb8 (R218). -/
def execTbpackSatTb8 (a b : VReg) (c : SReg) (s : State) : Out := tbpackOp s true true a b c
/-- tbpacksattb4 (R218). -/
def execTbpackSatTb4 (a b : VReg) (c : SReg) (s : State) : Out := tbpackOp s false true a b c
/-- tbunptb8 (R219). -/
def execTbunpTb8 (a b : VReg) (c : SReg) (s : State) : Out := tbunpOp s true a b c
/-- tbunptb4 (R219). -/
def execTbunpTb4 (a b : VReg) (c : SReg) (s : State) : Out := tbunpOp s false a b c

end Sys2Proof.Machine
end

