-- ==== Sys2Proof/Machine/Scalar.lean ====
section
/-! DEFINITION. Scalar arithmetic, moves, compares and select (classes 0x01 and 0x02, R179 to R181). -/

namespace Sys2Proof.Machine

/-- A scalar instruction: once per issue, sA takes a function of sB and X (R179, R181). -/
def scalarOp (s : State) (a b : SReg) (c : XOp) (f : Word → Word → Word) : Out :=
  begin_ s { sr := b.toNat :: XOp.reg c } fun g =>
    complete s (g.setS a.toNat (f (g.sreg b.toNat) (g.opX c)))

/-- A scalar compare writes 1 or 0 (R181). -/
def scalarSet (s : State) (a b : SReg) (c : XOp) (f : Word → Word → Bool) : Out :=
  scalarOp s a b c fun p q => if f p q then 1 else 0

/-- SCALAR_ADD (R181). -/
def execScalarAdd (a b : SReg) (c : XOp) (s : State) : Out :=
  scalarOp s a b c fun b x => b + x

/-- SCALAR_SUB (R181). -/
def execScalarSub (a b : SReg) (c : XOp) (s : State) : Out :=
  scalarOp s a b c fun b x => b - x

/-- SCALAR_MUL (R181). -/
def execScalarMul (a b : SReg) (c : XOp) (s : State) : Out :=
  scalarOp s a b c fun b x => b * x

/-- SCALAR_MULHII32 (R181). -/
def execScalarMulhiI32 (a b : SReg) (c : XOp) (s : State) : Out :=
  scalarOp s a b c fun b x => wordI (sx b * sx x / 2 ^ 32)

/-- SCALAR_MULHIN32 (R181). -/
def execScalarMulhiN32 (a b : SReg) (c : XOp) (s : State) : Out :=
  scalarOp s a b c fun b x => word (b.toNat * x.toNat / 2 ^ 32)

/-- SCALAR_AND (R181). -/
def execScalarAnd (a b : SReg) (c : XOp) (s : State) : Out :=
  scalarOp s a b c fun b x => b &&& x

/-- SCALAR_OR (R181). -/
def execScalarOr (a b : SReg) (c : XOp) (s : State) : Out :=
  scalarOp s a b c fun b x => b ||| x

/-- SCALAR_XOR (R181). -/
def execScalarXor (a b : SReg) (c : XOp) (s : State) : Out :=
  scalarOp s a b c fun b x => b ^^^ x

/-- SCALAR_SHL (R181). -/
def execScalarShl (a b : SReg) (c : XOp) (s : State) : Out :=
  scalarOp s a b c fun b x => b <<< (x.toNat % 32)

/-- SCALAR_SHR (R181). -/
def execScalarShr (a b : SReg) (c : XOp) (s : State) : Out :=
  scalarOp s a b c fun b x => b >>> (x.toNat % 32)

/-- SCALAR_SRA (R181). -/
def execScalarSra (a b : SReg) (c : XOp) (s : State) : Out :=
  scalarOp s a b c fun b x => b.sshiftRight (x.toNat % 32)

/-- SCALAR_MINI32 (R181). -/
def execScalarMinI32 (a b : SReg) (c : XOp) (s : State) : Out :=
  scalarOp s a b c fun b x => if sx x < sx b then x else b

/-- SCALAR_MAXI32 (R181). -/
def execScalarMaxI32 (a b : SReg) (c : XOp) (s : State) : Out :=
  scalarOp s a b c fun b x => if sx b < sx x then x else b

/-- SCALAR_MINN32 (R181). -/
def execScalarMinN32 (a b : SReg) (c : XOp) (s : State) : Out :=
  scalarOp s a b c fun b x => if x.toNat < b.toNat then x else b

/-- SCALAR_MAXN32 (R181). -/
def execScalarMaxN32 (a b : SReg) (c : XOp) (s : State) : Out :=
  scalarOp s a b c fun b x => if b.toNat < x.toNat then x else b

/-- SCALAR_MOV (R181). -/
def execScalarMov (a : SReg) (c : XOp) (s : State) : Out :=
  begin_ s { sr := XOp.reg c } fun g => complete s (g.setS a.toNat (g.opX c))

/-- SETEQ (R181). -/
def execSeteq (a b : SReg) (c : XOp) (s : State) : Out :=
  scalarSet s a b c fun b x => b == x

/-- SETNE (R181). -/
def execSetne (a b : SReg) (c : XOp) (s : State) : Out :=
  scalarSet s a b c fun b x => b != x

/-- SETLTI32 (R181). -/
def execSetltI32 (a b : SReg) (c : XOp) (s : State) : Out :=
  scalarSet s a b c fun b x => decide (sx b < sx x)

/-- SETLEI32 (R181). -/
def execSetleI32 (a b : SReg) (c : XOp) (s : State) : Out :=
  scalarSet s a b c fun b x => decide (sx b ≤ sx x)

/-- SETLTN32 (R181). -/
def execSetltN32 (a b : SReg) (c : XOp) (s : State) : Out :=
  scalarSet s a b c fun b x => decide (b.toNat < x.toNat)

/-- SETLEN32 (R181). -/
def execSetleN32 (a b : SReg) (c : XOp) (s : State) : Out :=
  scalarSet s a b c fun b x => decide (b.toNat ≤ x.toNat)

/-- SCALAR_SEL (R181): sA is read before it is written. -/
def execScalarSel (a b : SReg) (c : XOp) (s : State) : Out :=
  begin_ s { sr := a.toNat :: b.toNat :: XOp.reg c } fun g =>
    complete s (g.setS a.toNat (if g.sreg a.toNat = 0 then g.opX c else g.sreg b.toNat))

end Sys2Proof.Machine
end

