-- ==== Sys2Proof/Machine/LongForm.lean ====
section
/-! DEFINITION. The words that are not an instruction of their own: the clause header (R155, R156), the prefix (R163 to
R165), and the long form (R166), which gives the meaning of the instruction it wraps with its literal as operand X, as
branch offset or as address offset. -/

namespace Sys2Proof.Machine

/-- CLAUSE_HEADER (R156): the lanes enter the body once every flag named in WAIT is clear. Their pcv stays at the header
until the body's first instruction completes. -/
def execClauseHeader (_len : BitVec 5) (_flagB _flagA : BitVec 4) (wait : BitVec 12) (s : State) : Out :=
  match s.group s.iss.g with
  | none => .fault .noIssuingGroup
  | some g =>
    if (List.range 12).any fun k => wait.toNat / 2 ^ k % 2 == 1 && g.flag k != 0 then stall s
    else .next (putGroup s s.iss.g
      { g with latch := some { at_ := s.iss.a, entered := true, pfx := none, pfxBad := false } })

/-- PREFIX (R164): its options are held for the instruction that follows, which issues with it as one. A nonzero reserved
bit waits for row 7 of R173 there. -/
def execPrefixWord (d : VReg) (dv ftz zero : Bool) (rnd : BitVec 3) (mask : BitVec 4) (s : State) : Out :=
  match s.group s.iss.g with
  | none => .fault .noIssuingGroup
  | some g =>
    let p : Pfx := { d := if dv then some d.toNat else none, ftz := ftz, zero := zero, rnd := rnd.toNat
                     mask := if mask.toNat < 12 then some mask.toNat else none }
    let l := g.latchAt s.iss.a
    .next (putGroup s s.iss.g { g with latch := some { l with pfx := some p, pfxBad := s.iss.rsv } })

/-! The long form. -/

/-- A field that names an s register, or ILLEGAL_OP (row 5 of R173). -/
def longS (s : State) (n : Nat) (k : SReg → Out) : Out := if n < 64 then k (BitVec.ofNat 6 n) else faultWord s cIllegal
/-- A field that names a mask register, or ILLEGAL_OP. -/
def longM (s : State) (n : Nat) (k : MReg → Out) : Out := if n < 16 then k (BitVec.ofNat 4 n) else faultWord s cIllegal
/-- A condition of row 5 of R173, or ILLEGAL_OP. -/
def longIf (s : State) (c : Bool) (k : Out) : Out := if c then k else faultWord s cIllegal
/-- A Z field of the wrapped instruction: nonzero, row 7 of R173 is due. -/
def zField (s : State) (n : Nat) : State := { s with iss := { s.iss with rsv := s.iss.rsv || n != 0 } }

/-- The memory operand of a long form (R166, R162). -/
def longMem (s : State) (glob : Bool) (b : Nat) (lit : Word) (k : MemOp → Out) : Out :=
  let base := b % 64
  if glob && base % 2 == 1 then faultWord s cIllegal
  else if b < 64 then k (.offFar (BitVec.ofNat 6 b) lit)
  else if base ≠ 0 then k (.idxFar (BitVec.ofNat 6 base) (BitVec.ofNat 7 lit.toNat) (BitVec.ofNat 25 (lit.toNat / 128)))
  else if lit.toNat % 2 = 1 then faultWord s cIllegal
  else k (.pairFar (BitVec.ofNat 7 lit.toNat) (BitVec.ofNat 25 (lit.toNat / 128)))

/-- An access type that passes a test with its data registers. -/
def longTy (s : State) (m : Nat) (ok : AccTy → Bool) (k : AccTy → Out) : Out :=
  match accTyOf m with
  | some t => if ok t then k t else faultWord s cIllegal
  | none => faultWord s cIllegal
/-- An atomic operation that passes a test with its data registers. -/
def longOp (s : State) (m : Nat) (ok : AtomOp → Bool) (k : AtomOp → Out) : Out :=
  match atomOpOf m with
  | some o => if ok o then k o else faultWord s cIllegal
  | none => faultWord s cIllegal

/-- Class 0x01 in the long form. -/
def long01 (m a b : Nat) (x : XOp) (s : State) : Out :=
  match m with
  | 0 => longS s a fun a' => longS s b fun b' => execScalarAdd a' b' x s
  | 1 => longS s a fun a' => longS s b fun b' => execScalarSub a' b' x s
  | 2 => longS s a fun a' => longS s b fun b' => execScalarMul a' b' x s
  | 3 => longS s a fun a' => longS s b fun b' => execScalarMulhiI32 a' b' x s
  | 4 => longS s a fun a' => longS s b fun b' => execScalarMulhiN32 a' b' x s
  | 5 => longS s a fun a' => longS s b fun b' => execScalarAnd a' b' x s
  | 6 => longS s a fun a' => longS s b fun b' => execScalarOr a' b' x s
  | 7 => longS s a fun a' => longS s b fun b' => execScalarXor a' b' x s
  | 8 => longS s a fun a' => longS s b fun b' => execScalarShl a' b' x s
  | 9 => longS s a fun a' => longS s b fun b' => execScalarShr a' b' x s
  | 10 => longS s a fun a' => longS s b fun b' => execScalarSra a' b' x s
  | 11 => longS s a fun a' => longS s b fun b' => execScalarMinI32 a' b' x s
  | 12 => longS s a fun a' => longS s b fun b' => execScalarMaxI32 a' b' x s
  | 13 => longS s a fun a' => longS s b fun b' => execScalarMinN32 a' b' x s
  | 14 => longS s a fun a' => longS s b fun b' => execScalarMaxN32 a' b' x s
  | _ => faultWord s cIllegal
/-- Class 0x02 in the long form. -/
def long02 (m a b : Nat) (x : XOp) (s : State) : Out :=
  match m with
  | 0 => longS s a fun a' => execScalarMov a' x (zField s b)
  | 1 => longS s a fun a' => longS s b fun b' => execSeteq a' b' x s
  | 2 => longS s a fun a' => longS s b fun b' => execSetne a' b' x s
  | 3 => longS s a fun a' => longS s b fun b' => execSetltI32 a' b' x s
  | 4 => longS s a fun a' => longS s b fun b' => execSetleI32 a' b' x s
  | 5 => longS s a fun a' => longS s b fun b' => execSetltN32 a' b' x s
  | 6 => longS s a fun a' => longS s b fun b' => execSetleN32 a' b' x s
  | 7 => longS s a fun a' => longS s b fun b' => execScalarSel a' b' x s
  | _ => faultWord s cIllegal
/-- Class 0x09 in the long form. -/
def long09 (m a b : Nat) (x : XOp) (s : State) : Out :=
  match m with
  | 0 => execAddX (vOf a) (vOf b) x s
  | 1 => execSubX (vOf a) (vOf b) x s
  | 2 => execMulX (vOf a) (vOf b) x s
  | 3 => execMulhiI32X (vOf a) (vOf b) x s
  | 4 => execMulhiN32X (vOf a) (vOf b) x s
  | 5 => execMadX (vOf a) (vOf b) x s
  | 6 => execMinI32X (vOf a) (vOf b) x s
  | 7 => execMaxI32X (vOf a) (vOf b) x s
  | 8 => execMinN32X (vOf a) (vOf b) x s
  | 9 => execMaxN32X (vOf a) (vOf b) x s
  | 10 => execAndX (vOf a) (vOf b) x s
  | 11 => execOrX (vOf a) (vOf b) x s
  | 12 => execXorX (vOf a) (vOf b) x s
  | 13 => execShlX (vOf a) (vOf b) x s
  | 14 => execShrX (vOf a) (vOf b) x s
  | _ => execSraX (vOf a) (vOf b) x s
/-- Class 0x0B in the long form. -/
def long0B (m a b : Nat) (x : XOp) (s : State) : Out :=
  match m with
  | 4 => execBfeN32X (vOf a) (vOf b) x s
  | 5 => execBfeI32X (vOf a) (vOf b) x s
  | 6 => execBfiB32X (vOf a) (vOf b) x s
  | 7 => execMovB32X (vOf a) x (zField s b)
  | 8 => longIf s (decide (a % 2 = 0) && decide (b % 2 = 0)) <| execAddI64X (vOf a) (vOf b) x s
  | 9 => longIf s (decide (a % 2 = 0) && decide (b % 2 = 0)) <| execSubI64X (vOf a) (vOf b) x s
  | 10 => longIf s (decide (a % 2 = 0) && decide (b % 2 = 0)) <| execShlB64X (vOf a) (vOf b) x s
  | 11 => longIf s (decide (a % 2 = 0) && decide (b % 2 = 0)) <| execShrN64X (vOf a) (vOf b) x s
  | 12 => longIf s (decide (a % 2 = 0) && decide (b % 2 = 0)) <| execSraI64X (vOf a) (vOf b) x s
  | 13 => longIf s (decide (a % 2 = 0)) <| execMulWideI32X (vOf a) (vOf b) x s
  | 14 => longIf s (decide (a % 2 = 0)) <| execMulWideN32X (vOf a) (vOf b) x s
  | _ => faultWord s cIllegal
/-- Class 0x0D in the long form. -/
def long0D (m a b : Nat) (x : XOp) (s : State) : Out :=
  match m with
  | 0 => longM s a fun a' => longIf s (decide (a ≤ 11)) <| execCmpEqB32X a' (vOf b) x s
  | 1 => longM s a fun a' => longIf s (decide (a ≤ 11)) <| execCmpNeB32X a' (vOf b) x s
  | 2 => longM s a fun a' => longIf s (decide (a ≤ 11)) <| execCmpLtI32X a' (vOf b) x s
  | 3 => longM s a fun a' => longIf s (decide (a ≤ 11)) <| execCmpLeI32X a' (vOf b) x s
  | 4 => longM s a fun a' => longIf s (decide (a ≤ 11)) <| execCmpGtI32X a' (vOf b) x s
  | 5 => longM s a fun a' => longIf s (decide (a ≤ 11)) <| execCmpGeI32X a' (vOf b) x s
  | 6 => longM s a fun a' => longIf s (decide (a ≤ 11)) <| execCmpLtN32X a' (vOf b) x s
  | 7 => longM s a fun a' => longIf s (decide (a ≤ 11)) <| execCmpLeN32X a' (vOf b) x s
  | 8 => longM s a fun a' => longIf s (decide (a ≤ 11)) <| execCmpGtN32X a' (vOf b) x s
  | 9 => longM s a fun a' => longIf s (decide (a ≤ 11)) <| execCmpGeN32X a' (vOf b) x s
  | 10 => longM s a fun a' => longIf s (decide (a ≤ 11)) <| execFcmpEqF32X a' (vOf b) x s
  | 11 => longM s a fun a' => longIf s (decide (a ≤ 11)) <| execFcmpLtF32X a' (vOf b) x s
  | 12 => longM s a fun a' => longIf s (decide (a ≤ 11)) <| execFcmpLeF32X a' (vOf b) x s
  | 13 => longM s a fun a' => longIf s (decide (a ≤ 11)) <| execFcmpNeF32X a' (vOf b) x s
  | 14 => longM s a fun a' => longIf s (decide (a ≤ 11)) <| execFcmpUnF32X a' (vOf b) x s
  | _ => faultWord s cIllegal
/-- Class 0x0F in the long form. -/
def long0F (m a b : Nat) (x : XOp) (s : State) : Out :=
  match m with
  | 0 => execFaddF32X (vOf a) (vOf b) x s
  | 1 => execFsubF32X (vOf a) (vOf b) x s
  | 2 => execFmulF32X (vOf a) (vOf b) x s
  | 3 => execFfmaF32X (vOf a) (vOf b) x s
  | 4 => execFminF32X (vOf a) (vOf b) x s
  | 5 => execFmaxF32X (vOf a) (vOf b) x s
  | _ => faultWord s cIllegal
/-- Class 0x13 in the long form. -/
def long13 (m a b : Nat) (x : XOp) (s : State) : Out :=
  match m with
  | 0 => execPaddF16X (vOf a) (vOf b) x s
  | 1 => execPsubF16X (vOf a) (vOf b) x s
  | 2 => execPmulF16X (vOf a) (vOf b) x s
  | 3 => execPfmaF16X (vOf a) (vOf b) x s
  | 4 => execPminF16X (vOf a) (vOf b) x s
  | 5 => execPmaxF16X (vOf a) (vOf b) x s
  | 6 => execPaddBf16X (vOf a) (vOf b) x s
  | 7 => execPsubBf16X (vOf a) (vOf b) x s
  | 8 => execPmulBf16X (vOf a) (vOf b) x s
  | 9 => execPfmaBf16X (vOf a) (vOf b) x s
  | 10 => execPminBf16X (vOf a) (vOf b) x s
  | 11 => execPmaxBf16X (vOf a) (vOf b) x s
  | 12 => execFdot4E4m3X (vOf a) (vOf b) x s
  | 13 => execFdot4E5m2X (vOf a) (vOf b) x s
  | _ => faultWord s cIllegal
/-- Class 0x03 in the long form: `bra`, `brc` and `call`, with an offset in bytes. -/
def long03 (m a b : Nat) (lit : Word) (s : State) : Out :=
  if lit.toNat % 4 ≠ 0 then faultWord s cIllegal
  else match m with
    | 0 => execBra (.far lit) (zField s (a + b))
    | 1 => execBrcNz (vOf a) (.far lit) (zField s b)
    | 2 => execBrcZ (vOf a) (.far lit) (zField s b)
    | 4 => execCall (vOf a) (.far lit) (zField s b)
    | _ => faultWord s cIllegal

/-- Classes 0x20 to 0x2F in the long form; those of surfaces have none (R226). -/
def longAcc (cls m a b : Nat) (lit : Word) (s : State) : Out :=
  let v : VReg := vOf a
  match cls with
  | 0x20 => longTy s m (AccTy.dataOk · a) fun t => longMem s true b lit fun bc => execLdg t v bc s
  | 0x21 => longTy s m (AccTy.dataOk · a) fun t => longMem s true b lit fun bc => execLdgSym t v bc s
  | 0x22 => longTy s m (AccTy.dataOk · a) fun t => longMem s true b lit fun bc => execStg t v bc s
  | 0x23 => longTy s m (fun t => AccTy.plain t && AccTy.dataOk t a) fun t => longMem s false b lit fun bc => execLds t v bc s
  | 0x24 => longTy s m (fun t => AccTy.plain t && AccTy.dataOk t a) fun t => longMem s false b lit fun bc => execLdsSym t v bc s
  | 0x25 => longTy s m (fun t => AccTy.plain t && AccTy.dataOk t a) fun t => longMem s false b lit fun bc => execSts t v bc s
  | 0x2A => longOp s m (AtomOp.dataOk32 · a) fun o => longMem s true b lit fun bc => execAtg32 o v bc s
  | 0x2B => longOp s m (fun o => AtomOp.ok64 o && AtomOp.dataOk64 o a) fun o => longMem s true b lit fun bc => execAtg64 o v bc s
  | 0x2C => longOp s m (AtomOp.dataOk32 · a) fun o => longMem s false b lit fun bc => execAts32 o v bc s
  | 0x2D => longOp s m (fun o => AtomOp.ok64 o && AtomOp.dataOk64 o a) fun o => longMem s false b lit fun bc => execAts64 o v bc s
  | 0x2E => longOp s m (fun o => AtomOp.okRed32 o && AtomOp.dataOk32 o a) fun o => longMem s true b lit fun bc => execRed32 o v bc s
  | 0x2F => longOp s m (fun o => AtomOp.okRed64 o && AtomOp.dataOk64 o a) fun o => longMem s true b lit fun bc => execRed64 o v bc s
  | 0x30 =>
    -- the long form of a prefetch, whose literal is a byte offset, is R235's (log 105); field A is unused
    let t := { s with iss := { s.iss with rsv := s.iss.rsv || a != 0 } }
    if m = 8 then longMem t true b lit fun bc => execPrefetchL1 bc t
    else if m = 9 then longMem t true b lit fun bc => execPrefetchSlice bc t
    else faultWord s cIllegal
  | _ => faultWord s cIllegal

/-- LONG_FORM (R166): the wrapped instruction, with the literal in place of its field C or N; an instruction without a
long form is ILLEGAL_OP. -/
def execLongForm (minor : BitVec 4) (b a : BitVec 7) (icls : BitVec 6) (lit : Word) (s : State) : Out :=
  let m := minor.toNat
  let i := a.toNat
  let j := b.toNat
  let x : XOp := .lit lit
  match icls.toNat with
  | 0x01 => long01 m i j x s
  | 0x02 => long02 m i j x s
  | 0x03 => long03 m i j lit s
  | 0x09 => long09 m i j x s
  | 0x0B => long0B m i j x s
  | 0x0D => long0D m i j x s
  | 0x0F => long0F m i j x s
  | 0x13 => long13 m i j x s
  | 0x19 => longM s m fun k => longIf s (decide (m ≤ 11)) (execSelX (vOf i) k (vOf j) x s)
  | k => longAcc k m i j lit s

end Sys2Proof.Machine
end

