-- ==== Sys2Proof/Machine/Priv.lean ====
section
/-! DEFINITION. The privileged instructions (class 0x3C): `grd` and `gwr` (R330, R383), `resume` and `halt` (R331),
`bankset` (R332, R324) and `tlbinv` (R333). -/

namespace Sys2Proof.Machine

/-! Handles and selectors (R330). -/

/-- The fields of a selector. -/
structure Sel where
  kind : Nat
  index : Nat
  reg : Nat
  lane : Nat
  deriving DecidableEq, Repr

def selOf (w : Word) : Sel := { kind := fld w 28 4, index := fld w 16 12, reg := fld w 8 8, lane := fld w 0 5 }

/-- The selector is in range for a group, by kind (R330 status 3). -/
def Sel.fits (x : Sel) (w : Word) (g : Group) : Bool :=
  fld w 5 3 == 0 && match x.kind with
    | 0 => decide (x.reg < g.id.nv)
    | 1 => decide (x.reg < 64)
    | 2 => decide (x.reg < 12)
    | 3 => decide (x.reg < 12)
    | 4 => true
    | 5 => decide (x.reg < 5)
    | 6 => decide (x.reg < g.id.nhr) && decide (x.index < 256)
    | 7 => decide (x.reg < g.id.ncr) && decide (x.index < 2048)
    | 8 => decide (x.reg < g.id.nv)
    | 9 => decide (x.reg < g.id.nv)
    | 10 => decide (x.reg < g.id.nv)
    | 11 => decide (x.index < 2)
    | _ => false

/-- What a handle and a selector give: the group, or the status that stops the access (R330). -/
def findSel (s : State) (me : Group) (h w : Word) : Except Nat (Nat × Group) :=
  if fld h 19 13 ≠ 0 then .error 3
  else match groupAt s (fld h 0 10) (fld h 10 2) (fld h 12 2) (fld h 14 5) with
    | none => .error 2
    | some gid =>
      match s.group gid with
      | none => .error 2
      | some g =>
        if ctxPart s g.id.ctx ≠ ctxPart s me.id.ctx then .error 2
        else if !haltedCtx s g.id.ctx then .error 1
        else if (selOf w).fits w g then .ok (gid, g) else .error 3

/-- Four counters of a c register as a word. -/
def Group.counterWord (g : Group) (k i : Nat) : Word :=
  word ((List.range 4).foldl (fun n j => n + ((g.counter k (4 * i + j)) % 256).toNat * 2 ^ (8 * j)) 0)
/-- A byte as a counter: −128 is stored as −127. -/
def counterOf (b : Nat) : Int := if b = 0x80 then -127 else if 128 ≤ b then (b : Int) - 256 else b
def Group.setCounterWord (g : Group) (k i : Nat) (w : Word) : Group :=
  { g with c := (List.range 4).foldl (fun c j => cset 0 c (8192 * k + 4 * i + j) (counterOf (fld w (8 * j) 8))) g.c }

/-- The value and status of a `grd` (R330). -/
def Group.readSel (g : Group) (x : Sel) : Word × Nat :=
  let e := g.elem x.reg x.lane
  match x.kind with
  | 0 => (e.word, if e.isForm then 4 else 0)
  | 1 => (g.sreg x.reg, 0)
  | 2 => (g.mreg x.reg, 0)
  | 3 => (word (g.flag x.reg), 0)
  | 4 => ((g.lane x.lane).pcv, 0)
  | 5 => ((g.special x.reg).getD 0, 0)
  | 6 => (word ((g.hreg x.reg).toNat / 2 ^ (32 * x.index)), 0)
  | 7 => (g.counterWord x.reg x.index, 0)
  | 8 => (match e with
    | .form _ a _ _ _ => (a, 0)
    | _ => (0, 4))
  | 9 => (match e with
    | .form _ _ b _ _ => (b, 0)
    | _ => (0, 4))
  | 10 => (match e with
    | .form k _ _ _ f => (word (k + if f then 8 else 0), 0)
    | _ => (0, 4))
  | _ => (word (if x.index = 0 then g.floor else g.starve), 0)

/-- GRD (R330). -/
def execGrd (a b c : SReg) (s : State) : Out :=
  begin_ s { sr := [b.toNat, c.toNat], priv := true } fun g =>
    let r := match findSel s g (g.sreg b.toNat) (g.sreg c.toNat) with
      | .error st => ((0 : Word), st)
      | .ok (_, x) => x.readSel (selOf (g.sreg c.toNat))
    complete s ((g.setS a.toNat r.1).setS (a.toNat + 1) (word r.2))

/-! Edits (R383). -/

/-- The barrier arrivals of a group's team at the router are withdrawn. -/
def withdraw (s : State) (g : Group) : State :=
  match g.id.tid, g.arrived with
  | some t, some (true, n) =>
    { s with clusters := s.clusters.map fun p =>
        (p.1, { p.2 with arrivals := p.2.arrivals.filter fun a => a != (t, n) }) }
  | _, _ => s

/-- A lane's pcv is written: its park is cancelled, it leaves its faulting fragment, its barrier arrival is withdrawn,
and a `wait` that loses its last lane is disarmed. -/
def editPcv (s : State) (gid : Nat) (g : Group) (l : Nat) (w : Word) : State :=
  let old := (g.lane l).st
  let s := match old with
    | .bar _ _ => withdraw s g
    | _ => s
  let one : Word := maskOf [l]
  let g := g.setLane l fun x => { x with pcv := w &&& 0xFFFFFFFE, st := .running, adv := 0, hop := .along }
  let g := { g with
    faulted := g.faulted &&& ~~~one
    arrived := (match old with
      | .bar _ _ => none
      | _ => g.arrived)
    phaseLanes := g.phaseLanes &&& ~~~one
    latch := none }
  let g := if g.phaseLanes = 0 then g.settled else g
  match old with
  | .wait k =>
    if (List.range 32).any fun j => (g.lane j).st == .wait k then putGroup s gid g
    else evLeave (putGroup s gid { g with waits := cdel g.waits k }) fun x => x == .group gid k
  | _ => putGroup s gid g

/-- A `gwr` of an accepted selector: its status, and the state it leaves (R330, R383). -/
def writeSel (s : State) (gid : Nat) (g : Group) (x : Sel) (w : Word) : State × Nat :=
  let put (g : Group) : State × Nat := (putGroup s gid g, 0)
  let form (f : Elem → Option Elem) : State × Nat :=
    match f (g.elem x.reg x.lane) with
    | some e => put (g.setElem x.reg x.lane e)
    | none => (s, 4)
  match x.kind with
  | 0 => put (g.setElem x.reg x.lane (.val w)).releaseSyms
  | 1 => put (g.setS x.reg w)
  | 2 => put (g.setM x.reg (w &&& g.live))
  | 3 => put { g with f := cset 0 g.f x.reg (fld w 0 6) }
  | 4 => if (g.lane x.lane).live then (editPcv s gid g x.lane w, 0) else (s, 3)
  | 5 =>
    if x.reg = 4 then
      (if w = 2 ∨ w = 4 ∨ w = 8 ∨ w = 16 ∨ w = 32 then put { g with tile := w.toNat } else (s, 3))
    else put ((g.setSpecial x.reg w).getD g)
  | 6 =>
    let h := (g.hreg x.reg).toNat
    let old := h / 2 ^ (32 * x.index) % 2 ^ 32
    put (g.setH x.reg (BitVec.ofNat 8192 (h - old * 2 ^ (32 * x.index) + w.toNat * 2 ^ (32 * x.index))))
  | 7 => put (g.setCounterWord x.reg x.index w)
  | 8 => form fun e => match e with
    | .form k _ b t f => some (.form k w b t f)
    | _ => none
  | 9 => form fun e => match e with
    | .form k a _ t f => some (.form k a w t f)
    | _ => none
  | 10 => form fun e => match e with
    | .form k a b t _ => some (.form k a b t (bit w 3))
    | _ => none
  | _ =>
    if x.index = 0 then put { g with floor := w.toNat }
    else if w.toNat < 64 then put { g with starve := w.toNat } else (s, 3)

/-- GWR (R330). -/
def execGwr (a b c : SReg) (s : State) : Out :=
  begin_ s { sr := [a.toNat, b.toNat, c.toNat], priv := true } fun g =>
    let r := match findSel s g (g.sreg b.toNat) (g.sreg c.toNat) with
      | .error st => (s, st)
      | .ok (gid, x) => writeSel s gid x (selOf (g.sreg c.toNat)) (g.sreg a.toNat)
    complete r.1 (((r.1.group s.iss.g).getD g).setS (a.toNat + 1) (word r.2))

/-! Halting and resuming (R331). -/

/-- A context that a supervisor group of another partition may not touch, or one that is not VALID. -/
def foreign (s : State) (g : Group) (c : Nat) : Bool := !ctxValid s c || ctxPart s c != ctxPart s g.id.ctx

/-- The status register is written and the instruction is over. -/
def statusDone (s : State) (g : Group) (a : SReg) (st : Nat) : Out :=
  complete s (((s.group s.iss.g).getD g).settled.setS a.toNat (word st))

/-- A group of the context makes a single step within the halt (R420). -/
def stepping (s : State) (c : Nat) : Bool := s.groups.any fun p => p.2.id.ctx == c && (p.2.step == 1 || p.2.step == 4)

/-- RESUME (R331). -/
def execResume (a b : SReg) (s : State) : Out :=
  begin_ s { sr := [b.toNat], priv := true } fun g =>
    let c := fld (g.sreg b.toNat) 0 6
    if foreign s g c || s.alarmed then statusDone s g a 2
    else if (match (ctxOf s c).handler with
        | some t => g.id.tid != some t
        | none => false) then statusDone s g a 3
    else if !haltedCtx s c then statusDone s g a 1
    else if capsBusy s s.iss.g || !fenceClear s s.iss.g g 5 || stepping s c then longStall s g
    else statusDone (lowerLine (releaseAll s s.iss.g g) c) g a 0

/-- HALT (R331): the line is raised, and the status is written once every unit has stopped and written its record. -/
def execHalt (a b : SReg) (s : State) : Out :=
  begin_ s { sr := [b.toNat], priv := true } fun g =>
    if g.phase = 0 then
      let c := fld (g.sreg b.toNat) 0 6
      if foreign s g c then statusDone s g a 2
      else if c = g.id.ctx then statusDone s g a 3
      else if haltedCtx s c then statusDone s g a 1
      else later (raiseLine s c (srcWedge g.core g.wedge) cHalt) g 1 [c]
    else match (ctxOf s (g.phaseVals.headD 0)).halt with
      | some h => if h.written then statusDone s g a 0 else longStall s g
      | none => statusDone s g a 0

/-! Banks and translations (R332, R333). -/

/-- BANKSET (R332, R324). -/
def execBankset (a b c : SReg) (s : State) : Out :=
  begin_ s { sr := [b.toNat, c.toNat], priv := true } fun g =>
    let core := fld (g.sreg b.toNat) 0 10
    let w := g.sreg c.toNat
    let bank := fld w 0 2
    let p := ctxPart s g.id.ctx
    let bind := bit w 16
    let unbind := bit w 17
    let handlers := bank == 3 && handlerCore s p == some core
    if !(partCores s p).contains core then statusDone s g a 3
    else if (bind && unbind) || w &&& 0xFFFCC0FC ≠ 0 then statusDone s g a 2
    else if bind then
      let k := fld w 8 6
      if foreign s g k then statusDone s g a 3
      else if (boundTo s core bank).isSome || !bankEmpty s core bank || handlers || !bankUsable s core bank then
        statusDone s g a 1
      else statusDone (setBound s core bank (some k)) g a 0
    else if (boundTo s core bank).isNone then statusDone s g a 2
    else if unbind then
      (if !bankEmpty s core bank || (handlers && (tget s.slot p).isSome) then statusDone s g a 1
       else statusDone (setBound s core bank none) g a 0)
    else if !bankPol s p then statusDone s g a 4
    else statusDone (selectBank s core bank) g a 0

/-- TLBINV (R333): the walkers' cache of non-leaf entries goes with the translations (R341). -/
def execTlbinv (a b c : SReg) (s : State) : Out :=
  begin_ s { sr := [b.toNat, b.toNat + 1, c.toNat], priv := true } fun g =>
    let w := g.sreg c.toNat
    let k := fld w 0 6
    let va := g.spair b.toNat
    if w &&& 0xFFFFFEC0 ≠ 0 || foreign s g k then statusDone s g a 2
    else if capsBusy s s.iss.g || !fenceClear s s.iss.g g 5 then longStall s g
    else
      let hit (t : TlbEntry) : Bool := t.ctx == k && (bit w 8 || t.hits t.owner k va)
      statusDone { fenced s s.iss.g g 5 with tlb := s.tlb.filter fun t => !hit t, walks := [] } g a 0

end Sys2Proof.Machine
end

