-- ==== Sys2Proof/Machine/System.lean ====
section
/-! DEFINITION. Events of the whole device: time (R404 to R406), the filter load (R412), sampling (R410, R411), stop the
cluster (R418), single step (R419 to R421), windows (R140), partitions and contexts (R323, R326, R327), power (R439, R441),
wear (R438), alarms and reports (R436, R437) and bring-up (R434, R440). -/

namespace Sys2Proof.Machine

/-! Time. -/

/-- PTM_DIALOGUE (R406). -/
def execPtmDialogue (s : State) : Out := if portOpen s false then .next (goPtm s) else .next s

/-- PTM_RESPONSE (R406): the response's registers are latched and PTMV is set. -/
def execPtmResponse (master delay : Nat) (s : State) : Out :=
  match s.ptm with
  | none => .next s
  | some t1 =>
    let s := regSet64 (regSet64 (regSet64 s 0x507 (t1 % 2 ^ 64)) 0x509 (s.time % 2 ^ 64)) 0x50B (master % 2 ^ 64)
    let s := regSet s 0x50D (word delay)
    .next { regSet s 0x502 (regGet s 0x502 ||| 0x20000000) with ptm := none }

/-- TIME_STEP (R406). -/
def execTimeStep (off : Nat) (s : State) : Out := if portOpen s false then .next (stepTime s off) else .next s

/-! Trace. -/

/-- FILTER_LOAD (R412, R414). -/
def execFilterLoad (p : Nat) (s : State) : Out := .next (if portOpen s false then loadFilter s (p % 8) else s)

/-- No instruction is tagged yet. -/
def Sample.fresh (part : Nat) : Sample :=
  { part := part, g := none, pc := 0, word := 0, state := none, lanes := 0, cause := 0, launch := 0, team := 0xFFFFFFFF,
    group := 0xFF, lane := 0xFF, level := 0 }

/-- The oldest active group of a wedge in the selected bank (R411). -/
def oldestActive (s : State) (core wedge : Nat) : Option Group :=
  match (banksOf s core).selected with
  | none => none
  | some b =>
    ((wedgeGroups s core b wedge).filter fun p => p.2.active).foldl (fun (o : Option Group) p =>
      match o with
      | none => some p.2
      | some g => if p.2.order < g.order then some p.2 else o) none

/-- SAMPLE_TAG (R410, R411): an idle wedge and a wedge whose oldest active group has nothing fetched give their records;
otherwise the wedge's next issue is tagged. Which of the last two is a free choice, for the manual gives no fetch timing. -/
def execSampleTag (core wedge : Nat) (s : State) : Out :=
  match partOfQuad s (quadOf core) with
  | none => .next s
  | some p =>
    let k := srcWedge core wedge
    if 576 ≤ core ∨ 4 ≤ wedge ∨ (tget s.samples k).isSome ∨ bit (regGet s (kPart p 0x518)) 31 = false then .next s
    else if !(s.groups.any fun g => g.2.core == core && g.2.wedge == wedge) then
      .next { s with samples := tput s.samples k { Sample.fresh p with state := some 4 } }
    else match (oldestActive s core wedge).bind fun g => g.issueAddr.map fun a => (g, a.2) with
      | none => .next { s with samples := tput s.samples k (Sample.fresh p) }
      | some (g, a) =>
        if chooseOf s 2 = 0 then .next { chose s with samples := tput s.samples k (Sample.fresh p) }
        else
          let n := g.names (g.lanesAt a)
          let x : Sample := { Sample.fresh p with pc := a, state := some 1, lanes := g.lanesAt a, launch := n.launch,
                                                  team := n.team, group := n.group, lane := n.lane }
          .next { chose s with samples := tput s.samples k x }

/-! The level that an access reaches (R411). -/

/-- Level of global bytes: 5 a peer, 6 the host, 1 the core's L1 copy for a read, 3 a sector in its slice, 4 HBM4. -/
def globLevel (s : State) (g : Group) (rd : Bool) (va n : Nat) : Nat :=
  match (checkAccess s g.core g.id.ctx va n (if rd then .read else .write) anyFmt (natural 1)).2 with
  | .error _ => 0
  | .ok p =>
    if peerKey 0 ≤ p.key then 5
    else if hostKey ≤ p.key then 6
    else if rd && (usableCopy s g.core (p.key / 256)).isSome then 1
    else match tget s.llc (p.key / 1024) with
      | some l => if l.secs.contains (p.key / 256 % 4) then 3 else 4
      | none => 4

/-- Level of a surface sample: 8 its arena, 9 a tile that is not resident and fills from spill. -/
def sampleLevel (s : State) (g : Group) (slotw cw n : Nat) : Nat :=
  match checkSample s g.id.ctx slotw cw n with
  | .error _ => 0
  | .ok p => if (tileOf s g.id.ctx p.slot p.surf p.tile).resident then 8 else 9

/-- The furthest level that an instruction's access of its lowest executing lane reaches as it issues (R411). -/
def levelOf (s : State) (g : Group) (l : Nat) (i : Instr) : Nat :=
  let glob (rd : Bool) (n : Nat) (m : MemOp) : Nat := globLevel s g rd (g.memAddr true n m l) n
  let kib (rd : Bool) (b : SReg) : Nat :=
    (List.range 16).foldl (fun k j => max k (globLevel s g rd ((g.spair b.toNat + 64 * j) % 2 ^ 64) 64)) 0
  let surf (n : Nat) (b : SReg) (c : VReg) : Nat := sampleLevel s g (g.sreg b.toNat).toNat (g.vword c.toNat l).toNat n
  match i with
  | .ldg t _ m => glob true (AccTy.bytes t) m
  | .ldgSym t _ m => glob true (AccTy.bytes t) m
  | .stg t _ m => glob false (AccTy.bytes t) m
  | .atg32 _ _ m => glob false 4 m
  | .atg64 _ _ m => glob false 8 m
  | .red32 _ _ m => glob false 4 m
  | .red64 _ _ m => glob false 8 m
  | .hldG _ b => kib true b
  | .hstG _ b => kib false b
  | .lds .. => 2
  | .ldsSym .. => 2
  | .sts .. => 2
  | .ats32 .. => 2
  | .ats64 .. => 2
  | .hldS .. => 2
  | .hstS .. => 2
  | .hmatch .. => 2
  | .ldt t _ b c => surf (AccTy.bytes t) b c
  | .ldtSym t _ b c => surf (AccTy.bytes t) b c
  | .stt t _ b c => surf (AccTy.bytes t) b c
  | .annBoard .. => 7
  | .annAlight .. => 7
  | .annLdB32 .. => 7
  | .annLdB64 .. => 7
  | .annLdSymI32 .. => 7
  | .annLdSymF32 .. => 7
  | .annWait .. => 7
  | .annOp32 .. => 7
  | .annOp64 .. => 7
  | _ => 0

/-- The tagged instruction, about to be issued, notes the level that it reaches; a fill that an earlier try began stays noted
(R411). -/
def tagLevel (s : State) (i : Instr) : State :=
  match s.group s.iss.g with
  | none => s
  | some g =>
    { s with samples := s.samples.map fun p =>
        if p.2.g = some s.iss.g && p.2.state.isNone && p.2.pc = s.iss.ia && p.2.level != 9 then
          match lanesOf p.2.lanes with
          | [] => p
          | l :: _ => (p.1, { p.2 with level := levelOf s g l i })
        else p }

/-- What STATE the record of a tag has, once its instruction is over (R411). -/
def Sample.fate (s : State) (x : Sample) (core wedge : Nat) : Option Nat :=
  match x.state, x.g with
  | some v, _ => some v
  | none, none => none
  | none, some g =>
    match s.group g with
    | some gr => if unitStopped s gr.id.ctx (srcWedge core wedge) then some 3 else none
    | none => if s.saved.any fun c => c.2.saved.any fun t => t.groups.any fun q => q.1 == g then none else some 5

/-- A count in 16 bits, saturating (R411). -/
def sat16 (n : Nat) : Nat := min n 0xFFFF

/-- SAMPLING_RECORD (R408, R411): 64 bytes; the clocks in each stage, from fetch on, are what the device measured, and the
level is the one that the instruction reached. -/
def execSamplingRecord (core wedge level : Nat) (lats : List Nat) (s : State) : Out :=
  let k := srcWedge core wedge
  match tget s.samples k with
  | none => .next s
  | some x =>
    match x.fate s core wedge with
    | none => .next s
    | some st =>
      if level ≠ x.level then .next s
      else
      let s := { s with samples := cdel s.samples k }
      let lat (i : Nat) : Nat := sat16 (lats.getD i 0)
      let pay := (if st = 2 then x.pc / 256 * 256 + x.cause else x.pc) + 2 ^ 32 * x.lanes.toNat
      let half := [0, 0, 0, 0, word (lat 0 + 65536 * lat 1), word (lat 2 + 65536 * lat 3),
                   word (lat 4 + 2 ^ 20 * level + 2 ^ 24 * st), x.word]
      let ws := traceWords s 0x20 x.part k pay { launch := x.launch, team := x.team, group := x.group, lane := x.lane } ++ half
      if bit (regGet s (kPart x.part 0x515)) 7 then .next (queueRecord s (stackOf core) x.part ws) else .next s

/-! Stop the cluster and single step. -/

/-- STOPC_GO (R418). -/
def execStopcGo (p : Nat) (s : State) : Out := .next (if portOpen s false then sendStop s (p % 8) else s)

/-- STEP_WITHIN_HALT (R419, R420). -/
def execStepWithinHalt (p : Nat) (s : State) : Out :=
  if !portOpen s false ∨ stepState s (p % 8) = 1 ∨ bit (regGet s (kPart (p % 8) 0x578)) 30 = true then .next s else .next (startStep s (p % 8))
/-- STEP_NOTIFY (R419, R421). -/
def execStepNotify (p : Nat) (s : State) : Out :=
  if !portOpen s false ∨ stepState s (p % 8) = 1 ∨ bit (regGet s (kPart (p % 8) 0x578)) 30 = false then .next s else .next (armStep s (p % 8))

/-- The issue address of a stepped group; with every lane parked, the lowest pcv. -/
def stepPc (g : Group) : Nat :=
  match ({ g with step := 1 }).issueAddr with
  | some (_, a) => a
  | none => (leastOf ((lanesOf g.live).map fun l => (g.lane l).pcv.toNat)).getD 0

/-- A step is over: STATE 2, STEPPC where the group still stands (R420). -/
def endStep (s : State) (p g : Nat) : State :=
  let s := { stepStat s p 2 false with steps := cdel s.steps p }
  match s.group g with
  | none => s
  | some gr => putGroup (regSet s (kPart p 0x57A) (word (stepPc gr))) g { gr with step := 0 }

/-- STEP_COMPLETION (R420, R421): the stepped issue has completed with its accesses and captures, a barrier that it
reached has been tested; or the lanes notified have taken STEP. -/
def execStepCompletion (p : Nat) (s : State) : Out :=
  match tget s.steps p with
  | none => .next s
  | some g =>
    match s.group g with
    | none => .next (endStep s p g)
    | some gr =>
      if gr.step = 4 then
        if capsBusy s g || opsBusy gr then .next s
        else
          let s := arriveBar s g gr
          let s := match gr.id.tid with
            | some t =>
              (match tget s.teams t with
               | some x => arriveRouter s t x
               | none => s)
            | none => s
          .next (endStep s p g)
      else if gr.step = 3 && gr.stepLanes &&& gr.live == 0 then .next (endStep s p g)
      else .next s

/-! Windows, partitions, contexts. -/

/-- ANN_WINDOW_ENABLE (R140). -/
def execAnnWindowEnable (ctx val : Nat) (s : State) : Out :=
  if ctx < 64 ∧ portOpen s false = true ∧ bit (word val) 31 = true then .next (windowWrite s ctx (word val)) else .next s
/-- ANN_WINDOW_DISABLE (R140). -/
def execAnnWindowDisable (ctx val : Nat) (s : State) : Out :=
  if ctx < 64 ∧ portOpen s false = true ∧ bit (word val) 31 = false then .next (windowWrite s ctx (word val)) else .next s

/-- PARTQ_WRITE (R323, R326). -/
def execPartqWrite (p mask : Nat) (s : State) : Out :=
  if p < 8 ∧ portOpen s false = true then .next (partqSet s p (word mask)) else .next s
/-- HCORE_WRITE (R326). -/
def execHcoreWrite (p core : Nat) (s : State) : Out :=
  if p < 8 ∧ portOpen s false = true then .next (hcoreSet s p (word core)) else .next s

/-- CONTEXT_CREATE (R327). -/
def execContextCreate (ctx val : Nat) (s : State) : Out :=
  if ctx < 64 ∧ portOpen s false = true ∧ ctxValid s ctx = false ∧ bit (word val) 31 = true then
    .next (ctxcfgSet s ctx (word val))
  else .next s
/-- CONTEXT_INVALIDATE (R327). -/
def execContextInvalidate (ctx val : Nat) (s : State) : Out :=
  if ctx < 64 ∧ portOpen s false = true ∧ ctxValid s ctx = true ∧ bit (word val) 31 = false then
    .next (ctxcfgSet s ctx (word val))
  else .next s

/-! Power (R439, R441). -/

/-- A host write of PSTATE. -/
def pstateEvent (s : State) (p : Word) : Out := if portOpen s false then .next (pstateSet s p) else .next s
/-- PSTATE_RUN (R441). -/
def execPstateRun (s : State) : Out := pstateEvent s 0
/-- PSTATE_IDLE (R441). -/
def execPstateIdle (s : State) : Out := pstateEvent s 1
/-- PSTATE_SLEEP (R441). -/
def execPstateSleep (s : State) : Out := pstateEvent s 2

/-- A cause of R439 begins or ends to hold: 0 THERM, 1 POWER, 2 WEAR. -/
def setCause (s : State) (k : Nat) (on : Bool) : State :=
  let cs := s.causes.filter (· != k)
  let cs := if on then k :: cs else cs
  { s with
    causes := cs
    causeSince := if cs.isEmpty then none else some (s.causeSince.getD s.time)
    quietSince := if cs.isEmpty && !s.causes.isEmpty then s.time else s.quietSince }

/-- THERMAL_OR_POWER_CAUSE (R439): THERM or POWER, or (3) a critical temperature, which is above the warning one too and
raises the floor to 4 at once. -/
def execThermalOrPowerCause (cause : Nat) (on : Bool) (s : State) : Out :=
  if cause = 0 ∨ cause = 1 then .next (setCause s cause on)
  else if cause = 3 ∧ on = true then .next { setCause s 0 true with floor := 4 }
  else .next s

/-- FLOOR_RAISE (R439): a cause has held for 100 µs of TIME at this floor. -/
def execFloorRaise (s : State) : Out :=
  match s.causeSince with
  | none => .next s
  | some t =>
    if s.floor < 4 ∧ t + 100000 ≤ s.time then .next { s with floor := s.floor + 1, causeSince := some s.time } else .next s

/-- FLOOR_FALL (R439): 10 ms with no cause. -/
def execFloorFall (s : State) : Out :=
  if s.causes.isEmpty = true ∧ 2 < s.floor ∧ s.quietSince + 10000000 ≤ s.time then
    .next { s with floor := s.floor - 1, quietSince := s.time }
  else .next s

/-! Wear (R438). -/

/-- Every VALID context takes HALT from a unit (R437, R438). -/
def haltAll (s : State) (src : Nat) : State :=
  ((List.range 64).filter (ctxValid s)).foldl (fun s c => raiseLine s c src cHalt) s

/-- A wear state agrees with the hours left (R438). -/
def wearFits (state eolh : Nat) : Bool :=
  state == 3 || state == (if eolh < 720 then 2 else if eolh < 8760 then 1 else 0)

/-- WEAR_STATE_CHANGE (R438): a bus that fails is retired if AUTO is set; an SRAM die, an HBM4 stack or the whole UCIe link
that fails is a package failure. -/
def execWearStateChange (sel state eolh used : Nat) (s : State) : Out :=
  if 4645 < sel ∨ 3 < state ∨ wearFits state eolh = false then .next s
  else
    let w : Wear := { eolh := if state = 3 then 0 else sat16 eolh, used := used % 256, state := state }
    let s := { s with wear := tput s.wear sel w }
    let worn := s.wear.any fun x => decide (x.1 < 4614) && x.2.state == 2
    let s := if worn == s.causes.contains 2 then s else setCause s 2 worn
    if state ≠ 3 then .next s
    else if sel < 4608 then
      let core := sel / 8
      let bus := sel % 8
      if bit (regGet s 0x702) 0 = false ∨ (columnOf s core).retired.contains bus = true then .next s
      else .next { s with retireQueue := s.retireQueue ++ [(core, bus)], retireState := 1 }
    else if sel < 4626 ∨ sel = 4645 then .next (haltAll { s with failed := true } 0xE41)
    else .next s

/-! Alarms and reports (R436, R437). -/

/-- The sources of each level of alarm (R437). -/
def alarmOf (level src : Nat) : Bool :=
  (level == 1 && (src == 1 || src == 2 || src == 3)) || (level == 2 && (src == 1 || src == 2 || src == 3 || src == 5))
    || (level == 3 && src == 4)

/-- ALARM (R437): recorded; from level 2 every VALID context halts, the session keys go and a report under way is spoiled;
at level 3 the identity key goes for good. -/
def execAlarm (level src : Nat) (s : State) : Out :=
  if alarmOf level src = false then .next s
  else
    let s := regSet s 0x60C (word (2 ^ 31 + level * 256 + src))
    let st := regGet s 0x600
    let s := regSet s 0x600 (masked st (word (max (fld st 30 2) level * 2 ^ 30)) 0xC0000000)
    if level = 1 then .next s
    else
      let s := { haltAll s 0xE41 with sessionKeys := false, alarmed := true }
      let s := if s.report = 0 then s
        else { regSet s 0x600 (masked (regGet s 0x600) 0x08000000 0x18000000) with report := 0 }
      .next (if level = 3 then regSet s 0x600 (regGet s 0x600 &&& 0xFBFFFFFF) else s)

/-- ATTESTATION_REPORT (R436). -/
def execAttestationReport (s : State) : Out := .next (goReport s)

/-- Bytes of words, little-endian. -/
def wordBytes (ws : List Word) : List Byte := ws.flatMap fun w => bytesOf 4 w.toNat

/-- The fields of the report page, in order, before its signature (R436). -/
def reportFields (s : State) : List Byte :=
  wordBytes ((List.range 8).map fun i => regGet s (0x601 + i)) ++ bytesOf 4 (packRead s 0x40).toNat
    ++ bytesOf 64 (Config.shake512 (wordBytes s.flashHeader ++ s.flashBody)).toNat
    ++ bytesOf 4 (nthW s.flashHeader 2).toNat ++ wordBytes ((List.range 8).map fun p => regGet s (0x48 + p))
    ++ bytesOf 8 s.time

/-- REPORT_PUBLISH (R436): the page is written whole and released, then ABUSY is cleared; without the identity key AERR is
set and nothing is published. -/
def execReportPublish (s : State) : Out :=
  if s.report = 0 then .next s
  else
    let a := regGet64 s 0x609 % 2 ^ 56 / 4096 * 4096
    if bit (regGet s 0x600) 26 = false ∨ hbmEnd < a + 4096 then
      .next { regSet s 0x600 (masked (regGet s 0x600) 0x08000000 0x18000000) with report := 0 }
    else
      let fs := reportFields s
      let bs := (fs ++ Config.falconSign (Config.shake512 fs)).take 4096
      let s := publishAll (writeSlice s a bs.length (ofBytes bs) 0)
      .next { regSet s 0x600 (regGet s 0x600 &&& 0xEFFFFFFF) with report := 0 }

/-! Bring-up (R434, R440). -/

/-- What a reset leaves of a device that has been running: memory outside the package, the flash and the fuses, what is fused
for good, and the model's own counters. The wear indicators start from the reset value of HLT.WEAR (R438). -/
def State.powered (s : State) : State :=
  let r := { State.reset with
    turns := s.turns, free := s.free, fresh := s.fresh, mem := s.mem.filter fun c => decide (hostKey ≤ c.1)
    fuseKey := s.fuseKey, rollback := s.rollback, flashHeader := s.flashHeader, flashBody := s.flashBody
    flashKey := s.flashKey, flashSig := s.flashSig, peers := s.peers, hostReads := s.hostReads }
  if bit (regGet s 0x600) 26 then r else regSet r 0x600 (regGet r 0x600 &&& 0xFBFFFFFF)

/-- The flash holds an image of the four parts of R434: a header of 64 bytes with its magic number and the length of the body,
a key of 1793 bytes, and a signature of at most 1280 bytes (log 79). -/
def imageOk (s : State) : Bool :=
  s.flashHeader.length == 16 && nthW s.flashHeader 0 == 0x4C485631 && (nthW s.flashHeader 3).toNat == s.flashBody.length
    && s.flashKey.length == 1793 && decide (s.flashSig.length ≤ 1280)

/-- The three tests of R434, on an image. -/
def firmwareOk (s : State) : Bool :=
  imageOk s && Config.shake256 s.flashKey == s.fuseKey
    && Config.falconVerify s.flashKey s.flashSig (Config.shake512 (wordBytes s.flashHeader ++ s.flashBody))
    && decide (s.rollback ≤ (nthW s.flashHeader 2).toNat)

/-- BRING_UP (R434, R440): reset is released, the firmware is checked, HBM4 and UCIe are trained, and BAR0 opens; with the
firmware accepted a larger SVN is burnt. -/
def execBringUp (s : State) : Out :=
  let ok := firmwareOk s.powered
  let r := trained s.powered
  if ok then
    .next { regSet r 0x600 ((regGet r 0x600 ||| 0x20000000) ||| (nthW r.flashHeader 1 &&& 0xFFFF)) with
      rollback := max r.rollback (nthW r.flashHeader 2).toNat }
  else .next r

end Sys2Proof.Machine
end

