-- ==== Sys2Proof/Machine/Dispatch.lean ====
section
/-! DEFINITION. The dispatch of an instruction, filter word or event to its meaning: one arm per constructor. -/

namespace Sys2Proof.Machine

/-- The meaning of an instruction. -/
def exec (i : Instr) (s : State) : Host.Outcome State Fault Refusal :=
  match i with
  | .clauseHeader len flagB flagA wait => Sys2Proof.Machine.execClauseHeader len flagB flagA wait s
  | .prefixWord d dv ftz zero rnd mask => Sys2Proof.Machine.execPrefixWord d dv ftz zero rnd mask s
  | .longForm minor b a icls lit => Sys2Proof.Machine.execLongForm minor b a icls lit s
  | .nopHalf => Sys2Proof.Machine.execNopHalf s
  | .addI32Half a b => Sys2Proof.Machine.execAddI32Half a b s
  | .subI32Half a b => Sys2Proof.Machine.execSubI32Half a b s
  | .mulI32Half a b => Sys2Proof.Machine.execMulI32Half a b s
  | .andB32Half a b => Sys2Proof.Machine.execAndB32Half a b s
  | .orB32Half a b => Sys2Proof.Machine.execOrB32Half a b s
  | .xorB32Half a b => Sys2Proof.Machine.execXorB32Half a b s
  | .shlB32Half a b => Sys2Proof.Machine.execShlB32Half a b s
  | .shrN32Half a b => Sys2Proof.Machine.execShrN32Half a b s
  | .faddF32Half a b => Sys2Proof.Machine.execFaddF32Half a b s
  | .fsubF32Half a b => Sys2Proof.Machine.execFsubF32Half a b s
  | .fmulF32Half a b => Sys2Proof.Machine.execFmulF32Half a b s
  | .fminF32Half a b => Sys2Proof.Machine.execFminF32Half a b s
  | .fmaxF32Half a b => Sys2Proof.Machine.execFmaxF32Half a b s
  | .movB32Half a b => Sys2Proof.Machine.execMovB32Half a b s
  | .minI32Half a b => Sys2Proof.Machine.execMinI32Half a b s
  | .scalarAdd a b c => Sys2Proof.Machine.execScalarAdd a b c s
  | .scalarSub a b c => Sys2Proof.Machine.execScalarSub a b c s
  | .scalarMul a b c => Sys2Proof.Machine.execScalarMul a b c s
  | .scalarMulhiI32 a b c => Sys2Proof.Machine.execScalarMulhiI32 a b c s
  | .scalarMulhiN32 a b c => Sys2Proof.Machine.execScalarMulhiN32 a b c s
  | .scalarAnd a b c => Sys2Proof.Machine.execScalarAnd a b c s
  | .scalarOr a b c => Sys2Proof.Machine.execScalarOr a b c s
  | .scalarXor a b c => Sys2Proof.Machine.execScalarXor a b c s
  | .scalarShl a b c => Sys2Proof.Machine.execScalarShl a b c s
  | .scalarShr a b c => Sys2Proof.Machine.execScalarShr a b c s
  | .scalarSra a b c => Sys2Proof.Machine.execScalarSra a b c s
  | .scalarMinI32 a b c => Sys2Proof.Machine.execScalarMinI32 a b c s
  | .scalarMaxI32 a b c => Sys2Proof.Machine.execScalarMaxI32 a b c s
  | .scalarMinN32 a b c => Sys2Proof.Machine.execScalarMinN32 a b c s
  | .scalarMaxN32 a b c => Sys2Proof.Machine.execScalarMaxN32 a b c s
  | .scalarMov a c => Sys2Proof.Machine.execScalarMov a c s
  | .seteq a b c => Sys2Proof.Machine.execSeteq a b c s
  | .setne a b c => Sys2Proof.Machine.execSetne a b c s
  | .setltI32 a b c => Sys2Proof.Machine.execSetltI32 a b c s
  | .setleI32 a b c => Sys2Proof.Machine.execSetleI32 a b c s
  | .setltN32 a b c => Sys2Proof.Machine.execSetltN32 a b c s
  | .setleN32 a b c => Sys2Proof.Machine.execSetleN32 a b c s
  | .scalarSel a b c => Sys2Proof.Machine.execScalarSel a b c s
  | .bra n => Sys2Proof.Machine.execBra n s
  | .brcNz a n => Sys2Proof.Machine.execBrcNz a n s
  | .brcZ a n => Sys2Proof.Machine.execBrcZ a n s
  | .bri a => Sys2Proof.Machine.execBri a s
  | .call a n => Sys2Proof.Machine.execCall a n s
  | .ret a => Sys2Proof.Machine.execRet a s
  | .exit => Sys2Proof.Machine.execExit s
  | .elect a => Sys2Proof.Machine.execElect a s
  | .yield => Sys2Proof.Machine.execYield s
  | .trap n => Sys2Proof.Machine.execTrap n s
  | .brk n => Sys2Proof.Machine.execBrk n s
  | .settile b => Sys2Proof.Machine.execSettile b s
  | .mjoin a => Sys2Proof.Machine.execMjoin a s
  | .mleave a => Sys2Proof.Machine.execMleave a s
  | .mwait a => Sys2Proof.Machine.execMwait a s
  | .mrd a b => Sys2Proof.Machine.execMrd a b s
  | .mwr a b => Sys2Proof.Machine.execMwr a b s
  | .waitAny a b c => Sys2Proof.Machine.execWaitAny a b c s
  | .waitAll a b c => Sys2Proof.Machine.execWaitAll a b c s
  | .sleepAt b => Sys2Proof.Machine.execSleepAt b s
  | .sleepAtProm b => Sys2Proof.Machine.execSleepAtProm b s
  | .rdtime a => Sys2Proof.Machine.execRdtime a s
  | .barTeam n => Sys2Proof.Machine.execBarTeam n s
  | .barCluster n => Sys2Proof.Machine.execBarCluster n s
  | .evsig b => Sys2Proof.Machine.execEvsig b s
  | .launch a b c => Sys2Proof.Machine.execLaunch a b c s
  | .symWait c => Sys2Proof.Machine.execSymWait c s
  | .rdsrS a n => Sys2Proof.Machine.execRdsrS a n s
  | .rdsrV a n => Sys2Proof.Machine.execRdsrV a n s
  | .wrsr a n => Sys2Proof.Machine.execWrsr a n s
  | .addV a b c => Sys2Proof.Machine.execAddV a b c s
  | .addX a b c => Sys2Proof.Machine.execAddX a b c s
  | .subV a b c => Sys2Proof.Machine.execSubV a b c s
  | .subX a b c => Sys2Proof.Machine.execSubX a b c s
  | .mulV a b c => Sys2Proof.Machine.execMulV a b c s
  | .mulX a b c => Sys2Proof.Machine.execMulX a b c s
  | .mulhiI32V a b c => Sys2Proof.Machine.execMulhiI32V a b c s
  | .mulhiI32X a b c => Sys2Proof.Machine.execMulhiI32X a b c s
  | .mulhiN32V a b c => Sys2Proof.Machine.execMulhiN32V a b c s
  | .mulhiN32X a b c => Sys2Proof.Machine.execMulhiN32X a b c s
  | .madV a b c => Sys2Proof.Machine.execMadV a b c s
  | .madX a b c => Sys2Proof.Machine.execMadX a b c s
  | .minI32V a b c => Sys2Proof.Machine.execMinI32V a b c s
  | .minI32X a b c => Sys2Proof.Machine.execMinI32X a b c s
  | .maxI32V a b c => Sys2Proof.Machine.execMaxI32V a b c s
  | .maxI32X a b c => Sys2Proof.Machine.execMaxI32X a b c s
  | .minN32V a b c => Sys2Proof.Machine.execMinN32V a b c s
  | .minN32X a b c => Sys2Proof.Machine.execMinN32X a b c s
  | .maxN32V a b c => Sys2Proof.Machine.execMaxN32V a b c s
  | .maxN32X a b c => Sys2Proof.Machine.execMaxN32X a b c s
  | .andV a b c => Sys2Proof.Machine.execAndV a b c s
  | .andX a b c => Sys2Proof.Machine.execAndX a b c s
  | .orV a b c => Sys2Proof.Machine.execOrV a b c s
  | .orX a b c => Sys2Proof.Machine.execOrX a b c s
  | .xorV a b c => Sys2Proof.Machine.execXorV a b c s
  | .xorX a b c => Sys2Proof.Machine.execXorX a b c s
  | .shlV a b c => Sys2Proof.Machine.execShlV a b c s
  | .shlX a b c => Sys2Proof.Machine.execShlX a b c s
  | .shrV a b c => Sys2Proof.Machine.execShrV a b c s
  | .shrX a b c => Sys2Proof.Machine.execShrX a b c s
  | .sraV a b c => Sys2Proof.Machine.execSraV a b c s
  | .sraX a b c => Sys2Proof.Machine.execSraX a b c s
  | .absI32 a b => Sys2Proof.Machine.execAbsI32 a b s
  | .popcB32 a b => Sys2Proof.Machine.execPopcB32 a b s
  | .clzB32 a b => Sys2Proof.Machine.execClzB32 a b s
  | .brevB32 a b => Sys2Proof.Machine.execBrevB32 a b s
  | .bfeN32V a b c => Sys2Proof.Machine.execBfeN32V a b c s
  | .bfeN32X a b c => Sys2Proof.Machine.execBfeN32X a b c s
  | .bfeI32V a b c => Sys2Proof.Machine.execBfeI32V a b c s
  | .bfeI32X a b c => Sys2Proof.Machine.execBfeI32X a b c s
  | .bfiB32V a b c => Sys2Proof.Machine.execBfiB32V a b c s
  | .bfiB32X a b c => Sys2Proof.Machine.execBfiB32X a b c s
  | .movB32V a c => Sys2Proof.Machine.execMovB32V a c s
  | .movB32X a c => Sys2Proof.Machine.execMovB32X a c s
  | .addI64V a b c => Sys2Proof.Machine.execAddI64V a b c s
  | .addI64X a b c => Sys2Proof.Machine.execAddI64X a b c s
  | .subI64V a b c => Sys2Proof.Machine.execSubI64V a b c s
  | .subI64X a b c => Sys2Proof.Machine.execSubI64X a b c s
  | .shlB64V a b c => Sys2Proof.Machine.execShlB64V a b c s
  | .shlB64X a b c => Sys2Proof.Machine.execShlB64X a b c s
  | .shrN64V a b c => Sys2Proof.Machine.execShrN64V a b c s
  | .shrN64X a b c => Sys2Proof.Machine.execShrN64X a b c s
  | .sraI64V a b c => Sys2Proof.Machine.execSraI64V a b c s
  | .sraI64X a b c => Sys2Proof.Machine.execSraI64X a b c s
  | .mulWideI32V a b c => Sys2Proof.Machine.execMulWideI32V a b c s
  | .mulWideI32X a b c => Sys2Proof.Machine.execMulWideI32X a b c s
  | .mulWideN32V a b c => Sys2Proof.Machine.execMulWideN32V a b c s
  | .mulWideN32X a b c => Sys2Proof.Machine.execMulWideN32X a b c s
  | .cmpEqB32V a b c => Sys2Proof.Machine.execCmpEqB32V a b c s
  | .cmpEqB32X a b c => Sys2Proof.Machine.execCmpEqB32X a b c s
  | .cmpNeB32V a b c => Sys2Proof.Machine.execCmpNeB32V a b c s
  | .cmpNeB32X a b c => Sys2Proof.Machine.execCmpNeB32X a b c s
  | .cmpLtI32V a b c => Sys2Proof.Machine.execCmpLtI32V a b c s
  | .cmpLtI32X a b c => Sys2Proof.Machine.execCmpLtI32X a b c s
  | .cmpLeI32V a b c => Sys2Proof.Machine.execCmpLeI32V a b c s
  | .cmpLeI32X a b c => Sys2Proof.Machine.execCmpLeI32X a b c s
  | .cmpGtI32V a b c => Sys2Proof.Machine.execCmpGtI32V a b c s
  | .cmpGtI32X a b c => Sys2Proof.Machine.execCmpGtI32X a b c s
  | .cmpGeI32V a b c => Sys2Proof.Machine.execCmpGeI32V a b c s
  | .cmpGeI32X a b c => Sys2Proof.Machine.execCmpGeI32X a b c s
  | .cmpLtN32V a b c => Sys2Proof.Machine.execCmpLtN32V a b c s
  | .cmpLtN32X a b c => Sys2Proof.Machine.execCmpLtN32X a b c s
  | .cmpLeN32V a b c => Sys2Proof.Machine.execCmpLeN32V a b c s
  | .cmpLeN32X a b c => Sys2Proof.Machine.execCmpLeN32X a b c s
  | .cmpGtN32V a b c => Sys2Proof.Machine.execCmpGtN32V a b c s
  | .cmpGtN32X a b c => Sys2Proof.Machine.execCmpGtN32X a b c s
  | .cmpGeN32V a b c => Sys2Proof.Machine.execCmpGeN32V a b c s
  | .cmpGeN32X a b c => Sys2Proof.Machine.execCmpGeN32X a b c s
  | .fcmpEqF32V a b c => Sys2Proof.Machine.execFcmpEqF32V a b c s
  | .fcmpEqF32X a b c => Sys2Proof.Machine.execFcmpEqF32X a b c s
  | .fcmpLtF32V a b c => Sys2Proof.Machine.execFcmpLtF32V a b c s
  | .fcmpLtF32X a b c => Sys2Proof.Machine.execFcmpLtF32X a b c s
  | .fcmpLeF32V a b c => Sys2Proof.Machine.execFcmpLeF32V a b c s
  | .fcmpLeF32X a b c => Sys2Proof.Machine.execFcmpLeF32X a b c s
  | .fcmpNeF32V a b c => Sys2Proof.Machine.execFcmpNeF32V a b c s
  | .fcmpNeF32X a b c => Sys2Proof.Machine.execFcmpNeF32X a b c s
  | .fcmpUnF32V a b c => Sys2Proof.Machine.execFcmpUnF32V a b c s
  | .fcmpUnF32X a b c => Sys2Proof.Machine.execFcmpUnF32X a b c s
  | .faddF32V a b c => Sys2Proof.Machine.execFaddF32V a b c s
  | .faddF32X a b c => Sys2Proof.Machine.execFaddF32X a b c s
  | .fsubF32V a b c => Sys2Proof.Machine.execFsubF32V a b c s
  | .fsubF32X a b c => Sys2Proof.Machine.execFsubF32X a b c s
  | .fmulF32V a b c => Sys2Proof.Machine.execFmulF32V a b c s
  | .fmulF32X a b c => Sys2Proof.Machine.execFmulF32X a b c s
  | .ffmaF32V a b c => Sys2Proof.Machine.execFfmaF32V a b c s
  | .ffmaF32X a b c => Sys2Proof.Machine.execFfmaF32X a b c s
  | .fminF32V a b c => Sys2Proof.Machine.execFminF32V a b c s
  | .fminF32X a b c => Sys2Proof.Machine.execFminF32X a b c s
  | .fmaxF32V a b c => Sys2Proof.Machine.execFmaxF32V a b c s
  | .fmaxF32X a b c => Sys2Proof.Machine.execFmaxF32X a b c s
  | .fnegF32 a b => Sys2Proof.Machine.execFnegF32 a b s
  | .fabsF32 a b => Sys2Proof.Machine.execFabsF32 a b s
  | .fclassF32 a b => Sys2Proof.Machine.execFclassF32 a b s
  | .frndF32 a b => Sys2Proof.Machine.execFrndF32 a b s
  | .frcpF32 a b => Sys2Proof.Machine.execFrcpF32 a b s
  | .frsqF32 a b => Sys2Proof.Machine.execFrsqF32 a b s
  | .fsqrtF32 a b => Sys2Proof.Machine.execFsqrtF32 a b s
  | .fex2F32 a b => Sys2Proof.Machine.execFex2F32 a b s
  | .flg2F32 a b => Sys2Proof.Machine.execFlg2F32 a b s
  | .fsinF32 a b => Sys2Proof.Machine.execFsinF32 a b s
  | .fcosF32 a b => Sys2Proof.Machine.execFcosF32 a b s
  | .cvt dt sat st b a => Sys2Proof.Machine.execCvt dt sat st b a s
  | .paddF16V a b c => Sys2Proof.Machine.execPaddF16V a b c s
  | .paddF16X a b c => Sys2Proof.Machine.execPaddF16X a b c s
  | .psubF16V a b c => Sys2Proof.Machine.execPsubF16V a b c s
  | .psubF16X a b c => Sys2Proof.Machine.execPsubF16X a b c s
  | .pmulF16V a b c => Sys2Proof.Machine.execPmulF16V a b c s
  | .pmulF16X a b c => Sys2Proof.Machine.execPmulF16X a b c s
  | .pfmaF16V a b c => Sys2Proof.Machine.execPfmaF16V a b c s
  | .pfmaF16X a b c => Sys2Proof.Machine.execPfmaF16X a b c s
  | .pminF16V a b c => Sys2Proof.Machine.execPminF16V a b c s
  | .pminF16X a b c => Sys2Proof.Machine.execPminF16X a b c s
  | .pmaxF16V a b c => Sys2Proof.Machine.execPmaxF16V a b c s
  | .pmaxF16X a b c => Sys2Proof.Machine.execPmaxF16X a b c s
  | .paddBf16V a b c => Sys2Proof.Machine.execPaddBf16V a b c s
  | .paddBf16X a b c => Sys2Proof.Machine.execPaddBf16X a b c s
  | .psubBf16V a b c => Sys2Proof.Machine.execPsubBf16V a b c s
  | .psubBf16X a b c => Sys2Proof.Machine.execPsubBf16X a b c s
  | .pmulBf16V a b c => Sys2Proof.Machine.execPmulBf16V a b c s
  | .pmulBf16X a b c => Sys2Proof.Machine.execPmulBf16X a b c s
  | .pfmaBf16V a b c => Sys2Proof.Machine.execPfmaBf16V a b c s
  | .pfmaBf16X a b c => Sys2Proof.Machine.execPfmaBf16X a b c s
  | .pminBf16V a b c => Sys2Proof.Machine.execPminBf16V a b c s
  | .pminBf16X a b c => Sys2Proof.Machine.execPminBf16X a b c s
  | .pmaxBf16V a b c => Sys2Proof.Machine.execPmaxBf16V a b c s
  | .pmaxBf16X a b c => Sys2Proof.Machine.execPmaxBf16X a b c s
  | .fdot4E4m3V a b c => Sys2Proof.Machine.execFdot4E4m3V a b c s
  | .fdot4E4m3X a b c => Sys2Proof.Machine.execFdot4E4m3X a b c s
  | .fdot4E5m2V a b c => Sys2Proof.Machine.execFdot4E5m2V a b c s
  | .fdot4E5m2X a b c => Sys2Proof.Machine.execFdot4E5m2X a b c s
  | .tbpackTb8 a b c => Sys2Proof.Machine.execTbpackTb8 a b c s
  | .tbpackTb4 a b c => Sys2Proof.Machine.execTbpackTb4 a b c s
  | .tbpackSatTb8 a b c => Sys2Proof.Machine.execTbpackSatTb8 a b c s
  | .tbpackSatTb4 a b c => Sys2Proof.Machine.execTbpackSatTb4 a b c s
  | .tbunpTb8 a b c => Sys2Proof.Machine.execTbunpTb8 a b c s
  | .tbunpTb4 a b c => Sys2Proof.Machine.execTbunpTb4 a b c s
  | .xlaneGetV a b c => Sys2Proof.Machine.execXlaneGetV a b c s
  | .xlaneGetX a b c => Sys2Proof.Machine.execXlaneGetX a b c s
  | .xlaneBackV a b c => Sys2Proof.Machine.execXlaneBackV a b c s
  | .xlaneBackX a b c => Sys2Proof.Machine.execXlaneBackX a b c s
  | .xlaneFwdV a b c => Sys2Proof.Machine.execXlaneFwdV a b c s
  | .xlaneFwdX a b c => Sys2Proof.Machine.execXlaneFwdX a b c s
  | .xlaneMixV a b c => Sys2Proof.Machine.execXlaneMixV a b c s
  | .xlaneMixX a b c => Sys2Proof.Machine.execXlaneMixX a b c s
  | .pollSome a b => Sys2Proof.Machine.execPollSome a b s
  | .pollEvery a b => Sys2Proof.Machine.execPollEvery a b s
  | .pollBits a b => Sys2Proof.Machine.execPollBits a b s
  | .foldAddI32 a b => Sys2Proof.Machine.execFoldAddI32 a b s
  | .foldMinI32 a b => Sys2Proof.Machine.execFoldMinI32 a b s
  | .foldMaxI32 a b => Sys2Proof.Machine.execFoldMaxI32 a b s
  | .foldAddF32 a b => Sys2Proof.Machine.execFoldAddF32 a b s
  | .prefixAddI32 a b => Sys2Proof.Machine.execPrefixAddI32 a b s
  | .prefixAddF32 a b => Sys2Proof.Machine.execPrefixAddF32 a b s
  | .sameB32 a b => Sys2Proof.Machine.execSameB32 a b s
  | .sameF32 a b => Sys2Proof.Machine.execSameF32 a b s
  | .selV a k b c => Sys2Proof.Machine.execSelV a k b c s
  | .selX a k b c => Sys2Proof.Machine.execSelX a k b c s
  | .ldg t a bc => Sys2Proof.Machine.execLdg t a bc s
  | .ldgSym t a bc => Sys2Proof.Machine.execLdgSym t a bc s
  | .stg t a bc => Sys2Proof.Machine.execStg t a bc s
  | .lds t a bc => Sys2Proof.Machine.execLds t a bc s
  | .ldsSym t a bc => Sys2Proof.Machine.execLdsSym t a bc s
  | .sts t a bc => Sys2Proof.Machine.execSts t a bc s
  | .ldt t a b c => Sys2Proof.Machine.execLdt t a b c s
  | .ldtSym t a b c => Sys2Proof.Machine.execLdtSym t a b c s
  | .stt t a b c => Sys2Proof.Machine.execStt t a b c s
  | .ropz a c => Sys2Proof.Machine.execRopz a c s
  | .ropc a b c => Sys2Proof.Machine.execRopc a b c s
  | .atg32 o a bc => Sys2Proof.Machine.execAtg32 o a bc s
  | .atg64 o a bc => Sys2Proof.Machine.execAtg64 o a bc s
  | .ats32 o a bc => Sys2Proof.Machine.execAts32 o a bc s
  | .ats64 o a bc => Sys2Proof.Machine.execAts64 o a bc s
  | .red32 o a bc => Sys2Proof.Machine.execRed32 o a bc s
  | .red64 o a bc => Sys2Proof.Machine.execRed64 o a bc s
  | .fenceGroup => Sys2Proof.Machine.execFenceGroup s
  | .fenceTeam => Sys2Proof.Machine.execFenceTeam s
  | .fenceFacet => Sys2Proof.Machine.execFenceFacet s
  | .fenceCluster => Sys2Proof.Machine.execFenceCluster s
  | .fencePackage => Sys2Proof.Machine.execFencePackage s
  | .fenceSystem => Sys2Proof.Machine.execFenceSystem s
  | .ack => Sys2Proof.Machine.execAck s
  | .tdisc b => Sys2Proof.Machine.execTdisc b s
  | .prefetchL1 bc => Sys2Proof.Machine.execPrefetchL1 bc s
  | .prefetchSlice bc => Sys2Proof.Machine.execPrefetchSlice bc s
  | .surfDef a b c => Sys2Proof.Machine.execSurfDef a b c s
  | .surfDrop a c => Sys2Proof.Machine.execSurfDrop a c s
  | .surfClr a c => Sys2Proof.Machine.execSurfClr a c s
  | .surfDecomp a c => Sys2Proof.Machine.execSurfDecomp a c s
  | .annBoard b => Sys2Proof.Machine.execAnnBoard b s
  | .annAlight b => Sys2Proof.Machine.execAnnAlight b s
  | .annLdB32 a bc => Sys2Proof.Machine.execAnnLdB32 a bc s
  | .annLdB64 a bc => Sys2Proof.Machine.execAnnLdB64 a bc s
  | .annLdSymI32 a bc => Sys2Proof.Machine.execAnnLdSymI32 a bc s
  | .annLdSymF32 a bc => Sys2Proof.Machine.execAnnLdSymF32 a bc s
  | .annWait k w a b c => Sys2Proof.Machine.execAnnWait k w a b c s
  | .annOp32 o a bc => Sys2Proof.Machine.execAnnOp32 o a bc s
  | .annOp64 o a bc => Sys2Proof.Machine.execAnnOp64 o a bc s
  | .putSigSet a b => Sys2Proof.Machine.execPutSigSet a b s
  | .putSigAdd a b => Sys2Proof.Machine.execPutSigAdd a b s
  | .getpGroup a b => Sys2Proof.Machine.execGetpGroup a b s
  | .getpTeam a b => Sys2Proof.Machine.execGetpTeam a b s
  | .getpFacet a b => Sys2Proof.Machine.execGetpFacet a b s
  | .getpCluster a b => Sys2Proof.Machine.execGetpCluster a b s
  | .getpPackage a b => Sys2Proof.Machine.execGetpPackage a b s
  | .getpSystem a b => Sys2Proof.Machine.execGetpSystem a b s
  | .pushCopy vec b a => Sys2Proof.Machine.execPushCopy vec b a s
  | .pushTensor vec b a => Sys2Proof.Machine.execPushTensor vec b a s
  | .pushGather vec b a => Sys2Proof.Machine.execPushGather vec b a s
  | .pushColl vec b a => Sys2Proof.Machine.execPushColl vec b a s
  | .pushRast vec b a => Sys2Proof.Machine.execPushRast vec b a s
  | .pushMsg vec b a => Sys2Proof.Machine.execPushMsg vec b a s
  | .pushb a b c => Sys2Proof.Machine.execPushb a b c s
  | .msgSend a b c => Sys2Proof.Machine.execMsgSend a b c s
  | .msgRecv a b => Sys2Proof.Machine.execMsgRecv a b s
  | .msgProbe a b => Sys2Proof.Machine.execMsgProbe a b s
  | .mbLd b => Sys2Proof.Machine.execMbLd b s
  | .mbZero b => Sys2Proof.Machine.execMbZero b s
  | .mmx b => Sys2Proof.Machine.execMmx b s
  | .mmxLut b => Sys2Proof.Machine.execMmxLut b s
  | .mmxR b => Sys2Proof.Machine.execMmxR b s
  | .mmxLutR b => Sys2Proof.Machine.execMmxLutR b s
  | .hxor a b c => Sys2Proof.Machine.execHxor a b c s
  | .hrot a b c => Sys2Proof.Machine.execHrot a b c s
  | .hbun a b => Sys2Proof.Machine.execHbun a b s
  | .hclrH a => Sys2Proof.Machine.execHclrH a s
  | .hclrC a => Sys2Proof.Machine.execHclrC a s
  | .hmaj a b => Sys2Proof.Machine.execHmaj a b s
  | .hpop a b => Sys2Proof.Machine.execHpop a b s
  | .hdist a b c => Sys2Proof.Machine.execHdist a b c s
  | .hldS a b => Sys2Proof.Machine.execHldS a b s
  | .hldG a b => Sys2Proof.Machine.execHldG a b s
  | .hstS a b => Sys2Proof.Machine.execHstS a b s
  | .hstG a b => Sys2Proof.Machine.execHstG a b s
  | .hfrom a b => Sys2Proof.Machine.execHfrom a b s
  | .hto a b => Sys2Proof.Machine.execHto a b s
  | .hmatch a b c => Sys2Proof.Machine.execHmatch a b c s
  | .htie a => Sys2Proof.Machine.execHtie a s
  | .htieSeed b => Sys2Proof.Machine.execHtieSeed b s
  | .grd a b c => Sys2Proof.Machine.execGrd a b c s
  | .gwr a b c => Sys2Proof.Machine.execGwr a b c s
  | .resume a b => Sys2Proof.Machine.execResume a b s
  | .bankset a b c => Sys2Proof.Machine.execBankset a b c s
  | .tlbinv a b c => Sys2Proof.Machine.execTlbinv a b c s
  | .halt a b => Sys2Proof.Machine.execHalt a b s
  | .filterAdd d a b => Sys2Proof.Machine.execFilterAdd d a b s
  | .filterSub d a b => Sys2Proof.Machine.execFilterSub d a b s
  | .filterAnd d a b => Sys2Proof.Machine.execFilterAnd d a b s
  | .filterOr d a b => Sys2Proof.Machine.execFilterOr d a b s
  | .filterXor d a b => Sys2Proof.Machine.execFilterXor d a b s
  | .filterShl d a b => Sys2Proof.Machine.execFilterShl d a b s
  | .filterShr d a b => Sys2Proof.Machine.execFilterShr d a b s
  | .filterAddi d a imm => Sys2Proof.Machine.execFilterAddi d a imm s
  | .filterAndi d a imm => Sys2Proof.Machine.execFilterAndi d a imm s
  | .filterShli d a imm => Sys2Proof.Machine.execFilterShli d a imm s
  | .filterShri d a imm => Sys2Proof.Machine.execFilterShri d a imm s
  | .filterLdlo d imm => Sys2Proof.Machine.execFilterLdlo d imm s
  | .filterLdhi d imm => Sys2Proof.Machine.execFilterLdhi d imm s
  | .filterBeq a b imm => Sys2Proof.Machine.execFilterBeq a b imm s
  | .filterBne a b imm => Sys2Proof.Machine.execFilterBne a b imm s
  | .filterBltu a b imm => Sys2Proof.Machine.execFilterBltu a b imm s
  | .filterBgeu a b imm => Sys2Proof.Machine.execFilterBgeu a b imm s
  | .filterKeep => Sys2Proof.Machine.execFilterKeep s
  | .filterDrop => Sys2Proof.Machine.execFilterDrop s
  | .filterCount a byReg c => Sys2Proof.Machine.execFilterCount a byReg c s
  | .filterTrig t => Sys2Proof.Machine.execFilterTrig t s
  | .filterRdcnt d c => Sys2Proof.Machine.execFilterRdcnt d c s
  | .starvationFloor g => Sys2Proof.Machine.execStarvationFloor g s
  | .groupSwap g => Sys2Proof.Machine.execGroupSwap g s
  | .forcedSwap core wedge => Sys2Proof.Machine.execForcedSwap core wedge s
  | .waitRelease g w => Sys2Proof.Machine.execWaitRelease g w s
  | .sleepRelease g lane => Sys2Proof.Machine.execSleepRelease g lane s
  | .barrierArrival g => Sys2Proof.Machine.execBarrierArrival g s
  | .barrierRouterArrival tid => Sys2Proof.Machine.execBarrierRouterArrival tid s
  | .symbolDelivery g k => Sys2Proof.Machine.execSymbolDelivery g k s
  | .teamRetire tid => Sys2Proof.Machine.execTeamRetire tid s
  | .qtailDoorbell p q tail => Sys2Proof.Machine.execQtailDoorbell p q tail s
  | .ringEntryMove p q => Sys2Proof.Machine.execRingEntryMove p q s
  | .queueHead p q => Sys2Proof.Machine.execQueueHead p q s
  | .clusterPlacement p q quad x y => Sys2Proof.Machine.execClusterPlacement p q quad x y s
  | .bankRotation core bank => Sys2Proof.Machine.execBankRotation core bank s
  | .preemptRequest p => Sys2Proof.Machine.execPreemptRequest p s
  | .vacateComplete p => Sys2Proof.Machine.execVacateComplete p s
  | .extensionMoveBack p => Sys2Proof.Machine.execExtensionMoveBack p s
  | .haltLineArrival ctx src => Sys2Proof.Machine.execHaltLineArrival ctx src s
  | .skidStop ctx src => Sys2Proof.Machine.execSkidStop ctx src s
  | .stopAreaWrite ctx => Sys2Proof.Machine.execStopAreaWrite ctx s
  | .handlerStart p => Sys2Proof.Machine.execHandlerStart p s
  | .handlerCoreMove p => Sys2Proof.Machine.execHandlerCoreMove p s
  | .pageWalk core ctx va => Sys2Proof.Machine.execPageWalk core ctx va s
  | .l1CopyLapse core line => Sys2Proof.Machine.execL1CopyLapse core line s
  | .stationEntry core => Sys2Proof.Machine.execStationEntry core s
  | .annulusCapture core slot => Sys2Proof.Machine.execAnnulusCapture core slot s
  | .watchPassage core slot => Sys2Proof.Machine.execWatchPassage core slot s
  | .hostAccess target addr len data => Sys2Proof.Machine.execHostAccess target addr len data s
  | .peerAccess dev kind addr data => Sys2Proof.Machine.execPeerAccess dev kind addr data s
  | .vlReplyTimeout req => Sys2Proof.Machine.execVlReplyTimeout req s
  | .vlFlitReceive port flit => Sys2Proof.Machine.execVlFlitReceive port flit s
  | .putSigDelivery cmd n => Sys2Proof.Machine.execPutSigDelivery cmd n s
  | .putSigFlag cmd => Sys2Proof.Machine.execPutSigFlag cmd s
  | .getpTransfer cmd n => Sys2Proof.Machine.execGetpTransfer cmd n s
  | .requestEngineHandoff core queue unit => Sys2Proof.Machine.execRequestEngineHandoff core queue unit s
  | .copyCommand cmd n => Sys2Proof.Machine.execCopyCommand cmd n s
  | .tensorCommand cmd n => Sys2Proof.Machine.execTensorCommand cmd n s
  | .gatherCommand cmd n => Sys2Proof.Machine.execGatherCommand cmd n s
  | .collCommand cmd n => Sys2Proof.Machine.execCollCommand cmd n s
  | .engineCompletion cmd => Sys2Proof.Machine.execEngineCompletion cmd s
  | .pushbListRead core => Sys2Proof.Machine.execPushbListRead core s
  | .msgArrival msg => Sys2Proof.Machine.execMsgArrival msg s
  | .matrixQueueAccept core => Sys2Proof.Machine.execMatrixQueueAccept core s
  | .mbLdCommand core n => Sys2Proof.Machine.execMbLdCommand core n s
  | .mbZeroCommand core => Sys2Proof.Machine.execMbZeroCommand core s
  | .denseComputation core n => Sys2Proof.Machine.execDenseComputation core n s
  | .tableLookup core n => Sys2Proof.Machine.execTableLookup core n s
  | .matrixCompletion core => Sys2Proof.Machine.execMatrixCompletion core s
  | .rastAccept cmd => Sys2Proof.Machine.execRastAccept cmd s
  | .triangleSetup quad => Sys2Proof.Machine.execTriangleSetup quad s
  | .fragmentGroupLaunch quad core wedge bank => Sys2Proof.Machine.execFragmentGroupLaunch quad core wedge bank s
  | .bankUnitApply core => Sys2Proof.Machine.execBankUnitApply core s
  | .ratioChange => Sys2Proof.Machine.execRatioChange s
  | .ratioStallEnd => Sys2Proof.Machine.execRatioStallEnd s
  | .busRetire => Sys2Proof.Machine.execBusRetire s
  | .retireCopyDone => Sys2Proof.Machine.execRetireCopyDone s
  | .wearStateChange sel state eolh used => Sys2Proof.Machine.execWearStateChange sel state eolh used s
  | .subnetWake n occ => Sys2Proof.Machine.execSubnetWake n occ s
  | .subnetOn n => Sys2Proof.Machine.execSubnetOn n s
  | .subnetOff n => Sys2Proof.Machine.execSubnetOff n s
  | .ptmDialogue => Sys2Proof.Machine.execPtmDialogue s
  | .ptmResponse master delay => Sys2Proof.Machine.execPtmResponse master delay s
  | .timeStep off => Sys2Proof.Machine.execTimeStep off s
  | .locusFilter stack => Sys2Proof.Machine.execLocusFilter stack s
  | .filterLoad p => Sys2Proof.Machine.execFilterLoad p s
  | .sampleTag core wedge => Sys2Proof.Machine.execSampleTag core wedge s
  | .samplingRecord core wedge level lats => Sys2Proof.Machine.execSamplingRecord core wedge level lats s
  | .stopcGo p => Sys2Proof.Machine.execStopcGo p s
  | .stepWithinHalt p => Sys2Proof.Machine.execStepWithinHalt p s
  | .stepNotify p => Sys2Proof.Machine.execStepNotify p s
  | .stepCompletion p => Sys2Proof.Machine.execStepCompletion p s
  | .annWindowEnable ctx val => Sys2Proof.Machine.execAnnWindowEnable ctx val s
  | .annWindowDisable ctx val => Sys2Proof.Machine.execAnnWindowDisable ctx val s
  | .partqWrite p mask => Sys2Proof.Machine.execPartqWrite p mask s
  | .hcoreWrite p core => Sys2Proof.Machine.execHcoreWrite p core s
  | .contextCreate ctx val => Sys2Proof.Machine.execContextCreate ctx val s
  | .contextInvalidate ctx val => Sys2Proof.Machine.execContextInvalidate ctx val s
  | .pstateRun => Sys2Proof.Machine.execPstateRun s
  | .pstateIdle => Sys2Proof.Machine.execPstateIdle s
  | .pstateSleep => Sys2Proof.Machine.execPstateSleep s
  | .floorRaise => Sys2Proof.Machine.execFloorRaise s
  | .floorFall => Sys2Proof.Machine.execFloorFall s
  | .alarm level src => Sys2Proof.Machine.execAlarm level src s
  | .attestationReport => Sys2Proof.Machine.execAttestationReport s
  | .reportPublish => Sys2Proof.Machine.execReportPublish s
  | .bringUp => Sys2Proof.Machine.execBringUp s
  | .registerWrite off val => Sys2Proof.Machine.execRegisterWrite off val s
  | .accessPerformed g op => Sys2Proof.Machine.execAccessPerformed g op s
  | .spillWriteCompletion req => Sys2Proof.Machine.execSpillWriteCompletion req s
  | .tlbEntryDrop ix => Sys2Proof.Machine.execTlbEntryDrop ix s
  | .vimenLinkPortTraining port lanes => Sys2Proof.Machine.execVimenLinkPortTraining port lanes s
  | .ucieLaneLoss lanes => Sys2Proof.Machine.execUcieLaneLoss lanes s
  | .thermalOrPowerCause cause on => Sys2Proof.Machine.execThermalOrPowerCause cause on s
  | .rcRegisterRead off => Sys2Proof.Machine.execRcRegisterRead off s

end Sys2Proof.Machine
end

