-- ==== Sys2Proof/Machine/Ready.lean ====
section
/-! DEFINITION. Readiness (R35): a trial of a group's next issue, by which the wedges' sets know which groups are ready
(R34, R38) and which meet a long-latency dependence (R37); and the clocks, at which it is noted. -/

namespace Sys2Proof.Machine

/-- The state in which a group's next issue is tried: its bank selected and the group active (R35). -/
def tryState (s : State) (gid : Nat) (g : Group) : State :=
  putBanks (putGroup s gid { g with active := true, blocked := false }) g.core
    { banksOf s g.core with selected := some g.bank }

/-- Where a trial of a group's next issue ends. -/
inductive Trial where
  /-- the instruction issues, or a cause takes its place -/
  | ready
  /-- it waits, by a long-latency dependence of R37 or otherwise -/
  | held (long : Bool)
  deriving DecidableEq, Repr

/-- A trial of a group's next issue: operands, wait mask and unit (R35). What the group takes in on the way, a header
passed, a prefix, elements collapsed, leads to the next try. -/
noncomputable def trial : Nat → State → Nat → Trial
  | 0, _, _ => .held false
  | n + 1, s, gid =>
    match fetch s gid with
    | .wait _ => .held false
    | .cause _ => .ready
    | .run u i =>
      match exec i u with
      | .next t =>
        match u.group gid, t.group gid with
        | some g, some h =>
          if t.iss.done || t.iss.cause != 0 then .ready
          else if { h with blocked := g.blocked } ≠ g then (if h.phase ≠ g.phase then .ready else trial n t gid)
          else .held h.blocked
        | _, _ => .ready
      | _ => .ready

/-- A group at a logic clock: a pending one notes since when it has been ready (R34, R38), any one since when its clause
has waited on a flag, and whether it meets another long-latency dependence (R37). -/
noncomputable def noteReady (s : State) (gid : Nat) (g : Group) : Group :=
  let t := trial 5 (tryState s gid g) gid
  { g with
    blocked := t == .held true
    ready := t == .ready
    readySince := if g.active || t != .ready then none else some (g.readySince.getD s.lclk)
    waitSince := if waitsOnFlag s g then some (g.waitSince.getD s.lclk) else none }

/-- Writes older than any engine read can reach back to are forgotten (R133). -/
def pruneOlds (s : State) : State :=
  let t := s.cmds.foldl (fun b p => min b p.2.pushed) s.time
  { s with olds := s.olds.filter fun e => decide (t < e.time + 2048) && match e.until_ with
      | some u => decide (s.time < u)
      | none => true }

/-- TIME, the memory-layer clock and the logic clock advance (R14, R404). The memory-layer clock does not pass
a clock at which a capture is due (R144), and the logic clock is stopped out of run (R441). Every unit's copy of TIME
stands at TIME itself (log 104). -/
noncomputable def advance (s : State) (ns mclk lclk : Nat) : State :=
  let dl := if s.pstate = 0 then lclk else 0
  pruneOlds <| landDue { s with
    time := (s.time + ns) % 2 ^ 64
    mclk := match nextDue s with
      | some d => if d ≤ s.mclk then s.mclk else min d (s.mclk + mclk)
      | none => s.mclk + mclk
    lclk := s.lclk + dl
    groups := s.groups.map fun p => (p.1, noteReady s p.1 p.2) }

end Sys2Proof.Machine
end

