-- ==== Sys2Proof/Machine/Step.lean ====
section
/-! DEFINITION. One step of the device: the next turn of `State.turns`, or, with none waiting, a filter word
of a running Locus, a passage that is due, an issue of the first group that may issue, or a tick of the clocks; and the
state in which the next step runs a given instruction. -/

namespace Sys2Proof.Machine

/-- An issue of a group: what is fetched is executed, R27 and R31 follow, and SKID counts it (R376). Of its accesses the
next `cut` are made, or all. -/
noncomputable def stepIssue (s : State) (g cut : Nat) : Host.Outcome State Fault Refusal :=
  let up := skidding s g
  let old := s.group g
  match fetch s g with
  | .wait s => .next s
  | .cause (.next t) => .next (countSkid (tagCause s t) up old)
  | .cause o => o
  | .run s i =>
    let s := tagLevel (tagIssue { s with iss := { s.iss with cut := cut } }) i
    match exec i s with
    | .next t => .next (countSkid (afterIssue t (decide (i = .yield))) up old)
    | o => o

/-- One filter word of a Locus, or the end of the record past the last word (R413). -/
noncomputable def stepLocus (s : State) (k : Nat) : Host.Outcome State Fault Refusal :=
  match filterWord s k with
  | none => .next (endRecord s k true)
  | some w =>
    match decodeFilter w.toNat with
    | some i => exec i { s with iss := { Issue.none with g := k, w0 := w } }
    | none => .next (endRecord s k true)

/-- The station and slot of a passage at which a capture or watch is due now (R144), and whether it is a watch. -/
def duePassage (s : State) : Option (Nat × Nat × Bool) :=
  s.caps.findSome? fun c =>
    (dueNow s (c.1 / 2 ^ 40) c.2.slot).map fun d => (c.1 / 2 ^ 40, c.2.slot, d.2.kind == 4)

/-- The turn taken when `State.turns` holds none. -/
noncomputable def defaultTurn (s : State) : Turn :=
  match s.locus.find? fun p => p.2.cur.isSome with
  | some (k, _) => .locus k
  | none =>
    match duePassage s with
    | some (core, slot, w) => .event (if w then .watchPassage core slot else .annulusCapture core slot)
    | none =>
      match (symDue s).filter fun d => decide (d.2.2 ≤ s.mclk) with
      | some (g, k, _) => .event (.symbolDelivery g k)
      | none =>
      match defReady s with
      | some k => .define k
      | none =>
      match s.groups.find? fun p => mayIssue s p.1 p.2 && p.2.issueAddr.isSome with
      | some (g, _) => .issue g
      | none => .tick 1 2 1

/-- A turn taken. -/
noncomputable def runTurn (s : State) : Turn → Host.Outcome State Fault Refusal
  | .issue g => stepIssue s g 0
  | .issueCut g n => stepIssue s g n
  | .locus k => stepLocus s k
  | .event i => exec i s
  | .tick ns mclk lclk => .next (advance s ns mclk lclk)
  | .writeBack sec => .next (writeBackSector s sec)
  | .land k => .next (landNth s k)
  | .define k => .next (defStep s k)
  | .loadImage c entry stop => .next { s with images := tput s.images (c % 64 * 2 ^ 64 + entry % 2 ^ 64) stop }
  | .keyLinks => .next { s with sessionKeys := true }

/-- One step of the device. -/
noncomputable def step (s : State) : Host.Outcome State Fault Refusal :=
  match s.turns with
  | [] => runTurn s (defaultTurn s)
  | t :: ts => runTurn { s with turns := ts } t

/-! A program placed to run (assumption 11). -/

/-- The launch that stands for a loaded program: one team of one group of one lane, in context 0 of partition 0. -/
def loadedId : GroupId :=
  { ctx := 0, tid := some 3, launch := 1, teamNo := 0, grp := 0, ngrp := 1, tx := 0, ty := 0, nw := 1, nh := 1,
    cx := 0, cy := 0, cz := 0, gx := 1, gy := 1, gz := 1, sup := false, handler := false, codeBase := 0, entry := 0,
    trapEntry := none, code := 5, nv := 128, nhr := 16, ncr := 2, frag := none }

/-- The words of its descriptor (R346): a team of one lane, 128 v, 16 h and 2 c registers, a grid of one cluster. -/
def loadedDesc : List Word :=
  [0x08000000, 0x00000050, 0, 0, 0, 1, 1, 1] ++ List.replicate 24 0

/-- Its group, at its entry; `entered` where its lane has passed the clause header at offset 0 (R156). -/
def loadedGroup (entered : Bool) : Group :=
  let g := Group.born loadedId 0 0 0 0 (fun l => if l = 0 then some (Lane.born 0) else none) [] 0
  { g with active := true
           latch := if entered then some { at_ := 0, entered := true, pfx := none, pfxBad := false } else none }

/-- The device with a code image in place of context 0 at physical address 0, and the group there the next to issue. -/
def State.withCode (s : State) (entered : Bool) (n v : Nat) : State :=
  let t : Team := { ctx := 0, part := 0, lid := 1, cid := 2, launch := 1, teamNo := 0, core := 0, bank := 0, tx := 0, ty := 0,
                    left := 1, grans := [], idem := false, handler := false, posts := [], met := [], aliased := false,
                    ended := [] }
  let c : Cluster := { lid := 1, part := 0, ctx := 0, lin := 0, quad := 0, x0 := 0, y0 := 0, w := 1, h := 1, left := 1,
                       teams := [3], arrivals := [] }
  let l : Launch := { part := 0, queue := 0, ctx := 0, ident := 1, desc := loadedDesc, code := 5, nextLin := 1, left := 1,
                      count := 1, parent := none, handler := false }
  let x : TlbEntry := { owner := 0, ctx := 0, page := 0, big := false, pte := 0x105 }
  let m := wrN s.mem 0 n v
  let s := regSet (regSet (regSet s (kCtx 0 0x55) 0x80000000) (kCtx 0 0x100) 1) 0x48 1
  { s with
    mem := m
    codes := tput s.codes 5 m
    tlb := x :: s.tlb
    banks := tput s.banks 0 { selected := some 0, bound := [some 0, none, none, none], since := s.time }
    launches := tput s.launches 1 l, clusters := tput s.clusters 2 c, teams := tput s.teams 3 t
    groups := tput s.groups 4 (loadedGroup entered)
    fresh := max s.fresh 6
    turns := .issue 4 :: s.turns }

/-- A clause header for a body of `n` units, with no flags and no wait (R155). -/
def bareHeader (n : Nat) : Nat := (n - 1) * 2 ^ 27 + 15 * 2 ^ 23 + 15 * 2 ^ 19 + 0x7D

/-- The device with a filter program of one word running over a record of zeros at Locus 0. -/
def State.withFilter (s : State) (w : Nat) : State :=
  { s with
    locus := tput s.locus 0 { locusOf s 0 with cur := some (0, List.replicate 8 0), q := [], index := 0 }
    filters := tput s.filters 0 [word w]
    turns := .locus 0 :: s.turns }

/-- A table word of 32 bits is a filter word (R414), and not one of GK code. -/
noncomputable def isFilterWord (w : Nat) : Bool :=
  (decodeFilter w).isSome && (w % 2 == 0 || match (decodeHalves [w % 65536, w / 65536 % 65536, 0, 0]).1 with
    | .ok _ => false
    | _ => true)

/-- The device about to run the instruction of a table word: a filter word at a Locus, a clause header at a group's entry,
any other word as the body of a clause that its group has entered. -/
noncomputable def State.withFetchWord (s : State) (nbits w : Nat) : State :=
  if nbits = 32 ∧ isFilterWord w = true then s.withFilter w
  else if w % 128 = 0x7D then s.withCode false 4 (w % 2 ^ 32)
  else
    let units := if w % 128 = 0x7F then 3 else if nbits ≤ 32 then 1 else 2
    s.withCode true 12 (bareHeader units + 2 ^ 32 * (w % 2 ^ 64))

end Sys2Proof.Machine
end

