-- ==== Sys2Proof/Safety.lean ====
section
/-! DEFINITION. What counts as a safe run, and the words that statements about instructions are written in:
the conditions under which an instruction issues (R158, R173), the states that its own effect gives, and what
a step leaves alone. -/

namespace Sys2Proof.Machine

/-! A safe run. -/

/-- Every byte memory is in its canonical form. -/
def State.canonical (s : State) : Prop :=
  Memory.wf s.mem = true ∧ Memory.wf s.scr = true ∧ Memory.wf s.arena = true ∧ Memory.wf s.bst = true
    ∧ Memory.wf s.ring = true

/-- The step goes on: neither a fault of the model nor a refusal. -/
def goesOn (o : Out) : Prop := ∃ t, o = .next t

/-- A run of `n` steps from `s` is safe: every step goes on, and every state it passes keeps the byte memories in
canonical form. -/
def safeRun : Nat → State → Prop
  | 0, s => s.canonical
  | n + 1, s => s.canonical ∧ ∃ t, step s = .next t ∧ safeRun n t

/-! When an instruction issues. -/

/-- The checks of R173 that are left to issue and the interlock of R158 pass for the registers that an instruction
names and reads. -/
def Issues (s : State) (g : Group) (u : Use) : Prop :=
  s.group s.iss.g = some g
  ∧ (u.rule = .no → s.iss.pfx = none)
  ∧ (∀ r ∈ u.v ++ (fourth s).toList, r < g.id.nv)
  ∧ (∀ r ∈ u.h, r < g.id.nhr) ∧ (∀ r ∈ u.c, r < g.id.ncr)
  ∧ s.iss.rsv = false ∧ (∀ p ∈ s.iss.pfx.toList, u.rule.reserved p = false)
  ∧ (u.priv = true → g.id.sup = true)
  ∧ (∀ r ∈ u.vr ++ (fourth s).toList, ∀ l ∈ List.range 32, (g.elem r l).isPend = false)
  ∧ (∀ r ∈ u.sr, g.sPending r = false) ∧ (∀ r ∈ u.hr, g.hPending r = false)

/-- No element of the registers in the lanes holds a form or is poisoned or awaited (R56, R60). -/
def Known (g : Group) (rs ls : List Nat) : Prop :=
  ∀ r ∈ rs, ∀ l ∈ ls, g.elem r l = .val (g.vword r l)

/-- A lane instruction issues that names `n` result registers from `a` and reads the registers `rs`, every element of
which is known in the executing lanes. -/
def LaneReady (s : State) (g : Group) (rule : PfxRule) (a n : Nat) (rs sr : List Nat) : Prop :=
  Issues s g { rule := rule, v := (List.range n).map (a + ·) ++ rs, vr := rs, sr := sr }
  ∧ Known g rs (lanesOf (execMask s g))

/-- A per-lane access issues: its destination registers `dst`, its data registers `data` and its address registers
pass the checks, every element read is known, no capture of the group is in flight (R136), and the flag charged
has room (R157). -/
def AccessReady (s : State) (g : Group) (rule : PfxRule) (dst data mv ms : List Nat) (flag : Nat) : Prop :=
  Issues s g { rule := rule, v := dst ++ (data ++ mv), vr := data ++ mv, sr := ms }
  ∧ Known g (data ++ mv) (lanesOf (execMask s g)) ∧ capsBusy s s.iss.g = false ∧ flagFull g flag = false

/-- The issue makes all the accesses of its instruction, none of which has been made before (R117, R127). -/
def AtOnce (s : State) (g : Group) : Prop := s.iss.cut = 0 ∧ g.settled = g

/-- The registers from A on. -/
abbrev regsFrom (a : VReg) (n : Nat) : List Nat := (List.range n).map (a.toNat + ·)

/-- No watchpoint of the group's partition is enabled (R416). -/
def Unwatched (s : State) (g : Group) : Prop :=
  ∀ k, k < 4 → bit (regGet s (kPart (ctxPart s g.id.ctx) (0x560 + 4 * k))) 31 = false

/-- An instruction's V form or X form, by its second source (R203). -/
def formOf (v : VReg → VReg → VReg → Instr) (x : VReg → VReg → XOp → Instr) (a b : VReg) : Src → Instr
  | .v c => v a b c
  | .x c => x a b c

/-- The same of a compare. -/
def compareOf (v : MReg → VReg → VReg → Instr) (x : MReg → VReg → XOp → Instr) (a : MReg) (b : VReg) : Src → Instr
  | .v c => v a b c
  | .x c => x a b c

/-! The states that an instruction's own effect gives. -/

/-- The instruction has completed with the group as given, and every lane of the issue that runs stands past it. -/
def State.after (s : State) (g : Group) : State :=
  { s with
    groups := tput s.groups s.iss.g
      (g.setLanes s.iss.lanes fun l => if l.running then { l with pcv := word s.iss.next, hop := .along } else l)
    iss := { s.iss with done := true } }

/-- The instruction has completed with the group as given, its lanes placed by the instruction itself. -/
def State.moved (s : State) (g : Group) : State :=
  { s with groups := tput s.groups s.iss.g g, iss := { s.iss with done := true } }

/-- The instruction has completed with sA written; a write to s0 is discarded (R46). -/
def State.wroteS (s : State) (g : Group) (a : SReg) (w : Word) : State := s.after (g.setS a.toNat w)

/-- The instruction has completed with vA written in every executing lane, and with 0 in the masked-off lanes of the
issue under ZERO (R164): `n` words a lane, word `i` of lane `l` into register A + i. -/
def State.wroteV (s : State) (g : Group) (a : VReg) (n : Nat) (f : Nat → Nat → Word) : State :=
  s.after (writeLanes s g a.toNat n f)

/-- The instruction has completed and left an operation outstanding that is charged to flag `k`: the results `vw` of
v elements and `sw` of s registers are awaited until it is performed (R157, R158). -/
def State.awaits (s : State) (g : Group) (k : Nat) (vw sw : List (Nat × Word)) : State :=
  (bump s).after (g.addOp s.fresh k vw sw none false)

/-- The results of a load: word `i` of lane `l` for register A + i. -/
def loadWrites (a n : Nat) (ls : List Nat) (f : Nat → Nat → Word) : List (Nat × Word) :=
  ls.flatMap fun l => (List.range n).map fun i => (vkey (a + i) l, f l i)

/-- Each lane of a mask stands at a code offset, come there as the second part says (R153, R183). -/
def Group.place (g : Group) (m : Word) (f : Nat → Word × Arrival) : Group :=
  { g with lanes := g.lanes.mapIdx fun l x => if bit m l then { x with pcv := (f l).1, hop := (f l).2 } else x }

/-! What a step leaves alone. -/

/-- Every byte of memory, scratch, arena, B store and ring reads as before. -/
def sameBytes (s t : State) : Prop :=
  ∀ a, rdByte t.mem a = rdByte s.mem a ∧ rdByte t.scr a = rdByte s.scr a ∧ rdByte t.arena a = rdByte s.arena a
    ∧ rdByte t.bst a = rdByte s.bst a ∧ rdByte t.ring a = rdByte s.ring a

/-- Every system register, held low word and context record is as before. -/
def sameRegisters (s t : State) : Prop := t.regs = s.regs ∧ t.held = s.held ∧ t.ctxs = s.ctxs

/-- Every group other than the issuing one is as before. -/
def sameOthers (s t : State) : Prop := ∀ k, k ≠ s.iss.g → t.group k = s.group k

/-- The group's registers are as before but for the elements, s registers and m registers named. -/
def Group.keeps (g h : Group) (v : Nat → Nat → Prop) (r m : Nat → Prop) : Prop :=
  h.id = g.id ∧ (∀ k l, l < 32 → ¬ v k l → h.elem k l = g.elem k l) ∧ (∀ k, ¬ r k → h.sreg k = g.sreg k)
  ∧ (∀ k, ¬ m k → h.mreg k = g.mreg k) ∧ h.h = g.h ∧ h.c = g.c ∧ h.tile = g.tile ∧ h.cause = g.cause
  ∧ h.rmode = g.rmode ∧ h.mode = g.mode ∧ h.lfsr = g.lfsr ∧ h.tieSrc = g.tieSrc ∧ h.tieReg = g.tieReg ∧ h.syms = g.syms

/-- A step leaves alone every byte, every system register, every other group, and the issuing group's registers but
for those named. -/
def framed (s t : State) (g : Group) (v : Nat → Nat → Prop) (r m : Nat → Prop) : Prop :=
  sameBytes s t ∧ sameRegisters s t ∧ sameOthers s t ∧ ∃ h, t.group s.iss.g = some h ∧ g.keeps h v r m

end Sys2Proof.Machine
end

