-- ==== Sys2Proof/Certificates/Slice0/Obligations.lean ====
section
/-! DEFINITION. The statements about the machine, from the numbered rules of the spec. Each says for which states and
operands an instruction, filter word or event has its effect, and what that effect is. -/

open Sys2Proof Sys2Proof.Machine

/-- R181: each instruction of classes 0x01 and 0x02 completes with sA set to its function of sB and X.
R181: `mov` needs its operand alone, and `sel` reads sA before it is written. -/
def Obligations.ScalarInstructions : Prop :=
  (∀ (s : State) (g : Group) (a b : SReg) (c : XOp), Issues s g { sr := b.toNat :: XOp.reg c } →
     let p := g.sreg b.toNat
     let x := g.opX c
     exec (.scalarAdd a b c) s = .next (s.wroteS g a (p + x))
     ∧ exec (.scalarSub a b c) s = .next (s.wroteS g a (p - x))
     ∧ exec (.scalarMul a b c) s = .next (s.wroteS g a (p * x))
     ∧ exec (.scalarMulhiI32 a b c) s = .next (s.wroteS g a ((p.signExtend 64 * x.signExtend 64).extractLsb' 32 32))
     ∧ exec (.scalarMulhiN32 a b c) s = .next (s.wroteS g a ((p.zeroExtend 64 * x.zeroExtend 64).extractLsb' 32 32))
     ∧ exec (.scalarAnd a b c) s = .next (s.wroteS g a (p &&& x))
     ∧ exec (.scalarOr a b c) s = .next (s.wroteS g a (p ||| x))
     ∧ exec (.scalarXor a b c) s = .next (s.wroteS g a (p ^^^ x))
     ∧ exec (.scalarShl a b c) s = .next (s.wroteS g a (p <<< (x.extractLsb' 0 5)))
     ∧ exec (.scalarShr a b c) s = .next (s.wroteS g a (p >>> (x.extractLsb' 0 5)))
     ∧ exec (.scalarSra a b c) s = .next (s.wroteS g a (p.sshiftRight' (x.extractLsb' 0 5)))
     ∧ exec (.scalarMinI32 a b c) s = .next (s.wroteS g a (if p.sle x then p else x))
     ∧ exec (.scalarMaxI32 a b c) s = .next (s.wroteS g a (if p.sle x then x else p))
     ∧ exec (.scalarMinN32 a b c) s = .next (s.wroteS g a (if p.ule x then p else x))
     ∧ exec (.scalarMaxN32 a b c) s = .next (s.wroteS g a (if p.ule x then x else p))
     ∧ exec (.seteq a b c) s = .next (s.wroteS g a (if p = x then 1 else 0))
     ∧ exec (.setne a b c) s = .next (s.wroteS g a (if p ≠ x then 1 else 0))
     ∧ exec (.setltI32 a b c) s = .next (s.wroteS g a (if p.slt x then 1 else 0))
     ∧ exec (.setleI32 a b c) s = .next (s.wroteS g a (if p.sle x then 1 else 0))
     ∧ exec (.setltN32 a b c) s = .next (s.wroteS g a (if p.ult x then 1 else 0))
     ∧ exec (.setleN32 a b c) s = .next (s.wroteS g a (if p.ule x then 1 else 0)))
  ∧ (∀ (s : State) (g : Group) (a b : SReg) (c : XOp),
       (Issues s g { sr := XOp.reg c } → exec (.scalarMov a c) s = .next (s.wroteS g a (g.opX c)))
       ∧ (Issues s g { sr := a.toNat :: b.toNat :: XOp.reg c } →
           exec (.scalarSel a b c) s
             = .next (s.wroteS g a (if g.sreg a.toNat ≠ 0 then g.sreg b.toNat else g.opX c))))

/-- R183: `bra`, `brc` and `call` send each lane of the issue to T = H + 4 × SignExtend(N), in the long form to
T = H + LIT, or to the next clause; `call` writes the link first.
R183: `bri` and `ret` send each lane to the offset in its element of vA, where no offset is odd.
R184, R29: `exit` makes each lane of the issue exit, clears its bit in every mask and tests the masks; where the
group keeps a live lane and is no fragment group, nothing else changes. The exit of the last live lane ends the group, and
its team counts one group less. R240: what a fragment lane that exits has not submitted is empty. -/
def Obligations.Branches : Prop :=
  (∀ (s : State) (g : Group) (a : VReg) (n : BranchOp), BranchOp.bad n = false →
     let target : Word := match n with
       | .near k => word s.iss.hdr + 4 * k.signExtend 32
       | .far w => word s.iss.hdr + w
     let past : Word := word (s.iss.hdr + 4 + 4 * s.iss.len)
     (Issues s g {} → exec (.bra n) s = .next (s.moved (g.place s.iss.lanes fun _ => (target, .header))))
     ∧ (Issues s g { v := [a.toNat], vr := [a.toNat] } → Known g [a.toNat] (lanesOf s.iss.lanes) →
         exec (.brcNz a n) s = .next (s.moved (g.place s.iss.lanes fun l =>
           if g.vword a.toNat l ≠ 0 then (target, .header) else (past, .along)))
         ∧ exec (.brcZ a n) s = .next (s.moved (g.place s.iss.lanes fun l =>
           if g.vword a.toNat l = 0 then (target, .header) else (past, .along))))
     ∧ (Issues s g { v := [a.toNat] } →
         exec (.call a n) s = .next (s.moved
           (((lanesOf s.iss.lanes).foldl (fun h l => h.setElem a.toNat l (.val past)) g).place s.iss.lanes
             fun _ => (target, .header)))))
  ∧ (∀ (s : State) (g : Group) (a : VReg),
       Issues s g { v := [a.toNat], vr := [a.toNat] } → Known g [a.toNat] (lanesOf s.iss.lanes) →
       (∀ l ∈ lanesOf s.iss.lanes, (g.vword a.toNat l).toNat % 2 = 0) →
         exec (.bri a) s = .next (s.moved (g.place s.iss.lanes fun l => (g.vword a.toNat l, .offset)))
         ∧ exec (.ret a) s = .next (s.moved (g.place s.iss.lanes fun l => (g.vword a.toNat l, .offset))))
  ∧ (∀ (s : State) (g : Group), Issues s g {} →
       let left := (List.range 12).foldl (fun h k => h.setM k (h.mreg k &&& ~~~s.iss.lanes))
         (g.setLanes s.iss.lanes fun l => { l with st := .exited, hop := .along })
       (∀ l, l < 32 → (bit left.testMasks.live l = true ↔ bit g.live l = true ∧ bit s.iss.lanes l = false))
       ∧ (g.id.frag = none → left.testMasks.live ≠ 0 → exec .exit s = .next (s.moved left.testMasks))
       ∧ (g.id.frag = none → left.testMasks.live = 0 → ∃ t, exec .exit s = .next t ∧ t.group s.iss.g = none
         ∧ t.cmds = s.cmds ∧ sameBytes s t
         ∧ ∀ tid x, g.id.tid = some tid → tget s.teams tid = some x → (tget t.teams tid).map Team.left = some (x.left - 1))
       ∧ (∀ pid pl, g.id.frag = some pid → tget s.plans pid = some pl →
         let shut (f : FragLane) : FragLane := if bit s.iss.lanes f.lane then { f with closed := true } else f
         ∃ t, exec .exit s = .next t ∧ tget t.plans pid = some { pl with lanes := pl.lanes.map shut }
         ∧ t.group s.iss.g = if left.testMasks.live = 0 then none else some left.testMasks))

/-- R185: `elect` writes, once, the number of the lowest lane at the issue address into sA; the lanes are not changed. -/
def Obligations.ElectWritesLowestLane : Prop :=
  ∀ (s : State) (g : Group) (a : SReg) (l : Nat), Issues s g {} → l < 32 → bit s.iss.lanes l = true →
    (∀ k, k < l → bit s.iss.lanes k = false) → exec (.elect a) s = .next (s.wroteS g a (word l))

/-- R188: `settile` sets T to the operand's value where that is 2, 4, 8, 16 or 32; any other value raises ILLEGAL_OP at the issue,
and `tile` keeps its value. -/
def Obligations.SettileSetsTileSize : Prop :=
  ∀ (s : State) (g : Group) (b : XOp), Issues s g { sr := XOp.reg b } →
    ((g.opX b).toNat ∈ [2, 4, 8, 16, 32] → exec (.settile b) s = .next (s.after { g with tile := (g.opX b).toNat }))
    ∧ ((g.opX b).toNat ∉ [2, 4, 8, 16, 32] → g.id.handler = false → g.step ≠ 1 → haltedCtx s g.id.ctx = false →
      ∃ t hl r, exec (.settile b) s = .next t ∧ t.iss.done = s.iss.done
        ∧ t.group s.iss.g = some { g with cause := 0x10, causeUp := true, faulted := g.faulted ||| s.iss.lanes }
        ∧ (ctxOf t g.id.ctx).halt = some hl ∧ hl.recs = [r] ∧ r.cause = 0x10 ∧ r.pc = s.iss.a)

/-- R28, R39: `yield` moves the floor to the least pcv above the issue address of an eligible lane that did not yield (log
91: the lanes that yield are not counted among them), to 0 where there is none, and clears the count; its lanes go on.
R189: the mask instructions; `mwr` never sets the bit of a lane that is not live. -/
def Obligations.YieldAndMasks : Prop :=
  (∀ (s : State) (g : Group), Issues s g {} →
     let isAbove (p : Nat) : Prop := ∃ l, (l, p) ∈ g.eligible ∧ bit s.iss.lanes l = false ∧ s.iss.a < p
     ∃ f, exec .yield s = .next (s.after { g with floor := f, starve := 0 })
       ∧ ((isAbove f ∧ ∀ p, isAbove p → f ≤ p) ∨ (f = 0 ∧ ∀ p, ¬ isAbove p)))
  ∧ (∀ (s : State) (g : Group) (a b : MReg) (c : SReg),
       (Issues s g {} →
         exec (.mjoin a) s = .next (s.after (g.setM a.toNat (g.mreg a.toNat ||| s.iss.lanes)))
         ∧ exec (.mleave a) s = .next (s.after (g.setM a.toNat (g.mreg a.toNat &&& ~~~s.iss.lanes)))
         ∧ exec (.mwait a) s = .next (s.moved (g.setLanes s.iss.lanes fun l =>
             { l with st := .mwait a.toNat, pcv := word s.iss.ia, adv := s.iss.next - s.iss.ia, hop := .along }))
         ∧ exec (.mrd c b) s = .next (s.wroteS g c (g.mreg b.toNat)))
       ∧ (Issues s g { sr := [c.toNat] } →
         exec (.mwr a c) s = .next (s.after (g.setM a.toNat (g.sreg c.toNat &&& g.live)))))

/-- R187, R372: `trap` in a kernel with a trap entry writes the link, past the `trap`, to v(n−1) and the information
with the code to v(n−2) of each lane of the issue, and sends the lanes to the handler.
R187, R374: `brk` sets the lanes' pcv past itself and raises BRK: the group's `cause`, the halt line of its context
at this TIME with the wedge as its source, and a stop record with the code. -/
def Obligations.TrapAndBreakpoint : Prop :=
  (∀ (s : State) (g : Group) (n : BitVec 14) (h : Nat), Issues s g {} → g.id.trapEntry = some h →
     haltedCtx s g.id.ctx = false →
     ∃ t g', exec (.trap n) s = .next t ∧ t.group s.iss.g = some g' ∧ t.iss.done = true
       ∧ (∀ l ∈ lanesOf s.iss.lanes, 2 ≤ g.id.nv →
           g'.elem (g.id.nv - 1) l = .val (word s.iss.next)
           ∧ g'.elem (g.id.nv - 2) l = .val (word (n.toNat * 2 ^ 16 + 1)))
       ∧ (∀ l ∈ lanesOf s.iss.lanes, l < g.lanes.length → (g'.lane l).pcv = word h ∧ (g'.lane l).st = .running)
       ∧ (∀ l, bit s.iss.lanes l = false → g'.lane l = g.lane l)
       ∧ g'.cause = 0x01 ∧ g'.s = g.s ∧ g'.m = g.m ∧ g'.h = g.h ∧ g'.c = g.c ∧ g'.f = g.f)
  ∧ (∀ (s : State) (g : Group) (n : BitVec 14), Issues s g {} → g.id.handler = false → g.step ≠ 1 →
       haltedCtx s g.id.ctx = false →
       ∃ t g' hl r, exec (.brk n) s = .next t ∧ t.group s.iss.g = some g' ∧ g'.cause = 0x51
         ∧ (∀ l, bit s.iss.lanes l = true → (g.lane l).running = true → (g'.lane l).pcv = word s.iss.next)
         ∧ (ctxOf t g.id.ctx).halt = some hl ∧ hl.time = s.time ∧ hl.src = srcWedge g.core g.wedge
         ∧ hl.recs = [r] ∧ r.cause = 0x51 ∧ r.detail = n.zeroExtend 64 ∧ r.pc = s.iss.next)

/-- R192: `wait.any` and `wait.all` whose joined condition holds complete with the result word, whose bits [3:0] say which
conditions hold and whose bit 4 is clear; otherwise the lanes park on the wait, armed with its conditions and absolute
deadline, or raise EV_FULL where the table of events has no room. -/
def Obligations.WaitsReturnOrPark : Prop :=
  ∀ (s : State) (g : Group) (a b : SReg) (c : XOp) (cs : List WCond) (any : Bool),
    let i : Instr := if any then .waitAny a b c else .waitAll a b c
    Issues s g { sr := (List.range 4).map (b.toNat + ·) ++ XOp.reg c } →
    (List.range 4).map (fun k => readCond s g (g.sreg (b.toNat + k))) = cs.map CondRead.ok →
    ((((List.range 4).map (b.toNat + ·)).map g.sreg).flatMap condRegs).any g.sPending = false →
    (cs.any WCond.isObject = true → capsBusy s s.iss.g = false) →
    (joined s g any cs = true →
      ∃ w, exec i s = .next (s.wroteS g a w)
        ∧ (∀ k, k < 4 → bit w k = condMet s g (cs.getD k .none)) ∧ bit w 4 = false)
    ∧ (joined s g any cs = false →
      (∀ s', armAll s (ctxPart s g.id.ctx) s.iss.g s.fresh cs = .ok s' →
        exec i s = .next ((bump s').moved (({ g with
          waits := tput g.waits s.fresh { any := any, dst := a.toNat, conds := cs
                                          deadline := if g.opX c = 0xFFFFFFFF then none
                                            else some (s.time + (g.opX c).toNat) } } : Group).setLanes s.iss.lanes fun l =>
          { l with st := .wait s.fresh, pcv := word s.iss.ia, adv := s.iss.next - s.iss.ia, hop := .along })))
      ∧ (∀ n, armAll s (ctxPart s g.id.ctx) s.iss.g s.fresh cs = .error n →
        exec i s = faultIssue s 0x41 (Detail.of n)))

/-- R193, R194: `sleep.at` at or after its instant, and `sleep.at.prom` on an object that reads 0, complete; before it
the lanes park, and past it they take PROMISE_MISS; `rdtime` writes TIME, the low word in sA.
R195, R197: `bar` parks the lanes at its barrier; once the group's captures have taken effect `evsig` makes its writes
visible and signals the event of sB[15:0]. -/
def Obligations.SleepTimeBarriersEvents : Prop :=
  (∀ (s : State) (g : Group) (a b : SReg),
     let parked (st : LaneState) : Group := g.setLanes s.iss.lanes fun l =>
       { l with st := st, pcv := word s.iss.ia, adv := s.iss.next - s.iss.ia, hop := .along }
     (Issues s g { sr := [b.toNat, b.toNat + 1] } →
       (g.spair b.toNat ≤ s.time → exec (.sleepAt b) s = .next (s.after g))
       ∧ (s.time < g.spair b.toNat → exec (.sleepAt b) s = .next (s.moved (parked (.sleep (g.spair b.toNat))))))
     ∧ (Issues s g { sr := [b.toNat] } → capsBusy s s.iss.g = false → ∀ ko kp,
         checkScratch s g.id.tid (g.sreg b.toNat).toNat 8 8 = .ok ko →
         checkScratch s g.id.tid ((g.sreg b.toNat).toNat + 8) 8 8 = .ok kp →
         (rdN s.scr ko 8 = 0 → exec (.sleepAtProm b) s = .next (s.after g))
         ∧ (rdN s.scr ko 8 ≠ 0 → rdN s.scr kp 8 = 0 →
             exec (.sleepAtProm b) s = .next (s.moved (parked (.promise (g.sreg b.toNat) none))))
         ∧ (rdN s.scr ko 8 ≠ 0 → s.time < rdN s.scr kp 8 →
             exec (.sleepAtProm b) s
               = .next (s.moved (parked (.promise (g.sreg b.toNat) (some (rdN s.scr kp 8))))))
         ∧ (rdN s.scr ko 8 ≠ 0 → rdN s.scr kp 8 ≠ 0 → rdN s.scr kp 8 ≤ s.time → ∀ h, g.id.trapEntry = some h →
             haltedCtx s g.id.ctx = false →
             ∃ t g', exec (.sleepAtProm b) s = .next t ∧ t.group s.iss.g = some g' ∧ t.iss.done = true ∧ g'.cause = 0x02
               ∧ ∀ l ∈ lanesOf s.iss.lanes, l < g.lanes.length → 2 ≤ g.id.nv →
                   (g'.lane l).pcv = word h ∧ g'.elem (g.id.nv - 1) l = .val (word s.iss.next)
                   ∧ g'.elem (g.id.nv - 2) l = .val 2))
     ∧ (Issues s g {} → exec (.rdtime a) s
         = .next (s.after ((g.setS a.toNat (word s.time)).setS (a.toNat + 1) (word (s.time / 2 ^ 32))))))
  ∧ (∀ (s : State) (g : Group) (n : BitVec 4) (b : SReg),
       (Issues s g {} → g.id.tid ≠ none →
         exec (.barTeam n) s = .next (s.moved (g.setLanes s.iss.lanes fun l =>
           { l with st := .bar false n.toNat, pcv := word s.iss.ia, adv := s.iss.next - s.iss.ia, hop := .along }))
         ∧ exec (.barCluster n) s = .next (s.moved (g.setLanes s.iss.lanes fun l =>
           { l with st := .bar true n.toNat, pcv := word s.iss.ia, adv := s.iss.next - s.iss.ia, hop := .along })))
       ∧ (Issues s g { sr := [b.toNat] } → capsBusy s s.iss.g = false →
         exec (.evsig b) s = .next (signalEvent ((releaseAll (loseIdem s g) s.iss.g g).after g) (ctxPart s g.id.ctx)
           ((g.sreg b.toNat).toNat % 2 ^ 16))))

/-- R198: `launch` whose descriptor address passes its checks, with no earlier work of the group to wait for, writes 0 and
submits nothing where the queue cannot take it, and otherwise writes the child's identifier and enters the
descriptor's address at the queue's tail.
R199: `sym.wait` on symbols that have been delivered completes with every element over them collapsed. -/
def Obligations.LaunchAndSymbolWait : Prop :=
  (∀ (s s' : State) (g : Group) (a b : SReg) (c : XOp) (loc : Loc),
     Issues s g { sr := b.toNat :: (b.toNat + 1) :: XOp.reg c } → (g.opX c).toNat < 2 ^ 7 →
     checkAccess s g.core g.id.ctx (g.spair b.toNat) 128 .read anyFmt (natural 64) = (s', .ok loc) →
     capsBusy s' s.iss.g = false → fenceClear s' s.iss.g g 5 = true →
     let r := releaseAll s' s.iss.g g
     let p := ctxPart s' g.id.ctx
     let q := queueOf s' p ((g.opX c).toNat / 2)
     ((32 ≤ q.entries.length ∨ q.en = false ∨ q.ctx ≠ g.id.ctx) →
       exec (.launch a b c) s = .next ((loseIdem r g).wroteS g a 0))
     ∧ (q.entries.length < 32 → q.en = true → q.ctx = g.id.ctx →
       ∃ t e, exec (.launch a b c) s = .next t
         ∧ t.groups = (r.wroteS g a (word (cget 1 s'.idents p))).groups
         ∧ (queueOf t p ((g.opX c).toNat / 2)).entries = q.entries ++ [e]
         ∧ e.addr = some (g.spair b.toNat) ∧ e.ident = cget 1 s'.idents p ∧ e.ctx = g.id.ctx
         ∧ ((g.opX c).toNat % 2 = 0 → e.parent = none ∧ t.launches = s'.launches)))
  ∧ (∀ (s : State) (g : Group) (c : XOp), Issues s g { sr := XOp.reg c } →
       (∀ p ∈ g.syms, bit (g.opX c) p.1 = true → p.2.delivered = true) →
       exec (.symWait c) s = .next (s.after
         (((g.syms.filter fun p => bit (g.opX c) p.1).foldl (fun h p => h.collapseAll p.1) g).releaseSyms)))

/-- R51, R200: `rdsr` of each special of R51 writes its value, a lane's own value in each lane for a per-lane one; `wrsr`
writes `cause`, `symst` and `htie` as R48 and R49 lay down; a number below 0x40 that R51 does not give, or not for that
use, is ILLEGAL_OP.
R322, R326: a number of 0x40 or above is a permission fault at user level; a supervisor group reads and writes the register
that its partition or context window shows it. -/
def Obligations.SpecialRegisters : Prop :=
  ∀ (s : State) (g : Group) (a : SReg) (d : VReg) (n : BitVec 14),
    let i := g.id
    let table : List (Nat × Word) :=
      [(0x00, word g.cause),
       (0x01, word (g.poisBits * 2 ^ 24 + g.pendBits * 2 ^ 16 + g.formRegs * 2 ^ 11 + g.rmode * 2 ^ 8 + g.mode)),
       (0x02, word ((if g.tieSrc then 2 ^ 31 else 0) + g.tieReg)), (0x03, g.lfsr), (0x04, word g.tile),
       (0x12, word i.grp), (0x13, word i.ngrp), (0x14, word i.tx), (0x15, word i.ty), (0x16, word i.nw), (0x17, word i.nh),
       (0x18, word i.cx), (0x19, word i.cy), (0x1A, word i.cz), (0x1B, word i.gx), (0x1C, word i.gy), (0x1D, word i.gz),
       (0x1E, word g.core), (0x1F, word g.wedge), (0x20, word i.launch), (0x21, word i.ctx),
       (0x22, word i.codeBase), (0x23, word (i.codeBase / 2 ^ 32))]
    (∀ p ∈ table, n.toNat = p.1 →
      (Issues s g {} → exec (.rdsrS a n) s = .next (s.wroteS g a p.2))
      ∧ (Issues s g { v := [d.toNat] } → exec (.rdsrV d n) s = .next (s.wroteV g d 1 fun _ _ => p.2)))
    ∧ (Issues s g { v := [d.toNat] } →
        exec (.rdsrV d 0x10) s = .next (s.wroteV g d 1 fun l _ => word l)
        ∧ exec (.rdsrV d 0x11) s = .next (s.wroteV g d 1 fun l _ => word (32 * g.id.grp + l)))
    ∧ (Issues s g { sr := [a.toNat] } →
        let w := g.sreg a.toNat
        exec (.wrsr a 0) s = .next (s.after { g with cause := w.toNat % 256 })
        ∧ exec (.wrsr a 1) s = .next (s.after { g with
            rmode := if w.toNat / 256 % 8 ≤ 4 then w.toNat / 256 % 8 else g.rmode
            mode := if w.toNat % 4 = 3 then g.mode else w.toNat % 4 })
        ∧ exec (.wrsr a 2) s = .next (s.after { g with tieSrc := decide (2 ^ 31 ≤ w.toNat), tieReg := w.toNat % 16 })
        ∧ exec (.wrsr a 3) s = .next (s.after { g with lfsr := if w = 0 then 1 else w }))
    ∧ (Issues s g {} → n.toNat < 0x40 →
        ((∀ p ∈ table, n.toNat ≠ p.1) → exec (.rdsrS a n) s = faultWord s 0x10)
        ∧ ((∀ p ∈ table, n.toNat ≠ p.1) → n ≠ 0x10 → n ≠ 0x11 → exec (.rdsrV d n) s = faultWord s 0x10)
        ∧ (4 ≤ n.toNat → exec (.wrsr a n) s = faultWord s 0x10))
    ∧ (Issues s g { v := [d.toNat], sr := [a.toNat] } → 0x40 ≤ n.toNat →
        (g.id.sup = false → ∀ i ∈ [Instr.rdsrS a n, .rdsrV d n, .wrsr a n], exec i s = faultWord s 0x12)
        ∧ (g.id.sup = true → listedReg n.toNat = false →
            ∀ i ∈ [Instr.rdsrS a n, .rdsrV d n, .wrsr a n], exec i s = faultWord s 0x10)
        ∧ (g.id.sup = true → listedReg n.toNat = true → hostOnly n.toNat = true →
            ∀ i ∈ [Instr.rdsrS a n, .rdsrV d n, .wrsr a n], exec i s = faultWord s 0x12)
        ∧ (g.id.sup = true → listedReg n.toNat = true → hostOnly n.toNat = false →
            let r := supRead s g n.toNat
            exec (.rdsrS a n) s = .next (r.1.wroteS g a r.2)
            ∧ exec (.rdsrV d n) s = .next (r.1.wroteV g d 1 fun _ _ => r.2)
            ∧ exec (.wrsr a n) s = .next (supWrite (s.after g) s.iss.g g n.toNat (g.sreg a.toNat))))

/-- R204: the two-source integer instructions of classes 0x08 and 0x09, V and X forms, on known operands: vA takes the
function of vB and X in every executing lane. -/
def Obligations.IntegerArithmetic : Prop :=
  ∀ (s : State) (g : Group) (a b : VReg) (c : Src),
    LaneReady s g .plain a.toNat 1 (b.toNat :: c.vregs) c.sregs → g.formRegs ≤ 16 →
    let p (l : Nat) : Word := g.vword b.toNat l
    let x (l : Nat) : Word := g.src c l
    let done (f : Nat → Word) : State := s.wroteV g a 1 fun l _ => f l
    exec (formOf .addV .addX a b c) s = .next (done fun l => p l + x l)
    ∧ exec (formOf .subV .subX a b c) s = .next (done fun l => p l - x l)
    ∧ exec (formOf .mulV .mulX a b c) s = .next (done fun l => p l * x l)
    ∧ exec (formOf .mulhiI32V .mulhiI32X a b c) s
        = .next (done fun l => ((p l).signExtend 64 * (x l).signExtend 64).extractLsb' 32 32)
    ∧ exec (formOf .mulhiN32V .mulhiN32X a b c) s
        = .next (done fun l => ((p l).zeroExtend 64 * (x l).zeroExtend 64).extractLsb' 32 32)
    ∧ exec (formOf .minI32V .minI32X a b c) s = .next (done fun l => if (p l).sle (x l) then p l else x l)
    ∧ exec (formOf .maxI32V .maxI32X a b c) s = .next (done fun l => if (p l).sle (x l) then x l else p l)
    ∧ exec (formOf .minN32V .minN32X a b c) s = .next (done fun l => if (p l).ule (x l) then p l else x l)
    ∧ exec (formOf .maxN32V .maxN32X a b c) s = .next (done fun l => if (p l).ule (x l) then x l else p l)
    ∧ exec (formOf .andV .andX a b c) s = .next (done fun l => p l &&& x l)
    ∧ exec (formOf .orV .orX a b c) s = .next (done fun l => p l ||| x l)
    ∧ exec (formOf .xorV .xorX a b c) s = .next (done fun l => p l ^^^ x l)
    ∧ exec (formOf .shlV .shlX a b c) s = .next (done fun l => p l <<< ((x l).toNat % 32))
    ∧ exec (formOf .shrV .shrX a b c) s = .next (done fun l => p l >>> ((x l).toNat % 32))
    ∧ exec (formOf .sraV .sraX a b c) s = .next (done fun l => (p l).sshiftRight ((x l).toNat % 32))

/-- R204, R205: `mad` adds the fourth operand of its prefix, or vA without one; `bfi` reads vA as the background of its
field; `mov.b32` copies its operand.
R205: `abs`, `popc`, `clz`, `brev` and the two `bfe`, on known operands.
R206: the 64-bit instructions on known operands: the pair vA takes the result modulo 2^64, its low word in vA. -/
def Obligations.BitFieldsAndPairs : Prop :=
  (∀ (s : State) (g : Group) (a b : VReg) (c : Src), g.formRegs ≤ 16 →
     (LaneReady s g .dOnly a.toNat 1 (b.toNat :: c.vregs ++ [(fourth s).getD a.toNat]) c.sregs →
       exec (formOf .madV .madX a b c) s = .next (s.wroteV g a 1 fun l _ =>
         g.vword b.toNat l * g.src c l + g.vword ((fourth s).getD a.toNat) l))
     ∧ (LaneReady s g .plain a.toNat 1 (a.toNat :: b.toNat :: c.vregs) c.sregs →
       exec (formOf .bfiB32V .bfiB32X a b c) s = .next (s.wroteV g a 1 fun l _ =>
         let x := (g.src c l).toNat
         let len := min (x / 256 % 64) 32
         let w := min len (32 - x % 32)
         let m : Word := if len = 0 then 0 else BitVec.ofNat 32 (2 ^ w - 1) <<< (x % 32)
         (g.vword a.toNat l &&& ~~~m) ||| ((g.vword b.toNat l <<< (x % 32)) &&& m)))
     ∧ (LaneReady s g .plain a.toNat 1 c.vregs c.sregs →
       exec (match c with
         | .v r => .movB32V a r
         | .x o => .movB32X a o) s = .next (s.wroteV g a 1 fun l _ => g.src c l)))
  ∧ (∀ (s : State) (g : Group) (a b : VReg) (c : Src),
       (LaneReady s g .plain a.toNat 1 [b.toNat] [] →
         let p (l : Nat) : Word := g.vword b.toNat l
         let done (f : Nat → Word) : State := s.wroteV g a 1 fun l _ => f l
         exec (.absI32 a b) s = .next (done fun l => if (p l).msb then -(p l) else p l)
         ∧ exec (.popcB32 a b) s = .next (done fun l => word ((List.range 32).countP (p l).getLsbD))
         ∧ exec (.clzB32 a b) s = .next (done fun l => (p l).clz)
         ∧ exec (.brevB32 a b) s = .next (done fun l => (p l).reverse))
       ∧ (LaneReady s g .plain a.toNat 1 (b.toNat :: c.vregs) c.sregs →
         let pos (l : Nat) : Nat := (g.src c l).toNat % 32
         let len (l : Nat) : Nat := min ((g.src c l).toNat / 256 % 64) 32
         let w (l : Nat) : Nat := min (len l) (32 - pos l)
         let f (l : Nat) : Word := g.vword b.toNat l >>> pos l
         exec (formOf .bfeN32V .bfeN32X a b c) s = .next (s.wroteV g a 1 fun l _ =>
           if len l = 0 then 0 else f l &&& BitVec.ofNat 32 (2 ^ w l - 1))
         ∧ exec (formOf .bfeI32V .bfeI32X a b c) s = .next (s.wroteV g a 1 fun l _ =>
           if len l = 0 then 0 else (f l <<< (32 - w l)).sshiftRight (32 - w l))))
  ∧ (∀ (s : State) (g : Group) (a b : VReg) (c : Src),
       let done (f : Nat → BitVec 64) : State :=
         s.wroteV g a 2 fun l i => if i = 0 then (f l).extractLsb' 0 32 else (f l).extractLsb' 32 32
       let x (l : Nat) : Word := g.src c l
       (LaneReady s g .plain a.toNat 2 (b.toNat :: (b.toNat + 1) :: c.vregs) c.sregs →
         let p (l : Nat) : BitVec 64 := g.vword (b.toNat + 1) l ++ g.vword b.toNat l
         exec (formOf .addI64V .addI64X a b c) s = .next (done fun l => p l + (x l).signExtend 64)
         ∧ exec (formOf .subI64V .subI64X a b c) s = .next (done fun l => p l - (x l).signExtend 64)
         ∧ exec (formOf .shlB64V .shlB64X a b c) s = .next (done fun l => p l <<< ((x l).toNat % 64))
         ∧ exec (formOf .shrN64V .shrN64X a b c) s = .next (done fun l => p l >>> ((x l).toNat % 64))
         ∧ exec (formOf .sraI64V .sraI64X a b c) s = .next (done fun l => (p l).sshiftRight ((x l).toNat % 64)))
       ∧ (LaneReady s g .plain a.toNat 2 (b.toNat :: c.vregs) c.sregs →
         let p (l : Nat) : Word := g.vword b.toNat l
         exec (formOf .mulWideI32V .mulWideI32X a b c) s = .next (done fun l => (p l).signExtend 64 * (x l).signExtend 64)
         ∧ exec (formOf .mulWideN32V .mulWideN32X a b c) s
           = .next (done fun l => (p l).zeroExtend 64 * (x l).zeroExtend 64)))

/-- R159: each 16-bit integer instruction has the effect of its 32-bit equivalent with operand fields A, A and B, and
`nop` has none.
R159: the 16-bit floating instructions have the effect of their 32-bit equivalents with fields A, A and B. -/
def Obligations.SixteenBitForms : Prop :=
  (∀ (s : State) (g : Group) (a : BitVec 6) (b : BitVec 5),
     let va : VReg := a.zeroExtend 7
     let p (l : Nat) : Word := g.vword a.toNat l
     let x (l : Nat) : Word := g.vword b.toNat l
     let done (f : Nat → Word) : State := s.wroteV g va 1 fun l _ => f l
     (LaneReady s g .plain a.toNat 1 [a.toNat, b.toNat] [] → g.formRegs ≤ 16 →
       exec (.addI32Half a b) s = .next (done fun l => p l + x l)
       ∧ exec (.subI32Half a b) s = .next (done fun l => p l - x l)
       ∧ exec (.mulI32Half a b) s = .next (done fun l => p l * x l)
       ∧ exec (.andB32Half a b) s = .next (done fun l => p l &&& x l)
       ∧ exec (.orB32Half a b) s = .next (done fun l => p l ||| x l)
       ∧ exec (.xorB32Half a b) s = .next (done fun l => p l ^^^ x l)
       ∧ exec (.shlB32Half a b) s = .next (done fun l => p l <<< ((x l).toNat % 32))
       ∧ exec (.shrN32Half a b) s = .next (done fun l => p l >>> ((x l).toNat % 32))
       ∧ exec (.minI32Half a b) s = .next (done fun l => if (p l).sle (x l) then p l else x l))
     ∧ (LaneReady s g .plain a.toNat 1 [b.toNat] [] → g.formRegs ≤ 16 →
       exec (.movB32Half a b) s = .next (done x))
     ∧ (Issues s g {} → exec .nopHalf s = .next (s.after g)))
  ∧ (∀ (s : State) (g : Group) (a : BitVec 6) (b : BitVec 5), g.formRegs ≤ 16 →
       let va : VReg := a.zeroExtend 7
       let m := modeOf s g
       let z := ftzOf s
       let p (l : Nat) : Fl := fp32.decode (fp32.flushIn z (g.vword a.toNat l).toNat)
       let x (l : Nat) : Fl := fp32.decode (fp32.flushIn z (g.vword b.toNat l).toNat)
       let done (f : Nat → Fl) : State := s.wroteV g va 1 fun l _ => word (fp32.write m false z (f l))
       (LaneReady s g .round a.toNat 1 [a.toNat, b.toNat] [] →
         exec (.faddF32Half a b) s = .next (done fun l => (p l).add m (x l))
         ∧ exec (.fsubF32Half a b) s = .next (done fun l => (p l).add m (x l).neg)
         ∧ exec (.fmulF32Half a b) s = .next (done fun l => (p l).mul (x l)))
       ∧ (LaneReady s g .plain a.toNat 1 [a.toNat, b.toNat] [] →
         exec (.fminF32Half a b) s = .next (s.wroteV g va 1 fun l _ =>
           word (fp32.minMax false (g.vword a.toNat l).toNat (g.vword b.toNat l).toNat))
         ∧ exec (.fmaxF32Half a b) s = .next (s.wroteV g va 1 fun l _ =>
           word (fp32.minMax true (g.vword a.toNat l).toNat (g.vword b.toNat l).toNat))))

/-- R54, R55: a form (a, b) over symbol k, in every executing lane of one source, is changed without waiting by each
instruction of the tables whose other operands are known: integer forms modulo 2^32, floating ones with each new a and b
rounded at the prefix's mode and flushed under FTZ. A move moves any element that is not awaited, with its form or mark.
(A form as the second operand of `add`, `fadd` or `fmul` transforms alike: the model's reading, log 110.)
R52, R59, R60: in a mode other than 0 a symbolic load of a 32-bit type completes at once: symbol k, the lowest free
one, takes each lane's bytes as its X and is poisoned in the lanes whose checks fail, and each executing lane's element
holds the untransformed form.
R60, R372: a poisoned element gives a marked result where a form would be changed; its first blocking use takes the trap
SYM_POISON before the instruction executes, whose link is the instruction itself. -/
def Obligations.FormsAndSymbolicLoads : Prop :=
  (∀ (s : State) (g : Group) (a b d : VReg) (c : Src) (k : Nat) (p q w : Nat → Word) (n : BitVec 6) (fresh : Nat → Bool),
     let ex := lanesOf (execMask s g)
     let form (r : VReg) (flt : Bool) : Prop := ∀ l ∈ ex, g.elem r.toNat l = .form k (p l) (q l) flt (fresh l)
     let pois (r : VReg) (flt : Bool) : Prop := ∀ l ∈ ex, g.elem r.toNat l = .pois (w l) k flt
     let known (rs : List Nat) : Prop := Known g rs ex
     let ready (rule : PfxRule) (rs sr : List Nat) : Prop := Issues s g { rule := rule, v := a.toNat :: rs, vr := rs, sr := sr }
     let gives (flt : Bool) (i : Instr) (f : Nat → Word × Word) : Prop := ∃ g', exec i s = .next (s.after g')
       ∧ ∀ l ∈ ex, g'.elem a.toNat l = .form k (f l).1 (f l).2 flt false
     let marks (flt : Bool) (i : Instr) (f : Nat → Word) : Prop := ∃ g', exec i s = .next (s.after g')
       ∧ ∀ l ∈ ex, g'.elem a.toNat l = .pois (f l) k flt
     let x (l : Nat) : Word := g.src c l
     let y (l : Nat) : Word := g.vword b.toNat l
     let e : Nat := (fourth s).getD a.toNat
     let z (l : Nat) : Word := g.vword e l
     let m := modeOf s g
     let ftz := ftzOf s
     let val (v : Word) : Fl := fp32.decode (fp32.flushIn ftz v.toNat)
     let rnd (v : Fl) : Word := word (fp32.write m false ftz v)
     let flush (v : Word) : Word := if ftz = true ∧ v.toNat % 2 ^ 31 < 2 ^ 23 then v &&& 0x80000000 else v
     let minus (v : Word) : Word := if 0x7F800000 < v.toNat % 2 ^ 31 then 0x7FC00000 else v ^^^ 0x80000000
     let fk (l : Nat) : Word := g.srcF fp32 1 c l
     g.formRegs < 16 →
     (ready .plain (b.toNat :: c.vregs) c.sregs → form b false → known c.vregs →
       gives false (formOf .addV .addX a b c) (fun l => (p l, q l + x l))
       ∧ gives false (formOf .subV .subX a b c) (fun l => (p l, q l - x l))
       ∧ gives false (formOf .mulV .mulX a b c) (fun l => (p l * x l, q l * x l))
       ∧ (c = .x (.imm n) → gives false (.shlX a b (.imm n)) (fun l =>
           (p l <<< ((n.signExtend 32).toNat % 32), q l <<< ((n.signExtend 32).toNat % 32)))))
     ∧ (ready .plain [b.toNat, d.toNat] [] → form d false → known [b.toNat] →
       gives false (.addV a b d) (fun l => (p l, q l + y l))
       ∧ gives false (.subV a b d) (fun l => (-(p l), y l - q l))
       ∧ gives false (.mulV a b d) (fun l => (p l * y l, q l * y l)))
     ∧ (ready .dOnly (b.toNat :: c.vregs ++ [e]) c.sregs → form b false →
       known (c.vregs ++ [e]) → gives false (formOf .madV .madX a b c) (fun l => (p l * x l, q l * x l + z l)))
     ∧ (ready .dOnly [b.toNat, d.toNat, e] [] → form d false →
       known [b.toNat, e] → gives false (.madV a b d) (fun l => (p l * y l, q l * y l + z l)))
     ∧ (ready .plain [d.toNat] [] → ∃ g', exec (.movB32V a d) s = .next (s.after g')
       ∧ ∀ l ∈ ex, g'.elem a.toNat l = g.elem d.toNat l)
     ∧ (ready .round (b.toNat :: c.vregs) c.sregs → form b true → known c.vregs →
       gives true (formOf .faddF32V .faddF32X a b c) (fun l => (flush (p l), rnd ((val (q l)).add m (val (fk l)))))
       ∧ gives true (formOf .fsubF32V .fsubF32X a b c) (fun l => (flush (p l), rnd ((val (q l)).add m (val (fk l)).neg)))
       ∧ gives true (formOf .fmulF32V .fmulF32X a b c)
           (fun l => (rnd ((val (p l)).mul (val (fk l))), rnd ((val (q l)).mul (val (fk l))))))
     ∧ (ready .round [b.toNat, d.toNat] [] → form d true → known [b.toNat] →
       gives true (.faddF32V a b d) (fun l => (flush (p l), rnd ((val (q l)).add m (val (y l)))))
       ∧ gives true (.fsubF32V a b d) (fun l => (flush (minus (p l)), rnd ((val (y l)).add m (val (q l)).neg)))
       ∧ gives true (.fmulF32V a b d) (fun l => (rnd ((val (p l)).mul (val (y l))), rnd ((val (q l)).mul (val (y l))))))
     ∧ (ready .roundD (b.toNat :: c.vregs ++ [e]) c.sregs → form b true →
       known (c.vregs ++ [e]) → gives true (formOf .ffmaF32V .ffmaF32X a b c)
         (fun l => (rnd ((val (p l)).mul (val (fk l))), rnd (((val (q l)).mul (val (fk l))).add m (val (z l))))))
     ∧ (ready .plain [b.toNat] [] → form b true → gives true (.fnegF32 a b) (fun l => (minus (p l), minus (q l))))
     ∧ (ready .plain (b.toNat :: c.vregs) c.sregs → pois b false → known c.vregs →
       marks false (formOf .addV .addX a b c) (fun l => w l + x l) ∧ marks false (formOf .mulV .mulX a b c) (fun l => w l * x l))
     ∧ (ready .round (b.toNat :: c.vregs) c.sregs → pois b true → known c.vregs →
       marks true (formOf .faddF32V .faddF32X a b c) (fun l => rnd ((val (w l)).add m (val (fk l))))))
  ∧ (∀ (s : State) (g : Group) (a b : VReg) (c : Src) (h k l : Nat) (w : Word) (flt : Bool),
       Issues s g { rule := .plain, v := a.toNat :: b.toNat :: c.vregs, vr := b.toNat :: c.vregs, sr := c.sregs } →
       (∀ r ∈ b.toNat :: c.vregs, ∀ j ∈ lanesOf (execMask s g), (g.elem r j).isForm = false) →
       l ∈ lanesOf (execMask s g) → g.elem b.toNat l = .pois w k flt → g.id.trapEntry = some h → haltedCtx s g.id.ctx = false →
       ∀ i ∈ [formOf .xorV .xorX a b c, formOf .minI32V .minI32X a b c, formOf .shrV .shrX a b c],
         ∃ t g', exec i s = .next t ∧ t.group s.iss.g = some g' ∧ t.iss.done = true ∧ g'.cause = 0x03
           ∧ (∀ j ∈ lanesOf s.iss.lanes, j < g.lanes.length → (g'.lane j).pcv = word h ∧ (g'.lane j).st = .running)
           ∧ (∀ j ∈ lanesOf s.iss.lanes, 2 ≤ g.id.nv → g'.elem (g.id.nv - 1) j = .val (word s.iss.a))
           ∧ (2 ≤ g.id.nv → g'.elem (g.id.nv - 2) l = .val (word (k * 2 ^ 16 + 2 ^ 8 + 3))))
  ∧ (∀ (s s' : State) (g h : Group) (t : AccTy) (flt : Bool) (a c : VReg) (b : SReg) (m : MemOp) (k : Nat)
       (bad : List (Nat × Fail × Nat)),
       let ex := lanesOf (execMask s g)
       let n := AccTy.bytes t
       let ready (mv ms : List Nat) : Prop := AccessReady s g .plain (regsFrom a (AccTy.regs t)) [] mv ms 15
       let made (u : State) (xs : List (Nat × Word)) : Prop :=
         (zeroOff u g a.toNat 1).newForms a.toNat flt ex (csets 0 [] xs) (maskOf (bad.map (·.1))) true u.fresh = some (k, h)
       g.mode ≠ 0 → AccTy.form t = some flt → g.midst = false → (∀ f ∈ bad, f.2.1.cause ≠ 0) →
       (∀ ps : List (Nat × Nat), Unwatched s g → ready (MemOp.vregs m) (MemOp.sregs false m) →
         checkLanes (fun s l => (s, checkScratch s g.id.tid (g.memAddr false n m l) n n)) (g.memAddr false n m) s ex
           = (s, bad, ps) →
         made s (ps.map fun p => (p.1, word (rdN s.scr p.2 n))) →
         ∃ u : State, exec (.ldsSym t a m) s = .next ((bump u).after h) ∧ u.scr = s.scr ∧ u.mem = s.mem ∧ u.groups = s.groups)
       ∧ (∀ ps : List (Nat × Loc), ready (MemOp.vregs m) (MemOp.sregs true m) →
         checkLanes (fun u l => checkLoad s.tlb u g.core g.id.ctx (g.memAddr true n m l) t) (g.memAddr true n m) s ex
           = (s', bad, ps) →
         (∀ p ∈ ps, peerSilent s' p.2.pte = false) →
         let r := makePoints (fun u p => loadPoint u g.core t p) s' (loadPoints t ps)
         Unwatched r.1 g → made r.1 ((laneValues r.2).map fun p => (p.1, word p.2)) →
         exec (.ldgSym t a m) s = .next ((bump r.1).after h))
       ∧ (∀ ps : List (Nat × Samp), ready [c.toNat] [b.toNat] → bad = [] →
         checkLanes (fun s l => (s, checkSample s g.id.ctx (g.sreg b.toNat).toNat (g.vword c.toNat l).toNat n))
           (fun l => sampleAddr (g.sreg b.toNat).toNat (g.vword c.toNat l).toNat) s ex = (s, [], ps) →
         readyLanes s g.id.ctx ps = (s', false, []) →
         let r := performLanes (fun u p => (visitSample u g.core g.id.ctx p, tileRead u g.id.ctx p n)) s' ps
         made r.1 (r.2.map fun p => (p.1, word p.2)) → exec (.ldtSym t a b c) s = .next ((bump r.1).after h))
       ∧ (∀ u xs, made u xs → k < 8 ∧ tget g.syms k = none ∧ (∀ j, j < k → tget g.syms j ≠ none)
         ∧ (∀ l ∈ ex, h.elem a.toNat l = if flt then .form k 0x3F800000 0x80000000 true true else .form k 1 0 false false)
         ∧ ∃ y, tget h.syms k = some y ∧ y.flt = flt ∧ y.delivered = false ∧ y.always = (g.mode == 2)
           ∧ (∀ l w, (l, w) ∈ xs → (∀ v, (l, v) ∈ xs → v = w) → cget 0 y.xs l = w)
           ∧ ∀ l, l < 32 → (bit y.pois l = true ↔ ∃ f ∈ bad, f.1 = l)))

/-- R207: a compare on known operands sets each executing lane's bit of mA to its relation, clears the masked-off lanes of
the issue under ZERO, and leaves every other bit.
R208: `sel` writes vB where the lane's bit of mK is set, and its other operand elsewhere. -/
def Obligations.ComparesAndSelects : Prop :=
  (∀ (s : State) (g : Group) (a : MReg) (b : VReg) (c : Src),
     Issues s g { rule := .plain, v := b.toNat :: c.vregs, vr := b.toNat :: c.vregs, sr := c.sregs } →
     Known g (b.toNat :: c.vregs) (lanesOf (execMask s g)) →
     let p (l : Nat) : Word := g.vword b.toNat l
     let x (l : Nat) : Word := g.src c l
     let fp (l : Nat) : Fl := fp32.decode (p l).toNat
     let fx (l : Nat) : Fl := fp32.decode (g.srcF fp32 1 c l).toNat
     let sets (i : Instr) (rel : Nat → Bool) : Prop := ∃ w, exec i s = .next (s.after (g.setM a.toNat w))
       ∧ ∀ l, l < 32 → bit w l = if bit (execMask s g) l then rel l
           else if zeroing s ∧ bit s.iss.lanes l then false else bit (g.mreg a.toNat) l
     sets (compareOf .cmpEqB32V .cmpEqB32X a b c) (fun l => p l == x l)
     ∧ sets (compareOf .cmpNeB32V .cmpNeB32X a b c) (fun l => p l != x l)
     ∧ sets (compareOf .cmpLtI32V .cmpLtI32X a b c) (fun l => (p l).slt (x l))
     ∧ sets (compareOf .cmpLeI32V .cmpLeI32X a b c) (fun l => (p l).sle (x l))
     ∧ sets (compareOf .cmpGtI32V .cmpGtI32X a b c) (fun l => (x l).slt (p l))
     ∧ sets (compareOf .cmpGeI32V .cmpGeI32X a b c) (fun l => (x l).sle (p l))
     ∧ sets (compareOf .cmpLtN32V .cmpLtN32X a b c) (fun l => (p l).ult (x l))
     ∧ sets (compareOf .cmpLeN32V .cmpLeN32X a b c) (fun l => (p l).ule (x l))
     ∧ sets (compareOf .cmpGtN32V .cmpGtN32X a b c) (fun l => (x l).ult (p l))
     ∧ sets (compareOf .cmpGeN32V .cmpGeN32X a b c) (fun l => (x l).ule (p l))
     ∧ sets (compareOf .fcmpEqF32V .fcmpEqF32X a b c) (fun l => !(fp l).isNan && !(fx l).isNan && (fp l).eq (fx l))
     ∧ sets (compareOf .fcmpLtF32V .fcmpLtF32X a b c) (fun l => !(fp l).isNan && !(fx l).isNan && (fp l).lt (fx l))
     ∧ sets (compareOf .fcmpLeF32V .fcmpLeF32X a b c)
         (fun l => !(fp l).isNan && !(fx l).isNan && ((fp l).lt (fx l) || (fp l).eq (fx l)))
     ∧ sets (compareOf .fcmpNeF32V .fcmpNeF32X a b c) (fun l => (fp l).isNan || (fx l).isNan || !(fp l).eq (fx l))
     ∧ sets (compareOf .fcmpUnF32V .fcmpUnF32X a b c) (fun l => (fp l).isNan || (fx l).isNan))
  ∧ (∀ (s : State) (g : Group) (a b : VReg) (k : MReg) (c : Src),
       LaneReady s g .plain a.toNat 1 (b.toNat :: c.vregs) c.sregs →
       exec (match c with
         | .v r => .selV a k b r
         | .x o => .selX a k b o) s
         = .next (s.wroteV g a 1 fun l _ => if bit (g.mreg k.toNat) l then g.vword b.toNat l else g.src c l))

/-- R209, R210, R202: the two-operand floating instructions and `ffma` on known operands: the exact sum, difference or
product of the operands read under FTZ, with one rounding at the prefix's mode; `fmin` and `fmax` give an operand. -/
def Obligations.FloatingArithmetic : Prop :=
  ∀ (s : State) (g : Group) (a b : VReg) (c : Src), g.formRegs ≤ 16 →
    let m := modeOf s g
    let z := ftzOf s
    let val (w : Word) : Fl := fp32.decode (fp32.flushIn z w.toNat)
    let p (l : Nat) : Fl := val (g.vword b.toNat l)
    let x (l : Nat) : Fl := val (g.srcF fp32 1 c l)
    let done (f : Nat → Fl) : State := s.wroteV g a 1 fun l _ => word (fp32.write m false z (f l))
    (LaneReady s g .round a.toNat 1 (b.toNat :: c.vregs) c.sregs →
      exec (formOf .faddF32V .faddF32X a b c) s = .next (done fun l => (p l).add m (x l))
      ∧ exec (formOf .fsubF32V .fsubF32X a b c) s = .next (done fun l => (p l).add m (x l).neg)
      ∧ exec (formOf .fmulF32V .fmulF32X a b c) s = .next (done fun l => (p l).mul (x l)))
    ∧ (LaneReady s g .roundD a.toNat 1 (b.toNat :: c.vregs ++ [(fourth s).getD a.toNat]) c.sregs →
      exec (formOf .ffmaF32V .ffmaF32X a b c) s
        = .next (done fun l => ((p l).mul (x l)).add m (val (g.vword ((fourth s).getD a.toNat) l))))
    ∧ (LaneReady s g .plain a.toNat 1 (b.toNat :: c.vregs) c.sregs →
      exec (formOf .fminF32V .fminF32X a b c) s = .next (s.wroteV g a 1 fun l _ =>
        word (fp32.minMax false (g.vword b.toNat l).toNat (g.srcF fp32 1 c l).toNat))
      ∧ exec (formOf .fmaxF32V .fmaxF32X a b c) s = .next (s.wroteV g a 1 fun l _ =>
        word (fp32.minMax true (g.vword b.toNat l).toNat (g.srcF fp32 1 c l).toNat)))

/-- R66, step one: the unit multiple to which a magnitude num/den rounds. RZ takes the multiple below; RU and RD the
greater and the lesser of the two neighbours by sign; RNE and RNA the nearer, on a tie the even one or the one above; an
exact multiple stands.
R214, R215, R68, R70: `cvt` on a known operand writes the converted value, for each pair of kinds: integer to integer keeps
the value modulo 2^w or, with `.sat`, clamped; floating to integer gives 0 for NaN and clamps; to a floating type the exact
value is rounded once. -/
def Obligations.RoundingAndConversions : Prop :=
  (∀ (mode : Mode) (neg : Bool) (num den : Nat), 0 < den →
     let q := roundQuot mode neg num den
     (num % den = 0 → q * den = num)
     ∧ (num / den ≤ q ∧ q ≤ num / den + 1)
     ∧ (num % den ≠ 0 →
         (mode = 1 → q = num / den)
         ∧ (mode = 2 → q = if neg then num / den else num / den + 1)
         ∧ (mode = 3 → q = if neg then num / den + 1 else num / den)
         ∧ (mode = 0 → (2 * (num % den) = den → q % 2 = 0))
         ∧ (mode = 4 → (2 * (num % den) = den → q = num / den + 1))
         ∧ (mode = 0 ∨ mode = 4 → 2 * (num % den) < den → q = num / den)
         ∧ (mode = 0 ∨ mode = 4 → den < 2 * (num % den) → q = num / den + 1)))
  ∧ (∀ (s : State) (g : Group) (a b : VReg) (dt st : NumTy) (sat : Bool),
       LaneReady s g (if (NumTy.fmt dt).isNone ∧ (NumTy.fmt st).isNone then .plain else .round) a.toNat 1 [b.toNat] [] →
       ∃ f : Word → Word, exec (.cvt dt sat st b a) s = .next (s.wroteV g a 1 fun l _ => f (g.vword b.toNat l))
         ∧ (NumTy.fmt dt = none → NumTy.fmt st = none → ∀ w,
             let n := NumTy.readInt st w.toNat
             f w = NumTy.writeInt dt (if sat then clampI (NumTy.lo dt) (NumTy.hi dt) n else n))
         ∧ (∀ fs, NumTy.fmt st = some fs → NumTy.fmt dt = none → ∀ w,
             let v := fs.decode (fs.flushIn (ftzOf s) (w.toNat % 2 ^ NumTy.width st))
             (v = .nan → f w = 0)
             ∧ (∀ neg, v = .inf neg → f w = NumTy.writeInt dt (if neg then NumTy.lo dt else NumTy.hi dt))
             ∧ (∀ sg n d, v = .fin sg n d →
                 f w = NumTy.writeInt dt (clampI (NumTy.lo dt) (NumTy.hi dt) (roundInt (modeOf s g) n d))))
         ∧ (∀ fd, NumTy.fmt st = none → NumTy.fmt dt = some fd → ∀ w,
             f w = word (fd.write (modeOf s g) sat (ftzOf s) (.fin false (NumTy.readInt st w.toNat) 1)))
         ∧ (∀ fs fd, NumTy.fmt st = some fs → NumTy.fmt dt = some fd → ∀ w,
             f w = word (fd.write (modeOf s g) sat (ftzOf s)
               (fs.decode (fs.flushIn (ftzOf s) (w.toNat % 2 ^ NumTy.width st))))))

/-- R212: `fclass` sets exactly one of bits 0 to 9, by the class of its operand. -/
def Obligations.FclassSetsOneBit : Prop :=
  ∀ (s : State) (g : Group) (a b : VReg), LaneReady s g .plain a.toNat 1 [b.toNat] [] →
    let p (l : Nat) : Word := g.vword b.toNat l
    ∃ f : Nat → Word, exec (.fclassF32 a b) s = .next (s.wroteV g a 1 fun l _ => f l)
      ∧ ∀ l, let m := (p l).toNat % 2 ^ 31
          let pos := (p l).toNat < 2 ^ 31
          (m = 0x7F800000 → f l = if pos then 0x80 else 1) ∧ (m = 0 → f l = if pos then 0x10 else 8)
          ∧ (0 < m → m < 2 ^ 23 → f l = if pos then 0x20 else 4)
          ∧ (2 ^ 23 ≤ m → m < 0x7F800000 → f l = if pos then 0x40 else 2)
          ∧ (0x7F800000 < m → f l = if 0x7FC00000 ≤ m then 0x200 else 0x100)

/-- R211: `fneg`, `fabs` and `frnd` on a known operand; a NaN gives the NaN of R63.
R213: each special function is a fixed function of its input whose special values are those of the table. -/
def Obligations.FloatingUnaryAndSpecial : Prop :=
  (∀ (s : State) (g : Group) (a b : VReg), g.formRegs ≤ 16 →
     let p (l : Nat) : Word := g.vword b.toNat l
     let nan (l : Nat) : Prop := 0x7F800000 < (p l).toNat % 2 ^ 31
     (LaneReady s g .plain a.toNat 1 [b.toNat] [] →
       (∃ f : Nat → Word, exec (.fnegF32 a b) s = .next (s.wroteV g a 1 fun l _ => f l)
         ∧ ∀ l, (nan l → f l = 0x7FC00000) ∧ (¬ nan l → f l = p l ^^^ 0x80000000))
       ∧ (∃ f : Nat → Word, exec (.fabsF32 a b) s = .next (s.wroteV g a 1 fun l _ => f l)
         ∧ ∀ l, (nan l → f l = 0x7FC00000) ∧ (¬ nan l → f l = p l &&& 0x7FFFFFFF)))
     ∧ (LaneReady s g .round a.toNat 1 [b.toNat] [] →
       ∃ f : Nat → Word, exec (.frndF32 a b) s = .next (s.wroteV g a 1 fun l _ => f l)
         ∧ ∀ l, (nan l → f l = 0x7FC00000) ∧ (p l = 0x7F800000 → f l = p l) ∧ (p l = 0xFF800000 → f l = p l)
             ∧ (p l = 0 → f l = p l) ∧ (p l = 0x80000000 → f l = p l)
             ∧ (∀ sg n d, fp32.decode (fp32.flushIn (ftzOf s) (p l).toNat) = .fin sg n d →
                 f l = word (fp32.write (modeOf s g) false false (.fin sg (roundInt (modeOf s g) n d) 1)))))
  ∧ (∀ (s : State) (g : Group) (a b : VReg), LaneReady s g .round a.toNat 1 [b.toNat] [] →
       let val (w : Nat) : Fl := fp32.decode (fp32.flushIn (ftzOf s) w)
       let below (w : Word) : Prop := ∃ n d, val w.toNat = .fin true n d ∧ n ≠ 0
       let gives (i : Instr) (pinf ninf pz nz : Word) (neg : Bool) (more : (Word → Word) → Prop) : Prop := ∃ f : Word → Word,
         exec i s = .next (s.wroteV g a 1 fun l _ => f (g.vword b.toNat l))
         ∧ (∀ w, 0x7F800000 < w.toNat % 2 ^ 31 → f w = 0x7FC00000)
         ∧ f 0x7F800000 = pinf ∧ f 0xFF800000 = ninf ∧ f 0 = pz ∧ f 0x80000000 = nz
         ∧ (neg = true → ∀ w, below w → f w = 0x7FC00000) ∧ more f
       let real (w : Nat) : ℝ := match fp32.decode w with
         | .fin _ n d => (n : ℝ) / d
         | _ => 0
       let root (f : Word → Word) : Prop := ∀ (w : Word) (n : Int) (d : Nat), val w.toNat = .fin false n d → n ≠ 0 →
         let r := (f w).toNat
         let q : ℝ := Real.sqrt ((n : ℝ) / d)
         (modeOf s g = 1 ∨ modeOf s g = 3 → real r ≤ q ∧ q < real (r + 1))
         ∧ (modeOf s g = 2 → real (r - 1) < q ∧ q ≤ real r)
         ∧ (modeOf s g = 0 ∨ modeOf s g = 4 → real (r - 1) + real r ≤ 2 * q ∧ 2 * q ≤ real r + real (r + 1))
       let any (_ : Word → Word) : Prop := True
       gives (.frcpF32 a b) 0 0x80000000 0x7F800000 0xFF800000 false any
       ∧ gives (.frsqF32 a b) 0 0x7FC00000 0x7F800000 0xFF800000 true any
       ∧ gives (.fsqrtF32 a b) 0x7F800000 0x7FC00000 0 0x80000000 true root
       ∧ gives (.fex2F32 a b) 0x7F800000 0 0x3F800000 0x3F800000 false any
       ∧ gives (.flg2F32 a b) 0x7F800000 0x7FC00000 0xFF800000 0xFF800000 true any
       ∧ gives (.fsinF32 a b) 0x7FC00000 0x7FC00000 0 0x80000000 false any
       ∧ gives (.fcosF32 a b) 0x7FC00000 0x7FC00000 0x3F800000 0x3F800000 false any)

/-- R213: the error bounds of the approximations, at every finite input that is not a zero; with FTZ subnormal inputs are
zeros, and results below the normal range are none of these. `frcp` and `frsq` lie within 1 ulp of the exact value, `fex2`
within 2 and exact at the integers, `flg2` within 2^-22 for an argument from 0.5 to 2 and elsewhere within 2 ulp and exact at
the powers of two, `fsin` and `fcos` within 2^-21; what is beyond FP32 gives an infinity. -/
def Obligations.SpecialFunctionBounds : Prop :=
  ∀ (s : State) (g : Group) (a b : VReg), LaneReady s g .round a.toNat 1 [b.toNat] [] →
    let ulp (x : ℝ) : ℝ := (2 : ℝ) ^ (max (Int.log 2 |x|) (-126) - 23)
    let real (w : Nat) : ℝ := match fp32.decode w with
      | .fin _ n d => (n : ℝ) / d
      | _ => 0
    let finite (w : Word) : Prop := w.toNat % 2 ^ 31 < 0x7F800000
    let meets (i : Instr) (F : ℝ → ℝ) (bound : (Word → Word) → Word → ℝ → Prop) : Prop := ∃ f : Word → Word,
      exec i s = .next (s.wroteV g a 1 fun l _ => f (g.vword b.toNat l))
      ∧ ∀ w, finite w → let x := real (fp32.flushIn (ftzOf s) w.toNat)
          x ≠ 0 → (ftzOf s = false ∨ (2 : ℝ) ^ (-126 : Int) ≤ |F x|) → bound f w x
    let near (e : ℝ) (y : Word) (v : ℝ) : Prop := finite y ∧ |real y.toNat - v| ≤ e
    meets (.frcpF32 a b) (fun x => 1 / x) (fun f w x =>
      ((2 : ℝ) ^ (-128 : Int) < |x| → near (ulp (1 / x)) (f w) (1 / x))
      ∧ (|x| ≤ (2 : ℝ) ^ (-128 : Int) → f w = if 0 < x then 0x7F800000 else 0xFF800000))
    ∧ meets (.frsqF32 a b) (fun x => 1 / Real.sqrt x) (fun f w x =>
      0 < x → near (ulp (1 / Real.sqrt x)) (f w) (1 / Real.sqrt x))
    ∧ meets (.fex2F32 a b) (fun x => (2 : ℝ) ^ x) (fun f w x =>
      (x < 128 → near (2 * ulp ((2 : ℝ) ^ x)) (f w) ((2 : ℝ) ^ x)) ∧ (128 ≤ x → f w = 0x7F800000)
      ∧ ∀ k : Int, -149 ≤ k → k ≤ 127 → x = k → finite (f w) ∧ real (f w).toNat = (2 : ℝ) ^ k)
    ∧ meets (.flg2F32 a b) (fun x => Real.logb 2 x) (fun f w x => 0 < x →
      (1 / 2 ≤ x → x ≤ 2 → near ((2 : ℝ) ^ (-22 : Int)) (f w) (Real.logb 2 x))
      ∧ (x < 1 / 2 ∨ 2 < x → near (2 * ulp (Real.logb 2 x)) (f w) (Real.logb 2 x)
        ∧ ∀ k : Int, x = (2 : ℝ) ^ k → real (f w).toNat = k))
    ∧ meets (.fsinF32 a b) Real.sin (fun f w x => near ((2 : ℝ) ^ (-21 : Int)) (f w) (Real.sin x))
    ∧ meets (.fcosF32 a b) Real.cos (fun f w x => near ((2 : ℝ) ^ (-21 : Int)) (f w) (Real.cos x))

/-- R216, R217: packed instructions compute each half apart in its format; `fdot4` sums four products and the addend
exactly and rounds once.
R218, R219: `tbpack` packs the 32 lane slots, +0 for a lane that does not execute, each executing lane taking its
element and sC the two exponents; `tbunp` decodes an element under the exponents in sC. -/
def Obligations.PackedAndBlock : Prop :=
  (∀ (s : State) (g : Group) (a b : VReg) (c : Src),
     let m := modeOf s g
     let z := ftzOf s
     let d := (fourth s).getD a.toNat
     let half (w : Word) (i : Nat) : Nat := w.toNat / 2 ^ (16 * i) % 2 ^ 16
     let both (f : Fmt) (h : Nat → Nat → Nat) : State := s.wroteV g a 1 fun l _ =>
       word (h (half (g.vword b.toNat l) 0) (half (g.srcF f 2 c l) 0)
         + 2 ^ 16 * h (half (g.vword b.toNat l) 1) (half (g.srcF f 2 c l) 1))
     let fused (f : Fmt) : State := s.wroteV g a 1 fun l _ =>
       let h (i : Nat) := f.fma m z (half (g.vword b.toNat l) i) (half (g.srcF f 2 c l) i) (half (g.vword d l) i)
       word (h 0 + 2 ^ 16 * h 1)
     let dot (f : Fmt) : State := s.wroteV g a 1 fun l _ =>
       fdot4 f m z (g.vword b.toNat l) (g.srcF f 4 c l) (g.vword d l)
     (LaneReady s g .round a.toNat 1 (b.toNat :: c.vregs) c.sregs →
       exec (formOf .paddF16V .paddF16X a b c) s = .next (both fp16 (fp16.arith 0 m z))
       ∧ exec (formOf .psubF16V .psubF16X a b c) s = .next (both fp16 (fp16.arith 1 m z))
       ∧ exec (formOf .pmulF16V .pmulF16X a b c) s = .next (both fp16 (fp16.arith 2 m z))
       ∧ exec (formOf .paddBf16V .paddBf16X a b c) s = .next (both bf16 (bf16.arith 0 m z))
       ∧ exec (formOf .psubBf16V .psubBf16X a b c) s = .next (both bf16 (bf16.arith 1 m z))
       ∧ exec (formOf .pmulBf16V .pmulBf16X a b c) s = .next (both bf16 (bf16.arith 2 m z)))
     ∧ (LaneReady s g .roundD a.toNat 1 (b.toNat :: d :: c.vregs) c.sregs →
       exec (formOf .pfmaF16V .pfmaF16X a b c) s = .next (fused fp16)
       ∧ exec (formOf .pfmaBf16V .pfmaBf16X a b c) s = .next (fused bf16)
       ∧ exec (formOf .fdot4E4m3V .fdot4E4m3X a b c) s = .next (dot e4m3)
       ∧ exec (formOf .fdot4E5m2V .fdot4E5m2X a b c) s = .next (dot e5m2))
     ∧ (LaneReady s g .plain a.toNat 1 (b.toNat :: c.vregs) c.sregs →
       exec (formOf .pminF16V .pminF16X a b c) s = .next (both fp16 (fp16.minMax false))
       ∧ exec (formOf .pmaxF16V .pmaxF16X a b c) s = .next (both fp16 (fp16.minMax true))
       ∧ exec (formOf .pminBf16V .pminBf16X a b c) s = .next (both bf16 (bf16.minMax false))
       ∧ exec (formOf .pmaxBf16V .pmaxBf16X a b c) s = .next (both bf16 (bf16.minMax true))))
  ∧ (∀ (s : State) (g : Group) (a b : VReg) (c : SReg) (tb8 sat : Bool),
       (Issues s g { rule := .plain, v := [a.toNat, b.toNat], vr := [b.toNat] } →
         Known g [b.toNat] (List.range 32) →
         let blk := tbPack tb8 sat ((List.range 32).map fun l =>
           if bit (execMask s g) l then fp32.decode (g.vword b.toNat l).toNat else .fin false 0 1)
         exec (match tb8, sat with
           | true, false => .tbpackTb8 a b c
           | false, false => .tbpackTb4 a b c
           | true, true => .tbpackSatTb8 a b c
           | false, true => .tbpackSatTb4 a b c) s
           = .next (s.wroteS (writeLanes s g a.toNat 1 fun l _ => word (blk.els.getD l 0)) c
               (if execMask s g = 0 then 0 else word (blk.e0 + 256 * blk.e1))))
       ∧ (LaneReady s g .plain a.toNat 1 [b.toNat] [c.toNat] →
         let e := (g.sreg c.toNat).toNat
         exec (if tb8 then .tbunpTb8 a b c else .tbunpTb4 a b c) s = .next (s.wroteV g a 1 fun l _ =>
           word (fp32.write rne false false (tbDecode tb8 (e % 256) (e / 256 % 256)
             ((g.vword b.toNat l).toNat % (if tb8 then 256 else 16)))))))

/-- R220, R221: `xlane` on known operands reads the lane of the tile that its mode names, falling back to the lane itself
outside the tile; a lane never launched, or not executing under ZERO, reads 0.
R222 to R224: `poll`, `fold`, `prefix` and `same` on known operands take their function over the executing lanes of
each lane's tile, ascending. -/
def Obligations.CrossLane : Prop :=
  (∀ (s : State) (g : Group) (a b : VReg) (c : Src),
     Issues s g { rule := .plain, v := a.toNat :: b.toNat :: c.vregs, vr := b.toNat :: c.vregs, sr := c.sregs } →
     Known g [b.toNat] (crossLanes s g) → Known g c.vregs (lanesOf (execMask s g)) →
     let base (l : Nat) : Nat := l / g.tile * g.tile
     let d (l : Nat) : Nat := (g.src c l).toNat % 32
     let own (l j : Nat) : Nat := if base l ≤ j ∧ j < base l + g.tile then j else l
     let read (j : Nat) : Word :=
       if (zeroing s ∧ bit (execMask s g) j = false) ∨ (g.lane j).st = .never then 0 else g.vword b.toNat j
     exec (formOf .xlaneGetV .xlaneGetX a b c) s = .next (s.wroteV g a 1 fun l _ => read (base l + d l % g.tile))
     ∧ exec (formOf .xlaneBackV .xlaneBackX a b c) s
         = .next (s.wroteV g a 1 fun l _ => read (if d l ≤ l then own l (l - d l) else l))
     ∧ exec (formOf .xlaneFwdV .xlaneFwdX a b c) s = .next (s.wroteV g a 1 fun l _ => read (own l (l + d l)))
     ∧ exec (formOf .xlaneMixV .xlaneMixX a b c) s = .next (s.wroteV g a 1 fun l _ => read (own l (l ^^^ d l))))
  ∧ (∀ (s : State) (g : Group) (a b : VReg) (rnd : Bool),
       Issues s g { rule := if rnd then .round else .plain, v := [a.toNat, b.toNat], vr := [b.toNat] } →
       Known g [b.toNat] (crossLanes s g) →
       let js (l : Nat) : List Nat :=
         (List.range 32).filter fun j => bit (execMask s g) j && j / g.tile * g.tile == l / g.tile * g.tile
       let p (j : Nat) : Word := g.vword b.toNat j
       let done (f : Nat → Word) : State := s.wroteV g a 1 fun l _ => f l
       let sum (p q : Word) : Word := word (fp32.arith 0 (modeOf s g) (ftzOf s) p.toNat q.toNat)
       let src (j : Nat) : Word := word (fp32.flushIn (ftzOf s) (p j).toNat)
       let through (f : Word → Word → Word) : List Word → Word
         | [] => 0
         | w :: ws => ws.foldl f w
       (rnd = false →
         exec (.pollSome a b) s = .next (done fun l => if ∃ j ∈ js l, p j ≠ 0 then 1 else 0)
         ∧ exec (.pollEvery a b) s = .next (done fun l => if ∀ j ∈ js l, p j ≠ 0 then 1 else 0)
         ∧ exec (.pollBits a b) s = .next (done fun l => maskOf ((js l).filter fun j => p j != 0))
         ∧ exec (.foldAddI32 a b) s = .next (done fun l => through (· + ·) ((js l).map p))
         ∧ exec (.foldMinI32 a b) s = .next (done fun l => through (fun p q => if q.slt p then q else p) ((js l).map p))
         ∧ exec (.foldMaxI32 a b) s = .next (done fun l => through (fun p q => if p.slt q then q else p) ((js l).map p))
         ∧ exec (.prefixAddI32 a b) s
             = .next (done fun l => through (· + ·) (((js l).filter fun j => decide (j ≤ l)).map p))
         ∧ exec (.sameB32 a b) s = .next (done fun l => maskOf ((js l).filter fun j => p j == p l))
         ∧ exec (.sameF32 a b) s = .next (done fun l => maskOf ((js l).filter fun j =>
             p j == p l || ((p j ||| p l) &&& 0x7FFFFFFF) == 0)))
       ∧ (rnd = true →
         exec (.foldAddF32 a b) s = .next (done fun l => through sum ((js l).map src))
         ∧ exec (.prefixAddF32 a b) s
             = .next (done fun l => through sum (((js l).filter fun j => decide (j ≤ l)).map src))))

/-- R226, R229: how an access forms its address, what a load writes to its registers, and what a store takes from them.
R234: the operations of an atomic on a 32-bit or 64-bit old value `o`, datum `x`, and new value `y` of `cas`. -/
def Obligations.AddressesValuesAtomics : Prop :=
  (∀ (g : Group) (b : SReg) (i : VReg) (l unit v a : Nat),
     (∀ n : BitVec 7, g.memAddr true unit (.off b n) l = (g.spair b.toNat + n.toNat * unit) % 2 ^ 64
       ∧ g.memAddr false unit (.off b n) l = ((g.sreg b.toNat).toNat + n.toNat * unit) % 2 ^ 32)
     ∧ g.memAddr true unit (.idx b i) l = ((g.spair b.toNat + (g.vword i.toNat l).toInt) % 2 ^ 64).toNat
     ∧ g.memAddr false unit (.idx b i) l = (g.sreg b.toNat + g.vword i.toNat l).toNat
     ∧ g.memAddr true unit (.pair i) l = (g.vword i.toNat l).toNat + 2 ^ 32 * (g.vword (i.toNat + 1) l).toNat
     ∧ g.memAddr false unit (.pair i) l = (g.vword i.toNat l).toNat
     ∧ (∀ w : Word, g.memAddr false unit (.offFar b w) l = (g.sreg b.toNat + w).toNat)
     ∧ (∀ t ∈ [AccTy.b8, .b16, .rawB8, .rawB16, .b32, .i32, .n32, .f32, .rawB32], AccTy.words t v = [word v])
     ∧ AccTy.words .i8 v = [(BitVec.ofNat 8 v).signExtend 32] ∧ AccTy.words .i16 v = [(BitVec.ofNat 16 v).signExtend 32]
     ∧ AccTy.words .b64 v = [word v, word (v / 2 ^ 32)] ∧ AccTy.words .rawB64 v = [word v, word (v / 2 ^ 32)]
     ∧ AccTy.words .b128 v = [word v, word (v / 2 ^ 32), word (v / 2 ^ 64), word (v / 2 ^ 96)]
     ∧ (∀ t ∈ [AccTy.b8, .i8, .rawB8], g.storeValue t a l = (g.vword a l).toNat % 2 ^ 8)
     ∧ (∀ t ∈ [AccTy.b16, .i16, .rawB16], g.storeValue t a l = (g.vword a l).toNat % 2 ^ 16)
     ∧ (∀ t ∈ [AccTy.b32, .i32, .n32, .f32, .rawB32], g.storeValue t a l = (g.vword a l).toNat)
     ∧ g.storeValue .b64 a l = (g.vword a l).toNat + 2 ^ 32 * (g.vword (a + 1) l).toNat)
  ∧ ((∀ (o x : Word) (y : Nat),
       let f (op : AtomOp) : Nat := atomStep op false o.toNat x.toNat y
       f .add = (o + x).toNat ∧ f .minS = (if x.slt o then x else o).toNat ∧ f .maxS = (if o.slt x then x else o).toNat
       ∧ f .minN = min o.toNat x.toNat ∧ f .maxN = max o.toNat x.toNat ∧ f .and = (o &&& x).toNat
       ∧ f .or = (o ||| x).toNat ∧ f .xor = (o ^^^ x).toNat ∧ f .swap = x.toNat ∧ f .cas = (if o = x then y else o.toNat)
       ∧ f .addF = fp32.write rne false false ((fp32.decode o.toNat).add rne (fp32.decode x.toNat)))
     ∧ (∀ (o x : BitVec 64) (y : Nat),
       let f (op : AtomOp) : Nat := atomStep op true o.toNat x.toNat y
       f .add = (o + x).toNat ∧ f .minS = (if x.slt o then x else o).toNat ∧ f .maxS = (if o.slt x then x else o).toNat
       ∧ f .minN = min o.toNat x.toNat ∧ f .maxN = max o.toNat x.toNat ∧ f .and = (o &&& x).toNat
       ∧ f .or = (o ||| x).toNat ∧ f .xor = (o ^^^ x).toNat ∧ f .swap = x.toNat ∧ f .cas = (if o = x then y else o.toNat)))

/-- R95 to R97, R229: scratch loads, stores and atomics whose addresses lie in the team's granules complete: a load leaves
the value of its bytes awaited in each executing lane, a store writes its bytes, an atomic does both in lane order. -/
def Obligations.ScratchAccesses : Prop :=
  ∀ (s : State) (g : Group) (t : AccTy) (o : AtomOp) (wide : Bool) (a : VReg) (m : MemOp) (key : Nat → Nat),
    Unwatched s g → AtOnce s g →
    let ex := lanesOf (execMask s g)
    let at_ (n : Nat) : Prop := ∀ l ∈ ex, checkScratch s g.id.tid (g.memAddr false n m l) n n = .ok (key l)
    let n := AccTy.bytes t
    let w := wideBytes wide
    (AccessReady s g .plain (regsFrom a (AccTy.regs t)) [] (MemOp.vregs m) (MemOp.sregs false m) s.iss.flagA → at_ n →
      ∃ u : State, u.scr = s.scr ∧ u.mem = s.mem ∧ u.groups = s.groups ∧
      let done := u.awaits (zeroOff s g a.toNat (AccTy.regs t)) s.iss.flagA
        (loadWrites a.toNat (AccTy.regs t) ex fun l i => nthW (AccTy.words t (rdN s.scr (key l) n)) i) []
      exec (.lds t a m) s = .next done
      ∧ (g.mode = 0 ∨ AccTy.form t = none → exec (.ldsSym t a m) s = .next done))
    ∧ (AccessReady s g .noZero [] (regsFrom a (AccTy.regs t)) (MemOp.vregs m) (MemOp.sregs false m) s.iss.flagB → at_ n →
      ∃ u : State, exec (.sts t a m) s = .next (u.awaits g s.iss.flagB [] [])
        ∧ u.scr = ex.foldl (fun c l => wrN c (key l) n (g.storeValue t a.toNat l)) s.scr
        ∧ u.teams = (loseIfRemote s g (ex.map key)).teams ∧ u.mem = s.mem ∧ u.groups = s.groups)
    ∧ (AccessReady s g .plain [] (regsFrom a (atomRegs o wide)) (MemOp.vregs m) (MemOp.sregs false m) s.iss.flagA →
        at_ w →
      ∃ (u : State) (old : Nat → Nat),
        exec (if wide then .ats64 o a m else .ats32 o a m) s = .next (u.awaits
          (zeroOff s g a.toNat (wideRegs wide)) s.iss.flagA
          (loadWrites a.toNat (wideRegs wide) ex fun l i => word (old l / 2 ^ (32 * i))) [])
        ∧ u.teams = (loseIfRemote s g (ex.map key)).teams ∧ u.mem = s.mem ∧ u.groups = s.groups
        ∧ ∃ mem : Nat → List Host.Cell, mem 0 = s.scr ∧ mem ex.length = u.scr
          ∧ ∀ i, i < ex.length → let l := ex.getD i 0
              old l = rdN (mem i) (key l) w
              ∧ mem (i + 1) = wrN (mem i) (key l) w (g.atomNew o wide a.toNat l (old l)))

/-- R229, R115: a global load whose checks pass leaves its values awaited; where the core holds no read copy, no
reduction waits in a partial copy and no page decodes, each lane's value is that of its bytes of memory, which no
load changes. -/
def Obligations.GlobalLoads : Prop :=
  ∀ (s s' : State) (g : Group) (t : AccTy) (a : VReg) (m : MemOp) (ps : List (Nat × Loc)),
    let addr := g.memAddr true (AccTy.bytes t) m
    AccessReady s g .plain (regsFrom a (AccTy.regs t)) [] (MemOp.vregs m) (MemOp.sregs true m) s.iss.flagA →
    Unwatched s g → AtOnce s g →
    checkLanes (fun u l => checkLoad s.tlb u g.core g.id.ctx (addr l) t) addr s (lanesOf (execMask s g)) = (s', [], ps) →
    (∀ p ∈ ps, peerSilent s' p.2.pte = false) →
    ∃ (u : State) (f : Nat × Loc → Nat),
      let done := u.awaits (zeroOff s g a.toNat (AccTy.regs t)) s.iss.flagA
        (ps.flatMap fun p => loadWrites a.toNat (AccTy.regs t) [p.1] fun _ i => nthW (AccTy.words t (f p)) i) []
      exec (.ldg t a m) s = .next done
      ∧ (g.mode = 0 ∨ AccTy.form t = none → exec (.ldgSym t a m) s = .next done)
      ∧ (s.partials = [] → u.mem = s.mem
        ∧ ((∀ sec, tget s.l1 (l1Key g.core sec) = none) → (∀ p ∈ ps, decodes t (pteFmt p.2.pte) = false) →
            ∀ p ∈ ps, f p = rdN s.mem p.2.key (AccTy.bytes t)))

/-- R229, R76, R233, R125: a global store, atomic or reduction whose checks pass completes. A store writes each lane's
bytes at the key its address translates to, and no byte of memory outside them and outside the reductions waiting in
partial copies changes; an atomic leaves the old values awaited; a reduction joins the partial copies and writes no
byte of memory itself. -/
def Obligations.GlobalStoresAndAtomics : Prop :=
  ∀ (s s' : State) (g : Group) (t : AccTy) (o : AtomOp) (wide : Bool) (a : VReg) (m : MemOp) (ps : List (Nat × Loc)),
    let n := AccTy.bytes t
    let ex := lanesOf (execMask s g)
    let w := wideBytes wide
    let outside (x : Nat) : Prop := ∀ q ∈ s.partials, x < q.addr ∨ q.addr + wideBytes q.wide ≤ x
    Unwatched s g → AtOnce s g → (∀ p ∈ ps, peerSilent s' p.2.pte = false) →
    (AccessReady s g .noZero [] (regsFrom a (AccTy.regs t)) (MemOp.vregs m) (MemOp.sregs true m) s.iss.flagB →
      checkLanes (fun u l => checkAccessIn s.tlb u g.core g.id.ctx (g.memAddr true n m l) n .write (storeForbids t) (natural n))
        (g.memAddr true n m) s ex = (s', [], ps) →
      ∃ u : State, exec (.stg t a m) s = .next (u.awaits g s.iss.flagB [] [])
      ∧ (s.partials = [] → u.mem = ps.foldl (fun c p => wrN c p.2.key n (g.storeValue t a.toNat p.1)) s.mem)
      ∧ ∀ x, outside x → (∀ p ∈ ps, x < p.2.key ∨ p.2.key + n ≤ x) → rdByte u.mem x = rdByte s.mem x)
    ∧ (checkLanes (fun u l => checkAtomic s.tlb u g wide (g.memAddr true w m l)) (g.memAddr true w m) s ex = (s', [], ps) →
      (AccessReady s g .plain [] (regsFrom a (atomRegs o wide)) (MemOp.vregs m) (MemOp.sregs true m) s.iss.flagA →
        ∃ (u : State) (old : Nat → Nat), exec (if wide then .atg64 o a m else .atg32 o a m) s
          = .next (u.awaits (zeroOff s g a.toNat (wideRegs wide)) s.iss.flagA
              (ps.flatMap fun p => loadWrites a.toNat (wideRegs wide) [p.1] fun l i => word (old l / 2 ^ (32 * i))) [])
          ∧ (s.partials = [] → ∃ mem : Nat → List Host.Cell, mem 0 = s.mem ∧ mem ps.length = u.mem
            ∧ ∀ i p, ps[i]? = some p → old p.1 = rdN (mem i) p.2.key w
                ∧ mem (i + 1) = wrN (mem i) p.2.key w (g.atomNew o wide a.toNat p.1 (old p.1))))
      ∧ (AccessReady s g .noZero [] (regsFrom a (wideRegs wide)) (MemOp.vregs m) (MemOp.sregs true m) s.iss.flagB →
        ∃ (u : State) (ts : List Nat), exec (if wide then .red64 o a m else .red32 o a m) s
            = .next (u.awaits g s.iss.flagB [] [])
          ∧ u.mem = s'.mem ∧ (s.partials = [] → u.mem = s.mem) ∧ ts.length = ps.length
          ∧ u.partials = s'.partials ++ List.zipWith (fun p stamp =>
              { addr := p.2.key, wide := wide, op := o, die := stackOf g.core,
                operand := BitVec.ofNat 64 (g.atomData wide a.toNat p.1), stamp := stamp }) ps ts))

/-- R117, R127: an access of 16 bytes has two points of 8 bytes, in ascending order, and any other one point; an issue that
makes only the first requests of its instruction leaves the group in the midst of it, with the rest kept, and one that
makes all that are left completes it. For `atg` and `ats` the lanes that name one place make one request, which is made
whole. -/
def Obligations.AccessesInParts : Prop :=
  (∀ (n l : Nat) (p : Loc), n ≤ 16 →
     ((lanePoints n l p).map fun q => (q.lane, q.key, q.n, q.off))
       = if n = 16 then [(l, p.key, 8, 0), (l, p.key + 8, 8, 8)] else [(l, p.key, n, 0)])
  ∧ (∀ (s : State) (g : Group) (t : AccTy) (o : AtomOp) (wide : Bool) (a : VReg) (m : MemOp) (key : Nat → Nat) (c : Nat),
       Unwatched s g → s.iss.cut = c → 0 < c →
       let ex := lanesOf (execMask s g)
       let n := AccTy.bytes t
       let at_ (n : Nat) : Prop := ∀ l ∈ ex, checkScratch s g.id.tid (g.memAddr false n m l) n n = .ok (key l)
       let stores := AccessReady s g .noZero [] (regsFrom a (AccTy.regs t)) (MemOp.vregs m) (MemOp.sregs false m) s.iss.flagB
       let ps := scratchPoints n (ex.map fun l => (l, key l))
       let wr (u : State) (qs : List Point) : List Host.Cell :=
         qs.foldl (fun b q => wrN b q.key q.n (g.pointValue t a.toNat q)) u.scr
       (stores → at_ n → g.midst = false → c < ps.length →
         ∃ u h, exec (.sts t a m) s = .next u ∧ u.group s.iss.g = some h ∧ u.scr = wr s (ps.take c)
           ∧ u.iss.done = s.iss.done ∧ h.midst = true ∧ h.parts.1.length = c ∧ h.parts.2 = ps.drop c)
       ∧ (stores → g.midst = true → partsHeld s false g.parts.2 = false → g.parts.2.length ≤ c →
         ∃ u : State, exec (.sts t a m) s = .next (u.awaits g.settled s.iss.flagB [] []) ∧ u.scr = wr s g.parts.2
           ∧ u.mem = s.mem ∧ u.groups = s.groups)
       ∧ (stores → g.midst = true → partsHeld s false g.parts.2 = false → c < g.parts.2.length →
         ∃ u h, exec (.sts t a m) s = .next u ∧ u.group s.iss.g = some h ∧ u.scr = wr s (g.parts.2.take c)
           ∧ h.midst = true ∧ h.parts.2 = g.parts.2.drop c)
       ∧ (let rs := requestsOf true g.parts.2
         rs.length = (g.parts.2.map (·.key)).eraseDups.length
         ∧ (∀ r ∈ rs, ∃ q ∈ g.parts.2, r = g.parts.2.filter fun p => p.key == q.key)
         ∧ (g.midst = true → partsHeld s true g.parts.2 = false →
           ∀ glob : Bool, AccessReady s g .plain [] (regsFrom a (atomRegs o wide)) (MemOp.vregs m) (MemOp.sregs glob m) s.iss.flagA →
           let i : Instr := if glob then (if wide then .atg64 o a m else .atg32 o a m)
             else (if wide then .ats64 o a m else .ats32 o a m)
           (rs.length ≤ c → ∃ (u : State) (vw : List (Nat × Word)), exec i s
             = .next (u.awaits (zeroOff s g.settled a.toNat (wideRegs wide)) s.iss.flagA vw []))
           ∧ (c < rs.length → ∃ u h, exec i s = .next u ∧ u.group s.iss.g = some h ∧ u.iss.done = s.iss.done
             ∧ h.midst = true ∧ h.parts.1.length = g.parts.1.length + (rs.take c).flatten.length
             ∧ h.parts.2 = (rs.drop c).flatten))))

/-- R98, R231, R232: `ldt`, `ldt.sym` without forms, and `stt` on samples whose tiles are resident: the value of the
sample's bytes is left awaited, or written. -/
def Obligations.SurfaceAccesses : Prop :=
  ∀ (s s' : State) (g : Group) (t : AccTy) (a c : VReg) (b : SReg) (ps : List (Nat × Samp)),
    let n := AccTy.bytes t
    let sel := (g.sreg b.toNat).toNat
    let at_ (l : Nat) : Nat := (g.vword c.toNat l).toNat
    checkLanes (fun s l => (s, checkSample s g.id.ctx sel (at_ l) n)) (fun l => sampleAddr sel (at_ l)) s
      (lanesOf (execMask s g)) = (s, [], ps) →
    readyLanes s g.id.ctx ps = (s', false, []) →
    (AccessReady s g .plain (regsFrom a (AccTy.regs t)) [] [c.toNat] [b.toNat] s.iss.flagA →
      ∃ u : State, u.mem = s'.mem ∧ u.arena = s'.arena ∧ u.tiles = s'.tiles ∧
      let done := u.awaits (zeroOff s' g a.toNat (AccTy.regs t)) s'.iss.flagA
        (ps.flatMap fun p => loadWrites a.toNat (AccTy.regs t) [p.1] fun _ i =>
          nthW (AccTy.words t (tileRead s' g.id.ctx p.2 n)) i) []
      exec (.ldt t a b c) s = .next done
      ∧ (g.mode = 0 ∨ AccTy.form t = none → exec (.ldtSym t a b c) s = .next done))
    ∧ (AccessReady s g .noZero [] (regsFrom a (AccTy.regs t)) [c.toNat] [b.toNat] s.iss.flagB →
      exec (.stt t a b c) s = .next ((ps.foldl (fun s p =>
        tileWrite (visitSample s g.core g.id.ctx p.2) g.id.ctx p.2 n (g.storeValue t a.toNat p.1))
        (loseIdem s' g)).awaits g s'.iss.flagB [] []))

/-- R123, R134, R120, R93, R235: a fence completes once the group's commands are finished and their writes visible (at facet
scope its accesses made too); until then it holds the group, of which no lane issues, by a long-latency dependence; then no observer of its scope reads anything older than the
engine writes it waited for, or at facet scope than the group's own accesses. `ack` drops the core's read copies; `tdisc` of
id 0 does nothing, and of another id takes back the dirty bytes of the lines so tagged, the spill engine's apart, whatever
else memory holds standing; a prefetch changes caches alone. -/
def Obligations.OrderingAndCaches : Prop :=
  ∀ (s s' : State) (g : Group) (b : SReg) (m : MemOp) (bad : List (Nat × Fail × Nat)) (ps : List (Nat × Loc)),
    let wait : Group := { g with blocked := true, phase := 30, phaseVals := [], phaseAt := s.iss.a, phaseLanes := s.iss.lanes }
    let held : State := { s with groups := tput s.groups s.iss.g wait }
    let owed : Prop := cmdsBusy s s.iss.g = true ∨ ∃ w ∈ s.late, w.g = s.iss.g
    (Issues s g {} →
      (∀ i ∈ [(Instr.fenceGroup, 0), (.fenceTeam, 1), (.fenceCluster, 3), (.fencePackage, 4), (.fenceSystem, 5)],
        (owed → exec i.1 s = .next held) ∧ (¬ owed → exec i.1 s = .next ((fenced s s.iss.g g i.2).after g.settled)))
      ∧ (owed ∨ opsBusy g = true → exec .fenceFacet s = .next held)
      ∧ (¬ (owed ∨ opsBusy g = true) → exec .fenceFacet s = .next ((fenced s s.iss.g g 2).after g.settled))
      ∧ exec .ack s = .next (State.after { s with l1 := s.l1.filter fun p => p.1 / 2 ^ 60 != g.core } g))
    ∧ (∀ scope c, (scope < 4 → c ∈ scopeCores s g.core (clusterOf s g) scope) →
        let t := fenced s s.iss.g g scope
        engTime s s.iss.g ≤ coreTime t c ∧ (scope = 2 → coreTime s g.core ≤ coreTime t c)
        ∧ t.mem = s.mem ∧ t.scr = s.scr ∧ t.groups = s.groups)
    ∧ (Issues s g { sr := [b.toNat] } → capsBusy s s.iss.g = false →
      let id := (g.sreg b.toNat).toNat % 2 ^ 10
      (id = 0 → exec (.tdisc b) s = .next ((loseIdem s g).after g))
      ∧ (id ≠ 0 → ∃ u : State, exec (.tdisc b) s = .next (u.after g)
        ∧ (∀ p ∈ u.llc, p.2.tid = id → ∀ x ∈ p.2.dirty, (tget u.spilled (4 * p.1 + x)).isSome)
        ∧ (∀ p ∈ u.l1, p.2.tid ≠ id)
        ∧ (s.partials = [] → ∀ x, (∀ p ∈ s.llc, p.2.tid = id → ∀ o ∈ p.2.old, p.1 * 1024 + o.1 ≠ x) →
            rdByte u.mem x = rdByte s.mem x)))
    ∧ (Issues s g { v := MemOp.vregs m, vr := MemOp.vregs m, sr := MemOp.sregs true m } →
      Known g (MemOp.vregs m) (lanesOf s.iss.lanes) →
      checkLanes (fun u l => checkAccessIn s.tlb u g.core g.id.ctx (g.memAddr true 256 m l) 1 .read anyFmt (natural 1))
        (g.memAddr true 256 m) s (lanesOf s.iss.lanes) = (s', bad, ps) →
      let near := ps.filter fun p => pteTgt p.2.pte == 0
      let u1 := near.foldl (fun s p => fillL1 s g.core p.2) s'
      let u2 := near.foldl (fun s p => fillSector s (p.2.key / 256) (pteTid p.2.pte)) s'
      exec (.prefetchL1 m) s = .next (u1.after g) ∧ exec (.prefetchSlice m) s = .next (u2.after g)
      ∧ u1.groups = s.groups ∧ u2.groups = s.groups ∧ (s.partials = [] → u1.mem = s.mem ∧ u2.mem = s.mem))

/-- R236 to R239, R109: `surf.def` reports 3 or 4 where its block or home is refused, and otherwise goes on by itself, its
status a charged result that is still to come: 2 where the slot is VALID, 1 where a column has no room, and 0 with the
entry written once every column is reserved, one after another. `surf.drop`, `surf.clr` and
`surf.decomp` report 2 on a slot not defined and act on a defined one, `surf.decomp` bringing the tiles back in order before
it writes them home; they end once every home write has been made. -/
def Obligations.SurfaceManagement : Prop :=
  ∀ (s : State) (g : Group) (a b c : SReg) (slot block base : Nat), surfBase s g.id.ctx = some base →
    let u := surfOfBlock block
    let x := loseIdem s g
    let ctx := g.id.ctx
    (Issues s g { sr := [b.toNat, c.toNat] } → capsBusy s s.iss.g = false → flagFull g s.iss.flagA = false →
      slot = (g.sreg c.toNat).toNat → ∀ k,
      checkScratch s g.id.tid (g.sreg b.toNat).toNat 32 32 = .ok k → block = rdN s.scr k 32 →
      let ends (st : Nat) : Prop := exec (.surfDef a b c) s
        = .next (x.awaits g.settled s.iss.flagA [] [(a.toNat, word st)])
      let job : DefJob := { g := s.iss.g, core := g.core, ctx := ctx, tid := g.id.tid, slot := slot, block := block, begun := false }
      (1024 ≤ slot ∨ blockBad block = true → ends 3)
      ∧ (slot < 1024 → blockBad block = false → homeMapped x g u = false → ends 4)
      ∧ (slot < 1024 → blockBad block = false → homeMapped x g u = true → exec (.surfDef a b c) s
        = .next (State.after (bump { x with defs := tput x.defs s.fresh job })
            (g.addOp s.fresh s.iss.flagA [] [(a.toNat, 0)] none true))))
    ∧ (∀ (oid : Nat) (j : DefJob) (ts : List Turn), s.turns = .define oid :: ts → tget s.defs oid = some j →
      let p : State := { s with turns := ts }
      let v : State := { p with defs := tput p.defs oid { j with begun := true } }
      let d := surfOfBlock j.block
      let cores := surfCores p j.ctx j.slot d
      (surfAt p j.ctx j.slot ≠ none → step s = .next (defEnd p oid 2 j))
      ∧ (surfAt p j.ctx j.slot = none → defining p oid j = true → step s = .next p)
      ∧ (surfAt p j.ctx j.slot = none → defining p oid j = false →
        (∀ k, cores.find? (fun k => (resvOf v k j.ctx j.slot).isNone) = some k →
          let r := reserve v (ctxPart v j.ctx) k j.ctx j.slot (resvBytes d (tilesIn v k j.ctx j.slot d).length)
          (∀ y, r = .done y ∨ r = .wait y → step s = .next y)
          ∧ (∀ y, r = .full y → ∃ z : State, step s = .next (defEnd z oid 1 j)
            ∧ ∀ q ∈ z.resvs, q.ctx ≠ j.ctx ∨ q.slot ≠ j.slot))
        ∧ (cores ≠ [] → (∀ k ∈ cores, resvOf v k j.ctx j.slot ≠ none) →
          step s = .next (defEnd (entryWrite (stampSurface v j.core j.ctx j.slot) j.ctx j.slot 0 64 (entryOf d)) oid 0 j)))
      ∧ (∀ (z : State) st y o, z.group j.g = some y → tget y.ops oid = some o →
        tget (defEnd z oid st j).defs oid = none ∧ ∃ y2, (defEnd z oid st j).group j.g = some y2
          ∧ tget y2.ops oid = some { o with sw := o.sw.map fun r => (r.1, word st), ext := false } ∧ y2.lanes = y.lanes))
    ∧ (blockBad block = false → surfOfEntry (entryOf u) = some u)
    ∧ (Issues s g { sr := [c.toNat] } → capsBusy s s.iss.g = false → slot = (g.sreg c.toNat).toNat →
      let ends (t : State) (st : Nat) : Host.Outcome State Fault Refusal := .next (t.after (g.setS a.toNat (word st)).settled)
      (surfAt s ctx slot = none →
        ∀ i ∈ [Instr.surfDrop a c, .surfClr a c, .surfDecomp a c], exec i s = ends x 2)
      ∧ (∀ f, surfAt s ctx slot = some f → slot < 1024 →
        atWorkOn s (some s.iss.g) ctx slot (fun p => decide (50 ≤ p)) = false →
        (s.spills.any fun q => q.2.ctx == ctx && q.2.slot == slot) = false →
        (∃ t, exec (.surfDrop a c) s = ends t 0
          ∧ rdN t.mem (base + 64 * slot) 64 = 0
          ∧ (∀ p ∈ t.tiles, p.1 < tileKey ctx slot 0 ∨ tileKey ctx slot 0 + 2 ^ 22 ≤ p.1)
          ∧ (∀ q ∈ t.resvs, q.ctx ≠ ctx ∨ q.slot ≠ slot) ∧ (∀ q ∈ t.spilled, q.2 ≠ ctx * 1024 + slot)
          ∧ (∀ p ∈ t.plans, p.2.ctx = ctx → slot ∈ p.2.dropped) ∧ ∀ p ∈ t.tris, p.2.ctx = ctx → slot ∈ p.2.dropped)
        ∧ (f.comp = false → g.phase ≠ 50 → ∀ t,
            eachTile (clearRaw g slot f) (List.range f.tiles) (stampSurface (touchAll x ctx slot) g.core ctx slot) = (t, none) →
            exec (.surfClr a c) s = ends t 0)
        ∧ (f.comp = true → ∃ t, exec (.surfClr a c) s = ends t 0
            ∧ ∀ p ∈ t.tiles, tileKey ctx slot 0 ≤ p.1 → p.1 < tileKey ctx slot 0 + 2 ^ 22 →
                p.2.mode = 1 ∧ p.2.dirty = true)
        ∧ ((g.phase = 0 ∧ slotHeld x none ctx slot = false) ∨ 100 ≤ g.phase → ∀ y k, g.phase - 100 < f.tiles →
            ready x ctx slot f (g.phase - 100) = .ok y k →
            exec (.surfDecomp a c) s = later y g (100 + (g.phase - 100) + 1) [slot])
        ∧ (100 ≤ g.phase → f.tiles ≤ g.phase - 100 → g.phaseVals.length ≠ 2 → ∀ y,
            eachTile (homeRaw g slot f) (List.range f.tiles)
              ((List.range f.tiles).foldl (rawTile g slot f) (touchAll x ctx slot)) = (y, none) →
            let e := entryRead y ctx slot 0 4
            exec (.surfDecomp a c) s
              = ends (entryWrite (publishAll y) ctx slot 0 4 (if e / 2 ^ 11 % 2 = 1 then e - 2 ^ 11 else e)) 0)))

/-- R139 to R149, R241, R242: an Annulus instruction whose addresses lie in the context's window, with room in the
station, completes with its captures entered, one for each slot named, and its results awaited; `ann.wait` arms its
watch in place of the one before, its operation charged to FLAGA (log 106). -/
def Obligations.AnnulusInstructions : Prop :=
  ∀ (s s' : State) (g h : Group) (o : AtomOp) (wide : Bool) (k : WatchCond) (w : BitVec 2) (a : VReg) (d b c : SReg)
    (m : MemOp) (sl : Nat → Nat), stationFull s g.core = false →
    let ex := lanesOf (execMask s g)
    let n := wideBytes wide
    let addr := g.memAddr false n m
    let at_ : Prop := ∀ l ∈ ex, checkRing s g.id.ctx (addr l) n = .ok (sl l)
    let ready (dst data : List Nat) (flag : Nat) : Prop :=
      AccessReady s g .no dst data (MemOp.vregs m) (MemOp.sregs false m) flag
    let caps (u : State) (kind : Nat) (op : AtomOp) (oid : Nat) (x y : Nat → Dword) : State :=
      enterLanes u g kind op wide a.toNat oid (ex.map fun l => (l, sl l)) fun l => (l, ringOff (addr l), x l, y l)
    let zero (_ : Nat) : Dword := 0
    let wait : Group := g.addOp s.fresh s.iss.flagA (loadWrites a.toNat (wideRegs wide) ex fun _ _ => 0) [] none true
    let loaded : State := (caps (bump s) 2 .add s.fresh zero zero).after wait
    (at_ → ready (regsFrom a (wideRegs wide)) [] s.iss.flagA →
      exec (if wide then .annLdB64 a m else .annLdB32 a m) s = .next loaded
      ∧ (wide = false → g.mode = 0 → exec (.annLdSymI32 a m) s = .next loaded ∧ exec (.annLdSymF32 a m) s = .next loaded))
    ∧ (∀ (flt : Bool) (j : Nat), wide = false → g.mode ≠ 0 → at_ → ready [a.toNat] [] 15 →
      g.newForms a.toNat flt ex [] 0 ex.isEmpty s.fresh = some (j, h) →
      exec (if flt then .annLdSymF32 a m else .annLdSymI32 a m) s = .next ((caps (bump s) 5 .add j zero zero).after h))
    ∧ (at_ → ready [] (regsFrom a (atomRegs o wide)) s.iss.flagA →
      let datum (r l : Nat) : Dword := BitVec.ofNat 64 (g.atomData wide r l)
      exec (if wide then .annOp64 o a m else .annOp32 o a m) s
        = .next ((caps (bump (loseIdem s g)) 3 o s.fresh (datum a.toNat)
            (fun l => if o = .cas then datum (a.toNat + wideRegs wide) l else 0)).after wait))
    ∧ (capsBusy s s.iss.g = false → flagFull g s.iss.flagB = false → Unwatched s g → ∀ q,
      checkRing s g.id.ctx (g.sreg b.toNat).toNat 64 = .ok q →
      let out : Group := g.addOp s.fresh s.iss.flagB [] [] none true
      (∀ p, checkBoard s g.core g.id.ctx (g.spair (b.toNat + 2)) = (s', .ok p) →
        Issues s g { sr := [b.toNat, b.toNat + 2, b.toNat + 3] } →
        exec (.annBoard b) s = .next ((enterStation (bump (loseIdem s' g)) g.core (newCapture s' g q 0 .add false
          [(pteTid p.pte, g.spair (b.toNat + 2), 0, 0)] 0 s.fresh p.key)).after out))
      ∧ (Issues s g { sr := [b.toNat] } →
        exec (.annAlight b) s = .next ((enterStation (bump (loseIdem s g)) g.core
          (newCapture s g q 1 .add false [] 0 s.fresh 0)).after out)))
    ∧ (Issues s g { sr := [b.toNat, c.toNat] } → capsBusy s s.iss.g = false → flagFull g s.iss.flagA = false → ∀ q,
      checkRing s g.id.ctx (g.sreg b.toNat).toNat 4 = .ok q → dropWatch s s.iss.g g w.toNat = (s', h) →
      stationFull s' g.core = false →
      let armed := h.addOp s'.fresh s.iss.flagA [] [(d.toNat, 0)] none true
      exec (.annWait k w d b c) s = .next ((enterStation (bump s') g.core
        (newCapture s' g q 4 .add false [] d.toNat w.toNat 0)).after { armed with
          watches := tput armed.watches w.toNat
            { addr := g.sreg b.toNat, cond := k, cmp := g.sreg c.toNat, dst := d.toNat, op := s'.fresh, fired := false } }))

/-- R138, R143 to R148: at a slot's passage the oldest capture due takes effect on the slot's bytes and gives its lanes the
word before, or keeps it for them while their bank is held (R387, R390); a watch due gives its destination the word and
is fired; the oldest capture that waits enters a station with a free entry. -/
def Obligations.AnnulusPassages : Prop :=
  ∀ (s : State) (core slot key : Nat) (c : Capture), dueNow s core slot = some (key, c) →
    (c.kind = 4 → exec (.watchPassage core slot) s = .next (passed (fireWatch s key c) core slot)
      ∧ ∀ g w o v old, s.group c.g = some g → resultHeld s c.g = false → tget g.watches c.oid = some w →
        tget g.ops w.op = some o → o.sw = [(w.dst, v)] → cget (.val 0) g.s w.dst = .pend w.op old →
        w.dst ≠ 0 → ∃ g', (fireWatch s key c).group c.g = some g'
          ∧ g'.sreg w.dst = word (rdN s.ring (64 * c.slot + w.addr.toNat % 64) 4)
          ∧ tget g'.watches c.oid = some { w with fired := true })
    ∧ (c.kind ≠ 4 → exec (.annulusCapture core slot) s = .next (passed (capture s key c) core slot))
    ∧ (∀ l off x y, c.lanes = [(l, off, x, y)] →
      let n := wideBytes c.wide
      let old := rdN s.ring (64 * c.slot + off) n
      (c.kind = 3 → (capture s key c).ring = wrN s.ring (64 * c.slot + off) n (atomStep c.op c.wide old x.toNat y.toNat))
      ∧ (c.kind = 2 → (capture s key c).ring = s.ring)
      ∧ (c.kind = 2 ∨ c.kind = 3 → c.wide = false → l < 32 → ∀ g, s.group c.g = some g →
        (g.elem c.dst l).awaits c.oid = true → ∃ g', (capture s key c).group c.g = some g'
          ∧ (resultHeld s c.g = false → g'.elem c.dst l = .val (word old))
          ∧ (resultHeld s c.g = true → g'.v = g.v ∧ ∀ o w, tget g.ops c.oid = some o → o.vw = [(vkey c.dst l, w)] →
              ∃ o', tget g'.ops c.oid = some o' ∧ o'.vw = [(vkey c.dst l, word old)])))
    ∧ (∀ core' k d, stationUsed s core' < 16 →
      (stationCaps s core').find? (fun c => c.2.entry.isNone) = some (k, d) →
      exec (.stationEntry core') s = .next { s with caps := tput s.caps k { d with entry := some s.mclk } })

/-- R274 to R276, R284, R285: a pushed command that passes its checks writes 0, enters its queue and is charged to FLAGB
and to the flag it names; a full queue writes 1 and takes nothing; a reserved or illegal command is RESERVED_ENC or
ILLEGAL_OP. `msg.send` is a MSG of two payload words; `pushb` hands its list to the request engine, and writes 1 while
one of the core is still to be read. A command that ends idempotent status ends it though it is turned away (R364). -/
def Obligations.EngineCommands : Prop :=
  ∀ (s : State) (g : Group) (vec : Bool) (b : BitVec 7) (a p q : SReg) (extra : List Word),
    capsBusy s s.iss.g = false → flagFull g s.iss.flagB = false →
    let rs := (List.range 16).map (b.toNat + ·)
    let low := (lanesOf s.iss.lanes).headD 0
    let enters (i : Instr) (k : CmdKind) (ws : List Word) : Prop :=
      let fate := cmdFate s g.id.tid g.id.ctx g.id.launch k ws
      (fate = .reserved → exec i s = faultWord s 0x11) ∧ (fate = .illegal → exec i s = faultWord s 0x10)
      ∧ (let x := if cmdIdem k ws then s else loseIdem s g
        (fate = .ok extra → queueFull x g.core k = true → exec i s = .next (x.wroteS g a 1))
        ∧ (fate = .ok extra → queueFull x g.core k = false → flagFull g (cflagOf k ws) = false →
          exec i s = .next (State.after { bump (bump x) with
              cmds := tput s.cmds (s.fresh + 1) (newCmd (bump x) g s.iss.g s.iss.a k ws extra s.fresh) }
            (((g.setS a.toNat 0).charge (cflagOf k ws)).addOp s.fresh s.iss.flagB [] [] none true))))
    (Issues s g { v := if vec then rs else [], vr := if vec then rs else [], sr := if vec then [] else rs } →
      (vec = true → Known g rs [low]) →
      let ws := rs.map fun r => if vec then g.vword r low else g.sreg r
      enters (.pushCopy vec b a) .copy ws ∧ enters (.pushTensor vec b a) .tensor ws
      ∧ enters (.pushGather vec b a) .gather ws ∧ enters (.pushColl vec b a) .coll ws
      ∧ enters (.pushRast vec b a) .rast ws ∧ enters (.pushMsg vec b a) .msg ws)
    ∧ (Issues s g { sr := [p.toNat, p.toNat + 1, q.toNat, q.toNat + 1] } →
      enters (.msgSend a p q) .msg ([0x240, g.sreg p.toNat, 0, g.sreg (p.toNat + 1), g.sreg q.toNat,
        g.sreg (q.toNat + 1)] ++ List.replicate 10 0))
    ∧ (Issues s g { sr := [p.toNat, q.toNat] } →
      let addr := (g.sreg p.toNat).toNat
      let n := (g.sreg q.toNat).toNat
      (n = 0 ∨ 256 < n → exec (.pushb a p q) s = faultWord s 0x10)
      ∧ (1 ≤ n → n ≤ 256 → ∀ k, checkScratch s g.id.tid addr (64 * n) 64 = .ok k →
        let x := if listIdem (listWords s g.id.tid addr n) n then s else loseIdem s g
        ((unreadList x g.core).isSome = true → exec (.pushb a p q) s = .next (x.wroteS g a 1))
        ∧ ((unreadList x g.core).isSome = false →
          let list : Cmd := { newCmd (bump x) g s.iss.g s.iss.a .list [] [] s.fresh with flag := none, aux := addr, acc := n }
          exec (.pushb a p q) s = .next (State.after { bump (bump x) with cmds := tput s.cmds (s.fresh + 1) list }
            ((g.setS a.toNat 0).addOp s.fresh s.iss.flagB [] [] none true)))))

/-- R243, R244, R286 to R288: `put.sig` and `getp` whose ranges pass their checks enter the request engine and write 0, or
write 1 where it is full; a delivery moves one word, and the flag word is stored or added after the last; `msg.recv`
posts a receive in the lowest free handle and takes the message that entered the overflow queue first among those it
matches, `msg.probe` names such a message, and a message that arrives lands in the first posted receive that takes it.
The model's choice: the lowest free handle (log 125), a condition met until its handle is posted again (log 15), global
addresses taken at the issue (log 42), a queue of 16 for `put.sig` and `getp` together (log 122), and the core as the unit that
receives (log 126). -/
def Obligations.TransfersAndMessages : Prop :=
  ∀ (s s1 s2 s3 : State) (g : Group) (a b : SReg),
    (capsBusy s s.iss.g = false → flagFull g s.iss.flagB = false →
      let x := xferOf g b.toNat
      let full (s : State) : Prop := 16 ≤ ((queued s g.core .putSig).length + (queued s g.core .getp).length)
      let enters (u : State) (k : CmdKind) (ws extra : List Word) : State :=
        let y := loseIdem u g
        let v := bump { y with cmds := tput y.cmds y.fresh { newCmd y g y.iss.g y.iss.a k ws extra 0 with flag := none } }
        (emit v 0x08 (stackOf g.core) (ctxPart v g.id.ctx) (srcRequest g.core)
          (2 ^ 32 * (if k = .getp then (nthW ws 4).toNat else 0xFFFFFFFF)) (g.names 0)).after (g.setS a.toNat 0)
      x.count % 4 = 0 → 4 ≤ x.count → x.count ≤ 65536 →
      checkRange s g.core g.id.ctx x.src x.count 4 0 .read anyFmt = (s1, []) →
      checkRange s1 g.core g.id.ctx x.dst x.count 4 1 .write anyFmt = (s2, []) →
      (∀ add : Bool, Issues s g { sr := (List.range 8).map (b.toNat + ·) } →
        checkRange s2 g.core g.id.ctx x.flag 8 8 (if add then 2 else 1) (if add then .atomic else .write)
          (if add then plainOnly else anyFmt) = (s3, []) → aliasFails s3 g.core g.id.ctx x.src x.count = [] →
        let i : Instr := if add then .putSigAdd a b else .putSigSet a b
        let r := readGlobal s3 g.core g.id.ctx (x.count / 4) x.src
        (full s3 → full (loseIdem s3 g) → exec i s = .next ((loseIdem s3 g).wroteS g a 1))
        ∧ (¬ full s3 → ¬ full (loseIdem r.1 g) → exec i s = .next (enters r.1 .putSig [word x.dst, word (x.dst / 2 ^ 32),
            if add then 1 else 0, x.arg, word x.flag, word (x.flag / 2 ^ 32), word x.count] r.2)))
      ∧ (∀ k, Issues s g { sr := (List.range 6).map (b.toNat + ·) } →
        checkScratch s2 g.id.tid x.arg.toNat 8 8 = .ok k →
        let moves (i : Instr) (scope : Nat) : Prop := (full (loseIdem s2 g) →
              exec i s = .next ((loseIdem s2 g).wroteS g a 1))
          ∧ (¬ full (loseIdem s2 g) → exec i s = .next (enters s2 .getp [word x.dst, word (x.dst / 2 ^ 32), word x.src,
              word (x.src / 2 ^ 32), x.arg, word scope, word x.count] []))
        moves (.getpGroup a b) 0 ∧ moves (.getpTeam a b) 1 ∧ moves (.getpFacet a b) 2 ∧ moves (.getpCluster a b) 3
        ∧ moves (.getpPackage a b) 4 ∧ moves (.getpSystem a b) 5))
    ∧ (∀ (id : Nat) (x : Cmd) (l : Loc), tget s.cmds id = some x → xferRuns s x = true →
      peerSilent s1 l.pte = false → (s1.vlreqs.any fun p => p.2.cmd == some x.num) = false →
      (x.kind = .putSig → x.pos < x.total →
        checkAccess s x.core x.ctx ((x.pair 0 + 4 * x.pos) % 2 ^ 64) 4 .write anyFmt (fun _ => 1) = (s1, .ok l) →
        exec (.putSigDelivery id 1) s = .next (putCmd (lateWrite s1 x [memPart l l.key 4 (nthW x.extra x.pos).toNat]) id
          { x with pos := x.pos + 1 }))
      ∧ (x.kind = .putSig → x.total ≤ x.pos → ∀ add : Bool, (add = true ↔ nthW x.words 2 = 1) →
        checkAccess s x.core x.ctx (x.pair 4) 8 (if add then .atomic else .write) (if add then plainOnly else anyFmt)
          (fun _ => 1) = (s1, .ok l) →
        let r := readSlice (releaseCmd s1 x 5) l.key 8 (pteTid l.pte)
        let v := (nthW x.words 3).toNat
        exec (.putSigFlag id) s = .next (removeCmd (writeEng r.1 x.g x.num none l.key 8
          (if add then (r.2 + v) % 2 ^ 64 else v) (pteTid l.pte)) id x))
      ∧ (x.kind = .getp → x.pos < x.total → cmdHeld s x = false → ∀ l2,
        checkAccess s x.core x.ctx ((x.pair 2 + 4 * x.pos) % 2 ^ 64) 4 .read anyFmt (fun _ => 1) = (s1, .ok l) →
        let r := readFor s1 x l.key 4 (pteTid l.pte)
        checkAccess r.1 x.core x.ctx ((x.pair 0 + 4 * x.pos) % 2 ^ 64) 4 .write anyFmt (fun _ => 1) = (s2, .ok l2) →
        peerSilent s2 l2.pte = false → (s2.vlreqs.any fun p => p.2.cmd == some x.num) = false →
        let y : Cmd := { x with pos := x.pos + 1 }
        let t := putCmd (lateWrite s2 x [memPart l2 l2.key 4 r.2]) id y
        (x.pos + 1 < x.total → exec (.getpTransfer id 1) s = .next t)
        ∧ (x.pos + 1 = x.total → aboardCore t x.tid = true → exec (.getpTransfer id 1) s
            = .next (removeCmd (lowerObject (releaseCmd t y (nthW x.words 5).toNat) x.tid x.object (4 * x.total)) id y))))
    ∧ (∀ tid t k, g.id.tid = some tid → tget s.teams tid = some t →
      (Issues s g { sr := (List.range 4).map (b.toNat + ·) } → capsBusy s s.iss.g = false → g.sreg (b.toNat + 3) = 0 →
        checkScratch s (some tid) (g.sreg (b.toNat + 2)).toNat 64 64 = .ok k →
        let r : Recv := { src := g.sreg b.toNat, tag := g.sreg (b.toNat + 1), landing := g.sreg (b.toNat + 2),
                          stamp := s.fresh }
        ((∀ h, h < 64 → tget t.posts h ≠ none) → exec (.msgRecv a b) s = .next (s.wroteS g a 0xFFFFFFFF))
        ∧ (∀ h, h < 64 → tget t.posts h = none → (∀ j, j < h → tget t.posts j ≠ none) →
          let u := bump (updTeam s tid fun t => { t with posts := tput t.posts h r, met := t.met.filter (· != h) })
          (oldestHeld u g.core t r.takes = none → exec (.msgRecv a b) s = .next (u.wroteS g a (word h)))
          ∧ (∀ k m, oldestHeld u g.core t r.takes = some (k, m) →
              exec (.msgRecv a b) s = .next ((land { u with msgs := cdel u.msgs k } tid h r m).wroteS g a (word h)))))
      ∧ (Issues s g { sr := [b.toNat, b.toNat + 1] } →
        let takes (m : Msg) : Bool := (g.sreg b.toNat == 0xFFFFFFFF || g.sreg b.toNat == word m.srcTeam)
          && (g.sreg (b.toNat + 1) == 0xFFFFFFFF || g.sreg (b.toNat + 1) == m.tag)
        (oldestHeld s g.core t takes = none → exec (.msgProbe a b) s
          = .next (s.after ((g.setS a.toNat 0xFFFFFFFF).setS (a.toNat + 1) 0xFFFFFFFF)))
        ∧ (∀ k m, oldestHeld s g.core t takes = some (k, m) → exec (.msgProbe a b) s
          = .next (s.after ((g.setS a.toNat (word m.srcTeam)).setS (a.toNat + 1) m.tag)))))
    ∧ (∀ core t (ok : Msg → Bool),
      let mine (m : Msg) : Prop := m.held = some core ∧ m.ctx = t.ctx ∧ m.launch = t.launch ∧ m.team = t.teamNo ∧ ok m = true
      match oldestHeld s core t ok with
      | none => ∀ p ∈ s.msgs, ¬ mine p.2
      | some q => q ∈ s.msgs ∧ mine q.2 ∧ ∀ p ∈ s.msgs, mine p.2 → q.2.entered ≤ p.2.entered)
    ∧ (∀ id m tid t, tget s.msgs id = some m → m.held = none → m.refused = false → haltedCtx s m.ctx = false →
      msgBehind s id m = false → msgTeam s m = some (tid, t) → busHeld s t.core 0 = false → inMask s t.core = true →
      (∀ h r, firstPost t m = some (h, r) → exec (.msgArrival id) s = .next (land { s with msgs := cdel s.msgs id } tid h r m))
      ∧ (firstPost t m = none → (s.msgs.filter fun p => p.2.held == some t.core).length < 64 →
          exec (.msgArrival id) s
            = .next (bump { s with msgs := tput s.msgs id { m with held := some t.core, entered := s.fresh } })))

/-- R275 to R284, R130: the oldest command of a queue goes to a free engine, and its FLAGB charge ends; a unit of a COPY,
TENSOR or GATHER that neither waits nor fails advances the command by one, a byte copied within a team's scratch moving
from its source place to its destination place; a COLL joins; a finished command's object falls by what is still owed
and its flag is cleared; a list is read whole, and then its next entry enters its queue.
The model's choice: a list read whole at one time (log 115), and a FLAGB charge that ends when a unit takes the command (log
44). -/
def Obligations.EngineWork : Prop :=
  ∀ (s s' : State) (id : Nat) (x y : Cmd),
    (∀ core unit, nextHandoff s core .copy = some (id, x) → x.stage = .queued →
      mayBegin s x = true → unit < 16 → engineBusy s (quadOf core) unit = false → cmdHeld s x = false →
      ∃ t promise, exec (.requestEngineHandoff core 0 unit) s = .next t
        ∧ tget t.cmds id = some { x with stage := .taken unit, oid := 0, eng := unit, begun := true }
        ∧ t.groups = (takeCharge s x).groups ∧ t.mem = s.mem ∧ t.scr = (storeBeside s x.tid x.object promise).scr)
    ∧ (∀ u, tget s.cmds id = some x → x.stage = .taken u → cmdHeld s x = false → mayGoOn s x x.midSector = true →
      (x.kind = .copy → copyUnit s x = .done s' y →
        exec (.copyCommand id 1) s = .next (advanceCmd s' id y (y.pos + 1)))
      ∧ (x.kind = .tensor → tensorUnit s x = .done s' y →
        exec (.tensorCommand id 1) s = .next (advanceCmd s' id y (y.pos + 1)))
      ∧ (x.kind = .gather → gatherUnit s x = .done s' y →
        exec (.gatherCommand id 1) s = .next (advanceCmd s' id y (y.pos + 1))))
    ∧ (∀ u, tget s.cmds id = some x → x.kind = .coll → x.stage = .taken u → cmdHeld s x = false → x.begun = false →
      mayGoOn s x (x.midSector || decide (2 ≤ x.acc)) = true → joinBad s x = false →
      exec (.collCommand id 1) s = .next (putCmd s id { x with begun := true }))
    ∧ (let w (k : Nat) : Word := nthW x.words k
      let j := x.pos / (w 1).toNat
      let k := x.pos % (w 1).toNat
      ∀ ks kd, (w 0).toNat = 0x501 →
      scrAccess s x.tid (((w 4).toNat + k + (w 3).toInt * j) % 2 ^ 32).toNat 1 = some ks → busHeld s (ks / 2 ^ 22) 0 = false →
      scrAccess s x.tid (((w 6).toNat + k + (w 8).toInt * j) % 2 ^ 32).toNat 1 = some kd → busHeld s (kd / 2 ^ 22) 0 = false →
      let r := scrFor s x ks 1
      let u := lateWrite r.1 x [{ scr := true, key := kd, n := 1, v := r.2 % 256, tid := 0, team := scrOwner s kd }]
      copyUnit s x = .done u x ∧ (s.olds = [] → r.2 = rdN s.scr ks 1)
      ∧ (s.late = [] → (landNth u 0).scr = wrN s.scr kd 1 (r.2 % 256)))
    ∧ (tget s.cmds id = some x → engineKind x.kind = true → cmdHeld s x = false → aboardCore s x.tid = true →
      x.stage = .finished →
      let all := x.total * x.unitBytes
      exec (.engineCompletion id) s = .next (if x.relen
        then removeCmd (lowerObject (releaseCmd s x ((nthW x.words 10).toNat / 2 ^ 4 % 2 ^ 3)) x.tid x.object all) id x
        else removeCmd (lowerObject s x.tid x.object (all - x.dec)) id x))
    ∧ (∀ core, unreadList s core = some (id, x) → listGoes s x = true →
      ∃ t, exec (.pushbListRead core) s = .next t ∧ t.groups = (takeCharge s x).groups ∧ t.scr = s.scr
        ∧ t.cmds = tput s.cmds id { x with words := listWords s x.tid x.aux x.acc, begun := true, oid := 0 })
    ∧ (∀ core k extra, unreadList s core = none → listOf s core = some (id, x) → listGoes s x = true →
      let ws := (List.range 16).map fun i => nthW x.words (16 * x.pos + i)
      queueOfOp ((nthW ws 0).toNat % 2 ^ 8) = some k → cmdFate s x.tid x.ctx x.launch k ws = .ok extra →
      queueFull s x.core k = false → (∀ g, s.group x.g = some g → flagFull g (cflagOf k ws) = false) →
      ∃ t c, exec (.pushbListRead core) s = .next t ∧ c.kind = k ∧ c.words = ws ∧ c.extra = extra ∧ c.stage = .queued
        ∧ c.core = x.core ∧ c.g = x.g ∧ c.tid = x.tid ∧ c.pushed = x.pushed ∧ c.seen = x.seen ∧ c.num = s.fresh
        ∧ t.cmds = (if x.acc ≤ x.pos + 1 then cdel (tput s.cmds s.fresh c) id
            else tput (tput s.cmds s.fresh c) id { x with pos := x.pos + 1 }))
    ∧ (x.stage = .queued → mayBegin s x = true →
      (∀ k, scrAccess s x.tid x.aux 64 = some k → busHeld s (k / 2 ^ 22) 0 = false) → listGoes s x = true)
    ∧ (x.stage = .queued → inMask s x.core = true → (∃ g, s.group x.g = some g ∧ g.step = 1) →
      (∀ k, scrAccess s x.tid x.aux 64 = some k → busHeld s (k / 2 ^ 22) 0 = false) → listGoes s x = true)

/-- R245 to R264: a matrix instruction that passes its checks enters the queue and claims the B store; the queue runs its
oldest command, one unit, dot step or table group at a time, over every row and element once in an order that the device
chooses, `mb.zero` clearing its offsets in every slice; the oldest finished command lowers its object and clears its flag. -/
def Obligations.MatrixCommands : Prop :=
  ∀ (s s' : State) (g : Group) (b : SReg) (tid : Nat) (ws extra : List Word),
    (g.id.tid = some tid → (∀ o, tget s.bowner g.core = some o → o = tid) → matrixFull s g.core = false →
      capsBusy s s.iss.g = false →
      let enters (u : State) (k : CmdKind) (ws extra : List Word) (f oid : Nat) : State :=
        { bump (bump u) with
          cmds := tput u.cmds (u.fresh + 1) { newCmd (bump u) g u.iss.g u.iss.a k ws extra oid with flag := flagNamed f }
          bowner := tput u.bowner g.core tid }
      (∀ k f, Issues s g { sr := [b.toNat] } → flagFull g s.iss.flagB = false →
        checkScratch s (some tid) (g.sreg b.toNat).toNat 64 64 = .ok k → ws = wordsOf s.scr k 16 →
        mbLdFate s (some tid) g.id.ctx ws = .ok extra → f = (nthW ws 7).toNat % 2 ^ 4 → flagFull g f = false →
        exec (.mbLd b) s = .next ((enters s .mbLd ws extra f s.fresh).after
          ((g.charge f).addOp s.fresh s.iss.flagB [] [] none true)))
      ∧ (Issues s g { sr := [b.toNat, b.toNat + 1] } → flagFull g s.iss.flagB = false →
        (g.sreg b.toNat).toNat < 2 ^ 15 → (g.sreg (b.toNat + 1)).toNat < 2 ^ 16 →
        (g.sreg b.toNat).toNat + (g.sreg (b.toNat + 1)).toNat ≤ 32768 →
        exec (.mbZero b) s = .next ((enters s .mbZero [g.sreg b.toNat, g.sreg (b.toNat + 1), 0] [] 15 s.fresh).after
          (g.addOp s.fresh s.iss.flagB [] [] none true)))
      ∧ (∀ lut : Bool,
        let rows := List.range (min 32 ((nthW ws 1).toNat % 2 ^ 12 + 1))
        let regs := (mmxRegs ws).filter fun r => decide (r < g.id.nv)
        let f := (nthW ws 9).toNat % 2 ^ 4
        let u := if bit (nthW ws 9) 11 ∨ (nthW ws 0).toNat / 2 ^ 24 % 4 = 1 then loseIdem s g else s
        (∀ r ∈ regs, ∀ l ∈ List.range 32, (g.elem r l).isPend = false) → Known g regs rows →
        mmxFate s (some tid) g.id.ctx g.id.nv lut ws (regRows g ws) = .ok extra → flagFull g f = false →
        let done : State := (enters u (if lut then .lut else .mmx) ws extra f 0).after (g.charge f)
        (∀ k, Issues s g { sr := [b.toNat] } → checkScratch s (some tid) (g.sreg b.toNat).toNat 64 64 = .ok k →
          ws = wordsOf s.scr k 16 → exec (if lut then .mmxLut b else .mmx b) s = .next done)
        ∧ (Issues s g { sr := (List.range 16).map (b.toNat + ·) } → ws = ((List.range 16).map fun i => g.sreg (b.toNat + i)) →
          exec (if lut then .mmxLutR b else .mmxR b) s = .next done)))
    ∧ (∀ core id x, (matrixQueue s core).find? (fun p => p.2.stage == .queued) = some (id, x) →
      ∃ t rows cols acc, exec (.matrixQueueAccept core) s = .next t
        ∧ tget t.cmds id = some { x with stage := .taken 0, oid := 0, rows := rows, cols := cols, acc := acc }
        ∧ (x.kind = .mbLd → rows.Perm (List.range (mbRows x)) ∧ acc = x.acc)
        ∧ (x.kind = .mmx ∨ x.kind = .lut → rows.Perm (List.range (mmxM x)) ∧ cols.Perm (List.range (mmxN x))
          ∧ (bit (nthW x.words 0) 20 = false → acc = 0))
        ∧ t.groups = (takeCharge s x).groups ∧ t.bst = s.bst)
    ∧ (∀ core id x rest, (matrixQueue s core).filter (fun p => p.2.stage != .finished) = (id, x) :: rest →
      (x.stage = .taken 0 → (if x.begun then mayGoOn s x false else mayBegin s x) = true → busHeld s core 1 = false →
        let now : Cmd := { x with begun := true }
        let past (total : Nat) (y : Cmd) (t : State) : State := putCmd t id { y with
          pos := y.pos + 1, stage := if total ≤ y.pos + 1 then .finished else y.stage }
        (x.kind = .mbZero → ∃ c, exec (.mbZeroCommand core) s = .next (past 1 now { s with bst := c })
          ∧ let hit (a : Nat) : Prop := ∃ j, j < 128 ∧ bKey x.core j (nthW x.words 0).toNat ≤ a
              ∧ a < bKey x.core j (nthW x.words 0).toNat + (nthW x.words 1).toNat
            ∀ a, (hit a → rdByte c a = 0) ∧ (¬ hit a → rdByte c a = rdByte s.bst a))
        ∧ (∀ y, x.kind = .mbLd → mbStep s now = .done s' y →
            exec (.mbLdCommand core 1) s = .next (past (mbRows y * y.steps) y s'))
        ∧ (∀ y, x.kind = .mmx → mmxStep s now = .done s' y →
            exec (.denseComputation core 1) s = .next (past (mmxTotal y) y s'))
        ∧ (∀ y, x.kind = .lut → mmxStep s now = .done s' y →
            exec (.tableLookup core 1) s = .next (past (mmxTotal y) y s'))))
    ∧ (∀ core id x, (matrixQueue s core).find? (fun p => p.2.stage == .finished) = some (id, x) → cmdHeld s x = false →
      let rel := (x.kind = .mmx ∨ x.kind = .lut) ∧ bit (nthW x.words 9) 11 = true
      exec (.matrixCompletion core) s = .next (removeCmd (lowerObject
        (if rel then releaseCmd s x ((nthW x.words 9).toNat / 2 ^ 8 % 2 ^ 3) else s) x.tid x.object (matrixCount x)) id x))

/-- R266 to R273: the hypervector instructions. `hdist` counts differing bits, `hbun` moves each counter by one within
±127, `hmaj` takes the sign of each counter and of a zero counter the tie bit, which comes from the h register that `htie`
named or from the generator that `htie.seed` seeded, one step for each tie in increasing order, `hrot` turns the vector, `hfrom` and `hto` move words between lanes and
h registers, `hmatch` finds the nearest entry at its lowest index. -/
def Obligations.HypervectorRegisters : Prop :=
  ∀ (s : State) (g : Group) (a b c : HReg) (k : KReg) (d e : SReg) (o : XOp) (v : VReg),
    let set (r : BitVec 8192) : State := s.after (g.setH a.toNat r)
    (Issues s g { h := [a.toNat, b.toNat, c.toNat], hr := [b.toNat, c.toNat] } →
      exec (.hxor a b c) s = .next (set (g.hreg b.toNat ^^^ g.hreg c.toNat)))
    ∧ (Issues s g { h := [a.toNat, b.toNat], hr := [b.toNat], sr := XOp.reg o } → ∃ r, exec (.hrot a b o) s = .next (set r)
      ∧ ∀ i, i < 8192 → r.getLsbD ((i + ((g.opX o).toInt % 8192).toNat) % 8192) = (g.hreg b.toNat).getLsbD i)
    ∧ (Issues s g { h := [a.toNat] } → exec (.hclrH a) s = .next (set 0)
      ∧ exec (.htie a) s = .next (s.after { g with tieSrc := false, tieReg := a.toNat }))
    ∧ (Issues s g { sr := [d.toNat] } → exec (.htieSeed d) s
        = .next (s.after { g with tieSrc := true, lfsr := if g.sreg d.toNat = 0 then 1 else g.sreg d.toNat }))
    ∧ (Issues s g { c := [k.toNat] } →
      exec (.hclrC k) s = .next (s.after (g.setCounters k.toNat (List.replicate 8192 0)))
      ∧ ∀ i, i < 8192 → (g.setCounters k.toNat (List.replicate 8192 0)).counter k.toNat i = 0)
    ∧ (Issues s g { c := [k.toNat], h := [b.toNat], hr := [b.toNat] } →
      ∃ xs : List Int, exec (.hbun k b) s = .next (s.after (g.setCounters k.toNat xs)) ∧ xs.length = 8192
        ∧ ∀ i, i < 8192 → xs.getD i 0
          = max (-127) (min 127 (g.counter k.toNat i + if (g.hreg b.toNat).getLsbD i then 1 else -1)))
    ∧ (Issues s g { h := [a.toNat], c := [k.toNat] } →
      let zero (i : Nat) : Bool := g.counter k.toNat i == 0
      let signs (r : BitVec 8192) : Prop := ∀ i, i < 8192 →
        (0 < g.counter k.toNat i → r.getLsbD i = true) ∧ (g.counter k.toNat i < 0 → r.getLsbD i = false)
      let lfsr (n : Nat) : Word := n.repeat (fun w => (w >>> 1) ^^^ (if w.getLsbD 0 then 0x80200003 else 0)) g.lfsr
      (g.tieSrc = true → ∃ r, exec (.hmaj a k) s
          = .next (s.after { g.setH a.toNat r with lfsr := lfsr ((List.range 8192).countP zero) }) ∧ signs r
        ∧ ∀ i, i < 8192 → zero i = true → r.getLsbD i = (lfsr ((List.range i).countP zero)).getLsbD 0)
      ∧ (g.tieSrc = false → g.id.nhr ≤ g.tieReg → exec (.hmaj a k) s = faultWord s 0x10)
      ∧ (g.tieSrc = false → g.tieReg < g.id.nhr → g.hPending g.tieReg = false →
        ∃ r, exec (.hmaj a k) s = .next (s.after (g.setH a.toNat r)) ∧ signs r
          ∧ ∀ i, i < 8192 → zero i = true → r.getLsbD i = (g.hreg g.tieReg).getLsbD i))
    ∧ (flagFull g s.iss.flagA = false → Issues s g { h := [b.toNat], hr := [b.toNat] } →
      exec (.hpop d b) s = .next (s.awaits g s.iss.flagA []
        [(d.toNat, word ((List.range 8192).countP (g.hreg b.toNat).getLsbD))]))
    ∧ (flagFull g s.iss.flagA = false → Issues s g { h := [b.toNat, c.toNat], hr := [b.toNat, c.toNat] } →
      exec (.hdist d b c) s = .next (s.awaits g s.iss.flagA []
        [(d.toNat, word ((List.range 8192).countP (g.hreg b.toNat ^^^ g.hreg c.toNat).getLsbD))]))
    ∧ (Issues s g { h := [a.toNat], v := (List.range 8).map (v.toNat + ·), vr := (List.range 8).map (v.toNat + ·) } →
      Known g ((List.range 8).map (v.toNat + ·)) (List.range 32) →
      ∃ r, exec (.hfrom a v) s = .next (set r) ∧ ∀ i l, i < 8 → l < 32 →
        r.extractLsb' (1024 * i + 32 * l) 32 = if (g.lane l).st = .never then 0 else g.vword (v.toNat + i) l)
    ∧ (Issues s g { v := (List.range 8).map (v.toNat + ·), h := [b.toNat], hr := [b.toNat] } →
      flagFull g s.iss.flagA = false → exec (.hto v b) s = .next (s.awaits g s.iss.flagA
        (loadWrites v.toNat 8 (lanesOf s.iss.lanes) fun l i => (g.hreg b.toNat).extractLsb' (1024 * i + 32 * l) 32) []))
    ∧ (Issues s g { h := [b.toNat], hr := [b.toNat], sr := [e.toNat, e.toNat + 1] } → capsBusy s s.iss.g = false →
      flagFull g s.iss.flagA = false → ∀ key : Nat → Nat,
      let base := (g.sreg e.toNat).toNat
      let n := (g.sreg (e.toNat + 1)).toNat
      1 ≤ n → n ≤ 1024 → checkScratch s g.id.tid base (1024 * n) 1024 = .ok (key 0) →
      (∀ j, j < n → scrAccess s g.id.tid (base + 1024 * j) 1024 = some (key j)) →
      let far (j : Nat) : Nat := popcount (g.hreg b.toNat ^^^ BitVec.ofNat 8192 (rdN s.scr (key j) 1024))
      ∃ j, j < n ∧ (∀ i, i < n → far j ≤ far i) ∧ (∀ i, i < j → far j < far i)
        ∧ exec (.hmatch d b e) s
            = .next (s.awaits g s.iss.flagA [] [(d.toNat, word j), (d.toNat + 1, word (far j))]))

/-- R270: `hld` and `hst` move a register's 1024 bytes, lowest bits at the lowest address, between an h register and a
64-byte-aligned place of scratch or of global memory. -/
def Obligations.HypervectorMemory : Prop :=
  ∀ (s s' : State) (g : Group) (a : HReg) (b : SReg) (k : Nat) (ks : List Nat) (ps : List (Nat × Loc)),
    capsBusy s s.iss.g = false → Unwatched s g →
    let v := (g.hreg a.toNat).toNat
    (kibScratch s g (g.sreg b.toNat).toNat = .ok ks →
      (Issues s g { h := [a.toNat], sr := [b.toNat] } → flagFull g s.iss.flagA = false →
        ∃ t : State, t.scr = s.scr ∧ t.mem = s.mem ∧ t.groups = s.groups ∧ exec (.hldS a b) s = .next ((bump t).after
          (g.addOp s.fresh s.iss.flagA [] []
            (some (a.toNat, BitVec.ofNat 8192 ((ks.map fun k => rdN s.scr k 64).foldr (fun v n => n * 2 ^ 512 + v) 0))) false)))
      ∧ (Issues s g { h := [a.toNat], hr := [a.toNat], sr := [b.toNat] } → flagFull g s.iss.flagB = false →
        ∃ t : State, t.scr = (ks.mapIdx fun i k => (k, v / 2 ^ (512 * i))).foldl (fun m w => wrN m w.1 64 w.2) s.scr ∧ t.mem = s.mem
          ∧ t.groups = s.groups ∧ exec (.hstS a b) s = .next (t.awaits g s.iss.flagB [] [])))
    ∧ (Issues s g { h := [a.toNat], sr := [b.toNat, b.toNat + 1] } → flagFull g s.iss.flagA = false →
      kibGlobal s g .read (g.spair b.toNat) = (s', [], ps) → (∀ p ∈ ps, peerSilent s' p.2.pte = false) →
      let t := performLanes (fun s p => readCore s g.core p.key 64 (pteTid p.pte)) s' ps
      exec (.hldG a b) s = .next ((bump t.1).after (g.addOp t.1.fresh s.iss.flagA [] [] (some (a.toNat,
        BitVec.ofNat 8192 ((t.2.map (·.2)).foldr (fun v n => n * 2 ^ 512 + v) 0))) false)))
    ∧ (Issues s g { h := [a.toNat], hr := [a.toNat], sr := [b.toNat, b.toNat + 1] } → flagFull g s.iss.flagB = false →
      kibGlobal s g .write (g.spair b.toNat) = (s', [], ps) → (∀ p ∈ ps, peerSilent s' p.2.pte = false) →
      exec (.hstG a b) s = .next ((ps.foldl (fun s p => writeCore s g.core p.2.key 64 (v / 2 ^ (512 * p.1)) (pteTid p.2.pte))
        (loseIdem s' g)).awaits g s.iss.flagB [] []))
    ∧ (∀ base, (base + 1024 ≤ 2 ^ 24) → base % 64 = 0 → checkScratch s g.id.tid base 1024 64 = .ok k →
      kibScratch s g base = .ok ((List.range 16).filterMap fun i => scrAccess s g.id.tid (base + 64 * i) 64))

/-- R330, R383: `grd` and `gwr` on the group of a halted context of their partition that the handle names: what each KIND
of selector reads and writes, and the status; on any other status `grd` writes 0 and `gwr` nothing but the status.
The model's choice: the order of the statuses (2, then 1, then 3 and 4), a pending register's old value, and that fields which
a selector does not use are ignored (log 62). -/
def Obligations.PrivilegedAccess : Prop :=
  ∀ (s : State) (g x : Group) (a b c : SReg) (core wedge bank place gid kind ix r l : Nat),
    g.sreg b.toNat = word (core + 2 ^ 10 * wedge + 2 ^ 12 * bank + 2 ^ 14 * place) → core < 2 ^ 10 → wedge < 4 → bank < 4 →
    place < 32 → g.sreg c.toNat = word (l + 2 ^ 8 * r + 2 ^ 16 * ix + 2 ^ 28 * kind) → l < 32 → r < 2 ^ 8 → ix < 2 ^ 12 →
    kind < 16 →
    let v := g.sreg a.toNat
    let status (n : Nat) : Group := g.setS (a.toNat + 1) (word n)
    let gets (w : Word) (n : Nat) : Prop := exec (.grd a b c) s = .next (s.after ((g.setS a.toNat w).setS (a.toNat + 1) (word n)))
    let sets (y : Group) : Prop :=
      let u := putGroup s gid y
      exec (.gwr a b c) s = .next (u.after (((u.group s.iss.g).getD g).setS (a.toNat + 1) (word 0)))
    let stops (n : Nat) : Prop := exec (.gwr a b c) s = .next (s.after (status n))
    Issues s g { sr := [a.toNat, b.toNat, c.toNat], priv := true } →
    (groupAt s core wedge bank place = none → gets 0 2 ∧ stops 2)
    ∧ (groupAt s core wedge bank place = some gid → s.group gid = some x →
      (ctxPart s x.id.ctx ≠ ctxPart s g.id.ctx → gets 0 2 ∧ stops 2)
      ∧ (ctxPart s x.id.ctx = ctxPart s g.id.ctx →
        (haltedCtx s x.id.ctx = false → gets 0 1 ∧ stops 1)
        ∧ (haltedCtx s x.id.ctx = true →
          (12 ≤ kind → gets 0 3 ∧ stops 3)
          ∧ (kind = 0 → r < x.id.nv → sets ((x.setElem r l (.val v)).releaseSyms)
            ∧ (∀ w, x.elem r l = .val w → gets w 0)
            ∧ (∀ k p q u f, x.elem r l = .form k p q u f → gets q 4))
          ∧ (kind = 1 → (r < 64 → gets (x.sreg r) 0 ∧ sets (x.setS r v)) ∧ (64 ≤ r → gets 0 3 ∧ stops 3))
          ∧ (kind = 2 → r < 12 → gets (x.mreg r) 0 ∧ sets (x.setM r (v &&& x.live)))
          ∧ (kind = 3 → r < 12 → gets (word (x.flag r)) 0 ∧ sets { x with f := cset 0 x.f r (v.toNat % 64) })
          ∧ (kind = 4 → gets (x.lane l).pcv 0 ∧ ((x.lane l).live = false → stops 3)
            ∧ (x.lane l = { (x.lane l) with st := .running } → x.phaseLanes = 0 → ∃ y, sets y ∧ y.id = x.id ∧ y.v = x.v ∧ y.s = x.s
                ∧ (∀ j, j ≠ l → y.lane j = x.lane j) ∧ bit y.faulted l = false
                ∧ (l < x.lanes.length → (y.lane l).pcv = (v >>> 1) <<< 1 ∧ (y.lane l).st = .running)))
          ∧ (kind = 5 → r = 4 → gets (word x.tile) 0 ∧ (v.toNat ∈ [2, 4, 8, 16, 32] → sets { x with tile := v.toNat })
            ∧ (v.toNat ∉ [2, 4, 8, 16, 32] → stops 3))
          ∧ (kind = 5 → r = 0 → gets (word x.cause) 0 ∧ sets { x with cause := v.toNat % 256 })
          ∧ (kind = 6 → r < x.id.nhr → ix < 256 → gets ((x.hreg r).extractLsb' (32 * ix) 32) 0)
          ∧ (kind = 7 → r < x.id.ncr → ix < 2048 → ∃ w, gets w 0
            ∧ ∀ j, j < 4 → w.toNat / 2 ^ (8 * j) % 256 = (x.counter r (4 * ix + j) % 256).toNat)
          ∧ (8 ≤ kind → kind ≤ 10 → r < x.id.nv →
            ((x.elem r l).isForm = false → gets 0 4 ∧ stops 4)
            ∧ (∀ k p q u f, x.elem r l = .form k p q u f →
              (kind = 8 → gets p 0 ∧ sets (x.setElem r l (.form k v q u f)))
              ∧ (kind = 9 → gets q 0 ∧ sets (x.setElem r l (.form k p v u f)))
              ∧ (kind = 10 → gets (word (k + if f then 8 else 0)) 0 ∧ sets (x.setElem r l (.form k p q u (bit v 3))))))
          ∧ (kind = 11 → ix = 0 → gets (word x.floor) 0 ∧ sets { x with floor := v.toNat })
          ∧ (kind = 11 → ix = 1 → gets (word x.starve) 0 ∧ (v.toNat < 64 → sets { x with starve := v.toNat })
            ∧ (64 ≤ v.toNat → stops 3)))))

/-- R331 to R333, R322: `halt`, `resume`, `bankset` and `tlbinv` with each status that the rules give; every class 0x3C
instruction of a user-level group is a permission fault that executes nothing. Which status is given where two apply is the
model's choice (log 77). -/
def Obligations.PrivilegedControl : Prop :=
  ∀ (s : State) (g : Group) (a b c : SReg), g.settled = g →
    let ctx := (g.sreg b.toNat).toNat % 64
    let core := (g.sreg b.toNat).toNat % 2 ^ 10
    let w := g.sreg c.toNat
    let bank := w.toNat % 4
    let k := w.toNat / 2 ^ 8 % 64
    let p := ctxPart s g.id.ctx
    let other (x : Nat) : Prop := ctxValid s x = false ∨ ctxPart s x ≠ p
    let ends (u : State) (st : Nat) : Host.Outcome State Fault Refusal :=
      .next (u.after (((u.group s.iss.g).getD g).settled.setS a.toNat (word st)))
    (Issues s g {} → g.id.sup = false →
      ∀ i ∈ [Instr.grd a b c, .gwr a b c, .resume a b, .halt a b, .bankset a b c, .tlbinv a b c], exec i s = faultWord s 0x12)
    ∧ (Issues s g { sr := [b.toNat], priv := true } →
      (other ctx → exec (.halt a b) s = ends s 2 ∧ exec (.resume a b) s = ends s 2)
      ∧ (¬ other ctx →
        (ctx = g.id.ctx → exec (.halt a b) s = ends s 3)
        ∧ (ctx ≠ g.id.ctx → haltedCtx s ctx = true → exec (.halt a b) s = ends s 1)
        ∧ (ctx ≠ g.id.ctx → haltedCtx s ctx = false → ∃ t hl, exec (.halt a b) s = .next t
          ∧ (ctxOf t ctx).halt = some hl ∧ hl.time = s.time ∧ hl.src = srcWedge g.core g.wedge ∧ hl.recs = []
          ∧ t.group s.iss.g = some { g with phase := 1, phaseVals := [ctx], phaseAt := s.iss.a, phaseLanes := s.iss.lanes }
          ∧ sameBytes s t ∧ t.regs = s.regs)
        ∧ (s.alarmed = false →
          (∀ t, (ctxOf s ctx).handler = some t → g.id.tid ≠ some t → exec (.resume a b) s = ends s 3)
          ∧ (((ctxOf s ctx).handler = none ∨ (ctxOf s ctx).handler = g.id.tid) →
            (haltedCtx s ctx = false → exec (.resume a b) s = ends s 1)
            ∧ (haltedCtx s ctx = true → capsBusy s s.iss.g = false → fenceClear s s.iss.g g 5 = true → stepping s ctx = false →
              let u := lowerLine (releaseAll s s.iss.g g) ctx
              exec (.resume a b) s = ends u 0
              ∧ ((∀ q ∈ s.caps, q.2.ctx = ctx → q.2.cancelled = false) → haltedCtx u ctx = false))))))
    ∧ (∀ x hl, Issues s { g with phase := 1, phaseVals := [x] } { sr := [b.toNat], priv := true } →
      (ctxOf s x).halt = some hl → hl.written = true → exec (.halt a b) s = ends s 0)
    ∧ (Issues s g { sr := [b.toNat, c.toNat], priv := true } →
      (core ∉ partCores s p → exec (.bankset a b c) s = ends s 3)
      ∧ (core ∈ partCores s p →
        (bit w 16 = true → bit w 17 = true → exec (.bankset a b c) s = ends s 2)
        ∧ (w &&& 0xFFFCC0FC ≠ 0 → exec (.bankset a b c) s = ends s 2)
        ∧ (w &&& 0xFFFCC0FC = 0 →
          (bit w 16 = true → bit w 17 = false → ¬ other k →
            ((boundTo s core bank ≠ none ∨ bankEmpty s core bank = false ∨ (bank = 3 ∧ handlerCore s p = some core)) →
              exec (.bankset a b c) s = ends s 1)
            ∧ (boundTo s core bank = none → bankEmpty s core bank = true → bankUsable s core bank = true →
              ¬ (bank = 3 ∧ handlerCore s p = some core) →
              exec (.bankset a b c) s = ends (setBound s core bank (some k)) 0))
          ∧ (bit w 16 = false → boundTo s core bank = none → exec (.bankset a b c) s = ends s 2)
          ∧ (bit w 16 = false → boundTo s core bank ≠ none →
            (bit w 17 = true → bankEmpty s core bank = false → exec (.bankset a b c) s = ends s 1)
            ∧ (bit w 17 = true → bankEmpty s core bank = true → handlerCore s p ≠ some core →
              exec (.bankset a b c) s = ends (setBound s core bank none) 0)
            ∧ (bit w 17 = false → bankPol s p = false → exec (.bankset a b c) s = ends s 4)
            ∧ (bit w 17 = false → bankPol s p = true → exec (.bankset a b c) s = ends (selectBank s core bank) 0)))))
    ∧ (Issues s g { sr := [b.toNat, b.toNat + 1, c.toNat], priv := true } → let x := w.toNat % 64
      ((w &&& 0xFFFFFEC0 ≠ 0 ∨ other x) → exec (.tlbinv a b c) s = ends s 2)
      ∧ (w &&& 0xFFFFFEC0 = 0 → ¬ other x → capsBusy s s.iss.g = false → fenceClear s s.iss.g g 5 = true →
        ∃ ts, exec (.tlbinv a b c) s = ends { fenced s s.iss.g g 5 with tlb := ts, walks := [] } 0 ∧ (∀ t ∈ ts, t ∈ s.tlb)
          ∧ (∀ t ∈ s.tlb, t.ctx ≠ x → t ∈ ts) ∧ (bit w 8 = true → ∀ t ∈ ts, t.ctx ≠ x)
          ∧ (∀ t ∈ ts, t.ctx = x →
              t.page ≠ g.spair b.toNat / 2 ^ (if t.big then 25 else 16) * 2 ^ (if t.big then 25 else 16))))

/-- R413 to R415: each filter word acts on the registers of its Locus and on the index of the next word; `FILTER_COUNT`
and `FILTER_RDCNT` use the counters of the record's partition; `FILTER_TRIG` with ACT 1 sets FROZEN once the record is
written or dropped; `FILTER_KEEP` writes the record to the trace buffer and `FILTER_DROP` does not. -/
def Obligations.FilterProgram : Prop :=
  ∀ (s : State) (l : Locus) (p : Nat) (ws : List Word) (d a b : BitVec 4) (k : BitVec 14) (n : BitVec 16) (i : BitVec 5),
    locusOf s s.iss.g = l → l.cur = some (p, ws) → p < 8 →
    let q (r : BitVec 4) : Word := l.reg r
    let gives (j : Instr) (w : Word) : Prop :=
      exec j s = .next (putLocus s s.iss.g { l with q := cset 0 l.q d.toNat w, index := l.index + 1 })
    let goes (j : Instr) (c : Bool) : Prop :=
      exec j s = .next (putLocus s s.iss.g { l with index := if c then l.index + 1 + k.toNat else l.index + 1 })
    gives (.filterAdd d a b) (q a + q b) ∧ gives (.filterSub d a b) (q a - q b) ∧ gives (.filterAnd d a b) (q a &&& q b)
    ∧ gives (.filterOr d a b) (q a ||| q b) ∧ gives (.filterXor d a b) (q a ^^^ q b)
    ∧ gives (.filterShl d a b) (q a <<< (q b).extractLsb' 0 5) ∧ gives (.filterShr d a b) (q a >>> (q b).extractLsb' 0 5)
    ∧ gives (.filterAddi d a k) (q a + k.signExtend 32) ∧ gives (.filterAndi d a k) (q a &&& k.zeroExtend 32)
    ∧ gives (.filterShli d a i) (q a <<< i.toNat) ∧ gives (.filterShri d a i) (q a >>> i.toNat)
    ∧ gives (.filterLdlo d n) ((q d).extractLsb' 16 16 ++ n) ∧ gives (.filterLdhi d n) (n ++ (q d).extractLsb' 0 16)
    ∧ goes (.filterBeq a b k) (q a == q b) ∧ goes (.filterBne a b k) (q a != q b)
    ∧ goes (.filterBltu a b k) ((q a).ult (q b)) ∧ goes (.filterBgeu a b k) (!(q a).ult (q b))
    ∧ (∀ (c : BitVec 4) (r : Bool), ∃ t, exec (.filterCount a r c) s = .next t
        ∧ regGet64 t (kPart p (0x530 + 2 * c.toNat))
            = (regGet64 s (kPart p (0x530 + 2 * c.toNat)) + if r then (q a).toNat else 1) % 2 ^ 64
        ∧ (∀ m, m ≠ kPart p (0x530 + 2 * c.toNat) → m ≠ kPart p (0x531 + 2 * c.toNat) → regGet t m = regGet s m)
        ∧ locusOf t s.iss.g = { l with index := l.index + 1 }
        ∧ gives (.filterRdcnt d c) (regGet s (kPart p (0x530 + 2 * c.toNat))))
    ∧ (∀ c : BitVec 2,
        let act := (regGet s (kPart p 0x550)).toNat / 2 ^ (2 * c.toNat) % 4
        (act < 2 ∨ nthW ws 4 = 0xFFFFFFFF → exec (.filterTrig c) s
          = .next (putLocus s s.iss.g { l with index := l.index + 1, freeze := l.freeze || act % 2 == 1 }))
        ∧ (∀ x, 2 ≤ act → nthW ws 4 ≠ 0xFFFFFFFF → tget s.launchCtx (p * 2 ^ 32 + (nthW ws 5).toNat) = some x →
            ∃ t, exec (.filterTrig c) s = .next t ∧ haltedCtx t x = true ∧ t.regs = s.regs
              ∧ (∀ y, y ≠ x → ctxOf t y = ctxOf s y)
              ∧ (haltedCtx s x = false → ∀ tid tm, teamNamed s x (nthW ws 5).toNat (nthW ws 4).toNat = some (tid, tm) →
                  ((ctxOf t x).halt.map Halt.src = some (0xE20 + quadOf tm.core))
                  ∧ ∃ st, tget t.stops (ctxPart s x) = some st ∧ st.since = s.time ∧ st.ctx = x ∧ st.cid = tm.cid)))
    ∧ (∃ t, exec .filterDrop s = .next t ∧ locusOf t s.iss.g = { l with cur := none, verdict := none, freeze := false, index := 0 }
        ∧ t.mem = s.mem ∧ bit (regGet t (kPart p 0x550)) 31 = (l.freeze || bit (regGet s (kPart p 0x550)) 31)
        ∧ ∀ m, m ≠ kPart p 0x550 → regGet t m = regGet s m)
    ∧ (∃ t, exec .filterKeep s = .next t ∧ locusOf t s.iss.g = { l with cur := none, verdict := none, freeze := false, index := 0 }
        ∧ bit (regGet t (kPart p 0x550)) 31 = (l.freeze || bit (regGet s (kPart p 0x550)) 31)
        ∧ (let base := regGet64 s (kPart p 0x510)
           let ptr := regGet s (kPart p 0x513)
           (base % 2 = 0 ∨ bit (regGet s (kPart p 0x550)) 31 = true → t.mem = s.mem)
           ∧ (base % 2 = 1 → bit (regGet s (kPart p 0x550)) 31 = false → ws.length % 8 = 0 → ws ≠ [] →
              ptr.toNat + ws.length / 8 ≤ (regGet s (kPart p 0x512)).toNat % 2 ^ 20 * 128 →
              regGet t (kPart p 0x513) = ptr + word (ws.length / 8)
              ∧ ∀ j, j < ws.length →
                  rdN t.mem (base % 2 ^ 56 / 4096 * 4096 + 32 * ptr.toNat + 4 * j) 4 = (nthW ws j).toNat)
           ∧ (base % 2 = 1 → bit (regGet s (kPart p 0x550)) 31 = false →
              bit (regGet s (kPart p 0x512)) 31 = false →
              (regGet s (kPart p 0x512)).toNat % 2 ^ 20 * 128 < ptr.toNat % 2 ^ 31 + ws.length / 8 →
              t.mem = s.mem ∧ regGet t (kPart p 0x514) = regGet s (kPart p 0x514) + 1)))

/-- R156, R163 to R166: a clause header whose flags are clear lets the lanes enter, and otherwise waits; a prefix is held for
the instruction after it; a long form has the effect of the instruction it wraps, its literal in place of field C or N. -/
def Obligations.EncodingWords : Prop :=
  ∀ (s : State) (g : Group) (len : BitVec 5) (fb fa mk : BitVec 4) (wait : BitVec 12) (d va vb : VReg) (dv ftz zero : Bool)
    (rnd : BitVec 3) (sa sb : SReg) (m : MReg) (lit : Word),
    let x : XOp := .lit lit
    let as_ (cls : BitVec 6) (a b : BitVec 7) (l : List (BitVec 4 × Instr)) : Prop :=
      ∀ p ∈ l, exec (.longForm p.1 b a cls lit) s = exec p.2 s
    let ra := sa.zeroExtend 7
    let rb := sb.zeroExtend 7
    (s.group s.iss.g = some g →
      ((∀ k, k < 12 → wait.getLsbD k = true → g.flag k = 0) → exec (.clauseHeader len fb fa wait) s = .next (putGroup s s.iss.g
        { g with latch := some { at_ := s.iss.a, entered := true, pfx := none, pfxBad := false } }))
      ∧ ((∃ k, k < 12 ∧ wait.getLsbD k = true ∧ g.flag k ≠ 0) → exec (.clauseHeader len fb fa wait) s = .next s)
      ∧ (exec (.prefixWord d dv ftz zero rnd mk) s =
        let p : Pfx := { d := if dv then some d.toNat else none, ftz := ftz, zero := zero, rnd := rnd.toNat
                         mask := if mk.toNat < 12 then some mk.toNat else none }
        .next (putGroup s s.iss.g { g with latch := some { g.latchAt s.iss.a with pfx := some p, pfxBad := s.iss.rsv } })))
    ∧ (Issues s g { sr := [sb.toNat] } →
      exec (.longForm 0 rb ra 0x01 lit) s = .next (s.wroteS g sa (g.sreg sb.toNat + lit)))
    ∧ as_ 0x01 ra rb [(0, .scalarAdd sa sb x), (1, .scalarSub sa sb x), (2, .scalarMul sa sb x), (3, .scalarMulhiI32 sa sb x),
        (4, .scalarMulhiN32 sa sb x), (5, .scalarAnd sa sb x), (6, .scalarOr sa sb x), (7, .scalarXor sa sb x),
        (8, .scalarShl sa sb x), (9, .scalarShr sa sb x), (10, .scalarSra sa sb x), (11, .scalarMinI32 sa sb x),
        (12, .scalarMaxI32 sa sb x), (13, .scalarMinN32 sa sb x), (14, .scalarMaxN32 sa sb x)]
    ∧ as_ 0x02 ra 0 [(0, .scalarMov sa x)]
    ∧ as_ 0x02 ra rb [(1, .seteq sa sb x), (2, .setne sa sb x), (3, .setltI32 sa sb x), (4, .setleI32 sa sb x),
        (5, .setltN32 sa sb x), (6, .setleN32 sa sb x), (7, .scalarSel sa sb x)]
    ∧ (lit.toNat % 4 = 0 → as_ 0x03 0 0 [(0, .bra (.far lit))]
        ∧ as_ 0x03 va 0 [(1, .brcNz va (.far lit)), (2, .brcZ va (.far lit)), (4, .call va (.far lit))])
    ∧ as_ 0x09 va vb [(0, .addX va vb x), (1, .subX va vb x), (2, .mulX va vb x), (3, .mulhiI32X va vb x),
        (4, .mulhiN32X va vb x), (5, .madX va vb x), (6, .minI32X va vb x), (7, .maxI32X va vb x), (8, .minN32X va vb x),
        (9, .maxN32X va vb x), (10, .andX va vb x), (11, .orX va vb x), (12, .xorX va vb x), (13, .shlX va vb x),
        (14, .shrX va vb x), (15, .sraX va vb x)]
    ∧ as_ 0x0B va vb [(4, .bfeN32X va vb x), (5, .bfeI32X va vb x), (6, .bfiB32X va vb x)]
    ∧ as_ 0x0B va 0 [(7, .movB32X va x)]
    ∧ (va.toNat % 2 = 0 → as_ 0x0B va vb [(13, .mulWideI32X va vb x), (14, .mulWideN32X va vb x)])
    ∧ (va.toNat % 2 = 0 → vb.toNat % 2 = 0 → as_ 0x0B va vb [(8, .addI64X va vb x), (9, .subI64X va vb x),
        (10, .shlB64X va vb x), (11, .shrN64X va vb x), (12, .sraI64X va vb x)])
    ∧ (m.toNat < 12 → as_ 0x0D (m.zeroExtend 7) vb [(0, .cmpEqB32X m vb x), (1, .cmpNeB32X m vb x), (2, .cmpLtI32X m vb x),
        (3, .cmpLeI32X m vb x), (4, .cmpGtI32X m vb x), (5, .cmpGeI32X m vb x), (6, .cmpLtN32X m vb x), (7, .cmpLeN32X m vb x),
        (8, .cmpGtN32X m vb x), (9, .cmpGeN32X m vb x), (10, .fcmpEqF32X m vb x), (11, .fcmpLtF32X m vb x),
        (12, .fcmpLeF32X m vb x), (13, .fcmpNeF32X m vb x), (14, .fcmpUnF32X m vb x)]
      ∧ as_ 0x19 va vb [(m, .selX va m vb x)])
    ∧ as_ 0x0F va vb [(0, .faddF32X va vb x), (1, .fsubF32X va vb x), (2, .fmulF32X va vb x), (3, .ffmaF32X va vb x),
        (4, .fminF32X va vb x), (5, .fmaxF32X va vb x)]
    ∧ as_ 0x13 va vb [(0, .paddF16X va vb x), (1, .psubF16X va vb x), (2, .pmulF16X va vb x), (3, .pfmaF16X va vb x),
        (4, .pminF16X va vb x), (5, .pmaxF16X va vb x), (6, .paddBf16X va vb x), (7, .psubBf16X va vb x),
        (8, .pmulBf16X va vb x), (9, .pfmaBf16X va vb x), (10, .pminBf16X va vb x), (11, .pmaxBf16X va vb x),
        (12, .fdot4E4m3X va vb x), (13, .fdot4E5m2X va vb x)]
    ∧ (sb.toNat % 2 = 0 → as_ 0x30 0 rb [(8, .prefetchL1 (.offFar sb lit)), (9, .prefetchSlice (.offFar sb lit))])
    ∧ (∀ (k : BitVec 4) (t : AccTy), accTyOf k.toNat = some t → AccTy.dataOk t va.toNat = true →
      (sb.toNat % 2 = 0 → as_ 0x20 va rb [(k, .ldg t va (.offFar sb lit))] ∧ as_ 0x22 va rb [(k, .stg t va (.offFar sb lit))])
      ∧ (AccTy.plain t = true → as_ 0x23 va rb [(k, .lds t va (.offFar sb lit))] ∧ as_ 0x25 va rb [(k, .sts t va (.offFar sb lit))]))

/-- R27, R34, R37, R38: at a count of 64 the floor moves to the lowest pcv above the address just issued of a lane that did not
issue there, or to 0 where there is none; in the bank that its core has selected an active group with a long-latency dependence changes places with the pending group ready for longest; a
pending group ready for 48 logic clocks takes the place of the longest active group that may be forced out.
R195, R196, R395, R43, R137: a group whose live lanes all stand at a barrier arrives once its fence has ended, and the
last of its team releases a team barrier; the router records a team whose groups have all arrived; a team whose groups and
work have ended or been cancelled retires, with its scratch and B store freed, unless a line that it boarded is still aboard.
That the lanes which have just issued are not among the lanes above, so that the floor can fall to 0, is the model's reading
(log 91). -/
def Obligations.SwapsBarriersTeams : Prop :=
  (∀ (s : State) (g y : Group) (id n : Nat), s.group id = some g →
     (64 ≤ g.starve → let up := g.above g.lastLanes g.lastA
       (up = [] → exec (.starvationFloor id) s = .next (putGroup s id { g with floor := 0, starve := 0 }))
       ∧ ∀ p ∈ up, (∀ q ∈ up, p ≤ q) → exec (.starvationFloor id) s = .next (putGroup s id { g with floor := p, starve := 0 }))
     ∧ (∀ gs, (longestReady gs = some (n, y) → (n, y) ∈ gs ∧ y.active = false ∧ ∃ r, y.readySince = some r
         ∧ ∀ p ∈ gs, p.2.active = false → ∀ q, p.2.readySince = some q → r ≤ q))
     ∧ (g.active = true → (banksOf s g.core).selected = some g.bank → longWait s g = true → n ≠ id → s.group n = some y →
       longestReady (wedgeGroups s g.core g.bank g.wedge) = some (n, y) →
       ∃ t, exec (.groupSwap id) s = .next t ∧ (∃ x, t.group id = some x ∧ x.active = false ∧ x.lanes = g.lanes ∧ x.v = g.v)
         ∧ (∃ x, t.group n = some x ∧ x.active = true ∧ x.lanes = y.lanes ∧ x.v = y.v)
         ∧ (∀ k, k ≠ id → k ≠ n → t.group k = s.group k) ∧ sameBytes s t ∧ sameRegisters s t)
     ∧ (∀ core wedge bank r, (banksOf s core).selected = some bank → y.readySince = some r →
       let gs := wedgeGroups s core bank wedge
       let out (p : Nat × Group) : Prop := p ∈ gs ∧ p.2.active = true ∧ (p.2.forced = false ∨ p.2.entered + 64 ≤ s.lclk)
       longestReady gs = some (n, y) → r + 48 ≤ s.lclk → (∃ p, out p) →
       ∃ p, out p ∧ (∀ q, out q → p.2.order ≤ q.2.order)
         ∧ exec (.forcedSwap core wedge) s = .next (activate (deactivate s p.1) n true)))
  ∧ (∀ (s : State),
       (∀ g id n t (cl : Bool), s.group id = some g → asleep s g = false → g.barOf = some (cl, n) → g.id.tid = some t →
         g.arrived = none → capsBusy s id = false → cmdsBusy s id = false → lateOf s id = false → (cl = true → opsBusy g = false) →
         let v := fenced s id g (if cl then 3 else 1)
         let u := putGroup (if cl then fenced v id g 2 else v) id { g with arrived := some (cl, n) }
         exec (.barrierArrival id) s = .next (if cl then u else testTeamBars u t)
         ∧ (cl = false → sorted s.groups = true →
           (∀ p ∈ s.groups, p.1 ≠ id → p.2.id.tid = some t → p.2.live ≠ 0 → p.2.arrived = some (false, n)) →
           ∃ x, (testTeamBars u t).group id = some x ∧ x.arrived = none
             ∧ ∀ l ∈ lanesOf g.live, (x.lane l).st = .running ∧ (x.lane l).pcv = (g.lane l).pcv + word (g.lane l).adv))
       ∧ (∀ tid (t : Team) c n, tget s.teams tid = some t → tget s.clusters t.cid = some c → liveGroups s tid ≠ [] →
         (∀ p ∈ liveGroups s tid, p.2.arrived = some (true, n)) → (tid, n) ∉ c.arrivals →
         (∃ k ∈ c.teams, k ≠ tid ∧ liveGroups s k ≠ [] ∧ (∀ m, (k, m) ∉ c.arrivals)) →
         exec (.barrierRouterArrival tid) s
           = .next { s with clusters := tput s.clusters t.cid { c with arrivals := c.arrivals ++ [(tid, n)] } })
       ∧ (∀ tid (t : Team), tget s.teams tid = some t → t.left = 0 → (∀ p ∈ s.cmds, p.2.tid ≠ some tid) →
         (∀ p ∈ s.caps, p.2.team = some tid → p.2.cancelled = true ∧ p.2.failed = false) →
         ((∀ p ∈ s.aboard, p.2.team ≠ some tid) → ∃ u, exec (.teamRetire tid) s = .next u ∧ tget u.teams tid = none
           ∧ (∀ i ∈ t.grans, granOf u t.core i = { owner := none, lastCtx := some t.ctx })
           ∧ (tget s.bowner t.core = some tid → tget u.bowner t.core = none)
           ∧ ∀ p ∈ u.msgs, ¬ (p.2.ctx = t.ctx ∧ p.2.launch = t.launch ∧ p.2.team = t.teamNo))
         ∧ (∀ p ∈ s.aboard, p.2.team = some tid → t.aliased = false → t.handler = false → haltedCtx s t.ctx = false →
           ∃ u h r, exec (.teamRetire tid) s = .next u ∧ (ctxOf u t.ctx).halt = some h ∧ h.recs = [r] ∧ r.cause = 0x30
             ∧ (tget u.teams tid).map Team.aliased = some true)))

/-- R40, R41, R192, R193, R57, R157: an armed wait whose joined condition holds or whose deadline has passed writes its
result and its lanes go on; lanes asleep go on at their instant, and at a promise's instant an object not yet at 0 gives
PROMISE_MISS; a known symbol is delivered; an access performed gives its registers their values and discharges its flag. -/
def Obligations.WakesAndResults : Prop :=
  ∀ (s : State) (g : Group) (id : Nat), s.group id = some g →
    (asleep s g = false →
      (∀ w a, tget g.waits w = some a → (joined s g a.any a.conds = true ∨ ∃ d, a.deadline = some d ∧ d ≤ s.time) →
        ∃ r t, exec (.waitRelease id w) s = .next t
          ∧ (∀ k, k < 4 → bit r k = condMet s g (a.conds.getD k .none)) ∧ bit r 4 = !joined s g a.any a.conds
          ∧ t.group id = some { ((g.setS a.dst r).release ((List.range 32).filter fun l => (g.lane l).st == .wait w)) with
              waits := cdel g.waits w } ∧ sameBytes s t)
      ∧ (∀ l, let ls := (List.range 32).filter fun k => (g.lane k).st == (g.lane l).st && (g.lane k).pcv == (g.lane l).pcv
        (∀ t, (g.lane l).st = .sleep t → t ≤ s.time → exec (.sleepRelease id l) s = .next (putGroup s id (g.release ls)))
        ∧ (∀ a p k, (g.lane l).st = .promise a p → scrAccess s g.id.tid a.toNat 8 = some k → busHeld s (k / 2 ^ 22) 0 = false →
          (rdN s.scr k 8 = 0 → exec (.sleepRelease id l) s = .next (putGroup s id (g.release ls)))
          ∧ (∀ t, rdN s.scr k 8 ≠ 0 → p = some t → t ≤ s.time → exec (.sleepRelease id l) s
              = .next (promiseMiss (putGroup s id (g.release ls)) id (maskOf ls) ((g.lane l).pcv.toNat + (g.lane l).adv) a.toNat t)))))
    ∧ (busHeld s g.core (4 + g.bank) = false →
      (∀ k y, tget g.syms k = some y → y.known = true → y.delivered = false → (∀ d, y.due = some d → d ≤ s.mclk) →
        ∃ x, exec (.symbolDelivery id k) s = .next (putGroup s id x)
          ∧ (y.always = true → x.v = g.v)
          ∧ (y.always = false → ∀ r l, l < 32 → x.elem r l = collapseElem k y l (g.elem r l))
          ∧ x.s = g.s ∧ x.m = g.m ∧ x.f = g.f ∧ x.lanes = g.lanes)
      ∧ (∀ k y l a b, collapseElem k y l (.form k a b false false)
          = if bit y.pois l then .pois b k false else .val (a * cget 0 y.xs l + b))
      ∧ (∀ op o, tget g.ops op = some o → o.ext = false →
        ∃ x, exec (.accessPerformed id op) s = .next (putGroup s id x) ∧ tget x.ops op = none ∧ x.lanes = g.lanes ∧ x.m = g.m
          ∧ (∀ f, o.flag = some f → x.flag f = g.flag f - 1) ∧ (∀ k, o.flag ≠ some k → x.flag k = g.flag k)
          ∧ (∀ r l w, (g.elem r l).awaits op = true → (vkey r l, w) ∈ o.vw → (∀ u, (vkey r l, u) ∈ o.vw → u = w) →
              x.elem r l = .val w)
          ∧ (∀ r l, (g.elem r l).awaits op = false → x.elem r l = g.elem r l)))

/-- R346 to R351, R353 to R365: the doorbell writes QTAIL; an entry of a ring enters its queue; the first entry becomes head
under a launch number, and one that fails a check completes at once; the queue of highest PRIO with a cluster that can be
placed places it, while no vertical bus it needs is held; a core selects the runnable bank that ranks highest; a pre-emption request finds clusters, and vacates
them; an extension's first entry moves back into the event table. That a pre-emption request with
N = 0 gives STATE 3 is the model's choice (log 61). -/
def Obligations.SequencerEvents : Prop :=
  ∀ (s : State) (p q : Nat),
    let x := queueOf s p q
    (∀ tail, portOpen s false = true → exec (.qtailDoorbell p q tail) s = .next (putQueue s p q { x with tail := tail % 2 ^ 16 }))
    ∧ (x.en = true → x.host = true → x.head % 2 ^ x.log2n ≠ x.tail % 2 ^ x.log2n → x.entries.length < 32 →
      let at_ := hostKey + x.ring * 4096 + 128 * (x.head % 2 ^ x.log2n)
      let u := (readSpan s at_ 128 0).1
      let e : QEntry := { words := (List.range 32).map fun i => word (rdN u.mem (at_ + 4 * i) 4)
                          addr := none, ctx := x.ctx, ident := 0, parent := none }
      ∃ t, exec (.ringEntryMove p q) s = .next t
        ∧ queueOf t p q = { x with head := (x.head + 1) % 2 ^ x.log2n, entries := x.entries ++ [e] } ∧ (s.partials = [] → u.mem = s.mem))
    ∧ (∀ e es, x.headLaunch = none → x.entries = e :: es → x.en = true → ctxValid s e.ctx = true → ctxPart s e.ctx = p →
      e.addr = none →
      let l := (startLaunch s p q e.ctx e.ident e.words e.parent false).1
      let u := (startLaunch s p q e.ctx e.ident e.words e.parent false).2
      (descCode u l = 0 → bit (nthW e.words 10) 4 = false → exec (.queueHead p q) s
        = .next (putQueue (bump { u with launches := tput u.launches u.fresh l }) p q
            { x with headLaunch := some u.fresh, armed := false, signalled := false }))
      ∧ (descCode u l ≠ 0 → exec (.queueHead p q) s
        = .next (finishLaunch (u.launches.length + 2) (putQueue u p q { x with entries := es }) l (descCode u l)))
      ∧ l.desc = e.words ∧ l.ctx = e.ctx ∧ l.count = 1 ∧ l.left = l.gx * l.gy * l.gz ∧ (e.ident ≠ 0 → l.ident = e.ident))
    ∧ (∀ d quad x y, s.pstate = 0 → queueTurn s p = some (q, d) →
      (∀ k e, k < 64 → e ∈ queueDues s p k → canPlace s e = true → e.prio s ≤ d.prio s)
      ∧ (rectFree s d quad x y = true → rectFits s d quad x y = true →
        exec (.clusterPlacement p q quad x y) s = .next (placeCluster { markLeavers s p [] with rotq := cset 0 s.rotq p q } d quad x y)))
    ∧ (∀ core bank, partOfQuad s (quadOf core) = some p → bankPol s p = false → handlerHolds s core = false →
      bankRunnable s core bank = true → (banksOf s core).selected ≠ some bank →
      (∀ k, k < 4 → bankRunnable s core k = true → bankRank s core k ≤ bankRank s core bank) →
      (∀ k, (banksOf s core).selected = some k → bankRunnable s core k = true →
        bankRank s core k < bankRank s core bank) →
      exec (.bankRotation core bank) s = .next (selectBank s core bank)
      ∧ (banksOf (selectBank s core bank) core).selected = some bank)
    ∧ (∀ k, tget s.prestat p = some (1, k, []) →
      let w := regGet s (kPart p 0x220)
      (w.toNat % 2 ^ 10 = 0 → exec (.preemptRequest p) s = .next { s with prestat := tput s.prestat p (3, 0, []) })
      ∧ (1 ≤ w.toNat % 2 ^ 10 → w.toNat % 2 ^ 10 ≤ 576 →
        (∀ c ∈ s.clusters, c.2.part = p → preemptible s c.2 (w.toNat / 2 ^ 16 % 8) = false) →
        exec (.preemptRequest p) s = .next { s with prestat := tput s.prestat p (3, 0, []) })
      ∧ (∀ c cl, s.clusters = [(c, cl)] → cl.part = p → preemptible s cl (w.toNat / 2 ^ 16 % 8) = true →
        (coresOf s [c]).length = w.toNat % 2 ^ 10 → 1 ≤ w.toNat % 2 ^ 10 → w.toNat % 2 ^ 10 ≤ 576 → savesFit s p [c] = true →
        exec (.preemptRequest p) s = .next { s with prestat := tput s.prestat p (1, 0, [c]) }))
    ∧ (∀ k c cs, tget s.prestat p = some (1, k, c :: cs) → (c :: cs).all (mayVacate s) = true →
      let u := (c :: cs).foldl vacateCluster s
      exec (.vacateComplete p) s = .next { u with prestat := tput u.prestat p (2, (regGet u (kPart p 0x220)).toNat % 2 ^ 10, []) })
    ∧ (∀ a e b, evTable s p = a ++ e :: b → (∀ y ∈ a, y.ext = false) → e.ext = true →
      ((evTable s p).filter fun y => !y.ext).length < 4096 →
      exec (.extensionMoveBack p) s = .next { s with events := tput s.events p (a ++ { e with ext := false } :: b) })

/-- R375 to R377, R325, R368, R418 to R421: the halt line reaches a unit once and the unit stops; once every unit that works
for the context has stopped the stop area is written and its records put in order, and those that come later are added; the
handler of the earliest halt of a partition starts while its slot
is free; STOPC1.GO halts a context of its partition; a step starts, or is refused, and ends.
The model's choice: records that come after the area is written are added to it (log 97), and with HDESC.EN = 0 the interrupt
comes when the area has been written (log 54). -/
def Obligations.HaltEvents : Prop :=
  ∀ (s : State) (c u p : Nat) (h : Halt),
    ((ctxOf s c).halt = some h → h.written = false →
      (h.arrived.all (fun q => q.1 != u) = true →
        (¬ (srcStation 0 ≤ u ∧ u < srcStation 576) → exec (.haltLineArrival c u) s
          = .next (putCtx s c { ctxOf s c with halt := some { h with arrived := h.arrived ++ [(u, s.lclk)] } }))
        ∧ (∀ core, core < 576 → u = srcStation core → ∃ t, exec (.haltLineArrival c u) s = .next t
          ∧ ∀ q ∈ t.caps, q.1 / 2 ^ 40 = core → capHalts t c q.2 = false))
      ∧ (h.arrived.any (fun q => q.1 == u) = true → h.stopped.contains u = false →
        (u < srcMatrix 0 → (∀ q ∈ s.groups, q.2.haltsWith c = true → srcWedge q.2.core q.2.wedge = u → q.2.midst = false) →
          exec (.skidStop c u) s = .next (markStopped (stopWedge s c u) c u))
        ∧ (∀ core, core < 576 → u = srcMatrix core → matrixHead s core = none →
          exec (.skidStop c u) s = .next (putCtx s c { ctxOf s c with halt := some { h with stopped := u :: h.stopped } }))
        ∧ (∀ core, core < 576 → u = srcRequest core → exec (.skidStop c u) s = .next (markStopped (stopRequest s c core) c u)))
      ∧ ((∀ k ∈ workUnits s c, h.stopped.contains k = true) →
        (handlerDesc s c = none → ∃ t hl, exec (.stopAreaWrite c) s = .next t ∧ (ctxOf t c).halt = some hl
          ∧ hl.written = true ∧ hl.noHandler = true ∧ hl.recs = h.arranged.recs ∧ t.irqs = s.irqs ++ [c] ∧ t.groups = s.groups)
        ∧ (let w := (storeStopArea s c h).1
           (storeStopArea s c h).2 = true → handlerCore w (ctxPart w c) ≠ none →
          exec (.stopAreaWrite c) s = .next (if bit (regGet w (kCtx c 0x51)) 0 then { w with irqs := w.irqs ++ [c] } else w))
        ∧ (let u := (putStopArea s c h.arranged).1
           (ctxOf (storeStopArea s c h).1 c).halt = (ctxOf u c).halt.map fun x =>
             { x with recs := h.arranged.recs, placed := h.arranged.recs.length, written := true })))
    ∧ ((ctxOf s c).halt = some h → h.written = true →
      exec (.stopAreaWrite c) s = .next (if h.placed < h.recs.length then (storeStopArea s c h).1 else s))
    ∧ (tget s.slot p = none → s.pstate ≤ 1 → ∀ k, nextHandled s p = some k →
      (∃ hk, (ctxOf s k).halt = some hk ∧ hk.written = true ∧ (ctxOf s k).handler = none ∧ ctxPart s k = p
        ∧ ∀ j hj, j < 64 → (ctxOf s j).halt = some hj → ctxValid s j = true → ctxPart s j = p → hj.written = true →
            hj.noHandler = false → (ctxOf s j).handler = none → hk.time ≤ hj.time)
      ∧ (handlerCore s p = none → exec (.handlerStart p) s = .next (noHandlerFor s k))
      ∧ (∀ core va ws, handlerCore s p = some core → handlerDesc s k = some va → readDesc s (seqCore s p) k va = some ws →
        let l := (startLaunch s p 64 k 1 ws none true).1
        busHeld s core 7 = false → busHeld s core 0 = false →
        (handlerFits s l core = true → exec (.handlerStart p) s = .next (launchHandler { s with pstate := 0 } p k core ws))
        ∧ (handlerFits s l core = false → exec (.handlerStart p) s = .next (noHandlerFor s k))))
    ∧ (∀ k, tget s.slot p = none → handlerCore s p = some k → (usableBanks s k ≠ 4 ∨ degraded s k = true) →
      exec (.handlerCoreMove p) s = .next (regSet s (kPart p 0x54) (word (firstHandlerCore s p))))
    ∧ (p < 8 →
      (let k := (regGet s (kPart p 0x571)).toNat / 2 ^ 24 % 64
       portOpen s false = true → ctxValid s k = true → ctxPart s k = p → haltedCtx s k = false →
        ∃ t hl, exec (.stopcGo p) s = .next t ∧ (ctxOf t k).halt = some hl ∧ hl.time = s.time ∧ hl.base = 0x53
          ∧ t.regs = s.regs ∧ t.groups = s.groups)
      ∧ (portOpen s false = true → stepState s p ≠ 1 →
        let notify := bit (regGet s (kPart p 0x578)) 30
        let stat (t : State) (st c : Nat) : State := regSet t (kPart p 0x579) (word (st * 2 ^ 30 + c))
        (notify = false → ∀ id g, stepGroup s p = some (id, g) → haltedCtx s g.id.ctx = true →
          { g with step := 1 }.eligible ≠ [] → exec (.stepWithinHalt p) s
            = .next { stat (putGroup s id { g with step := 1 }) 1 0 with steps := tput s.steps p id })
        ∧ (notify = true → ∀ id g, stepGroup s p = some (id, g) → haltedCtx s g.id.ctx = false →
          exec (.stepNotify p) s
            = .next { stat (putGroup s id { g with step := 2 }) 1 0 with steps := tput s.steps p id })
        ∧ (stepGroup s p = none → exec (if notify then .stepNotify p else .stepWithinHalt p) s = .next (stat s 3 0)))
      ∧ (∀ id g, tget s.steps p = some id → s.group id = some g →
        ((g.step = 3 ∧ g.stepLanes &&& g.live = 0) ∨ (g.step = 4 ∧ g.id.tid = none ∧ capsBusy s id = false ∧ opsBusy g = false)) →
        ∃ t, exec (.stepCompletion p) s = .next t ∧ tget t.steps p = none ∧ stepState t p = 2
          ∧ (regGet t (kPart p 0x579)).toNat % 256 = (regGet s (kPart p 0x579)).toNat % 256
          ∧ t.group id = some { g with step := 0 }))

/-- R119, R341, R114, R90, R147, R397, R400, R401, R387, R390, R393, R394, R396: walks enter translations; leases lapse;
spill writes end; accesses from outside reach HBM4, and the host its own memory, within their bounds and the window open to
them while the links' keys stand; a request without a reply fails its command; a flit received is counted where its CRC fails or it is of another
domain; the vertical ratio changes through a stall; a retirement starts, copies and ends; subnetworks wake and sleep; links train and lose lanes.
The model's choice: VLPORT.RETRY counts the flits received with a bad CRC, and how the event gives a flit (log 108); an access
out of range has no effect (log 80); which traffic is protected (log 89); and the subnetworks' levels reported by the event
(log 83). -/
def Obligations.MemoryAndFabricEvents : Prop :=
  ∀ (s : State) (core ctx va n : Nat) (bs : List Byte),
    (ctxValid s ctx = true → partOfQuad s (quadOf core) = some (ctxPart s ctx) → va < 2 ^ 56 →
      exec (.pageWalk core ctx va) s = .next (translate s core ctx va).1)
    ∧ (∀ line x, tget s.l1 (l1Key core line) = some x →
      (x.grant + 2048 ≤ s.time → exec (.l1CopyLapse core line) s = .next { s with l1 := cdel s.l1 (l1Key core line) })
      ∧ (s.time < x.grant + 2048 → exec (.l1CopyLapse core line) s = .next s))
    ∧ exec (.tlbEntryDrop n) s = .next { s with tlb := s.tlb.eraseIdx n }
    ∧ (∀ x, tget s.spills n = some x → spillOut s n x.core = true → arenaHeld s x.core = false → let u := { s with spills := cdel s.spills n }
      (surfAt u x.ctx x.slot = none → exec (.spillWriteCompletion n) s = .next u)
      ∧ (∀ f t, surfAt u x.ctx x.slot = some f → homeWrite u x.ctx x.slot x.core f x.tile (tileOf u x.ctx x.slot f x.tile).mode
          (tileElems u x.ctx x.slot f x.tile) = .ok t →
        let v := leaveArena t x.ctx x.slot f x.tile
        exec (.spillWriteCompletion n) s = .next (match resvOf v x.core x.ctx x.slot with
          | some r => if (v.spills.any fun p => p.2.ctx == x.ctx && p.2.slot == x.slot && p.2.core == x.core) || r.failed then v
              else dropResv v x.core x.ctx x.slot
          | none => v)))
    ∧ (let read (k : Nat) (i : Instr) : Prop := ∃ t, exec i s = .next t ∧ t.mem = s.mem
         ∧ t.hostReads = ofBytes (bytesOf n (rdN s.mem k n)) :: s.hostReads
       let wrote (k : Nat) (i : Instr) : Prop := ∃ t, exec i s = .next t ∧ rdN t.mem k n = ofBytes bs
         ∧ ∀ a, (a < k ∨ k + n ≤ a) → rdByte t.mem a = rdByte s.mem a
       let window : Prop := regGet64 s 0x882 % 2 ^ 56 / 65536 * 65536 ≤ va ∧ va + n ≤ regGet64 s 0x882 % 2 ^ 56 / 65536 * 65536
         + (regGet s 0x884).toNat % 2 ^ 26 * 65536
       (va % 64 + n ≤ 64 → 0 < n → s.aboard = [] → s.partials = [] → bs.length = n →
         (va + n ≤ 2 ^ 56 → read (hostKey + va) (.hostAccess .hostMemory va n none)
           ∧ wrote (hostKey + va) (.hostAccess .hostMemory va n (some bs)))
         ∧ (s.sessionKeys = true → va + n ≤ hbmEnd → read va (.hostAccess .device va n none) ∧ wrote va (.hostAccess .device va n (some bs))
           ∧ (window → (∀ dev, read va (.peerAccess dev .read va bs) ∧ wrote va (.peerAccess dev .write va bs))))
         ∧ (¬ window → ∀ dev k, (k = .read ∨ k = .write) → exec (.peerAccess dev k va bs) s = .next s))
       ∧ (2 ^ 56 < va + n → exec (.hostAccess .hostMemory va n none) s = .next s)
       ∧ (hbmEnd < va + n → exec (.hostAccess .device va n none) s = .next s))
    ∧ (∀ r id, tget s.vlreqs n = some r → r.cmd = some id → let wait := 1000 * ((regGet s 0x885).toNat % 2 ^ 16)
      (s.time < r.since + wait → exec (.vlReplyTimeout n) s = .next s)
      ∧ (r.since + wait ≤ s.time → let t := { s with vlreqs := cdel s.vlreqs n }
        (tget s.cmds id = none → exec (.vlReplyTimeout n) s = .next t)
        ∧ (∀ x, tget s.cmds id = some x →
          (x.stage = .finished → exec (.vlReplyTimeout n) s = .next t)
          ∧ (x.stage ≠ .finished → exec (.vlReplyTimeout n) s = .next (if x.kind = .putSig ∨ x.kind = .getp
              then xferFail t id x failPlain 4 0 else cmdFail t id x failPlain 4 0)))))
    ∧ (∀ port flit, port < 18 → let crcBad : Prop := flit / 2 ^ 16 % 2 = 1
      (crcBad → ∃ t, exec (.vlFlitReceive port flit) s = .next t ∧ t.mem = s.mem
        ∧ (regGet t (0x8A0 + port)).toNat % 2 ^ 27 = ((regGet s (0x8A0 + port)).toNat % 2 ^ 27 + 1) % 2 ^ 27
        ∧ (regGet t (0x8A0 + port)).toNat / 2 ^ 27 = (regGet s (0x8A0 + port)).toNat / 2 ^ 27)
      ∧ (¬ crcBad → s.sessionKeys = true → flit % 2 ^ 16 = (regGet s 0x881).toNat % 2 ^ 16 → exec (.vlFlitReceive port flit) s = .next s)
      ∧ (¬ crcBad → s.sessionKeys = true → flit % 2 ^ 16 ≠ (regGet s 0x881).toNat % 2 ^ 16 → ∃ t, exec (.vlFlitReceive port flit) s = .next t
        ∧ (regGet t 0x886).toNat / 2 ^ 14 = ((regGet s 0x886).toNat / 2 ^ 14 + 1) % 2 ^ 18 ∧ t.mem = s.mem))
    ∧ (let r := max ((regGet s 0x400).toNat % 16) s.floor
       (r ≠ s.ratio → s.stall = none → exec .ratioChange s = .next { s with stall := some (s.mclk + 96, r) })
       ∧ (∀ e q, s.stall = some (e, q) → e ≤ s.mclk → ∃ t, exec .ratioStallEnd s = .next t ∧ t.ratio = q ∧ t.stall = none
         ∧ t.groups = s.groups ∧ t.mem = s.mem)
       ∧ (∀ e q, s.stall = some (e, q) → s.mclk < e → exec .ratioStallEnd s = .next s))
    ∧ (∀ bus rest, s.retire = none → s.retireQueue = (core, bus) :: rest → bus ∉ (columnOf s core).retired →
      exec .busRetire s = .next { s with retireState := 1, retire := some (retireJob s core bus)
                                         retireQueue := rest.filter fun q => !(columnOf s q.1).retired.contains q.2 })
    ∧ (∀ j, s.retire = some j → s.stall = none → j.copying = true →
      exec .retireCopyDone s = .next (retireFinish s j)
      ∧ ((columnOf s j.core).retired.length < 5 → let t := retireFinish s j
        (s.retireQueue = [] → t.retire = none ∧ t.retireState = 2)
        ∧ j.bus ∈ (columnOf t j.core).retired ∧ t.groups = s.groups ∧ t.scr = s.scr))
    ∧ (∀ k, 1 ≤ k → k ≤ 3 →
      let st (t : State) (i : Nat) : Nat := (regGet t 0x801).toNat / 2 ^ (2 * i) % 4
      let goes (i : Instr) (v : Nat) : Prop := ∃ t, exec i s = .next t ∧ st t k = v ∧ ∀ i, i < 4 → i ≠ k → st t i = st s i
      let below := subnetOf s (k - 1)
      let busy : Prop := (regGet s 0x800).toNat / 2 ^ 8 % 2 ^ 8 < n
      (st s (k - 1) = 3 →
        (busy → st s k = 0 → s.pstate = 0 → ∀ t0, below.busySince = some t0 → t0 + 1000 ≤ s.time → goes (.subnetWake k n) 1)
        ∧ ((¬ busy ∨ below.busySince = none ∨ ∃ t0, below.busySince = some t0 ∧ s.time < t0 + 1000) →
          let report : Subnet := { busySince := if busy then some (below.busySince.getD s.time) else none
                                   idle := if n = 0 then some (below.idle.getD s.time) else none }
          exec (.subnetWake k n) s = .next { s with subnets := tput s.subnets (k - 1) report }))
      ∧ (st s k = 1 → goes (.subnetOn k) 3)
      ∧ (st s k = 3 → (k = 3 ∨ st s (k + 1) = 0) → ∀ t0, (subnetOf s k).idle = some t0 →
        (t0 + 100000 ≤ s.time → goes (.subnetOff k) 0) ∧ (s.time < t0 + 100000 → exec (.subnetOff k) s = .next s)))
    ∧ (∀ port lanes, port < 18 → lanes ≤ 8 → ∃ t, exec (.vimenLinkPortTraining port lanes) s = .next t
      ∧ (regGet t (0x8A0 + port)).toNat / 2 ^ 31 = (if lanes = 0 then 0 else 1)
      ∧ (regGet t (0x8A0 + port)).toNat / 2 ^ 27 % 16 = lanes)
    ∧ (0 < n → exec (.ucieLaneLoss n) s = .next { s with ucieHalf := true })

/-- R240, R290 to R303, R443: a triangle that passes the distributor's checks is accepted under the next sequence number, or
ends there where it touches no square; each raster engine lists its fragment groups and launches them in order; `ropz` and
`ropc` submit for each executing lane once, a helper lane and a target not bound having nothing to submit; a bank unit
applies a submission of the first lane in a pixel's list, depth before colour. That `ropz` with DEN = 0 submits nothing is the
model's choice (log 47). -/
def Obligations.Rendering : Prop :=
  ∀ (s : State) (id : Nat) (x : Cmd) (g : Group) (a c : VReg) (b : SReg),
    (tget s.cmds id = some x → x.kind = .rast → x.stage = .queued → (queued s x.core .rast).head?.map (·.1) = some id →
      mayBegin s x = true → tooFarBehind s x.ctx = false → ∀ ds u, readDrawState s x ((nthW x.words 0).toNat / 2 ^ 8 % 2 ^ 8)
        = (u, .ok ds) →
      (dsOk u x.ctx ds = false → exec (.rastAccept id) s = .next (rastFault u x cIllegal none))
      ∧ (dsOk u x.ctx ds = true → setupOf x.words = none → ∃ t, exec (.rastAccept id) s = .next t
        ∧ (ctxOf t x.ctx).seq = ((ctxOf u x.ctx).seq + 1) % 2 ^ 32 ∧ tget t.cmds id = none ∧ t.tris = u.tris)
      ∧ (∀ su sf, dsOk u x.ctx ds = true → setupOf x.words = some su → dsSurf u x.ctx ds = some sf →
        (∃ p ∈ su.squares sf, ∃ k, anchorCore u x.ctx ds p.1 p.2 = some k ∧ quadOf k < 8) →
        ∃ t tri, exec (.rastAccept id) s = .next t ∧ tri ∈ t.tris.map (·.2) ∧ tri.seq = (ctxOf u x.ctx).seq ∧ tri.cmd = id
          ∧ tri.ds = ds ∧ tri.words = x.words ∧ tri.surf = some sf ∧ tri.dropped = [] ∧ (ctxOf t x.ctx).seq = ((ctxOf u x.ctx).seq + 1) % 2 ^ 32
          ∧ (tget t.cmds id).map Cmd.stage = some (.taken 0)))
    ∧ (∀ quad tid t su sf, (∀ p ∈ s.plans, p.2.quad = quad → p.2.launched = true) →
      s.tris.find? (fun p => p.2.quads.contains quad) = some (tid, t) → tget s.cmds t.cmd = some x → ofHandler s x.tid = false →
      haltedCtx s t.ctx = false → (partOfQuad s quad).isSome → setupOf t.words = some su → t.surf = some sf →
      let todo := (su.squares sf).flatMap fun p => match anchorCore s t.ctx t.ds p.1 p.2 with
        | some k => if quadOf k = quad then (squareGroups su sf p.1 p.2).map fun ls => (k, p, ls) else []
        | none => []
      ∃ u, exec (.triangleSetup quad) s = .next u ∧ u.fresh = s.fresh + todo.length
        ∧ u.tris = tput s.tris tid { t with quads := t.quads.filter (· != quad) }
        ∧ (∀ j, j < s.fresh → tget u.plans j = tget s.plans j)
        ∧ ∀ i k p ls, todo[i]? = some (k, p, ls) → tget u.plans (s.fresh + i) = some
            { tri := tid, ctx := t.ctx, seq := t.seq, quad := quad, core := k, sx := p.1, sy := p.2, lanes := ls
              launched := false, skid := false, order := s.fresh + i, charges := [], g := 0, wrote := []
              dropped := t.dropped, failed := [] })
    ∧ (∀ quad wedge bank pid pl t, s.plans.find? (fun p => p.2.quad == quad && !p.2.launched) = some (pid, pl) →
      tget s.tris pl.tri = some t → wedge < 4 → bankFor s pl.core pl.ctx = some bank → haltedCtx s pl.ctx = false →
      inMask s pl.core = true → s.pstate = 0 → busHeld s pl.core (4 + bank) = false →
      (s.plans.filter fun p => p.2.core == pl.core && p.2.launched && planOpen s p.2).length < 256 →
      wedgeRoom s pl.core bank wedge 1 (dsVregs t.ds) 0 0 = true →
      ∃ u y, exec (.fragmentGroupLaunch quad pl.core wedge bank) s = .next u ∧ u.group s.fresh = some y
        ∧ y.core = pl.core ∧ y.wedge = wedge ∧ y.bank = bank ∧ y.id.frag = some pid ∧ y.id.launch = t.launch
        ∧ y.id.tid = none ∧ y.id.sup = false
        ∧ (∀ l, l < 32 → (∀ f ∈ pl.lanes, f.lane ≠ l) → (y.lane l).st = .never)
        ∧ (∀ f, f ∈ pl.lanes → f.lane < 32 → (∀ e ∈ pl.lanes, e.lane = f.lane → e = f) → (y.lane f.lane).st = .running
          ∧ (y.lane f.lane).pcv = 0 ∧ (y.lane f.lane).cover = f.cover)
        ∧ tget u.plans pid = some { pl with launched := true, g := s.fresh, skid := false })
    ∧ (∀ pid pl t, g.id.frag = some pid → tget s.plans pid = some pl → tget s.tris pl.tri = some t →
      let ex := lanesOf (execMask s g)
      (∀ l ∈ ex, ∃ f ∈ pl.lanes, f.lane = l) →
      let seen := ex.filter fun l => pl.lanes.any fun f => f.lane == l && f.cover != 0
      let subs (what : Nat) (ws : Nat → List Word) (m : Nat → Nat) : Plan := { pl with
        lanes := pl.lanes.map fun f => if seen.contains f.lane then
          { f with subs := f.subs ++ [{ what := what, mask := m f.lane, words := ws f.lane }] } else f
        charges := pl.charges ++ seen.map fun l => (8 * l + what, s.fresh) }
      let after (what : Nat) (y : Option Plan) : State :=
        State.after { bump s with plans := (y.map (tput s.plans pid)).getD s.plans }
          (({ g with sent := ex.map (8 * · + what) ++ g.sent } : Group).addOp s.fresh s.iss.flagB [] [] none y.isSome)
      (AccessReady s g .noZero [] [a.toNat, c.toNat] [] [] s.iss.flagB → (∀ l ∈ ex, 8 * l ∉ g.sent) →
        exec (.ropz a c) s = .next (after 0 (if dsDen t.ds ∧ seen ≠ [] then
          some (subs 0 (fun l => [g.vword a.toNat l]) (fun l => (g.vword c.toNat l).toNat % 16)) else none)))
      ∧ (let k := (g.sreg b.toNat).toNat % 4
         AccessReady s g .noZero [] (c.toNat :: (List.range 4).map (a.toNat + ·)) [] [b.toNat] s.iss.flagB →
         (∀ l ∈ ex, 8 * l + (1 + k) ∉ g.sent) →
         exec (.ropc a b c) s = .next (after (1 + k) (if (dsTargets t.ds).contains k ∧ seen ≠ [] then
          some (subs (1 + k) (fun l => (List.range 4).map fun i => g.vword (a.toNat + i) l)
            (fun l => (g.vword c.toNat l).toNat % 16)) else none))))
    ∧ (∀ core,
      (duesAt s core = [] ∨ inMask s core = false → exec (.bankUnitApply core) s = .next s)
      ∧ (duesAt s core ≠ [] → inMask s core = true → ∃ d ∈ duesAt s core, ∃ u, (u = s ∨ u = chose s)
        ∧ exec (.bankUnitApply core) s = .next (applyDue u core d))
      ∧ (∀ d ∈ duesAt s core, (d.pid, d.plan) ∈ s.plans ∧ d.plan.core = core ∧ d.frag ∈ d.plan.lanes
        ∧ d.frag.next d.tri.ds d.plan.failed = some d.sub ∧ d.slot ∉ d.plan.failed)
      ∧ ((duesAt s core).map fun d => (d.plan.ctx, d.frag.px, d.frag.py)).Nodup
      ∧ (∀ d : Due,
        (d.touches = false → applyDue s core d = subDone s d
          (if d.sub.what = 0 then some (if dsDfunc d.tri.ds = 7 then (d.live.map fun k => 2 ^ k).sum else 0) else d.frag.pass) false)
        ∧ (d.touches = true → d.slot ∈ d.plan.dropped ∨ surfAt s d.plan.ctx d.slot = none →
          applyDue s core d = bankFault s core d (failMem 12))
        ∧ (∀ f u k, d.touches = true → d.slot ∉ d.plan.dropped → surfAt s d.plan.ctx d.slot = some f →
          ready s d.plan.ctx d.slot f (d.frag.py / 8 * f.tw + d.frag.px / 8) = .ok u k →
          (d.sub.what = 0 → let r := applyDepth u d f
            applyDue s core d = subDone r.1 d (some r.2) (dsDwrite d.tri.ds && r.2 != 0))
          ∧ (d.sub.what ≠ 0 → applyDue s core d = subDone (applyColour u d (d.sub.what - 1) f) d d.frag.pass true))))

/-- R295, R296, R299, R300: coverage is by edge functions with the top-left rule; depth and barycentrics are exact rationals
rounded once; a sample passes the depth function of its draw state, relation by relation; a colour sample is decoded and encoded
in its format, channel by channel under WMASK, and blended source-over. -/
def Obligations.CoverageDepthAndColour : Prop :=
  let val (w : Word) : EReal := match fp32.decode w.toNat with
    | .fin _ n d => (((n : ℝ) / d : ℝ) : EReal)
    | .inf neg => if neg then ⊥ else ⊤
    | .nan => 0
  let nan (w : Word) : Bool := (fp32.decode w.toNat).isNan
  -- `w` is a real number rounded once to FP32 at RNE; an exact zero takes the sign `z`
  let rounds (w : Word) (x : ℝ) (z : Bool) : Prop := ∃ (n : Int) (d : Nat), 0 < d ∧ (n : ℝ) / d = x
    ∧ w = word (fp32.round rne false false z n d)
  (∀ (p q : Vertex) (x y : Int), edgeFn p q x y = (q.x - p.x) * (y - p.y) - (q.y - p.y) * (x - p.x))
  ∧ (∀ (t : Setup) (x y : Int), 0 < t.area → (t.covers x y = true ↔
      ∀ e ∈ [(t.v0, t.v1), (t.v1, t.v2), (t.v2, t.v0)], 0 < edgeFn e.1 e.2 x y ∨ (edgeFn e.1 e.2 x y = 0
        ∧ ((e.2.y = e.1.y ∧ e.2.x < e.1.x) ∨ e.2.y < e.1.y))))
  ∧ (∀ (t : Setup) (f : Surf) (x y : Nat), f.w ≤ x ∨ f.h ≤ y → t.cover f x y = 0)
  ∧ (∀ (w v : Word), depthPass 0 w v = false ∧ depthPass 7 w v = true
      ∧ (∀ f, f ∈ [1, 2, 3, 4, 6] → (fp32.decode w.toNat).isNan = true → depthPass f w v = false)
      ∧ ((fp32.decode w.toNat).isNan = true → depthPass 5 w v = true)
      ∧ (depthPass 3 w v = (depthPass 1 w v || depthPass 2 w v)) ∧ (depthPass 6 w v = (depthPass 4 w v || depthPass 2 w v))
      ∧ depthPass 5 w v = !depthPass 2 w v)
  ∧ (∀ (w v : Word), nan w = false → nan v = false → (depthPass 1 w v = true ↔ val w < val v)
      ∧ (depthPass 2 w v = true ↔ val w = val v) ∧ (depthPass 4 w v = true ↔ val v < val w))
  ∧ (∀ (t : Setup) (x y : Int),
      let E0 := edgeFn t.v1 t.v2 x y
      let E1 := edgeFn t.v2 t.v0 x y
      let E2 := edgeFn t.v0 t.v1 x y
      (t.area = (t.v1.x - t.v0.x) * (t.v2.y - t.v0.y) - (t.v2.x - t.v0.x) * (t.v1.y - t.v0.y) → E0 + E1 + E2 = t.area)
      ∧ (0 < t.v0.z.2 → 0 < t.v1.z.2 → 0 < t.v2.z.2 → t.area ≠ 0 →
        rounds (t.depth x y) (((E0 : ℝ) * (t.v0.z.1 / t.v0.z.2) + E1 * (t.v1.z.1 / t.v1.z.2) + E2 * (t.v2.z.1 / t.v2.z.2)) / t.area)
          false))
  ∧ (∀ (t : Setup) (x y : Nat), 0 < t.v0.q.2 → 0 < t.v1.q.2 → 0 < t.v2.q.2 → t.area ≠ 0 →
      let l (a b : Vertex) : ℝ := (edgeFn a b (256 * x + 128) (256 * y + 128) : ℝ) / t.area
      let p0 := l t.v1 t.v2 * (t.v0.q.1 / t.v0.q.2)
      let p1 := l t.v2 t.v0 * (t.v1.q.1 / t.v1.q.2)
      let p2 := l t.v0 t.v1 * (t.v2.q.1 / t.v2.q.2)
      (p0 + p1 + p2 ≤ 0 → t.bary x y = (0x7FC00000, 0x7FC00000))
      ∧ (0 < p0 + p1 + p2 → rounds (t.bary x y).1 (p1 / (p0 + p1 + p2)) false ∧ rounds (t.bary x y).2 (p2 / (p0 + p1 + p2)) false))
  ∧ (∀ (t : Setup) (f : Surf) (sx sy : Nat), ∀ ls ∈ squareGroups t f sx sy, ls.length ≤ 32 ∧ ∀ p ∈ ls,
      p.px / 8 = sx ∧ p.py / 8 = sy ∧ p.lane % 4 = 2 * (p.py % 2) + p.px % 2 ∧ (p.b1, p.b2) = t.bary p.px p.py
      ∧ p.cover = t.cover f p.px p.py
      ∧ p.depth = (if f.samples = 1 then [((128, 128) : Int × Int)] else [(96, 32), (224, 96), (32, 160), (160, 224)]).map
          fun o => t.depth (256 * p.px + o.1) (256 * p.py + o.2))
  ∧ (∀ (n : Nat), n < 256 → encodeChan 1 (decodeChan 1 n) = n ∧ rounds (decodeChan 1 n) (n / 255) false)
  ∧ (∀ (n : Nat), n < 2 ^ 16 → match fp16.decode n with
      | .nan => decodeChan 2 n = 0x7FC00000
      | .inf neg => decodeChan 2 n = (if neg then 0xFF800000 else 0x7F800000)
      | .fin sg a d => ∃ b e, fp32.decode (decodeChan 2 n).toNat = .fin sg b e ∧ (b : ℝ) / e = a / d)
  ∧ (∀ (w : Word), decodeChan 3 w.toNat = w ∧ encodeChan 3 w = w.toNat
      ∧ encodeChan 2 w = fp16.write rne false false (fp32.decode w.toNat)
      ∧ (nan w = true → encodeChan 1 w = 0) ∧ (val w = ⊥ → encodeChan 1 w = 0) ∧ (val w = ⊤ → encodeChan 1 w = 255)
      ∧ (∀ sg n d, fp32.decode w.toNat = .fin sg n d → (encodeChan 1 w : Int) = roundInt rne (255 * max 0 (min n d)) d))
  ∧ (∀ (src sa old : Word) (al : Bool),
      let t := word (fp32.write rne false false (Fl.add rne (fp32.decode 0x3F800000) (fp32.decode sa.toNat).neg))
      (nan src = true ∧ al = false ∨ nan sa = true ∨ nan old = true → blendChan al src sa old = 0x7FC00000)
      ∧ (blendChan al src sa old = word (fp32.write rne false false (Fl.add rne
          (if al then fp32.decode sa.toNat else (fp32.decode src.toNat).mul (fp32.decode sa.toNat))
          ((fp32.decode old.toNat).mul (fp32.decode t.toNat)))))
      ∧ (∀ (a b c u : ℝ), nan src = false → nan sa = false → nan old = false → nan t = false →
          val src = (a : EReal) → val sa = (b : EReal) → val old = (c : EReal) → val t = (u : EReal) →
          rounds t (1 - b) false
          ∧ rounds (blendChan false src sa old) (a * b + c * u) ((bit src 31 != bit sa 31) && (bit old 31 != bit t 31))
          ∧ rounds (blendChan true src sa old) (b + c * u) (bit sa 31 && (bit old 31 != bit t 31))))
  ∧ (∀ (fmt m : Nat) (bl : Bool) (src : List Word) (old : Nat), fmt ∈ [1, 2, 3] →
      let n := if fmt = 1 then 8 else if fmt = 2 then 16 else 32
      colourSample fmt m bl src old < 2 ^ (4 * n)
      ∧ ∀ i, i < 4 → let was := old / 2 ^ (n * i) % 2 ^ n
        colourSample fmt m bl src old / 2 ^ (n * i) % 2 ^ n = if m / 2 ^ i % 2 = 0 then was else encodeChan fmt
          (if bl then blendChan (i == 3) (nthW src i) (nthW src 3) (decodeChan fmt was) else nthW src i))
  ∧ (∀ (m : Nat) (bl : Bool) (src : List Word) (old : Nat),
      colourSample 5 m bl src old = if m % 2 = 1 then (nthW src 0).toNat else old)

/-- R140, R323, R326, R327, R398, R434, R441: the host's port of registers, the window registers of the Annulus, quadrant
masks, the handler core, contexts and power states: which writes are taken, what they do, and which are ignored.
The model's choice: SRAM reads 0 once sleep is left, dirty lines and registers being kept (log 75), after a training whose
outcome is a free choice (log 129). -/
def Obligations.RegistersAndContexts : Prop :=
  ∀ (s : State) (c p off val : Nat),
    let w := word val
    let open_ := bit (regGet s 0x600) 29 = true
    let base (x : Word) : Nat := x.toNat % 2 ^ 11
    let count (x : Word) : Nat := x.toNat / 2 ^ 16 % 2 ^ 11
    (s.sessionKeys = true → exec (.registerWrite off val) s = .next (hostWriteReg s off w))
    ∧ (s.sessionKeys = true → ∃ t v, exec (.rcRegisterRead off) s = .next { t with hostReads := v :: s.hostReads } ∧ t.groups = s.groups ∧ t.mem = s.mem
        ∧ (off % 4 ≠ 0 → v = 0 ∧ t = s)
        ∧ (open_ → off = 4 * 0x886 → v = (regGet s 0x886).toNat ∧ regGet t 0x886 = 0)
        ∧ (open_ → c < 64 → off = 0xA00000 + 0x10000 * c + 4 * 0x55 → v = (regGet s (kCtx c 0x55)).toNat ∧ t = s))
    ∧ (¬ open_ → off < 0x10000 → ¬ (4 * 0x600 ≤ off ∧ off < 4 * 0x700) → hostWriteReg s off w = s)
    ∧ (open_ → p < 8 → hostWriteReg s (0x100000 * (p + 1) + 4 * 0x570) w = regSet s (kPart p 0x570) w)
    ∧ (c < 64 → open_ → bit w 31 = true → let old := regGet s (0x300 + c)
      ((count w = 0 ∨ 1152 < base w + count w) → exec (.annWindowEnable c val) s = .next s)
      ∧ (bit old 31 = true → exec (.annWindowEnable c val) s = .next s)
      ∧ (∀ k, k < 64 → k ≠ c → bit (regGet s (0x300 + k)) 31 = true → base (regGet s (0x300 + k)) < base w + count w →
          base w < base (regGet s (0x300 + k)) + count (regGet s (0x300 + k)) → exec (.annWindowEnable c val) s = .next s)
      ∧ (bit old 31 = false → count w ≠ 0 → base w + count w ≤ 1152 →
          (∀ k, k < 64 → k ≠ c → bit (regGet s (0x300 + k)) 31 = true → base w + count w ≤ base (regGet s (0x300 + k))
            ∨ base (regGet s (0x300 + k)) + count (regGet s (0x300 + k)) ≤ base w) →
          ∃ t, exec (.annWindowEnable c val) s = .next t ∧ regGet t (0x300 + c) = w &&& 0x87FF07FF
            ∧ ∀ a, rdByte t.ring a = if 64 * base w ≤ a ∧ a < 64 * (base w + count w) then 0 else rdByte s.ring a))
    ∧ (c < 64 → open_ → bit w 31 = false →
      (bit (regGet s (0x300 + c)) 31 = false → exec (.annWindowDisable c val) s = .next (regSet s (0x300 + c) (w &&& 0x87FF07FF)))
      ∧ (bit (regGet s (0x300 + c)) 31 = true → (∀ k ∈ s.caps, k.2.ctx ≠ c) → s.aboard = [] →
        ∃ t, exec (.annWindowDisable c val) s = .next t ∧ regGet t (0x300 + c) = w &&& 0x87FF07FF ∧ t.ring = s.ring
          ∧ t.groups = s.groups ∧ t.mem = s.mem))
    ∧ (p < 8 → open_ →
      ((∃ k q, k < 8 ∧ k ≠ p ∧ q < 8 ∧ bit w q = true ∧ bit (regGet s (0x48 + k)) q = true) →
        exec (.partqWrite p val) s = .next s)
      ∧ ((∀ k q, k < 8 → k ≠ p → q < 8 → bit w q = true → bit (regGet s (0x48 + k)) q = false) →
        ∃ t, exec (.partqWrite p val) s = .next t ∧ regGet t (0x48 + p) = word (val % 256)
          ∧ regGet t (kPart p 0x54) = word (firstHandlerCore t p) ∧ t.groups = s.groups ∧ t.ctxs = s.ctxs))
    ∧ (¬ open_ → ∀ i ∈ [Instr.annWindowEnable c val, .annWindowDisable c val, .partqWrite p val, .hcoreWrite p val,
        .contextCreate c val, .contextInvalidate c val, .pstateRun, .pstateIdle, .pstateSleep], exec i s = .next s)
    ∧ (p < 8 → open_ → let k := val % 2 ^ 10
      ((tget s.slot p).isSome ∨ k ∉ partCores s p ∨ degraded s k = true ∨ usableBanks s k ≠ 4 →
        exec (.hcoreWrite p val) s = .next s)
      ∧ (tget s.slot p = none → k ∈ partCores s p → degraded s k = false → usableBanks s k = 4 →
        exec (.hcoreWrite p val) s = .next (regSet s (kPart p 0x54) (word k))))
    ∧ (c < 64 → open_ → let q := w.toNat / 2 ^ 28 % 8
      let second : Prop := bit w 27 = true ∧ ∃ k, k < 64 ∧ k ≠ c ∧ ctxValid s k = true ∧ ctxPart s k = q ∧ ctxSup s k = true
      (ctxValid s c = false → bit w 31 = true →
        (second ∨ partMask s q = 0 → exec (.contextCreate c val) s = .next s)
        ∧ (¬ second → partMask s q ≠ 0 → ∃ t, exec (.contextCreate c val) s = .next t ∧ ctxValid t c = true ∧ ctxPart t c = q
          ∧ ctxSup t c = bit w 27 ∧ (ctxOf t c).seq = 0 ∧ t.groups = s.groups ∧ t.mem = s.mem
          ∧ ∀ n, n ∈ [0x51, 0x52, 0x53, 0x100, 0x101, 0x102, 0x103, 0x104, 0x105] → regGet t (kCtx c n) = 0))
      ∧ (ctxValid s c = true → bit w 31 = false →
        (ctxBusy s c = true → exec (.contextInvalidate c val) s = .next s)
        ∧ (ctxBusy s c = false → bit w 27 = false → partMask s q ≠ 0 → winEn (winReg s c) = false →
          ∃ t, exec (.contextInvalidate c val) s = .next t ∧ ctxValid t c = false ∧ t.groups = s.groups ∧ t.mem = s.mem
            ∧ ∀ k b, k ∈ s.banks.map (·.1) → b < 4 → boundTo t k b ≠ some c)))
    ∧ (open_ →
      (s.pstate ≠ 2 → exec .pstateRun s = .next { s with pstate := 0 })
      ∧ (s.pstate = 2 → ∃ t, exec .pstateRun s = .next t ∧ t.pstate = 0 ∧ t.mem = s.mem ∧ t.regs = s.regs ∧ t.time = s.time
          ∧ ∀ a, rdByte t.scr a = 0 ∧ rdByte t.bst a = 0 ∧ rdByte t.arena a = 0)
      ∧ (s.teams ≠ [] → exec .pstateIdle s = .next s)
      ∧ (s.teams = [] → ∃ t, exec .pstateIdle s = .next t ∧ t.pstate = 1 ∧ regGet t 0x801 = 3 ∧ t.mem = s.mem)
      ∧ ((∃ k, k < 64 ∧ ctxValid s k = true) → exec .pstateSleep s = .next s)
      ∧ ((∀ k, k < 64 → ctxValid s k = false) → exec .pstateSleep s = .next { s with pstate := 2 }))

/-- R404 to R406, R410 to R414, R418, R434, R436 to R440: time and its dialogue, the filter's load, sampling, the floor of
the vertical ratio, wear, alarms, reports and bring-up.
The model's choice: a fall of the floor starts its 10 ms again, and causes without a gap are one hold (log 81); the places of the
image header's fields, word 2 being the security version (log 79); the LEVEL of a sampled access, read off the model's own
caches (log 128). -/
def Obligations.DeviceEvents : Prop :=
  ∀ (s : State) (n k p : Nat),
    (bit (regGet s 0x600) 29 = true →
      (bit (regGet s 0x502) 31 = true → s.ptm = none → ∃ t, exec .ptmDialogue s = .next t ∧ t.ptm = some s.time
        ∧ bit (regGet t 0x502) 29 = false ∧ bit (regGet t 0x502) 31 = true)
      ∧ (bit (regGet s 0x502) 31 = false → exec .ptmDialogue s = .next s)
      ∧ ((∀ c, c < 64 → ctxValid s c = false) → exec (.timeStep n) s = .next { s with time := (s.time + n) % 2 ^ 64 })
      ∧ ((∃ c, c < 64 ∧ ctxValid s c = true) → exec (.timeStep n) s = .next s))
    ∧ (∀ t1, s.ptm = some t1 → ∃ t, exec (.ptmResponse n k) s = .next t ∧ t.ptm = none ∧ regGet64 t 0x507 = t1 % 2 ^ 64
        ∧ regGet64 t 0x509 = s.time % 2 ^ 64 ∧ regGet64 t 0x50B = n % 2 ^ 64 ∧ regGet t 0x50D = word k
        ∧ bit (regGet t 0x502) 29 = true)
    ∧ (p < 8 → s.partials = [] → portOpen s false = true → let len := (regGet s (kPart p 0x522)).toNat % 2 ^ 9
      let ws := wordsOf s.mem (regGet64 s (kPart p 0x520) % 2 ^ 56 / 4 * 4) len
      len ≤ 256 →
      ((∀ i, i < len → filterBad len i (nthW ws i) = false) → ∃ t, exec (.filterLoad p) s = .next t
        ∧ tget t.filters (16 + p) = some ws ∧ bit (regGet t (kPart p 0x522)) 30 = false)
      ∧ (∀ i, i < len → filterBad len i (nthW ws i) = true → (∀ j, j < i → filterBad len j (nthW ws j) = false) →
        ∃ t, exec (.filterLoad p) s = .next t ∧ t.filters = s.filters ∧ bit (regGet t (kPart p 0x522)) 30 = true
          ∧ (regGet t (kPart p 0x522)).toNat / 2 ^ 20 % 2 ^ 10 = i))
    ∧ (∀ ws rest, (locusOf s k).cur = none → (locusOf s k).queue = (p, ws) :: rest → ∃ t, exec (.locusFilter k) s = .next t
        ∧ (locusOf t k).queue = rest ∧ (∀ f, tget s.filters (16 + p) = some f → f ≠ [] →
          (locusOf t k).cur = some (p, ws) ∧ (locusOf t k).index = 0 ∧ tget t.filters (8 * k + p) = some f
          ∧ ∀ r : BitVec 4, (locusOf t k).reg r = nthW ws r.toNat))
    ∧ (n < 576 → k < 4 → partOfQuad s (quadOf n) = some p → let u := srcWedge n k
      let on := bit (regGet s (kPart p 0x518)) 31
      ((on = false ∨ tget s.samples u ≠ none) → exec (.sampleTag n k) s = .next s)
      ∧ (on = true → tget s.samples u = none → (∀ g ∈ s.groups, ¬ (g.2.core = n ∧ g.2.wedge = k)) →
        exec (.sampleTag n k) s = .next { s with samples := tput s.samples u { Sample.fresh p with state := some 4 } })
      ∧ (∀ x level lats, tget s.samples u = some x → level ≠ x.level → exec (.samplingRecord n k level lats) s = .next s)
      ∧ (∀ x st lats, tget s.samples u = some x → x.state = some st → x.level < 16 →
        bit (regGet s (kPart x.part 0x515)) 7 = true → ∃ ws, exec (.samplingRecord n k x.level lats) s
            = .next (queueRecord { s with samples := cdel s.samples u } (stackOf n) x.part ws)
          ∧ ws.length = 16 ∧ (nthW ws 14).toNat / 2 ^ 24 % 2 ^ 8 = st % 2 ^ 8 ∧ (nthW ws 14).toNat / 2 ^ 20 % 16 = x.level
          ∧ nthW ws 15 = x.word))
    ∧ (∀ t0, s.causeSince = some t0 →
        (s.floor < 4 → t0 + 100000 ≤ s.time →
          exec .floorRaise s = .next { s with floor := s.floor + 1, causeSince := some s.time })
        ∧ ((4 ≤ s.floor ∨ s.time < t0 + 100000) → exec .floorRaise s = .next s))
    ∧ (s.causes = [] → 2 < s.floor → s.quietSince + 10000000 ≤ s.time →
        exec .floorFall s = .next { s with floor := s.floor - 1, quietSince := s.time })
    ∧ (s.causes ≠ [] → exec .floorFall s = .next s)
    ∧ (k < 2 → ∃ t, exec (.thermalOrPowerCause k true) s = .next t ∧ k ∈ t.causes ∧ t.floor = s.floor
        ∧ t.causeSince = some (s.causeSince.getD s.time))
    ∧ (∃ t, exec (.thermalOrPowerCause 3 true) s = .next t ∧ t.floor = 4)
    ∧ (n < 4608 → ∃ t, exec (.wearStateChange n 3 0 k) s = .next t ∧ (wearOf t n).state = 3 ∧ (wearOf t n).eolh = 0
        ∧ (bit (regGet s 0x702) 0 = true → n % 8 ∉ (columnOf s (n / 8)).retired →
            t.retireQueue = s.retireQueue ++ [(n / 8, n % 8)]))
    ∧ (∀ st, st < 3 → st ≠ (if k < 720 then 2 else if k < 8760 then 1 else 0) → exec (.wearStateChange n st k p) s = .next s)
    ∧ (∀ sel, (4608 ≤ sel ∧ sel < 4626) ∨ sel = 4645 → ∃ t, exec (.wearStateChange sel 3 0 k) s = .next t ∧ t.failed = true
        ∧ ∀ c, c < 64 → ctxValid s c = true → haltedCtx t c = true)
    ∧ (alarmOf n k = true → ∃ t, exec (.alarm n k) s = .next t
        ∧ (n = 1 → t.alarmed = s.alarmed ∧ t.ctxs = s.ctxs)
        ∧ (2 ≤ n → t.alarmed = true ∧ t.sessionKeys = false ∧ ∀ c, c < 64 → ctxValid s c = true → haltedCtx t c = true)
        ∧ (n = 3 → bit (regGet t 0x600) 26 = false) ∧ (n ≤ 2 → bit (regGet t 0x600) 26 = bit (regGet s 0x600) 26)
        ∧ (regGet t 0x600).toNat / 2 ^ 30 = max ((regGet s 0x600).toNat / 2 ^ 30) n)
    ∧ (s.report = 0 → ∃ t, exec .attestationReport s = .next t ∧ t.report = 1 ∧ bit (regGet t 0x600) 28 = true
        ∧ bit (regGet t 0x600) 27 = false)
    ∧ (s.report ≠ 0 →
        (bit (regGet s 0x600) 26 = false → ∃ t, exec .reportPublish s = .next t ∧ t.report = 0 ∧ t.mem = s.mem
          ∧ bit (regGet t 0x600) 27 = true ∧ bit (regGet t 0x600) 28 = false)
        ∧ (bit (regGet s 0x600) 26 = true → s.partials = [] → let a := regGet64 s 0x609 % 2 ^ 56 / 4096 * 4096
          a + 4096 ≤ hbmEnd → ∃ t, exec .reportPublish s = .next t ∧ t.report = 0 ∧ bit (regGet t 0x600) 28 = false
            ∧ (∀ i, i < 8 → rdN t.mem (a + 4 * i) 4 = (regGet s (0x601 + i)).toNat)
            ∧ ∀ y, (y < a ∨ a + 4096 ≤ y) → rdByte t.mem y = rdByte s.mem y))
    ∧ (∃ t, exec .bringUp s = .next t ∧ t.groups = [] ∧ t.time = 0 ∧ bit (regGet t 0x600) 29 = firmwareOk s.powered
        ∧ t.rollback = if firmwareOk s.powered = true then max s.rollback (nthW s.flashHeader 2).toNat else s.rollback)

/-- R46, R164: what a completed instruction's write leaves. The element of each executing lane in the named v registers takes
its word, under ZERO the masked-off lanes of the issue take 0, and every other element stands; an s register other than
s0 takes its word, and s0 reads 0. -/
def Obligations.RegisterWrites : Prop :=
  ∀ (s : State) (g : Group) (a : VReg) (n : Nat) (f : Nat → Nat → Word) (r : SReg) (w : Word),
    (∃ h, (s.wroteV g a n f).group s.iss.g = some h
      ∧ (∀ i l, i < n → l < 32 → bit (execMask s g) l = true → h.elem (a.toNat + i) l = .val (f l i))
      ∧ (∀ i l, i < n → l < 32 → bit s.iss.lanes l = true → bit (execMask s g) l = false →
          h.elem (a.toNat + i) l = if zeroing s then .val 0 else g.elem (a.toNat + i) l)
      ∧ (∀ k l, l < 32 → k < a.toNat ∨ a.toNat + n ≤ k ∨ bit s.iss.lanes l = false → h.elem k l = g.elem k l)
      ∧ (∀ l x, bit s.iss.lanes l = true → g.lanes[l]? = some x → x.running = true →
          h.lanes[l]? = some { x with pcv := word s.iss.next, hop := .along }))
    ∧ (∃ h, (s.wroteS g r w).group s.iss.g = some h ∧ (r ≠ 0 → h.sreg r.toNat = w) ∧ h.sreg 0 = 0
      ∧ ∀ k, k ≠ r.toNat → h.sreg k = g.sreg k)

/-- R159, R181, R204 to R224: the frame of the scalar, integer, floating, compare, select, conversion, packed, block and
cross-lane instructions, the 16-bit forms among them. Where one answers a next state on known operands, no byte, system
register or other group has changed, and in its own group no register but the one, the pair or (for `tbpack`) the two that it
names, in the lanes of the issue. -/
def Obligations.FrameOfRegisterInstructions : Prop :=
  ∀ (s t : State) (g : Group) (a : SReg) (d b : VReg) (p : SReg) (x : XOp) (c : Src) (m : MReg) (i : Instr)
      (dt st : NumTy) (sat : Bool) (ha : BitVec 6) (hb : BitVec 5),
    let e := (fourth s).getD d.toNat
    let vector (r n : Nat) : Prop :=
      framed s t g (fun k l => r ≤ k ∧ k < r + n ∧ bit s.iss.lanes l = true) (fun _ => False) (fun _ => False)
    exec i s = .next t →
    (Issues s g { sr := p.toNat :: XOp.reg x } →
      i ∈ [.scalarAdd a p x, .scalarSub a p x, .scalarMul a p x, .scalarMulhiI32 a p x, .scalarMulhiN32 a p x,
        .scalarAnd a p x, .scalarOr a p x, .scalarXor a p x, .scalarShl a p x, .scalarShr a p x, .scalarSra a p x,
        .scalarMinI32 a p x, .scalarMaxI32 a p x, .scalarMinN32 a p x, .scalarMaxN32 a p x, .seteq a p x, .setne a p x,
        .setltI32 a p x, .setleI32 a p x, .setltN32 a p x, .setleN32 a p x, .scalarMov a x] →
      framed s t g (fun _ _ => False) (fun k => k = a.toNat) (fun _ => False))
    ∧ (Issues s g { sr := a.toNat :: p.toNat :: XOp.reg x } → i = .scalarSel a p x →
      framed s t g (fun _ _ => False) (fun k => k = a.toNat) (fun _ => False))
    ∧ (LaneReady s g .plain d.toNat 1 (b.toNat :: c.vregs) c.sregs → g.formRegs ≤ 16 →
      i ∈ [formOf .addV .addX d b c, formOf .subV .subX d b c, formOf .mulV .mulX d b c, formOf .mulhiI32V .mulhiI32X d b c,
        formOf .mulhiN32V .mulhiN32X d b c, formOf .minI32V .minI32X d b c, formOf .maxI32V .maxI32X d b c,
        formOf .minN32V .minN32X d b c, formOf .maxN32V .maxN32X d b c, formOf .andV .andX d b c, formOf .orV .orX d b c,
        formOf .xorV .xorX d b c, formOf .shlV .shlX d b c, formOf .shrV .shrX d b c, formOf .sraV .sraX d b c,
        formOf .bfeN32V .bfeN32X d b c, formOf .bfeI32V .bfeI32X d b c, formOf .fminF32V .fminF32X d b c,
        formOf .fmaxF32V .fmaxF32X d b c, formOf .pminF16V .pminF16X d b c, formOf .pmaxF16V .pmaxF16X d b c,
        formOf .pminBf16V .pminBf16X d b c, formOf .pmaxBf16V .pmaxBf16X d b c, match c with
          | .v r => .selV d m b r
          | .x o => .selX d m b o] → vector d.toNat 1)
    ∧ (LaneReady s g .dOnly d.toNat 1 (b.toNat :: c.vregs ++ [e]) c.sregs → g.formRegs ≤ 16 →
      i = formOf .madV .madX d b c → vector d.toNat 1)
    ∧ (LaneReady s g .plain d.toNat 1 (d.toNat :: b.toNat :: c.vregs) c.sregs → g.formRegs ≤ 16 →
      i = formOf .bfiB32V .bfiB32X d b c → vector d.toNat 1)
    ∧ (LaneReady s g .plain d.toNat 1 c.vregs c.sregs → g.formRegs ≤ 16 →
      i = (match c with
        | .v r => .movB32V d r
        | .x o => .movB32X d o) → vector d.toNat 1)
    ∧ (LaneReady s g .plain d.toNat 1 [b.toNat] [] → g.formRegs ≤ 16 →
      i ∈ [.absI32 d b, .popcB32 d b, .clzB32 d b, .brevB32 d b, .fnegF32 d b, .fabsF32 d b, .fclassF32 d b] → vector d.toNat 1)
    ∧ (LaneReady s g .round d.toNat 1 [b.toNat] [] → g.formRegs ≤ 16 →
      i ∈ [.frndF32 d b, .frcpF32 d b, .frsqF32 d b, .fsqrtF32 d b, .fex2F32 d b, .flg2F32 d b, .fsinF32 d b, .fcosF32 d b] →
      vector d.toNat 1)
    ∧ (LaneReady s g (if (NumTy.fmt dt).isNone ∧ (NumTy.fmt st).isNone then .plain else .round) d.toNat 1 [b.toNat] [] →
      i = .cvt dt sat st b d → vector d.toNat 1)
    ∧ (LaneReady s g .round d.toNat 1 (b.toNat :: c.vregs) c.sregs → g.formRegs ≤ 16 →
      i ∈ [formOf .faddF32V .faddF32X d b c, formOf .fsubF32V .fsubF32X d b c, formOf .fmulF32V .fmulF32X d b c,
        formOf .paddF16V .paddF16X d b c, formOf .psubF16V .psubF16X d b c, formOf .pmulF16V .pmulF16X d b c,
        formOf .paddBf16V .paddBf16X d b c, formOf .psubBf16V .psubBf16X d b c, formOf .pmulBf16V .pmulBf16X d b c] →
      vector d.toNat 1)
    ∧ (LaneReady s g .roundD d.toNat 1 (b.toNat :: c.vregs ++ [e]) c.sregs → g.formRegs ≤ 16 →
      i = formOf .ffmaF32V .ffmaF32X d b c → vector d.toNat 1)
    ∧ (LaneReady s g .roundD d.toNat 1 (b.toNat :: e :: c.vregs) c.sregs →
      i ∈ [formOf .pfmaF16V .pfmaF16X d b c, formOf .pfmaBf16V .pfmaBf16X d b c, formOf .fdot4E4m3V .fdot4E4m3X d b c,
        formOf .fdot4E5m2V .fdot4E5m2X d b c] → vector d.toNat 1)
    ∧ (LaneReady s g .plain d.toNat 2 (b.toNat :: (b.toNat + 1) :: c.vregs) c.sregs →
      i ∈ [formOf .addI64V .addI64X d b c, formOf .subI64V .subI64X d b c, formOf .shlB64V .shlB64X d b c,
        formOf .shrN64V .shrN64X d b c, formOf .sraI64V .sraI64X d b c] → vector d.toNat 2)
    ∧ (LaneReady s g .plain d.toNat 2 (b.toNat :: c.vregs) c.sregs →
      i ∈ [formOf .mulWideI32V .mulWideI32X d b c, formOf .mulWideN32V .mulWideN32X d b c] → vector d.toNat 2)
    ∧ (Issues s g { rule := .plain, v := b.toNat :: c.vregs, vr := b.toNat :: c.vregs, sr := c.sregs } →
      Known g (b.toNat :: c.vregs) (lanesOf (execMask s g)) →
      i ∈ [compareOf .cmpEqB32V .cmpEqB32X m b c, compareOf .cmpNeB32V .cmpNeB32X m b c,
        compareOf .cmpLtI32V .cmpLtI32X m b c, compareOf .cmpLeI32V .cmpLeI32X m b c, compareOf .cmpGtI32V .cmpGtI32X m b c,
        compareOf .cmpGeI32V .cmpGeI32X m b c, compareOf .cmpLtN32V .cmpLtN32X m b c, compareOf .cmpLeN32V .cmpLeN32X m b c,
        compareOf .cmpGtN32V .cmpGtN32X m b c, compareOf .cmpGeN32V .cmpGeN32X m b c, compareOf .fcmpEqF32V .fcmpEqF32X m b c,
        compareOf .fcmpLtF32V .fcmpLtF32X m b c, compareOf .fcmpLeF32V .fcmpLeF32X m b c, compareOf .fcmpNeF32V .fcmpNeF32X m b c,
        compareOf .fcmpUnF32V .fcmpUnF32X m b c] →
      framed s t g (fun _ _ => False) (fun _ => False) (fun k => k = m.toNat))
    ∧ (LaneReady s g .plain d.toNat 1 [b.toNat] [a.toNat] → i ∈ [.tbunpTb8 d b a, .tbunpTb4 d b a] → vector d.toNat 1)
    ∧ (Issues s g { rule := .plain, v := [d.toNat, b.toNat], vr := [b.toNat] } → Known g [b.toNat] (List.range 32) →
      i ∈ [.tbpackTb8 d b a, .tbpackTb4 d b a, .tbpackSatTb8 d b a, .tbpackSatTb4 d b a] →
      framed s t g (fun k l => k = d.toNat ∧ bit s.iss.lanes l = true) (fun k => k = a.toNat) (fun _ => False))
    ∧ (Issues s g { rule := .plain, v := d.toNat :: b.toNat :: c.vregs, vr := b.toNat :: c.vregs, sr := c.sregs } →
      Known g [b.toNat] (crossLanes s g) → Known g c.vregs (lanesOf (execMask s g)) →
      i ∈ [formOf .xlaneGetV .xlaneGetX d b c, formOf .xlaneBackV .xlaneBackX d b c, formOf .xlaneFwdV .xlaneFwdX d b c,
        formOf .xlaneMixV .xlaneMixX d b c] → vector d.toNat 1)
    ∧ (∀ rnd : Bool, Issues s g { rule := if rnd then .round else .plain, v := [d.toNat, b.toNat], vr := [b.toNat] } →
      Known g [b.toNat] (crossLanes s g) →
      i ∈ (if rnd then [.foldAddF32 d b, .prefixAddF32 d b] else [.pollSome d b, .pollEvery d b, .pollBits d b, .foldAddI32 d b,
        .foldMinI32 d b, .foldMaxI32 d b, .prefixAddI32 d b, .sameB32 d b, .sameF32 d b]) → vector d.toNat 1)
    ∧ (LaneReady s g .plain ha.toNat 1 [ha.toNat, hb.toNat] [] → g.formRegs ≤ 16 →
      i ∈ [.addI32Half ha hb, .subI32Half ha hb, .mulI32Half ha hb, .andB32Half ha hb, .orB32Half ha hb, .xorB32Half ha hb,
        .shlB32Half ha hb, .shrN32Half ha hb, .minI32Half ha hb, .fminF32Half ha hb, .fmaxF32Half ha hb] → vector ha.toNat 1)
    ∧ (LaneReady s g .plain ha.toNat 1 [hb.toNat] [] → g.formRegs ≤ 16 → i = .movB32Half ha hb → vector ha.toNat 1)
    ∧ (LaneReady s g .round ha.toNat 1 [ha.toNat, hb.toNat] [] → g.formRegs ≤ 16 →
      i ∈ [.faddF32Half ha hb, .fsubF32Half ha hb, .fmulF32Half ha hb] → vector ha.toNat 1)

/-- R95, R229, R123: the frame of a scratch load and a scratch store whose addresses lie in the team's granules. A load changes
no byte, and no element outside its destination; a store changes no register, and no byte of scratch outside the bytes at
the keys that its lanes' addresses translate to. -/
def Obligations.FrameOfScratchAccesses : Prop :=
  ∀ (s t : State) (g : Group) (y : AccTy) (a : VReg) (m : MemOp) (key : Nat → Nat),
    let n := AccTy.bytes y
    let ex := lanesOf (execMask s g)
    Unwatched s g → g.midst = false →
    (∀ l ∈ ex, checkScratch s g.id.tid (g.memAddr false n m l) n n = .ok (key l)) →
    (AccessReady s g .plain (regsFrom a (AccTy.regs y)) [] (MemOp.vregs m) (MemOp.sregs false m) s.iss.flagA →
      exec (.lds y a m) s = .next t →
      framed s t g (fun k l => a.toNat ≤ k ∧ k < a.toNat + AccTy.regs y ∧ bit s.iss.lanes l = true) (fun _ => False) (fun _ => False))
    ∧ (AccessReady s g .noZero [] (regsFrom a (AccTy.regs y)) (MemOp.vregs m) (MemOp.sregs false m) s.iss.flagB →
      exec (.sts y a m) s = .next t →
      (∀ z, (∀ l ∈ ex, z < key l ∨ key l + n ≤ z) → rdByte t.scr z = rdByte s.scr z)
      ∧ t.mem = s.mem ∧ t.arena = s.arena ∧ t.bst = s.bst ∧ t.ring = s.ring ∧ sameRegisters s t ∧ sameOthers s t
      ∧ ∃ h, t.group s.iss.g = some h ∧ g.keeps h (fun _ _ => False) (fun _ => False) (fun _ => False))

/-- R173, R46, R371: an instruction that names a register beyond the declared count, or that no prefix may precede and has one,
raises ILLEGAL_OP; one with a nonzero unused field raises RESERVED_ENC. Nothing of it takes effect: the group keeps every
register but `cause`, the context's halt line rises, and a stop record holds the cause and the word. -/
def Obligations.IssueFaults : Prop :=
  ∀ (s : State) (g : Group) (a b c : VReg) (p q : SReg) (x : XOp),
    s.group s.iss.g = some g → g.id.handler = false → g.step ≠ 1 → haltedCtx s g.id.ctx = false →
    let raises (i : Instr) (code : Nat) : Prop := ∃ t hl r, exec i s = .next t
      ∧ t.group s.iss.g = some { g with cause := code, causeUp := true, faulted := g.faulted ||| s.iss.lanes }
      ∧ (ctxOf t g.id.ctx).halt = some hl ∧ hl.time = s.time ∧ hl.src = srcWedge g.core g.wedge ∧ hl.recs = [r]
      ∧ r.cause = code ∧ r.pc = s.iss.a ∧ r.detail = s.iss.w1 ++ s.iss.w0 ∧ sameBytes s t ∧ t.iss.done = s.iss.done
    (s.iss.pfx = none → g.id.nv ≤ a.toNat ∨ g.id.nv ≤ b.toNat ∨ g.id.nv ≤ c.toNat →
      raises (.addV a b c) 0x10 ∧ raises (.mulV a b c) 0x10 ∧ raises (.xlaneGetV a b c) 0x10 ∧ raises (.faddF32V a b c) 0x10
      ∧ raises (.fdot4E4m3V a b c) 0x10)
    ∧ (s.iss.pfx ≠ none → raises (.scalarAdd p q x) 0x10 ∧ raises .exit 0x10 ∧ raises .yield 0x10 ∧ raises (.elect p) 0x10)
    ∧ (s.iss.pfx = none → s.iss.rsv = true →
      raises .exit 0x11 ∧ raises .yield 0x11 ∧ raises (.elect p) 0x11 ∧ raises .nopHalf 0x11 ∧ raises (.barTeam 0) 0x11
      ∧ (a.toNat < g.id.nv → b.toNat < g.id.nv → raises (.absI32 a b) 0x11 ∧ raises (.fnegF32 a b) 0x11))

/-- R151, R158 to R172, R414: words of each family that the encodings spell out, and the instructions they are. -/
def Obligations.DecodeWords : Prop :=
  decodeTableWord 16 0x0000 = some .nopHalf ∧ decodeTableWord 16 0x1852 = some (.faddF32Half 2 3)
  ∧ decodeTableWord 32 0x1F90057D = some (.clauseHeader 3 15 2 10)
  ∧ decodeTableWord 32 0x0009497F = some (.prefixWord 4 true false true 1 2)
  ∧ decodeTableWord 32 0x00C08A03 = some (.scalarAdd 20 2 (.s 6))
  ∧ decodeTableWord 32 0x0FFF4007 = some (.bra (.near 0x3FFD)) ∧ decodeTableWord 32 0x60000007 = some .exit
  ∧ decodeTableWord 32 0x01C2028B = some (.waitAny 5 8 (.s 14)) ∧ decodeTableWord 32 0x9006088B = some (.rdsrS 17 0x18)
  ∧ decodeTableWord 32 0x28A1011B = some (.cmpLtI32X 2 4 (.imm 5)) ∧ decodeTableWord 32 0x3060809D = some (.ffmaF32V 1 2 3)
  ∧ decodeTableWord 32 0x20008241 = some (.ldg .b32 4 (.off 2 0))
  ∧ decodeTableWord 32 0x20008245 = some (.stg .b32 4 (.off 2 0))
  ∧ decodeTableWord 32 0x4041444D = some (.ldt .b128 8 5 2)
  ∧ decodeTableWord 32 0x90510355 = some (.atg32 .cas 6 (.idx 4 2))
  ∧ decodeTableWord 32 0xA1A30561 = some (.surfDef 10 12 13) ∧ decodeTableWord 32 0x1120C653 = some (.ropc 12 3 9)
  ∧ decodeTableWord 32 0x300403ED = some (.pushColl false 16 7) ∧ decodeTableWord 32 0x0001006F = some (.mbLd 4)
  ∧ decodeTableWord 32 0x186142F1 = some (.hrot 5 5 (.imm 3)) ∧ decodeTableWord 32 0x2E0C0008 = some (.filterShri 8 3 8)
  ∧ decodeTableWord 64 0x4B800000380125FB = some (.longForm 7 0 9 0x0B 0x4B800000)

/-- R151 to R172, R414: the decoder and the encoder agree. Every well-formed instruction that has an encoding is what its words
decode to, with every operand; and the words that decode to an instruction are its encoding, so that no bit of a word is
ignored. -/
def Obligations.DecodeAndEncodeAgree : Prop :=
  (∀ (i : Instr) (n w : Nat), i.wf = true → encode i = some (n, w) →
    w < 2 ^ n ∧ n ∈ [16, 32, 64]
    ∧ ((decodeHalves [w % 65536, w / 65536 % 65536, w / 65536 ^ 2 % 65536, w / 65536 ^ 3]) = (.ok i, n / 16)
      ∨ decodeFilter w = some i))
  ∧ (∀ (h0 h1 h2 h3 k : Nat) (i : Instr), h0 < 65536 → h1 < 65536 → h2 < 65536 → h3 < 65536 →
    decodeHalves [h0, h1, h2, h3] = (.ok i, k) →
    i.wf = true ∧ encode i = some (16 * k, (h0 + 65536 * h1 + 65536 ^ 2 * h2 + 65536 ^ 3 * h3) % 2 ^ (16 * k)))
  ∧ (∀ (w : Nat) (i : Instr), w < 2 ^ 32 → decodeFilter w = some i → i.wf = true ∧ encode i = some (32, w))

/-- R26, R151 to R156, R413: a step runs the instruction that the words at the issue address decode to. Where the turn is the
issue of a group whose lanes stand at A, inside a clause or at its header with the header passed, and the halfwords there
decode to an instruction that the clause admits, the step is that instruction's, of whose accesses `cut` are made or all,
followed by what follows an issue. A filter word of a Locus and an event run so too. -/
def Obligations.StepRunsDecoded : Prop :=
  ∀ (s : State) (ts : List Turn) (k : Nat) (i : Instr),
    (∀ (g : Group) (f a cut : Nat) (c : Clause) (h0 h1 h2 h3 : Nat),
      (s.turns = .issue k :: ts ∧ cut = 0 ∨ s.turns = .issueCut k cut :: ts) →
      let s0 : State := { s with turns := ts }
      let g1 : Group := { g with floor := f }
      let u : State := { putGroup s0 k g1 with iss := { Issue.none with g := k, lanes := g.lanesAt a, a := a, ia := a } }
      let l := g.latchAt a
      let o := if a = c.hdr then c.hdr + 4 + (if l.pfx.isSome then 4 else 0) else a + (if l.pfx.isSome then 4 else 0)
      let n := wordHalves h0
      let w0 := if n = 1 then h0 else h0 + 65536 * h1
      s.group k = some g → mayIssue s0 k g = true → g.phase = 0 → g.issueAddr = some (f, a) →
      g.stepLanes &&& g.lanesAt a = 0 → clauseOf u g1 a (a / 8 + 2) g.id.entry = some c →
      (a = c.hdr → l.entered = true) →
      (a ≠ c.hdr → startsAt u g1 a 65 (c.hdr + 4) false = .ok true ∧ ∀ x ∈ lanesOf (g.lanesAt a), (g.lane x).hop ≠ .header) →
      codeHalf u g1 o = .ok h0 → (2 ≤ n → codeHalf u g1 (o + 2) = .ok h1) → (n = 4 → codeHalf u g1 (o + 4) = .ok h2) →
      (n = 4 → codeHalf u g1 (o + 6) = .ok h3) → o + 2 * n ≤ c.stop →
      (2 ≤ n → isLast w0 = true → o + 2 * n = c.stop
        ∨ (o + 2 * n + 2 = c.stop ∧ ∃ h, codeHalf u g1 (o + 2 * n) = .ok h ∧ h % 32 = 0)) → c.flagA ∉ [12, 13, 14] → c.flagB ∉ [12, 13, 14] →
      (n = 2 → w0 / 2 % 64 ≠ 0x3E ∧ (w0 / 2 % 64 = 0x3F → l.pfx = none ∧ o + 4 < c.stop)) →
      (decodeHalves [h0, h1, h2, h3]).1 = .ok i →
      ∃ w1 : Word,
        let v : State := { u with iss := { u.iss with ia := o, next := o + 2 * n, hdr := c.hdr, len := c.len, flagA := c.flagA,
                                                      flagB := c.flagB, pfx := l.pfx, rsv := l.pfxBad, w0 := word w0, w1 := w1,
                                                      done := false, cut := cut } }
        (n = 4 → w1 = word (h2 + 65536 * h3))
        ∧ step s = (match exec i (tagLevel (tagIssue v) i) with
            | .next t => .next (countSkid (afterIssue t (decide (i = .yield))) (skidding s0 k) (s0.group k))
            | r => r))
    ∧ (∀ w : Word, s.turns = .locus k :: ts → filterWord { s with turns := ts } k = some w → decodeFilter w.toNat = some i →
        step s = exec i { s with turns := ts, iss := { Issue.none with g := k, w0 := w } })
    ∧ (s.turns = .event i :: ts → step s = exec i { s with turns := ts })

/-- R440, R20, R326, R406, R438, R439: the state after the release of reset. No group, team or cluster is resident, no queue
holds a launch and no context is valid; the registers with a stated reset value hold it and the others of the system
space 0 (where the spec states none, 0 is the model's choice, assumption 2). Every byte memory is in canonical form. -/
def Obligations.ResetState : Prop :=
  let s := State.reset
  s.groups = [] ∧ s.teams = [] ∧ s.clusters = [] ∧ s.launches = [] ∧ s.cmds = [] ∧ s.msgs = [] ∧ s.tlb = [] ∧ s.time = 0
  ∧ (∀ c, ctxValid s c = false ∧ haltedCtx s c = false) ∧ (∀ p, p < 8 → partMask s p = 0) ∧ (∀ q, partOfQuad s q = none)
  ∧ (∀ k, regGet s k = regReset (k % 65536))
  ∧ regReset 0x054 = 0x3FF ∧ regReset 0x200 = 0x100 ∧ regReset 0x400 = 2 ∧ regReset 0x506 = 0xFFFFFFFF
  ∧ regReset 0x518 = 0x400 ∧ regReset 0x600 = 0x04000000 ∧ regReset 0x702 = 1 ∧ regReset 0x800 = 0x5020
  ∧ regReset 0x801 = 3 ∧ regReset 0x885 = 100 ∧ regReset 0x903 = 32 ∧ regReset 0xA01 = 2400 ∧ regReset 0x048 = 0
  ∧ s.sessionKeys = true ∧ s.ratio = 2 ∧ s.canonical

/-- R4: every step keeps the byte memories in canonical form, so that equal memories are equal data and no address holds two
bytes; the form is the model's own (a byte never written reads 0, assumption 1). -/
def Obligations.StepKeepsCanonical : Prop :=
  ∀ s t : State, s.canonical → step s = .next t → t.canonical
end

