-- ==== Sys2Proof/Laws/Cells.lean ====
section
/-! SUPPORT. The laws of sparse data: what a read gives after a write, that key order is kept, and that
every operation on a byte memory keeps its canonical form. -/

namespace Sys2Proof.Machine

variable {α : Type}

@[simp] theorem tget_nil (k : Nat) : tget ([] : Tab α) k = none := rfl
@[simp] theorem cget_nil (d : α) (k : Nat) : cget d [] k = d := rfl
theorem tget_cons (j : Nat) (x : α) (t : Tab α) (k : Nat) :
    tget ((j, x) :: t) k = if j = k then some x else tget t k := rfl
theorem cget_cons (d : α) (j : Nat) (x : α) (t : Cells α) (k : Nat) :
    cget d ((j, x) :: t) k = if j = k then x else cget d t k := rfl

/-- A read is the listed value or the default. -/
theorem cget_eq_tget (d : α) (c : Cells α) (k : Nat) : cget d c k = (tget c k).getD d := by
  induction c with
  | nil => rfl
  | cons h t ih => obtain ⟨j, y⟩ := h; simp only [tget_cons, cget_cons]; split <;> simp [ih]

/-- A record reads as it was put. -/
@[simp] theorem tget_tput_self (c : Tab α) (k : Nat) (x : α) : tget (tput c k x) k = some x := by
  induction c with
  | nil => simp [tput, tget_cons]
  | cons h t ih =>
    obtain ⟨j, y⟩ := h
    simp only [tput]
    split
    · rw [tget_cons, if_neg (by omega), ih]
    · split <;> simp [tget_cons]

/-- Putting a record leaves every other key alone. -/
theorem tget_tput_ne (c : Tab α) {j k : Nat} (x : α) (h : j ≠ k) : tget (tput c k x) j = tget c j := by
  induction c with
  | nil => rw [tput, tget_cons, if_neg (Ne.symm h)]
  | cons p t ih =>
    obtain ⟨i, y⟩ := p
    simp only [tput]
    split
    · simp [tget_cons, ih]
    · split
      · rename_i e; subst e; simp [tget_cons, Ne.symm h]
      · simp [tget_cons, Ne.symm h]

theorem tget_tput (c : Tab α) (j k : Nat) (x : α) : tget (tput c k x) j = if j = k then some x else tget c j := by
  by_cases h : j = k
  · subst h; simp
  · simp [h, tget_tput_ne c x h]

theorem tget_cdel_ne (c : Cells α) {j k : Nat} (h : j ≠ k) : tget (cdel c k) j = tget c j := by
  induction c with
  | nil => rfl
  | cons p t ih =>
    obtain ⟨i, y⟩ := p
    simp only [cdel]
    split
    · rename_i e; subst e; simp [tget_cons, ih, Ne.symm h]
    · simp [tget_cons, ih]

/-- Every key of a list is above a bound. -/
def above (b : Nat) (c : Cells α) : Prop := ∀ p ∈ c, b < p.1

theorem sorted_cons (p : Nat × α) (c : Cells α) : sorted (p :: c) = true ↔ above p.1 c ∧ sorted c = true := by
  induction c generalizing p with
  | nil => simp [sorted, above]
  | cons q t ih =>
    obtain ⟨j, x⟩ := p
    obtain ⟨k, y⟩ := q
    simp only [sorted, Bool.and_eq_true, decide_eq_true_eq]
    constructor
    · rintro ⟨h1, h2⟩
      refine ⟨?_, h2⟩
      intro r hr
      rcases List.mem_cons.mp hr with rfl | hr
      · exact h1
      · exact Nat.lt_trans h1 (((ih (k, y)).mp h2).1 r hr)
    · rintro ⟨h1, h2⟩
      exact ⟨h1 (k, y) (by simp), h2⟩

theorem tget_of_above {b : Nat} {c : Cells α} (h : above b c) {k : Nat} (hk : k ≤ b) : tget c k = none := by
  induction c with
  | nil => rfl
  | cons p t ih =>
    obtain ⟨j, y⟩ := p
    have hj := h (j, y) (by simp)
    simp only at hj
    rw [tget_cons, if_neg (by omega)]
    exact ih fun r hr => h r (List.mem_cons_of_mem _ hr)

theorem above_tput {b : Nat} {c : Tab α} (h : above b c) {k : Nat} (hk : b < k) (x : α) : above b (tput c k x) := by
  induction c with
  | nil => intro p hp; simp only [tput, List.mem_singleton] at hp; subst hp; exact hk
  | cons q t ih =>
    obtain ⟨j, y⟩ := q
    have ht : above b t := fun r hr => h r (List.mem_cons_of_mem _ hr)
    simp only [tput]
    split
    · intro r hr
      rcases List.mem_cons.mp hr with rfl | hr
      · exact h _ (by simp)
      · exact ih ht r hr
    · split
      · intro r hr
        rcases List.mem_cons.mp hr with rfl | hr
        · exact hk
        · exact ht r hr
      · intro r hr
        rcases List.mem_cons.mp hr with rfl | hr
        · exact hk
        · exact h r hr

/-- Putting keeps key order. -/
theorem sorted_tput {c : Tab α} (h : sorted c = true) (k : Nat) (x : α) : sorted (tput c k x) = true := by
  induction c with
  | nil => rfl
  | cons q t ih =>
    obtain ⟨j, y⟩ := q
    obtain ⟨ha, ht⟩ := (sorted_cons _ _).mp h
    simp only [tput]
    split
    · rename_i hjk
      exact (sorted_cons _ _).mpr ⟨above_tput ha hjk x, ih ht⟩
    · split
      · rename_i e; subst e; exact (sorted_cons _ _).mpr ⟨ha, ht⟩
      · rename_i h1 h2
        refine (sorted_cons _ _).mpr ⟨?_, h⟩
        intro r hr
        rcases List.mem_cons.mp hr with rfl | hr
        · simp only; omega
        · have := ha r hr; simp only at this ⊢; omega

/-- A sublist keeps key order. -/
theorem above_sublist {b : Nat} {c d : Cells α} (h : d.Sublist c) (ha : above b c) : above b d :=
  fun p hp => ha p (h.subset hp)

theorem sorted_sublist {c d : Cells α} (h : d.Sublist c) (hs : sorted c = true) : sorted d = true := by
  induction h with
  | slnil => rfl
  | cons a h ih => exact ih ((sorted_cons _ _).mp hs).2
  | cons_cons a h ih =>
    obtain ⟨ha, ht⟩ := (sorted_cons _ _).mp hs
    exact (sorted_cons _ _).mpr ⟨above_sublist h ha, ih ht⟩

theorem cdel_sublist (c : Cells α) (k : Nat) : (cdel c k).Sublist c := by
  induction c with
  | nil => exact List.Sublist.slnil
  | cons p t ih =>
    obtain ⟨j, y⟩ := p
    simp only [cdel]
    split
    · exact ih.cons _
    · exact ih.cons_cons _

/-- Dropping a key keeps key order. -/
theorem sorted_cdel {c : Cells α} (h : sorted c = true) (k : Nat) : sorted (cdel c k) = true :=
  sorted_sublist (cdel_sublist c k) h

/-- A dropped key is not listed. -/
@[simp] theorem tget_cdel_self (c : Cells α) (k : Nat) : tget (cdel c k) k = none := by
  induction c with
  | nil => rfl
  | cons p t ih =>
    obtain ⟨j, y⟩ := p
    simp only [cdel]
    split
    · exact ih
    · rename_i e; rw [tget_cons, if_neg e]; exact ih

theorem sorted_cset [DecidableEq α] {d : α} {c : Cells α} (h : sorted c = true) (k : Nat) (x : α) :
    sorted (cset d c k x) = true := by
  unfold cset; split
  · exact sorted_cdel h k
  · exact sorted_tput h k x

/-- A cell reads as it was written. -/
@[simp] theorem cget_cset_self [DecidableEq α] (d : α) (c : Cells α) (k : Nat) (x : α) : cget d (cset d c k x) k = x := by
  rw [cget_eq_tget]; unfold cset; split
  · rename_i e; rw [tget_cdel_self, e]; rfl
  · rw [tget_tput_self]; rfl

/-- Writing a cell leaves every other cell alone. -/
theorem cget_cset_ne [DecidableEq α] (d : α) (c : Cells α) {j k : Nat} (x : α) (h : j ≠ k) :
    cget d (cset d c k x) j = cget d c j := by
  rw [cget_eq_tget, cget_eq_tget]; unfold cset; split
  · rw [tget_cdel_ne c h]
  · rw [tget_tput_ne c x h]

theorem sorted_csets [DecidableEq α] {d : α} (ws : List (Nat × α)) {c : Cells α} (h : sorted c = true) :
    sorted (csets d c ws) = true := by
  unfold csets
  induction ws generalizing c with
  | nil => exact h
  | cons w t ih => exact ih (sorted_cset h _ _)

/-- Several writes leave every cell that none of them names alone. -/
theorem cget_csets_of_not_mem [DecidableEq α] (d : α) (ws : List (Nat × α)) (c : Cells α) (k : Nat)
    (h : ∀ w ∈ ws, w.1 ≠ k) : cget d (csets d c ws) k = cget d c k := by
  unfold csets
  induction ws generalizing c with
  | nil => rfl
  | cons w t ih =>
    rw [List.foldl_cons, ih (cset d c w.1 w.2) fun v hv => h v (List.mem_cons_of_mem _ hv),
      cget_cset_ne d c w.2 (Ne.symm (h w (by simp)))]

/-- A cell that several writes name, always with one value, reads as that value. -/
theorem cget_csets_of_mem [DecidableEq α] (d : α) {ws : List (Nat × α)} (c : Cells α) {k : Nat} {x : α}
    (hm : (k, x) ∈ ws) (hu : ∀ y, (k, y) ∈ ws → y = x) : cget d (csets d c ws) k = x := by
  unfold csets
  induction ws generalizing c with
  | nil => simp at hm
  | cons w t ih =>
    rw [List.foldl_cons]
    by_cases ht : (k, x) ∈ t
    · exact ih _ ht fun y hy => hu y (List.mem_cons_of_mem _ hy)
    · have hw : w = (k, x) := by
        rcases List.mem_cons.mp hm with h1 | h1
        · exact h1.symm
        · exact absurd h1 ht
      have hn : ∀ v ∈ t, v.1 ≠ k := by
        rintro ⟨j, y⟩ hv rfl
        exact ht (hu y (List.mem_cons_of_mem _ hv) ▸ hv)
      have := cget_csets_of_not_mem d t (cset d c w.1 w.2) k hn
      unfold csets at this
      rw [this, hw, cget_cset_self]

theorem mem_tput {c : Tab α} {k : Nat} {x : α} {p : Nat × α} (h : p ∈ tput c k x) : p = (k, x) ∨ p ∈ c := by
  induction c with
  | nil => exact .inl (by simpa [tput] using h)
  | cons q t ih =>
    obtain ⟨j, y⟩ := q
    simp only [tput] at h
    split at h
    · rcases List.mem_cons.mp h with rfl | h
      · exact .inr (by simp)
      · rcases ih h with h | h
        · exact .inl h
        · exact .inr (List.mem_cons_of_mem _ h)
    · split at h
      · rcases List.mem_cons.mp h with h | h
        · exact .inl h
        · exact .inr (List.mem_cons_of_mem _ h)
      · rcases List.mem_cons.mp h with h | h
        · exact .inl h
        · exact .inr h

theorem mem_cset [DecidableEq α] {d : α} {c : Cells α} {k : Nat} {x : α} {p : Nat × α} (h : p ∈ cset d c k x) :
    p = (k, x) ∨ p ∈ c := by
  unfold cset at h; split at h
  · exact .inr ((cdel_sublist c k).subset h)
  · exact mem_tput h

/-- Several writes list nothing but what was listed or written. -/
theorem mem_csets [DecidableEq α] {d : α} {ws : List (Nat × α)} {c : Cells α} {p : Nat × α} (h : p ∈ csets d c ws) :
    p ∈ ws ∨ p ∈ c := by
  unfold csets at h
  induction ws generalizing c with
  | nil => exact .inr h
  | cons w t ih =>
    rcases ih h with h | h
    · exact .inl (List.mem_cons_of_mem _ h)
    · rcases mem_cset h with h | h
      · exact .inl (by simp [h])
      · exact .inr h

/-! Byte memories. -/

theorem wf_iff (m : List Host.Cell) : Memory.wf m = true ↔ sorted m = true ∧ ∀ c ∈ m, c.2 ≠ 0 := by
  simp [Memory.wf]

/-- Writing a byte keeps the canonical form. -/
theorem wf_wrByte {m : List Host.Cell} (h : Memory.wf m = true) (a : Nat) (b : Byte) : Memory.wf (wrByte m a b) = true := by
  rw [wf_iff] at h ⊢
  unfold wrByte
  refine ⟨sorted_cset h.1 a b, ?_⟩
  unfold cset; split
  · exact fun c hc => h.2 c ((cdel_sublist m a).subset hc)
  · intro c hc
    rcases mem_tput hc with rfl | hc
    · assumption
    · exact h.2 c hc

theorem wf_wrN {m : List Host.Cell} (h : Memory.wf m = true) (a n v : Nat) : Memory.wf (wrN m a n v) = true := by
  induction n generalizing m a v with
  | zero => exact h
  | succ k ih => exact ih (wf_wrByte h a _) _ _

theorem wf_wrBytes {m : List Host.Cell} (h : Memory.wf m = true) (a : Nat) (bs : List Byte) :
    Memory.wf (wrBytes m a bs) = true := by
  induction bs generalizing m a with
  | nil => exact h
  | cons b t ih => exact ih (wf_wrByte h a _) _

/-- Any range dropped keeps the canonical form. -/
theorem wf_filter {m : List Host.Cell} (h : Memory.wf m = true) (p : Host.Cell → Bool) : Memory.wf (m.filter p) = true := by
  rw [wf_iff] at h ⊢
  exact ⟨sorted_sublist List.filter_sublist h.1, fun c hc => h.2 c ((List.mem_filter.mp hc).1)⟩

theorem wf_zeroRange {m : List Host.Cell} (h : Memory.wf m = true) (a n : Nat) : Memory.wf (zeroRange m a n) = true :=
  wf_filter h _

theorem wf_foldl {β : Type} (f : List Host.Cell → β → List Host.Cell)
    (hf : ∀ m b, Memory.wf m = true → Memory.wf (f m b) = true) (l : List β) {m : List Host.Cell}
    (h : Memory.wf m = true) : Memory.wf (l.foldl f m) = true := by
  induction l generalizing m with
  | nil => exact h
  | cons b t ih => exact ih (hf m b h)

@[simp] theorem wf_nil : Memory.wf [] = true := rfl

/-- A byte reads as it was written. -/
@[simp] theorem rdByte_wrByte_self (m : List Host.Cell) (a : Nat) (b : Byte) : rdByte (wrByte m a b) a = b :=
  cget_cset_self 0 m a b

theorem rdByte_wrByte_ne (m : List Host.Cell) {a c : Nat} (b : Byte) (h : c ≠ a) : rdByte (wrByte m a b) c = rdByte m c :=
  cget_cset_ne 0 m b h

/-- A write of `n` bytes leaves every byte outside them alone. -/
theorem rdByte_wrN_ne (m : List Host.Cell) (a n v c : Nat) (h : c < a ∨ a + n ≤ c) :
    rdByte (wrN m a n v) c = rdByte m c := by
  induction n generalizing m a v with
  | zero => rfl
  | succ k ih => rw [wrN, ih _ _ _ (by omega), rdByte_wrByte_ne _ _ (by omega)]

/-- A write of `n` bytes puts the value there, least significant byte first. -/
theorem rdN_wrN (m : List Host.Cell) (a n v : Nat) : rdN (wrN m a n v) a n = v % 256 ^ n := by
  induction n generalizing m a v with
  | zero => simp [rdN, Nat.mod_one]
  | succ k ih =>
    rw [rdN, wrN, rdByte_wrN_ne _ _ _ _ _ (by omega), rdByte_wrByte_self, ih]
    rw [Nat.pow_succ', Nat.mod_mul]
    simp [BitVec.toNat_ofNat]

end Sys2Proof.Machine
end

