-- ==== Sys2Proof/Laws/Issue.lean ====
section
/-! SUPPORT. What the shared prologue and the completion of an instruction do: each as one lemma. -/

namespace Sys2Proof.Machine

theorem mem_lanesOf (m : Word) (l : Nat) : l ∈ lanesOf m ↔ l < 32 ∧ bit m l = true := by
  simp [lanesOf]

theorem vWaits_eq_false {g : Group} {rs : List Nat}
    (h : ∀ r ∈ rs, ∀ l ∈ List.range 32, (g.elem r l).isPend = false) : vWaits g rs = false := by
  simp only [vWaits, List.any_eq_false, Bool.not_eq_true]
  exact fun r hr l hl => by simpa using h r hr l hl

theorem any_eq_false_of {p : Nat → Bool} {rs : List Nat} (h : ∀ r ∈ rs, p r = false) : rs.any p = false := by
  simpa using h

/-- Where the checks pass, the instruction acts on its group. -/
theorem begin_of_issues {s : State} {g : Group} {u : Use} (h : Issues s g u) (k : Group → Out) : begin_ s u k = k g := by
  obtain ⟨hg, hp, hv, hh, hc, hr, hq, hs, hw, hsr, hhr⟩ := h
  simp only [begin_, hg]
  have h1 : (u.rule = PfxRule.no && s.iss.pfx.isSome) = false := by
    by_cases hn : u.rule = .no
    · simp [hp hn]
    · simp [hn]
  have h2 : ((u.v ++ (fourth s).toList).any fun r => decide (g.id.nv ≤ r)) = false :=
    any_eq_false_of fun r hr => by simpa using hv r hr
  have h3 : (u.h.any fun r => decide (g.id.nhr ≤ r)) = false := any_eq_false_of fun r hr => by simpa using hh r hr
  have h4 : (u.c.any fun r => decide (g.id.ncr ≤ r)) = false := any_eq_false_of fun r hr => by simpa using hc r hr
  have h5 : s.iss.pfx.any u.rule.reserved = false := by
    cases hpf : s.iss.pfx with
    | none => rfl
    | some p => simpa using hq p (by simp [hpf])
  have h6 : (u.priv && !g.id.sup) = false := by
    cases hu : u.priv
    · rfl
    · simp [hs hu]
  have h7 := vWaits_eq_false hw
  have h8 := any_eq_false_of hsr
  have h9 := any_eq_false_of hhr
  simp only [h1, h2, h3, h4, h5, h6, h7, h8, h9, hr, Bool.or_self, Bool.false_eq_true, if_false]

/-- Completing gives the state after the instruction. -/
theorem complete_eq (s : State) (g : Group) : complete s g = .next (s.after g) := rfl
theorem completeMoved_eq (s : State) (g : Group) : completeMoved s g = .next (s.moved g) := rfl

/-- Known elements hold no form. -/
theorem formsIn_of_known {g : Group} {rs ls : List Nat} (h : Known g rs ls) : formsIn g rs ls = [] := by
  rw [formsIn, List.flatMap_eq_nil_iff]
  intro r hr
  rw [List.filterMap_eq_nil_iff]
  intro l hl
  rw [h r hr l hl]

/-- Known elements hold no poison. -/
theorem firstPoison_of_known {g : Group} {rs ls : List Nat} (h : Known g rs ls) : firstPoison g rs ls = none := by
  have hnil : (ls.flatMap fun l => rs.filterMap fun r => (g.elem r l).poison) = [] := by
    rw [List.flatMap_eq_nil_iff]
    intro l hl
    rw [List.filterMap_eq_nil_iff]
    intro r hr
    rw [h r hr l hl]; rfl
  simp [firstPoison, hnil]

/-- Where no element holds a form or poison, a use does not block. -/
theorem blocking_of_known {g : Group} {rs ls : List Nat} (h : Known g rs ls) (s : State) (k : Out) :
    blocking s g rs ls k = k := by
  simp [blocking, formsIn_of_known h, firstPoison_of_known h]

theorem blockingTwo_of_known {g : Group} {b : Nat} {bs cs ls : List Nat} (hb : Known g [b] bs) (hc : Known g cs ls)
    (s : State) (k : Out) : blockingTwo s g b bs cs ls k = k := by
  have hnil : ((List.range 32).flatMap fun l =>
        ((if bs.contains l then [b] else []) ++ (if ls.contains l then cs else [])).filterMap fun r =>
          (g.elem r l).poison) = [] := by
    rw [List.flatMap_eq_nil_iff]
    intro l _
    rw [List.filterMap_eq_nil_iff]
    intro r hr
    rcases List.mem_append.1 hr with h | h
    · split at h
      · rw [hb r h l (by simpa using ‹bs.contains l = true›)]; rfl
      · simp at h
    · split at h
      · rw [hc r h l (by simpa using ‹ls.contains l = true›)]; rfl
      · simp at h
  rw [blockingTwo, formsIn_of_known hb, formsIn_of_known hc]
  simp only [List.append_nil, hnil, List.head?_nil]

theorem blockingAccess_of_known {g : Group} {rs ls : List Nat} (h : Known g rs ls) (s : State) (checks k : Out) :
    blockingAccess s g rs ls checks k = k := by
  simp [blockingAccess, formsIn_of_known h, firstPoison_of_known h]

/-- A lane instruction on known operands completes with its results written. -/
theorem laneOp_of_known {s : State} {g : Group} {rule : PfxRule} {a n : Nat} {named rs sr : List Nat}
    {f : Group → Nat → Nat → Word}
    (h : Issues s g { rule := rule, v := (List.range n).map (a + ·) ++ named ++ rs, vr := rs, sr := sr })
    (hk : Known g rs (lanesOf (execMask s g))) :
    laneOp s rule a n named rs sr f = .next (s.after (writeLanes s g a n (f g))) := by
  rw [laneOp, begin_of_issues h, blocking_of_known hk, complete_eq]

theorem laneOp_of_ready {s : State} {g : Group} {rule : PfxRule} {a n : Nat} {rs sr : List Nat}
    {f : Group → Nat → Nat → Word} (h : LaneReady s g rule a n rs sr) :
    laneOp s rule a n [] rs sr f = .next (s.after (writeLanes s g a n (f g))) :=
  laneOp_of_known (by simpa using h.1) h.2

/-- A scalar instruction completes with its result written. -/
theorem scalarOp_of_issues {s : State} {g : Group} {a b : SReg} {c : XOp} {f : Word → Word → Word}
    (h : Issues s g { sr := b.toNat :: XOp.reg c }) :
    scalarOp s a b c f = .next (s.after (g.setS a.toNat (f (g.sreg b.toNat) (g.opX c)))) := by
  rw [scalarOp, begin_of_issues h, complete_eq]

end Sys2Proof.Machine
end

