-- ==== Sys2Proof/Laws/Bits.lean ====
section
/-! SUPPORT. Lane masks and lane slots: what bit of a mask is set, and what a change to the lanes of a mask does to
each slot. -/

namespace Sys2Proof.Machine

theorem bit_eq (w : Word) (l : Nat) : bit w l = w.getLsbD l := by
  simp [bit, BitVec.getLsbD, Nat.testBit, Nat.shiftRight_eq_div_pow]

theorem bit_ge (w : Word) {l : Nat} (h : 32 ≤ l) : bit w l = false := by rw [bit_eq]; simp [h]

theorem bit_lt {w : Word} {l : Nat} (h : bit w l = true) : l < 32 := by
  by_cases h2 : l < 32
  · exact h2
  · rw [bit_ge w (by omega)] at h; exact absurd h (by simp)

theorem mem_lanesOf_iff (m : Word) (l : Nat) : l ∈ lanesOf m ↔ bit m l = true := by
  rw [mem_lanesOf]; exact ⟨fun h => h.2, fun h => ⟨bit_lt h, h⟩⟩

theorem bit_and (a b : Word) (l : Nat) : bit (a &&& b) l = (bit a l && bit b l) := by simp [bit_eq]

theorem bit_and_not (a b : Word) {l : Nat} (h : l < 32) : bit (a &&& ~~~b) l = (bit a l && !bit b l) := by
  simp [bit_eq, h]

theorem bit_zero (l : Nat) : bit 0 l = false := by simp [bit_eq]

theorem bit_one_shift {l k : Nat} (h : l < 32) : bit (1 <<< k : Word) l = decide (l = k) := by
  have e : ((1 <<< k : Word)) = BitVec.ofNat 32 (2 ^ k) := by simp [Nat.one_shiftLeft]
  rw [bit_eq, e, BitVec.getLsbD_ofNat, Nat.testBit_two_pow]
  simp [h, eq_comm]

theorem bit_foldl_or (ls : List Nat) (m : Word) {l : Nat} (h : l < 32) :
    bit (ls.foldl (fun m l => m ||| (1 <<< l : Word)) m) l = (bit m l || decide (l ∈ ls)) := by
  induction ls generalizing m with
  | nil => simp
  | cons a t ih =>
    rw [List.foldl_cons, ih]
    have h1 : bit (m ||| (1 <<< a : Word)) l = (bit m l || bit (1 <<< a : Word) l) := by simp [bit_eq]
    rw [h1, bit_one_shift h]
    simp [Bool.or_assoc]

/-- The lanes of a mask made from a list. -/
theorem bit_maskOf (ls : List Nat) {l : Nat} (h : l < 32) : bit (maskOf ls) l = decide (l ∈ ls) := by
  rw [maskOf, bit_foldl_or ls 0 h, bit_zero]; rfl

@[simp] theorem maskOf_nil : maskOf [] = 0 := rfl

/-- A change to the lanes of a mask changes each slot of it and no other. -/
theorem lane_setLanes (g : Group) (m : Word) (f : Lane → Lane) (l : Nat) :
    (g.setLanes m f).lane l = if bit m l = true ∧ l < g.lanes.length then f (g.lane l) else g.lane l := by
  simp only [Group.setLanes, Group.lane, List.getD_eq_getElem?_getD, List.getElem?_mapIdx]
  by_cases hl : l < g.lanes.length
  · simp [hl]
  · simp [hl]

theorem lane_place (g : Group) (m : Word) (f : Nat → Word × Arrival) (l : Nat) :
    (g.place m f).lane l = if bit m l = true ∧ l < g.lanes.length then { g.lane l with pcv := (f l).1, hop := (f l).2 }
      else g.lane l := by
  simp only [Group.place, Group.lane, List.getD_eq_getElem?_getD, List.getElem?_mapIdx]
  by_cases hl : l < g.lanes.length
  · simp [hl]
  · simp [hl]

@[simp] theorem length_setLanes (g : Group) (m : Word) (f : Lane → Lane) : (g.setLanes m f).lanes.length = g.lanes.length := by
  simp [Group.setLanes]

/-- The group of the issue after it. -/
@[simp] theorem group_after (s : State) (g : Group) : (s.after g).group s.iss.g
    = some (g.setLanes s.iss.lanes fun l => if l.running then { l with pcv := word s.iss.next, hop := .along } else l) :=
  tget_tput_self _ _ _
@[simp] theorem group_moved (s : State) (g : Group) : (s.moved g).group s.iss.g = some g := tget_tput_self _ _ _

end Sys2Proof.Machine
end

