-- ==== Sys2Proof/Laws/State.lean ====
section
/-! SUPPORT. What each named update of the state and of a group leaves alone: one lemma per field per update, so that
no later proof unfolds a record update. -/

namespace Sys2Proof.Machine

/-! `putGroup`. -/

@[simp] theorem putGroup_turns (s : State) (k : Nat) (g : Group) : (putGroup s k g).turns = s.turns := rfl
@[simp] theorem putGroup_iss (s : State) (k : Nat) (g : Group) : (putGroup s k g).iss = s.iss := rfl
@[simp] theorem putGroup_free (s : State) (k : Nat) (g : Group) : (putGroup s k g).free = s.free := rfl
@[simp] theorem putGroup_fresh (s : State) (k : Nat) (g : Group) : (putGroup s k g).fresh = s.fresh := rfl
@[simp] theorem putGroup_time (s : State) (k : Nat) (g : Group) : (putGroup s k g).time = s.time := rfl
@[simp] theorem putGroup_mclk (s : State) (k : Nat) (g : Group) : (putGroup s k g).mclk = s.mclk := rfl
@[simp] theorem putGroup_lclk (s : State) (k : Nat) (g : Group) : (putGroup s k g).lclk = s.lclk := rfl
@[simp] theorem putGroup_mem (s : State) (k : Nat) (g : Group) : (putGroup s k g).mem = s.mem := rfl
@[simp] theorem putGroup_scr (s : State) (k : Nat) (g : Group) : (putGroup s k g).scr = s.scr := rfl
@[simp] theorem putGroup_arena (s : State) (k : Nat) (g : Group) : (putGroup s k g).arena = s.arena := rfl
@[simp] theorem putGroup_bst (s : State) (k : Nat) (g : Group) : (putGroup s k g).bst = s.bst := rfl
@[simp] theorem putGroup_ring (s : State) (k : Nat) (g : Group) : (putGroup s k g).ring = s.ring := rfl
@[simp] theorem putGroup_aboard (s : State) (k : Nat) (g : Group) : (putGroup s k g).aboard = s.aboard := rfl
@[simp] theorem putGroup_caps (s : State) (k : Nat) (g : Group) : (putGroup s k g).caps = s.caps := rfl
@[simp] theorem putGroup_regs (s : State) (k : Nat) (g : Group) : (putGroup s k g).regs = s.regs := rfl
@[simp] theorem putGroup_held (s : State) (k : Nat) (g : Group) : (putGroup s k g).held = s.held := rfl
@[simp] theorem putGroup_teams (s : State) (k : Nat) (g : Group) : (putGroup s k g).teams = s.teams := rfl
@[simp] theorem putGroup_clusters (s : State) (k : Nat) (g : Group) : (putGroup s k g).clusters = s.clusters := rfl
@[simp] theorem putGroup_saved (s : State) (k : Nat) (g : Group) : (putGroup s k g).saved = s.saved := rfl
@[simp] theorem putGroup_launches (s : State) (k : Nat) (g : Group) : (putGroup s k g).launches = s.launches := rfl
@[simp] theorem putGroup_queues (s : State) (k : Nat) (g : Group) : (putGroup s k g).queues = s.queues := rfl
@[simp] theorem putGroup_idents (s : State) (k : Nat) (g : Group) : (putGroup s k g).idents = s.idents := rfl
@[simp] theorem putGroup_launchCtx (s : State) (k : Nat) (g : Group) : (putGroup s k g).launchCtx = s.launchCtx := rfl
@[simp] theorem putGroup_events (s : State) (k : Nat) (g : Group) : (putGroup s k g).events = s.events := rfl
@[simp] theorem putGroup_prestat (s : State) (k : Nat) (g : Group) : (putGroup s k g).prestat = s.prestat := rfl
@[simp] theorem putGroup_leavers (s : State) (k : Nat) (g : Group) : (putGroup s k g).leavers = s.leavers := rfl
@[simp] theorem putGroup_rotq (s : State) (k : Nat) (g : Group) : (putGroup s k g).rotq = s.rotq := rfl
@[simp] theorem putGroup_slot (s : State) (k : Nat) (g : Group) : (putGroup s k g).slot = s.slot := rfl
@[simp] theorem putGroup_ctxs (s : State) (k : Nat) (g : Group) : (putGroup s k g).ctxs = s.ctxs := rfl
@[simp] theorem putGroup_banks (s : State) (k : Nat) (g : Group) : (putGroup s k g).banks = s.banks := rfl
@[simp] theorem putGroup_columns (s : State) (k : Nat) (g : Group) : (putGroup s k g).columns = s.columns := rfl
@[simp] theorem putGroup_granules (s : State) (k : Nat) (g : Group) : (putGroup s k g).granules = s.granules := rfl
@[simp] theorem putGroup_codes (s : State) (k : Nat) (g : Group) : (putGroup s k g).codes = s.codes := rfl
@[simp] theorem putGroup_images (s : State) (k : Nat) (g : Group) : (putGroup s k g).images = s.images := rfl
@[simp] theorem putGroup_tlb (s : State) (k : Nat) (g : Group) : (putGroup s k g).tlb = s.tlb := rfl
@[simp] theorem putGroup_lts (s : State) (k : Nat) (g : Group) : (putGroup s k g).lts = s.lts := rfl
@[simp] theorem putGroup_wts (s : State) (k : Nat) (g : Group) : (putGroup s k g).wts = s.wts := rfl
@[simp] theorem putGroup_rts (s : State) (k : Nat) (g : Group) : (putGroup s k g).rts = s.rts := rfl
@[simp] theorem putGroup_stamp (s : State) (k : Nat) (g : Group) : (putGroup s k g).stamp = s.stamp := rfl
@[simp] theorem putGroup_ltFloor (s : State) (k : Nat) (g : Group) : (putGroup s k g).ltFloor = s.ltFloor := rfl
@[simp] theorem putGroup_olds (s : State) (k : Nat) (g : Group) : (putGroup s k g).olds = s.olds := rfl
@[simp] theorem putGroup_late (s : State) (k : Nat) (g : Group) : (putGroup s k g).late = s.late := rfl
@[simp] theorem putGroup_walks (s : State) (k : Nat) (g : Group) : (putGroup s k g).walks = s.walks := rfl
@[simp] theorem putGroup_l1 (s : State) (k : Nat) (g : Group) : (putGroup s k g).l1 = s.l1 := rfl
@[simp] theorem putGroup_llc (s : State) (k : Nat) (g : Group) : (putGroup s k g).llc = s.llc := rfl
@[simp] theorem putGroup_uses (s : State) (k : Nat) (g : Group) : (putGroup s k g).uses = s.uses := rfl
@[simp] theorem putGroup_spilled (s : State) (k : Nat) (g : Group) : (putGroup s k g).spilled = s.spilled := rfl
@[simp] theorem putGroup_partials (s : State) (k : Nat) (g : Group) : (putGroup s k g).partials = s.partials := rfl
@[simp] theorem putGroup_tiles (s : State) (k : Nat) (g : Group) : (putGroup s k g).tiles = s.tiles := rfl
@[simp] theorem putGroup_resvs (s : State) (k : Nat) (g : Group) : (putGroup s k g).resvs = s.resvs := rfl
@[simp] theorem putGroup_spills (s : State) (k : Nat) (g : Group) : (putGroup s k g).spills = s.spills := rfl
@[simp] theorem putGroup_defs (s : State) (k : Nat) (g : Group) : (putGroup s k g).defs = s.defs := rfl
@[simp] theorem putGroup_bowner (s : State) (k : Nat) (g : Group) : (putGroup s k g).bowner = s.bowner := rfl
@[simp] theorem putGroup_cmds (s : State) (k : Nat) (g : Group) : (putGroup s k g).cmds = s.cmds := rfl
@[simp] theorem putGroup_msgs (s : State) (k : Nat) (g : Group) : (putGroup s k g).msgs = s.msgs := rfl
@[simp] theorem putGroup_tris (s : State) (k : Nat) (g : Group) : (putGroup s k g).tris = s.tris := rfl
@[simp] theorem putGroup_plans (s : State) (k : Nat) (g : Group) : (putGroup s k g).plans = s.plans := rfl
@[simp] theorem putGroup_locus (s : State) (k : Nat) (g : Group) : (putGroup s k g).locus = s.locus := rfl
@[simp] theorem putGroup_filters (s : State) (k : Nat) (g : Group) : (putGroup s k g).filters = s.filters := rfl
@[simp] theorem putGroup_samples (s : State) (k : Nat) (g : Group) : (putGroup s k g).samples = s.samples := rfl
@[simp] theorem putGroup_stops (s : State) (k : Nat) (g : Group) : (putGroup s k g).stops = s.stops := rfl
@[simp] theorem putGroup_steps (s : State) (k : Nat) (g : Group) : (putGroup s k g).steps = s.steps := rfl
@[simp] theorem putGroup_irqs (s : State) (k : Nat) (g : Group) : (putGroup s k g).irqs = s.irqs := rfl
@[simp] theorem putGroup_ratio (s : State) (k : Nat) (g : Group) : (putGroup s k g).ratio = s.ratio := rfl
@[simp] theorem putGroup_stall (s : State) (k : Nat) (g : Group) : (putGroup s k g).stall = s.stall := rfl
@[simp] theorem putGroup_retireState (s : State) (k : Nat) (g : Group) : (putGroup s k g).retireState = s.retireState := rfl
@[simp] theorem putGroup_retire (s : State) (k : Nat) (g : Group) : (putGroup s k g).retire = s.retire := rfl
@[simp] theorem putGroup_retireQueue (s : State) (k : Nat) (g : Group) : (putGroup s k g).retireQueue = s.retireQueue := rfl
@[simp] theorem putGroup_wear (s : State) (k : Nat) (g : Group) : (putGroup s k g).wear = s.wear := rfl
@[simp] theorem putGroup_failed (s : State) (k : Nat) (g : Group) : (putGroup s k g).failed = s.failed := rfl
@[simp] theorem putGroup_fuseKey (s : State) (k : Nat) (g : Group) : (putGroup s k g).fuseKey = s.fuseKey := rfl
@[simp] theorem putGroup_rollback (s : State) (k : Nat) (g : Group) : (putGroup s k g).rollback = s.rollback := rfl
@[simp] theorem putGroup_flashHeader (s : State) (k : Nat) (g : Group) : (putGroup s k g).flashHeader = s.flashHeader := rfl
@[simp] theorem putGroup_flashBody (s : State) (k : Nat) (g : Group) : (putGroup s k g).flashBody = s.flashBody := rfl
@[simp] theorem putGroup_flashKey (s : State) (k : Nat) (g : Group) : (putGroup s k g).flashKey = s.flashKey := rfl
@[simp] theorem putGroup_flashSig (s : State) (k : Nat) (g : Group) : (putGroup s k g).flashSig = s.flashSig := rfl
@[simp] theorem putGroup_pstate (s : State) (k : Nat) (g : Group) : (putGroup s k g).pstate = s.pstate := rfl
@[simp] theorem putGroup_floor (s : State) (k : Nat) (g : Group) : (putGroup s k g).floor = s.floor := rfl
@[simp] theorem putGroup_causes (s : State) (k : Nat) (g : Group) : (putGroup s k g).causes = s.causes := rfl
@[simp] theorem putGroup_causeSince (s : State) (k : Nat) (g : Group) : (putGroup s k g).causeSince = s.causeSince := rfl
@[simp] theorem putGroup_quietSince (s : State) (k : Nat) (g : Group) : (putGroup s k g).quietSince = s.quietSince := rfl
@[simp] theorem putGroup_sessionKeys (s : State) (k : Nat) (g : Group) : (putGroup s k g).sessionKeys = s.sessionKeys := rfl
@[simp] theorem putGroup_alarmed (s : State) (k : Nat) (g : Group) : (putGroup s k g).alarmed = s.alarmed := rfl
@[simp] theorem putGroup_report (s : State) (k : Nat) (g : Group) : (putGroup s k g).report = s.report := rfl
@[simp] theorem putGroup_ptm (s : State) (k : Nat) (g : Group) : (putGroup s k g).ptm = s.ptm := rfl
@[simp] theorem putGroup_ucieHalf (s : State) (k : Nat) (g : Group) : (putGroup s k g).ucieHalf = s.ucieHalf := rfl
@[simp] theorem putGroup_subnets (s : State) (k : Nat) (g : Group) : (putGroup s k g).subnets = s.subnets := rfl
@[simp] theorem putGroup_peers (s : State) (k : Nat) (g : Group) : (putGroup s k g).peers = s.peers := rfl
@[simp] theorem putGroup_vlreqs (s : State) (k : Nat) (g : Group) : (putGroup s k g).vlreqs = s.vlreqs := rfl
@[simp] theorem putGroup_hostReads (s : State) (k : Nat) (g : Group) : (putGroup s k g).hostReads = s.hostReads := rfl

/-! `updGroup`. -/

@[simp] theorem updGroup_turns (s : State) (k : Nat) (f : Group → Group) : (updGroup s k f).turns = s.turns := rfl
@[simp] theorem updGroup_iss (s : State) (k : Nat) (f : Group → Group) : (updGroup s k f).iss = s.iss := rfl
@[simp] theorem updGroup_free (s : State) (k : Nat) (f : Group → Group) : (updGroup s k f).free = s.free := rfl
@[simp] theorem updGroup_fresh (s : State) (k : Nat) (f : Group → Group) : (updGroup s k f).fresh = s.fresh := rfl
@[simp] theorem updGroup_time (s : State) (k : Nat) (f : Group → Group) : (updGroup s k f).time = s.time := rfl
@[simp] theorem updGroup_mclk (s : State) (k : Nat) (f : Group → Group) : (updGroup s k f).mclk = s.mclk := rfl
@[simp] theorem updGroup_lclk (s : State) (k : Nat) (f : Group → Group) : (updGroup s k f).lclk = s.lclk := rfl
@[simp] theorem updGroup_mem (s : State) (k : Nat) (f : Group → Group) : (updGroup s k f).mem = s.mem := rfl
@[simp] theorem updGroup_scr (s : State) (k : Nat) (f : Group → Group) : (updGroup s k f).scr = s.scr := rfl
@[simp] theorem updGroup_arena (s : State) (k : Nat) (f : Group → Group) : (updGroup s k f).arena = s.arena := rfl
@[simp] theorem updGroup_bst (s : State) (k : Nat) (f : Group → Group) : (updGroup s k f).bst = s.bst := rfl
@[simp] theorem updGroup_ring (s : State) (k : Nat) (f : Group → Group) : (updGroup s k f).ring = s.ring := rfl
@[simp] theorem updGroup_aboard (s : State) (k : Nat) (f : Group → Group) : (updGroup s k f).aboard = s.aboard := rfl
@[simp] theorem updGroup_caps (s : State) (k : Nat) (f : Group → Group) : (updGroup s k f).caps = s.caps := rfl
@[simp] theorem updGroup_regs (s : State) (k : Nat) (f : Group → Group) : (updGroup s k f).regs = s.regs := rfl
@[simp] theorem updGroup_held (s : State) (k : Nat) (f : Group → Group) : (updGroup s k f).held = s.held := rfl
@[simp] theorem updGroup_teams (s : State) (k : Nat) (f : Group → Group) : (updGroup s k f).teams = s.teams := rfl
@[simp] theorem updGroup_clusters (s : State) (k : Nat) (f : Group → Group) : (updGroup s k f).clusters = s.clusters := rfl
@[simp] theorem updGroup_saved (s : State) (k : Nat) (f : Group → Group) : (updGroup s k f).saved = s.saved := rfl
@[simp] theorem updGroup_launches (s : State) (k : Nat) (f : Group → Group) : (updGroup s k f).launches = s.launches := rfl
@[simp] theorem updGroup_queues (s : State) (k : Nat) (f : Group → Group) : (updGroup s k f).queues = s.queues := rfl
@[simp] theorem updGroup_idents (s : State) (k : Nat) (f : Group → Group) : (updGroup s k f).idents = s.idents := rfl
@[simp] theorem updGroup_launchCtx (s : State) (k : Nat) (f : Group → Group) : (updGroup s k f).launchCtx = s.launchCtx := rfl
@[simp] theorem updGroup_events (s : State) (k : Nat) (f : Group → Group) : (updGroup s k f).events = s.events := rfl
@[simp] theorem updGroup_prestat (s : State) (k : Nat) (f : Group → Group) : (updGroup s k f).prestat = s.prestat := rfl
@[simp] theorem updGroup_leavers (s : State) (k : Nat) (f : Group → Group) : (updGroup s k f).leavers = s.leavers := rfl
@[simp] theorem updGroup_rotq (s : State) (k : Nat) (f : Group → Group) : (updGroup s k f).rotq = s.rotq := rfl
@[simp] theorem updGroup_slot (s : State) (k : Nat) (f : Group → Group) : (updGroup s k f).slot = s.slot := rfl
@[simp] theorem updGroup_ctxs (s : State) (k : Nat) (f : Group → Group) : (updGroup s k f).ctxs = s.ctxs := rfl
@[simp] theorem updGroup_banks (s : State) (k : Nat) (f : Group → Group) : (updGroup s k f).banks = s.banks := rfl
@[simp] theorem updGroup_columns (s : State) (k : Nat) (f : Group → Group) : (updGroup s k f).columns = s.columns := rfl
@[simp] theorem updGroup_granules (s : State) (k : Nat) (f : Group → Group) : (updGroup s k f).granules = s.granules := rfl
@[simp] theorem updGroup_codes (s : State) (k : Nat) (f : Group → Group) : (updGroup s k f).codes = s.codes := rfl
@[simp] theorem updGroup_images (s : State) (k : Nat) (f : Group → Group) : (updGroup s k f).images = s.images := rfl
@[simp] theorem updGroup_tlb (s : State) (k : Nat) (f : Group → Group) : (updGroup s k f).tlb = s.tlb := rfl
@[simp] theorem updGroup_lts (s : State) (k : Nat) (f : Group → Group) : (updGroup s k f).lts = s.lts := rfl
@[simp] theorem updGroup_wts (s : State) (k : Nat) (f : Group → Group) : (updGroup s k f).wts = s.wts := rfl
@[simp] theorem updGroup_rts (s : State) (k : Nat) (f : Group → Group) : (updGroup s k f).rts = s.rts := rfl
@[simp] theorem updGroup_stamp (s : State) (k : Nat) (f : Group → Group) : (updGroup s k f).stamp = s.stamp := rfl
@[simp] theorem updGroup_ltFloor (s : State) (k : Nat) (f : Group → Group) : (updGroup s k f).ltFloor = s.ltFloor := rfl
@[simp] theorem updGroup_olds (s : State) (k : Nat) (f : Group → Group) : (updGroup s k f).olds = s.olds := rfl
@[simp] theorem updGroup_late (s : State) (k : Nat) (f : Group → Group) : (updGroup s k f).late = s.late := rfl
@[simp] theorem updGroup_walks (s : State) (k : Nat) (f : Group → Group) : (updGroup s k f).walks = s.walks := rfl
@[simp] theorem updGroup_l1 (s : State) (k : Nat) (f : Group → Group) : (updGroup s k f).l1 = s.l1 := rfl
@[simp] theorem updGroup_llc (s : State) (k : Nat) (f : Group → Group) : (updGroup s k f).llc = s.llc := rfl
@[simp] theorem updGroup_uses (s : State) (k : Nat) (f : Group → Group) : (updGroup s k f).uses = s.uses := rfl
@[simp] theorem updGroup_spilled (s : State) (k : Nat) (f : Group → Group) : (updGroup s k f).spilled = s.spilled := rfl
@[simp] theorem updGroup_partials (s : State) (k : Nat) (f : Group → Group) : (updGroup s k f).partials = s.partials := rfl
@[simp] theorem updGroup_tiles (s : State) (k : Nat) (f : Group → Group) : (updGroup s k f).tiles = s.tiles := rfl
@[simp] theorem updGroup_resvs (s : State) (k : Nat) (f : Group → Group) : (updGroup s k f).resvs = s.resvs := rfl
@[simp] theorem updGroup_spills (s : State) (k : Nat) (f : Group → Group) : (updGroup s k f).spills = s.spills := rfl
@[simp] theorem updGroup_defs (s : State) (k : Nat) (f : Group → Group) : (updGroup s k f).defs = s.defs := rfl
@[simp] theorem updGroup_bowner (s : State) (k : Nat) (f : Group → Group) : (updGroup s k f).bowner = s.bowner := rfl
@[simp] theorem updGroup_cmds (s : State) (k : Nat) (f : Group → Group) : (updGroup s k f).cmds = s.cmds := rfl
@[simp] theorem updGroup_msgs (s : State) (k : Nat) (f : Group → Group) : (updGroup s k f).msgs = s.msgs := rfl
@[simp] theorem updGroup_tris (s : State) (k : Nat) (f : Group → Group) : (updGroup s k f).tris = s.tris := rfl
@[simp] theorem updGroup_plans (s : State) (k : Nat) (f : Group → Group) : (updGroup s k f).plans = s.plans := rfl
@[simp] theorem updGroup_locus (s : State) (k : Nat) (f : Group → Group) : (updGroup s k f).locus = s.locus := rfl
@[simp] theorem updGroup_filters (s : State) (k : Nat) (f : Group → Group) : (updGroup s k f).filters = s.filters := rfl
@[simp] theorem updGroup_samples (s : State) (k : Nat) (f : Group → Group) : (updGroup s k f).samples = s.samples := rfl
@[simp] theorem updGroup_stops (s : State) (k : Nat) (f : Group → Group) : (updGroup s k f).stops = s.stops := rfl
@[simp] theorem updGroup_steps (s : State) (k : Nat) (f : Group → Group) : (updGroup s k f).steps = s.steps := rfl
@[simp] theorem updGroup_irqs (s : State) (k : Nat) (f : Group → Group) : (updGroup s k f).irqs = s.irqs := rfl
@[simp] theorem updGroup_ratio (s : State) (k : Nat) (f : Group → Group) : (updGroup s k f).ratio = s.ratio := rfl
@[simp] theorem updGroup_stall (s : State) (k : Nat) (f : Group → Group) : (updGroup s k f).stall = s.stall := rfl
@[simp] theorem updGroup_retireState (s : State) (k : Nat) (f : Group → Group) : (updGroup s k f).retireState = s.retireState := rfl
@[simp] theorem updGroup_retire (s : State) (k : Nat) (f : Group → Group) : (updGroup s k f).retire = s.retire := rfl
@[simp] theorem updGroup_retireQueue (s : State) (k : Nat) (f : Group → Group) : (updGroup s k f).retireQueue = s.retireQueue := rfl
@[simp] theorem updGroup_wear (s : State) (k : Nat) (f : Group → Group) : (updGroup s k f).wear = s.wear := rfl
@[simp] theorem updGroup_failed (s : State) (k : Nat) (f : Group → Group) : (updGroup s k f).failed = s.failed := rfl
@[simp] theorem updGroup_fuseKey (s : State) (k : Nat) (f : Group → Group) : (updGroup s k f).fuseKey = s.fuseKey := rfl
@[simp] theorem updGroup_rollback (s : State) (k : Nat) (f : Group → Group) : (updGroup s k f).rollback = s.rollback := rfl
@[simp] theorem updGroup_flashHeader (s : State) (k : Nat) (f : Group → Group) : (updGroup s k f).flashHeader = s.flashHeader := rfl
@[simp] theorem updGroup_flashBody (s : State) (k : Nat) (f : Group → Group) : (updGroup s k f).flashBody = s.flashBody := rfl
@[simp] theorem updGroup_flashKey (s : State) (k : Nat) (f : Group → Group) : (updGroup s k f).flashKey = s.flashKey := rfl
@[simp] theorem updGroup_flashSig (s : State) (k : Nat) (f : Group → Group) : (updGroup s k f).flashSig = s.flashSig := rfl
@[simp] theorem updGroup_pstate (s : State) (k : Nat) (f : Group → Group) : (updGroup s k f).pstate = s.pstate := rfl
@[simp] theorem updGroup_floor (s : State) (k : Nat) (f : Group → Group) : (updGroup s k f).floor = s.floor := rfl
@[simp] theorem updGroup_causes (s : State) (k : Nat) (f : Group → Group) : (updGroup s k f).causes = s.causes := rfl
@[simp] theorem updGroup_causeSince (s : State) (k : Nat) (f : Group → Group) : (updGroup s k f).causeSince = s.causeSince := rfl
@[simp] theorem updGroup_quietSince (s : State) (k : Nat) (f : Group → Group) : (updGroup s k f).quietSince = s.quietSince := rfl
@[simp] theorem updGroup_sessionKeys (s : State) (k : Nat) (f : Group → Group) : (updGroup s k f).sessionKeys = s.sessionKeys := rfl
@[simp] theorem updGroup_alarmed (s : State) (k : Nat) (f : Group → Group) : (updGroup s k f).alarmed = s.alarmed := rfl
@[simp] theorem updGroup_report (s : State) (k : Nat) (f : Group → Group) : (updGroup s k f).report = s.report := rfl
@[simp] theorem updGroup_ptm (s : State) (k : Nat) (f : Group → Group) : (updGroup s k f).ptm = s.ptm := rfl
@[simp] theorem updGroup_ucieHalf (s : State) (k : Nat) (f : Group → Group) : (updGroup s k f).ucieHalf = s.ucieHalf := rfl
@[simp] theorem updGroup_subnets (s : State) (k : Nat) (f : Group → Group) : (updGroup s k f).subnets = s.subnets := rfl
@[simp] theorem updGroup_peers (s : State) (k : Nat) (f : Group → Group) : (updGroup s k f).peers = s.peers := rfl
@[simp] theorem updGroup_vlreqs (s : State) (k : Nat) (f : Group → Group) : (updGroup s k f).vlreqs = s.vlreqs := rfl
@[simp] theorem updGroup_hostReads (s : State) (k : Nat) (f : Group → Group) : (updGroup s k f).hostReads = s.hostReads := rfl

/-! `updTeam`. -/

@[simp] theorem updTeam_turns (s : State) (k : Nat) (f : Team → Team) : (updTeam s k f).turns = s.turns := rfl
@[simp] theorem updTeam_iss (s : State) (k : Nat) (f : Team → Team) : (updTeam s k f).iss = s.iss := rfl
@[simp] theorem updTeam_free (s : State) (k : Nat) (f : Team → Team) : (updTeam s k f).free = s.free := rfl
@[simp] theorem updTeam_fresh (s : State) (k : Nat) (f : Team → Team) : (updTeam s k f).fresh = s.fresh := rfl
@[simp] theorem updTeam_time (s : State) (k : Nat) (f : Team → Team) : (updTeam s k f).time = s.time := rfl
@[simp] theorem updTeam_mclk (s : State) (k : Nat) (f : Team → Team) : (updTeam s k f).mclk = s.mclk := rfl
@[simp] theorem updTeam_lclk (s : State) (k : Nat) (f : Team → Team) : (updTeam s k f).lclk = s.lclk := rfl
@[simp] theorem updTeam_mem (s : State) (k : Nat) (f : Team → Team) : (updTeam s k f).mem = s.mem := rfl
@[simp] theorem updTeam_scr (s : State) (k : Nat) (f : Team → Team) : (updTeam s k f).scr = s.scr := rfl
@[simp] theorem updTeam_arena (s : State) (k : Nat) (f : Team → Team) : (updTeam s k f).arena = s.arena := rfl
@[simp] theorem updTeam_bst (s : State) (k : Nat) (f : Team → Team) : (updTeam s k f).bst = s.bst := rfl
@[simp] theorem updTeam_ring (s : State) (k : Nat) (f : Team → Team) : (updTeam s k f).ring = s.ring := rfl
@[simp] theorem updTeam_aboard (s : State) (k : Nat) (f : Team → Team) : (updTeam s k f).aboard = s.aboard := rfl
@[simp] theorem updTeam_caps (s : State) (k : Nat) (f : Team → Team) : (updTeam s k f).caps = s.caps := rfl
@[simp] theorem updTeam_regs (s : State) (k : Nat) (f : Team → Team) : (updTeam s k f).regs = s.regs := rfl
@[simp] theorem updTeam_held (s : State) (k : Nat) (f : Team → Team) : (updTeam s k f).held = s.held := rfl
@[simp] theorem updTeam_groups (s : State) (k : Nat) (f : Team → Team) : (updTeam s k f).groups = s.groups := rfl
@[simp] theorem updTeam_clusters (s : State) (k : Nat) (f : Team → Team) : (updTeam s k f).clusters = s.clusters := rfl
@[simp] theorem updTeam_saved (s : State) (k : Nat) (f : Team → Team) : (updTeam s k f).saved = s.saved := rfl
@[simp] theorem updTeam_launches (s : State) (k : Nat) (f : Team → Team) : (updTeam s k f).launches = s.launches := rfl
@[simp] theorem updTeam_queues (s : State) (k : Nat) (f : Team → Team) : (updTeam s k f).queues = s.queues := rfl
@[simp] theorem updTeam_idents (s : State) (k : Nat) (f : Team → Team) : (updTeam s k f).idents = s.idents := rfl
@[simp] theorem updTeam_launchCtx (s : State) (k : Nat) (f : Team → Team) : (updTeam s k f).launchCtx = s.launchCtx := rfl
@[simp] theorem updTeam_events (s : State) (k : Nat) (f : Team → Team) : (updTeam s k f).events = s.events := rfl
@[simp] theorem updTeam_prestat (s : State) (k : Nat) (f : Team → Team) : (updTeam s k f).prestat = s.prestat := rfl
@[simp] theorem updTeam_leavers (s : State) (k : Nat) (f : Team → Team) : (updTeam s k f).leavers = s.leavers := rfl
@[simp] theorem updTeam_rotq (s : State) (k : Nat) (f : Team → Team) : (updTeam s k f).rotq = s.rotq := rfl
@[simp] theorem updTeam_slot (s : State) (k : Nat) (f : Team → Team) : (updTeam s k f).slot = s.slot := rfl
@[simp] theorem updTeam_ctxs (s : State) (k : Nat) (f : Team → Team) : (updTeam s k f).ctxs = s.ctxs := rfl
@[simp] theorem updTeam_banks (s : State) (k : Nat) (f : Team → Team) : (updTeam s k f).banks = s.banks := rfl
@[simp] theorem updTeam_columns (s : State) (k : Nat) (f : Team → Team) : (updTeam s k f).columns = s.columns := rfl
@[simp] theorem updTeam_granules (s : State) (k : Nat) (f : Team → Team) : (updTeam s k f).granules = s.granules := rfl
@[simp] theorem updTeam_codes (s : State) (k : Nat) (f : Team → Team) : (updTeam s k f).codes = s.codes := rfl
@[simp] theorem updTeam_images (s : State) (k : Nat) (f : Team → Team) : (updTeam s k f).images = s.images := rfl
@[simp] theorem updTeam_tlb (s : State) (k : Nat) (f : Team → Team) : (updTeam s k f).tlb = s.tlb := rfl
@[simp] theorem updTeam_lts (s : State) (k : Nat) (f : Team → Team) : (updTeam s k f).lts = s.lts := rfl
@[simp] theorem updTeam_wts (s : State) (k : Nat) (f : Team → Team) : (updTeam s k f).wts = s.wts := rfl
@[simp] theorem updTeam_rts (s : State) (k : Nat) (f : Team → Team) : (updTeam s k f).rts = s.rts := rfl
@[simp] theorem updTeam_stamp (s : State) (k : Nat) (f : Team → Team) : (updTeam s k f).stamp = s.stamp := rfl
@[simp] theorem updTeam_ltFloor (s : State) (k : Nat) (f : Team → Team) : (updTeam s k f).ltFloor = s.ltFloor := rfl
@[simp] theorem updTeam_olds (s : State) (k : Nat) (f : Team → Team) : (updTeam s k f).olds = s.olds := rfl
@[simp] theorem updTeam_late (s : State) (k : Nat) (f : Team → Team) : (updTeam s k f).late = s.late := rfl
@[simp] theorem updTeam_walks (s : State) (k : Nat) (f : Team → Team) : (updTeam s k f).walks = s.walks := rfl
@[simp] theorem updTeam_l1 (s : State) (k : Nat) (f : Team → Team) : (updTeam s k f).l1 = s.l1 := rfl
@[simp] theorem updTeam_llc (s : State) (k : Nat) (f : Team → Team) : (updTeam s k f).llc = s.llc := rfl
@[simp] theorem updTeam_uses (s : State) (k : Nat) (f : Team → Team) : (updTeam s k f).uses = s.uses := rfl
@[simp] theorem updTeam_spilled (s : State) (k : Nat) (f : Team → Team) : (updTeam s k f).spilled = s.spilled := rfl
@[simp] theorem updTeam_partials (s : State) (k : Nat) (f : Team → Team) : (updTeam s k f).partials = s.partials := rfl
@[simp] theorem updTeam_tiles (s : State) (k : Nat) (f : Team → Team) : (updTeam s k f).tiles = s.tiles := rfl
@[simp] theorem updTeam_resvs (s : State) (k : Nat) (f : Team → Team) : (updTeam s k f).resvs = s.resvs := rfl
@[simp] theorem updTeam_spills (s : State) (k : Nat) (f : Team → Team) : (updTeam s k f).spills = s.spills := rfl
@[simp] theorem updTeam_defs (s : State) (k : Nat) (f : Team → Team) : (updTeam s k f).defs = s.defs := rfl
@[simp] theorem updTeam_bowner (s : State) (k : Nat) (f : Team → Team) : (updTeam s k f).bowner = s.bowner := rfl
@[simp] theorem updTeam_cmds (s : State) (k : Nat) (f : Team → Team) : (updTeam s k f).cmds = s.cmds := rfl
@[simp] theorem updTeam_msgs (s : State) (k : Nat) (f : Team → Team) : (updTeam s k f).msgs = s.msgs := rfl
@[simp] theorem updTeam_tris (s : State) (k : Nat) (f : Team → Team) : (updTeam s k f).tris = s.tris := rfl
@[simp] theorem updTeam_plans (s : State) (k : Nat) (f : Team → Team) : (updTeam s k f).plans = s.plans := rfl
@[simp] theorem updTeam_locus (s : State) (k : Nat) (f : Team → Team) : (updTeam s k f).locus = s.locus := rfl
@[simp] theorem updTeam_filters (s : State) (k : Nat) (f : Team → Team) : (updTeam s k f).filters = s.filters := rfl
@[simp] theorem updTeam_samples (s : State) (k : Nat) (f : Team → Team) : (updTeam s k f).samples = s.samples := rfl
@[simp] theorem updTeam_stops (s : State) (k : Nat) (f : Team → Team) : (updTeam s k f).stops = s.stops := rfl
@[simp] theorem updTeam_steps (s : State) (k : Nat) (f : Team → Team) : (updTeam s k f).steps = s.steps := rfl
@[simp] theorem updTeam_irqs (s : State) (k : Nat) (f : Team → Team) : (updTeam s k f).irqs = s.irqs := rfl
@[simp] theorem updTeam_ratio (s : State) (k : Nat) (f : Team → Team) : (updTeam s k f).ratio = s.ratio := rfl
@[simp] theorem updTeam_stall (s : State) (k : Nat) (f : Team → Team) : (updTeam s k f).stall = s.stall := rfl
@[simp] theorem updTeam_retireState (s : State) (k : Nat) (f : Team → Team) : (updTeam s k f).retireState = s.retireState := rfl
@[simp] theorem updTeam_retire (s : State) (k : Nat) (f : Team → Team) : (updTeam s k f).retire = s.retire := rfl
@[simp] theorem updTeam_retireQueue (s : State) (k : Nat) (f : Team → Team) : (updTeam s k f).retireQueue = s.retireQueue := rfl
@[simp] theorem updTeam_wear (s : State) (k : Nat) (f : Team → Team) : (updTeam s k f).wear = s.wear := rfl
@[simp] theorem updTeam_failed (s : State) (k : Nat) (f : Team → Team) : (updTeam s k f).failed = s.failed := rfl
@[simp] theorem updTeam_fuseKey (s : State) (k : Nat) (f : Team → Team) : (updTeam s k f).fuseKey = s.fuseKey := rfl
@[simp] theorem updTeam_rollback (s : State) (k : Nat) (f : Team → Team) : (updTeam s k f).rollback = s.rollback := rfl
@[simp] theorem updTeam_flashHeader (s : State) (k : Nat) (f : Team → Team) : (updTeam s k f).flashHeader = s.flashHeader := rfl
@[simp] theorem updTeam_flashBody (s : State) (k : Nat) (f : Team → Team) : (updTeam s k f).flashBody = s.flashBody := rfl
@[simp] theorem updTeam_flashKey (s : State) (k : Nat) (f : Team → Team) : (updTeam s k f).flashKey = s.flashKey := rfl
@[simp] theorem updTeam_flashSig (s : State) (k : Nat) (f : Team → Team) : (updTeam s k f).flashSig = s.flashSig := rfl
@[simp] theorem updTeam_pstate (s : State) (k : Nat) (f : Team → Team) : (updTeam s k f).pstate = s.pstate := rfl
@[simp] theorem updTeam_floor (s : State) (k : Nat) (f : Team → Team) : (updTeam s k f).floor = s.floor := rfl
@[simp] theorem updTeam_causes (s : State) (k : Nat) (f : Team → Team) : (updTeam s k f).causes = s.causes := rfl
@[simp] theorem updTeam_causeSince (s : State) (k : Nat) (f : Team → Team) : (updTeam s k f).causeSince = s.causeSince := rfl
@[simp] theorem updTeam_quietSince (s : State) (k : Nat) (f : Team → Team) : (updTeam s k f).quietSince = s.quietSince := rfl
@[simp] theorem updTeam_sessionKeys (s : State) (k : Nat) (f : Team → Team) : (updTeam s k f).sessionKeys = s.sessionKeys := rfl
@[simp] theorem updTeam_alarmed (s : State) (k : Nat) (f : Team → Team) : (updTeam s k f).alarmed = s.alarmed := rfl
@[simp] theorem updTeam_report (s : State) (k : Nat) (f : Team → Team) : (updTeam s k f).report = s.report := rfl
@[simp] theorem updTeam_ptm (s : State) (k : Nat) (f : Team → Team) : (updTeam s k f).ptm = s.ptm := rfl
@[simp] theorem updTeam_ucieHalf (s : State) (k : Nat) (f : Team → Team) : (updTeam s k f).ucieHalf = s.ucieHalf := rfl
@[simp] theorem updTeam_subnets (s : State) (k : Nat) (f : Team → Team) : (updTeam s k f).subnets = s.subnets := rfl
@[simp] theorem updTeam_peers (s : State) (k : Nat) (f : Team → Team) : (updTeam s k f).peers = s.peers := rfl
@[simp] theorem updTeam_vlreqs (s : State) (k : Nat) (f : Team → Team) : (updTeam s k f).vlreqs = s.vlreqs := rfl
@[simp] theorem updTeam_hostReads (s : State) (k : Nat) (f : Team → Team) : (updTeam s k f).hostReads = s.hostReads := rfl

/-! `putCtx`. -/

@[simp] theorem putCtx_turns (s : State) (c : Nat) (x : Ctx) : (putCtx s c x).turns = s.turns := rfl
@[simp] theorem putCtx_iss (s : State) (c : Nat) (x : Ctx) : (putCtx s c x).iss = s.iss := rfl
@[simp] theorem putCtx_free (s : State) (c : Nat) (x : Ctx) : (putCtx s c x).free = s.free := rfl
@[simp] theorem putCtx_fresh (s : State) (c : Nat) (x : Ctx) : (putCtx s c x).fresh = s.fresh := rfl
@[simp] theorem putCtx_time (s : State) (c : Nat) (x : Ctx) : (putCtx s c x).time = s.time := rfl
@[simp] theorem putCtx_mclk (s : State) (c : Nat) (x : Ctx) : (putCtx s c x).mclk = s.mclk := rfl
@[simp] theorem putCtx_lclk (s : State) (c : Nat) (x : Ctx) : (putCtx s c x).lclk = s.lclk := rfl
@[simp] theorem putCtx_mem (s : State) (c : Nat) (x : Ctx) : (putCtx s c x).mem = s.mem := rfl
@[simp] theorem putCtx_scr (s : State) (c : Nat) (x : Ctx) : (putCtx s c x).scr = s.scr := rfl
@[simp] theorem putCtx_arena (s : State) (c : Nat) (x : Ctx) : (putCtx s c x).arena = s.arena := rfl
@[simp] theorem putCtx_bst (s : State) (c : Nat) (x : Ctx) : (putCtx s c x).bst = s.bst := rfl
@[simp] theorem putCtx_ring (s : State) (c : Nat) (x : Ctx) : (putCtx s c x).ring = s.ring := rfl
@[simp] theorem putCtx_aboard (s : State) (c : Nat) (x : Ctx) : (putCtx s c x).aboard = s.aboard := rfl
@[simp] theorem putCtx_caps (s : State) (c : Nat) (x : Ctx) : (putCtx s c x).caps = s.caps := rfl
@[simp] theorem putCtx_regs (s : State) (c : Nat) (x : Ctx) : (putCtx s c x).regs = s.regs := rfl
@[simp] theorem putCtx_held (s : State) (c : Nat) (x : Ctx) : (putCtx s c x).held = s.held := rfl
@[simp] theorem putCtx_groups (s : State) (c : Nat) (x : Ctx) : (putCtx s c x).groups = s.groups := rfl
@[simp] theorem putCtx_teams (s : State) (c : Nat) (x : Ctx) : (putCtx s c x).teams = s.teams := rfl
@[simp] theorem putCtx_clusters (s : State) (c : Nat) (x : Ctx) : (putCtx s c x).clusters = s.clusters := rfl
@[simp] theorem putCtx_saved (s : State) (c : Nat) (x : Ctx) : (putCtx s c x).saved = s.saved := rfl
@[simp] theorem putCtx_launches (s : State) (c : Nat) (x : Ctx) : (putCtx s c x).launches = s.launches := rfl
@[simp] theorem putCtx_queues (s : State) (c : Nat) (x : Ctx) : (putCtx s c x).queues = s.queues := rfl
@[simp] theorem putCtx_idents (s : State) (c : Nat) (x : Ctx) : (putCtx s c x).idents = s.idents := rfl
@[simp] theorem putCtx_launchCtx (s : State) (c : Nat) (x : Ctx) : (putCtx s c x).launchCtx = s.launchCtx := rfl
@[simp] theorem putCtx_events (s : State) (c : Nat) (x : Ctx) : (putCtx s c x).events = s.events := rfl
@[simp] theorem putCtx_prestat (s : State) (c : Nat) (x : Ctx) : (putCtx s c x).prestat = s.prestat := rfl
@[simp] theorem putCtx_leavers (s : State) (c : Nat) (x : Ctx) : (putCtx s c x).leavers = s.leavers := rfl
@[simp] theorem putCtx_rotq (s : State) (c : Nat) (x : Ctx) : (putCtx s c x).rotq = s.rotq := rfl
@[simp] theorem putCtx_slot (s : State) (c : Nat) (x : Ctx) : (putCtx s c x).slot = s.slot := rfl
@[simp] theorem putCtx_banks (s : State) (c : Nat) (x : Ctx) : (putCtx s c x).banks = s.banks := rfl
@[simp] theorem putCtx_columns (s : State) (c : Nat) (x : Ctx) : (putCtx s c x).columns = s.columns := rfl
@[simp] theorem putCtx_granules (s : State) (c : Nat) (x : Ctx) : (putCtx s c x).granules = s.granules := rfl
@[simp] theorem putCtx_codes (s : State) (c : Nat) (x : Ctx) : (putCtx s c x).codes = s.codes := rfl
@[simp] theorem putCtx_images (s : State) (c : Nat) (x : Ctx) : (putCtx s c x).images = s.images := rfl
@[simp] theorem putCtx_tlb (s : State) (c : Nat) (x : Ctx) : (putCtx s c x).tlb = s.tlb := rfl
@[simp] theorem putCtx_lts (s : State) (c : Nat) (x : Ctx) : (putCtx s c x).lts = s.lts := rfl
@[simp] theorem putCtx_wts (s : State) (c : Nat) (x : Ctx) : (putCtx s c x).wts = s.wts := rfl
@[simp] theorem putCtx_rts (s : State) (c : Nat) (x : Ctx) : (putCtx s c x).rts = s.rts := rfl
@[simp] theorem putCtx_stamp (s : State) (c : Nat) (x : Ctx) : (putCtx s c x).stamp = s.stamp := rfl
@[simp] theorem putCtx_ltFloor (s : State) (c : Nat) (x : Ctx) : (putCtx s c x).ltFloor = s.ltFloor := rfl
@[simp] theorem putCtx_olds (s : State) (c : Nat) (x : Ctx) : (putCtx s c x).olds = s.olds := rfl
@[simp] theorem putCtx_late (s : State) (c : Nat) (x : Ctx) : (putCtx s c x).late = s.late := rfl
@[simp] theorem putCtx_walks (s : State) (c : Nat) (x : Ctx) : (putCtx s c x).walks = s.walks := rfl
@[simp] theorem putCtx_l1 (s : State) (c : Nat) (x : Ctx) : (putCtx s c x).l1 = s.l1 := rfl
@[simp] theorem putCtx_llc (s : State) (c : Nat) (x : Ctx) : (putCtx s c x).llc = s.llc := rfl
@[simp] theorem putCtx_uses (s : State) (c : Nat) (x : Ctx) : (putCtx s c x).uses = s.uses := rfl
@[simp] theorem putCtx_spilled (s : State) (c : Nat) (x : Ctx) : (putCtx s c x).spilled = s.spilled := rfl
@[simp] theorem putCtx_partials (s : State) (c : Nat) (x : Ctx) : (putCtx s c x).partials = s.partials := rfl
@[simp] theorem putCtx_tiles (s : State) (c : Nat) (x : Ctx) : (putCtx s c x).tiles = s.tiles := rfl
@[simp] theorem putCtx_resvs (s : State) (c : Nat) (x : Ctx) : (putCtx s c x).resvs = s.resvs := rfl
@[simp] theorem putCtx_spills (s : State) (c : Nat) (x : Ctx) : (putCtx s c x).spills = s.spills := rfl
@[simp] theorem putCtx_defs (s : State) (c : Nat) (x : Ctx) : (putCtx s c x).defs = s.defs := rfl
@[simp] theorem putCtx_bowner (s : State) (c : Nat) (x : Ctx) : (putCtx s c x).bowner = s.bowner := rfl
@[simp] theorem putCtx_cmds (s : State) (c : Nat) (x : Ctx) : (putCtx s c x).cmds = s.cmds := rfl
@[simp] theorem putCtx_msgs (s : State) (c : Nat) (x : Ctx) : (putCtx s c x).msgs = s.msgs := rfl
@[simp] theorem putCtx_tris (s : State) (c : Nat) (x : Ctx) : (putCtx s c x).tris = s.tris := rfl
@[simp] theorem putCtx_plans (s : State) (c : Nat) (x : Ctx) : (putCtx s c x).plans = s.plans := rfl
@[simp] theorem putCtx_locus (s : State) (c : Nat) (x : Ctx) : (putCtx s c x).locus = s.locus := rfl
@[simp] theorem putCtx_filters (s : State) (c : Nat) (x : Ctx) : (putCtx s c x).filters = s.filters := rfl
@[simp] theorem putCtx_samples (s : State) (c : Nat) (x : Ctx) : (putCtx s c x).samples = s.samples := rfl
@[simp] theorem putCtx_stops (s : State) (c : Nat) (x : Ctx) : (putCtx s c x).stops = s.stops := rfl
@[simp] theorem putCtx_steps (s : State) (c : Nat) (x : Ctx) : (putCtx s c x).steps = s.steps := rfl
@[simp] theorem putCtx_irqs (s : State) (c : Nat) (x : Ctx) : (putCtx s c x).irqs = s.irqs := rfl
@[simp] theorem putCtx_ratio (s : State) (c : Nat) (x : Ctx) : (putCtx s c x).ratio = s.ratio := rfl
@[simp] theorem putCtx_stall (s : State) (c : Nat) (x : Ctx) : (putCtx s c x).stall = s.stall := rfl
@[simp] theorem putCtx_retireState (s : State) (c : Nat) (x : Ctx) : (putCtx s c x).retireState = s.retireState := rfl
@[simp] theorem putCtx_retire (s : State) (c : Nat) (x : Ctx) : (putCtx s c x).retire = s.retire := rfl
@[simp] theorem putCtx_retireQueue (s : State) (c : Nat) (x : Ctx) : (putCtx s c x).retireQueue = s.retireQueue := rfl
@[simp] theorem putCtx_wear (s : State) (c : Nat) (x : Ctx) : (putCtx s c x).wear = s.wear := rfl
@[simp] theorem putCtx_failed (s : State) (c : Nat) (x : Ctx) : (putCtx s c x).failed = s.failed := rfl
@[simp] theorem putCtx_fuseKey (s : State) (c : Nat) (x : Ctx) : (putCtx s c x).fuseKey = s.fuseKey := rfl
@[simp] theorem putCtx_rollback (s : State) (c : Nat) (x : Ctx) : (putCtx s c x).rollback = s.rollback := rfl
@[simp] theorem putCtx_flashHeader (s : State) (c : Nat) (x : Ctx) : (putCtx s c x).flashHeader = s.flashHeader := rfl
@[simp] theorem putCtx_flashBody (s : State) (c : Nat) (x : Ctx) : (putCtx s c x).flashBody = s.flashBody := rfl
@[simp] theorem putCtx_flashKey (s : State) (c : Nat) (x : Ctx) : (putCtx s c x).flashKey = s.flashKey := rfl
@[simp] theorem putCtx_flashSig (s : State) (c : Nat) (x : Ctx) : (putCtx s c x).flashSig = s.flashSig := rfl
@[simp] theorem putCtx_pstate (s : State) (c : Nat) (x : Ctx) : (putCtx s c x).pstate = s.pstate := rfl
@[simp] theorem putCtx_floor (s : State) (c : Nat) (x : Ctx) : (putCtx s c x).floor = s.floor := rfl
@[simp] theorem putCtx_causes (s : State) (c : Nat) (x : Ctx) : (putCtx s c x).causes = s.causes := rfl
@[simp] theorem putCtx_causeSince (s : State) (c : Nat) (x : Ctx) : (putCtx s c x).causeSince = s.causeSince := rfl
@[simp] theorem putCtx_quietSince (s : State) (c : Nat) (x : Ctx) : (putCtx s c x).quietSince = s.quietSince := rfl
@[simp] theorem putCtx_sessionKeys (s : State) (c : Nat) (x : Ctx) : (putCtx s c x).sessionKeys = s.sessionKeys := rfl
@[simp] theorem putCtx_alarmed (s : State) (c : Nat) (x : Ctx) : (putCtx s c x).alarmed = s.alarmed := rfl
@[simp] theorem putCtx_report (s : State) (c : Nat) (x : Ctx) : (putCtx s c x).report = s.report := rfl
@[simp] theorem putCtx_ptm (s : State) (c : Nat) (x : Ctx) : (putCtx s c x).ptm = s.ptm := rfl
@[simp] theorem putCtx_ucieHalf (s : State) (c : Nat) (x : Ctx) : (putCtx s c x).ucieHalf = s.ucieHalf := rfl
@[simp] theorem putCtx_subnets (s : State) (c : Nat) (x : Ctx) : (putCtx s c x).subnets = s.subnets := rfl
@[simp] theorem putCtx_peers (s : State) (c : Nat) (x : Ctx) : (putCtx s c x).peers = s.peers := rfl
@[simp] theorem putCtx_vlreqs (s : State) (c : Nat) (x : Ctx) : (putCtx s c x).vlreqs = s.vlreqs := rfl
@[simp] theorem putCtx_hostReads (s : State) (c : Nat) (x : Ctx) : (putCtx s c x).hostReads = s.hostReads := rfl

/-! `putBanks`. -/

@[simp] theorem putBanks_turns (s : State) (c : Nat) (b : CoreBanks) : (putBanks s c b).turns = s.turns := rfl
@[simp] theorem putBanks_iss (s : State) (c : Nat) (b : CoreBanks) : (putBanks s c b).iss = s.iss := rfl
@[simp] theorem putBanks_free (s : State) (c : Nat) (b : CoreBanks) : (putBanks s c b).free = s.free := rfl
@[simp] theorem putBanks_fresh (s : State) (c : Nat) (b : CoreBanks) : (putBanks s c b).fresh = s.fresh := rfl
@[simp] theorem putBanks_time (s : State) (c : Nat) (b : CoreBanks) : (putBanks s c b).time = s.time := rfl
@[simp] theorem putBanks_mclk (s : State) (c : Nat) (b : CoreBanks) : (putBanks s c b).mclk = s.mclk := rfl
@[simp] theorem putBanks_lclk (s : State) (c : Nat) (b : CoreBanks) : (putBanks s c b).lclk = s.lclk := rfl
@[simp] theorem putBanks_mem (s : State) (c : Nat) (b : CoreBanks) : (putBanks s c b).mem = s.mem := rfl
@[simp] theorem putBanks_scr (s : State) (c : Nat) (b : CoreBanks) : (putBanks s c b).scr = s.scr := rfl
@[simp] theorem putBanks_arena (s : State) (c : Nat) (b : CoreBanks) : (putBanks s c b).arena = s.arena := rfl
@[simp] theorem putBanks_bst (s : State) (c : Nat) (b : CoreBanks) : (putBanks s c b).bst = s.bst := rfl
@[simp] theorem putBanks_ring (s : State) (c : Nat) (b : CoreBanks) : (putBanks s c b).ring = s.ring := rfl
@[simp] theorem putBanks_aboard (s : State) (c : Nat) (b : CoreBanks) : (putBanks s c b).aboard = s.aboard := rfl
@[simp] theorem putBanks_caps (s : State) (c : Nat) (b : CoreBanks) : (putBanks s c b).caps = s.caps := rfl
@[simp] theorem putBanks_regs (s : State) (c : Nat) (b : CoreBanks) : (putBanks s c b).regs = s.regs := rfl
@[simp] theorem putBanks_held (s : State) (c : Nat) (b : CoreBanks) : (putBanks s c b).held = s.held := rfl
@[simp] theorem putBanks_groups (s : State) (c : Nat) (b : CoreBanks) : (putBanks s c b).groups = s.groups := rfl
@[simp] theorem putBanks_teams (s : State) (c : Nat) (b : CoreBanks) : (putBanks s c b).teams = s.teams := rfl
@[simp] theorem putBanks_clusters (s : State) (c : Nat) (b : CoreBanks) : (putBanks s c b).clusters = s.clusters := rfl
@[simp] theorem putBanks_saved (s : State) (c : Nat) (b : CoreBanks) : (putBanks s c b).saved = s.saved := rfl
@[simp] theorem putBanks_launches (s : State) (c : Nat) (b : CoreBanks) : (putBanks s c b).launches = s.launches := rfl
@[simp] theorem putBanks_queues (s : State) (c : Nat) (b : CoreBanks) : (putBanks s c b).queues = s.queues := rfl
@[simp] theorem putBanks_idents (s : State) (c : Nat) (b : CoreBanks) : (putBanks s c b).idents = s.idents := rfl
@[simp] theorem putBanks_launchCtx (s : State) (c : Nat) (b : CoreBanks) : (putBanks s c b).launchCtx = s.launchCtx := rfl
@[simp] theorem putBanks_events (s : State) (c : Nat) (b : CoreBanks) : (putBanks s c b).events = s.events := rfl
@[simp] theorem putBanks_prestat (s : State) (c : Nat) (b : CoreBanks) : (putBanks s c b).prestat = s.prestat := rfl
@[simp] theorem putBanks_leavers (s : State) (c : Nat) (b : CoreBanks) : (putBanks s c b).leavers = s.leavers := rfl
@[simp] theorem putBanks_rotq (s : State) (c : Nat) (b : CoreBanks) : (putBanks s c b).rotq = s.rotq := rfl
@[simp] theorem putBanks_slot (s : State) (c : Nat) (b : CoreBanks) : (putBanks s c b).slot = s.slot := rfl
@[simp] theorem putBanks_ctxs (s : State) (c : Nat) (b : CoreBanks) : (putBanks s c b).ctxs = s.ctxs := rfl
@[simp] theorem putBanks_columns (s : State) (c : Nat) (b : CoreBanks) : (putBanks s c b).columns = s.columns := rfl
@[simp] theorem putBanks_granules (s : State) (c : Nat) (b : CoreBanks) : (putBanks s c b).granules = s.granules := rfl
@[simp] theorem putBanks_codes (s : State) (c : Nat) (b : CoreBanks) : (putBanks s c b).codes = s.codes := rfl
@[simp] theorem putBanks_images (s : State) (c : Nat) (b : CoreBanks) : (putBanks s c b).images = s.images := rfl
@[simp] theorem putBanks_tlb (s : State) (c : Nat) (b : CoreBanks) : (putBanks s c b).tlb = s.tlb := rfl
@[simp] theorem putBanks_lts (s : State) (c : Nat) (b : CoreBanks) : (putBanks s c b).lts = s.lts := rfl
@[simp] theorem putBanks_wts (s : State) (c : Nat) (b : CoreBanks) : (putBanks s c b).wts = s.wts := rfl
@[simp] theorem putBanks_rts (s : State) (c : Nat) (b : CoreBanks) : (putBanks s c b).rts = s.rts := rfl
@[simp] theorem putBanks_stamp (s : State) (c : Nat) (b : CoreBanks) : (putBanks s c b).stamp = s.stamp := rfl
@[simp] theorem putBanks_ltFloor (s : State) (c : Nat) (b : CoreBanks) : (putBanks s c b).ltFloor = s.ltFloor := rfl
@[simp] theorem putBanks_olds (s : State) (c : Nat) (b : CoreBanks) : (putBanks s c b).olds = s.olds := rfl
@[simp] theorem putBanks_late (s : State) (c : Nat) (b : CoreBanks) : (putBanks s c b).late = s.late := rfl
@[simp] theorem putBanks_walks (s : State) (c : Nat) (b : CoreBanks) : (putBanks s c b).walks = s.walks := rfl
@[simp] theorem putBanks_l1 (s : State) (c : Nat) (b : CoreBanks) : (putBanks s c b).l1 = s.l1 := rfl
@[simp] theorem putBanks_llc (s : State) (c : Nat) (b : CoreBanks) : (putBanks s c b).llc = s.llc := rfl
@[simp] theorem putBanks_uses (s : State) (c : Nat) (b : CoreBanks) : (putBanks s c b).uses = s.uses := rfl
@[simp] theorem putBanks_spilled (s : State) (c : Nat) (b : CoreBanks) : (putBanks s c b).spilled = s.spilled := rfl
@[simp] theorem putBanks_partials (s : State) (c : Nat) (b : CoreBanks) : (putBanks s c b).partials = s.partials := rfl
@[simp] theorem putBanks_tiles (s : State) (c : Nat) (b : CoreBanks) : (putBanks s c b).tiles = s.tiles := rfl
@[simp] theorem putBanks_resvs (s : State) (c : Nat) (b : CoreBanks) : (putBanks s c b).resvs = s.resvs := rfl
@[simp] theorem putBanks_spills (s : State) (c : Nat) (b : CoreBanks) : (putBanks s c b).spills = s.spills := rfl
@[simp] theorem putBanks_defs (s : State) (c : Nat) (b : CoreBanks) : (putBanks s c b).defs = s.defs := rfl
@[simp] theorem putBanks_bowner (s : State) (c : Nat) (b : CoreBanks) : (putBanks s c b).bowner = s.bowner := rfl
@[simp] theorem putBanks_cmds (s : State) (c : Nat) (b : CoreBanks) : (putBanks s c b).cmds = s.cmds := rfl
@[simp] theorem putBanks_msgs (s : State) (c : Nat) (b : CoreBanks) : (putBanks s c b).msgs = s.msgs := rfl
@[simp] theorem putBanks_tris (s : State) (c : Nat) (b : CoreBanks) : (putBanks s c b).tris = s.tris := rfl
@[simp] theorem putBanks_plans (s : State) (c : Nat) (b : CoreBanks) : (putBanks s c b).plans = s.plans := rfl
@[simp] theorem putBanks_locus (s : State) (c : Nat) (b : CoreBanks) : (putBanks s c b).locus = s.locus := rfl
@[simp] theorem putBanks_filters (s : State) (c : Nat) (b : CoreBanks) : (putBanks s c b).filters = s.filters := rfl
@[simp] theorem putBanks_samples (s : State) (c : Nat) (b : CoreBanks) : (putBanks s c b).samples = s.samples := rfl
@[simp] theorem putBanks_stops (s : State) (c : Nat) (b : CoreBanks) : (putBanks s c b).stops = s.stops := rfl
@[simp] theorem putBanks_steps (s : State) (c : Nat) (b : CoreBanks) : (putBanks s c b).steps = s.steps := rfl
@[simp] theorem putBanks_irqs (s : State) (c : Nat) (b : CoreBanks) : (putBanks s c b).irqs = s.irqs := rfl
@[simp] theorem putBanks_ratio (s : State) (c : Nat) (b : CoreBanks) : (putBanks s c b).ratio = s.ratio := rfl
@[simp] theorem putBanks_stall (s : State) (c : Nat) (b : CoreBanks) : (putBanks s c b).stall = s.stall := rfl
@[simp] theorem putBanks_retireState (s : State) (c : Nat) (b : CoreBanks) : (putBanks s c b).retireState = s.retireState := rfl
@[simp] theorem putBanks_retire (s : State) (c : Nat) (b : CoreBanks) : (putBanks s c b).retire = s.retire := rfl
@[simp] theorem putBanks_retireQueue (s : State) (c : Nat) (b : CoreBanks) : (putBanks s c b).retireQueue = s.retireQueue := rfl
@[simp] theorem putBanks_wear (s : State) (c : Nat) (b : CoreBanks) : (putBanks s c b).wear = s.wear := rfl
@[simp] theorem putBanks_failed (s : State) (c : Nat) (b : CoreBanks) : (putBanks s c b).failed = s.failed := rfl
@[simp] theorem putBanks_fuseKey (s : State) (c : Nat) (b : CoreBanks) : (putBanks s c b).fuseKey = s.fuseKey := rfl
@[simp] theorem putBanks_rollback (s : State) (c : Nat) (b : CoreBanks) : (putBanks s c b).rollback = s.rollback := rfl
@[simp] theorem putBanks_flashHeader (s : State) (c : Nat) (b : CoreBanks) : (putBanks s c b).flashHeader = s.flashHeader := rfl
@[simp] theorem putBanks_flashBody (s : State) (c : Nat) (b : CoreBanks) : (putBanks s c b).flashBody = s.flashBody := rfl
@[simp] theorem putBanks_flashKey (s : State) (c : Nat) (b : CoreBanks) : (putBanks s c b).flashKey = s.flashKey := rfl
@[simp] theorem putBanks_flashSig (s : State) (c : Nat) (b : CoreBanks) : (putBanks s c b).flashSig = s.flashSig := rfl
@[simp] theorem putBanks_pstate (s : State) (c : Nat) (b : CoreBanks) : (putBanks s c b).pstate = s.pstate := rfl
@[simp] theorem putBanks_floor (s : State) (c : Nat) (b : CoreBanks) : (putBanks s c b).floor = s.floor := rfl
@[simp] theorem putBanks_causes (s : State) (c : Nat) (b : CoreBanks) : (putBanks s c b).causes = s.causes := rfl
@[simp] theorem putBanks_causeSince (s : State) (c : Nat) (b : CoreBanks) : (putBanks s c b).causeSince = s.causeSince := rfl
@[simp] theorem putBanks_quietSince (s : State) (c : Nat) (b : CoreBanks) : (putBanks s c b).quietSince = s.quietSince := rfl
@[simp] theorem putBanks_sessionKeys (s : State) (c : Nat) (b : CoreBanks) : (putBanks s c b).sessionKeys = s.sessionKeys := rfl
@[simp] theorem putBanks_alarmed (s : State) (c : Nat) (b : CoreBanks) : (putBanks s c b).alarmed = s.alarmed := rfl
@[simp] theorem putBanks_report (s : State) (c : Nat) (b : CoreBanks) : (putBanks s c b).report = s.report := rfl
@[simp] theorem putBanks_ptm (s : State) (c : Nat) (b : CoreBanks) : (putBanks s c b).ptm = s.ptm := rfl
@[simp] theorem putBanks_ucieHalf (s : State) (c : Nat) (b : CoreBanks) : (putBanks s c b).ucieHalf = s.ucieHalf := rfl
@[simp] theorem putBanks_subnets (s : State) (c : Nat) (b : CoreBanks) : (putBanks s c b).subnets = s.subnets := rfl
@[simp] theorem putBanks_peers (s : State) (c : Nat) (b : CoreBanks) : (putBanks s c b).peers = s.peers := rfl
@[simp] theorem putBanks_vlreqs (s : State) (c : Nat) (b : CoreBanks) : (putBanks s c b).vlreqs = s.vlreqs := rfl
@[simp] theorem putBanks_hostReads (s : State) (c : Nat) (b : CoreBanks) : (putBanks s c b).hostReads = s.hostReads := rfl

/-! `regSet`. -/

@[simp] theorem regSet_turns (s : State) (k : Nat) (w : Word) : (regSet s k w).turns = s.turns := rfl
@[simp] theorem regSet_iss (s : State) (k : Nat) (w : Word) : (regSet s k w).iss = s.iss := rfl
@[simp] theorem regSet_free (s : State) (k : Nat) (w : Word) : (regSet s k w).free = s.free := rfl
@[simp] theorem regSet_fresh (s : State) (k : Nat) (w : Word) : (regSet s k w).fresh = s.fresh := rfl
@[simp] theorem regSet_time (s : State) (k : Nat) (w : Word) : (regSet s k w).time = s.time := rfl
@[simp] theorem regSet_mclk (s : State) (k : Nat) (w : Word) : (regSet s k w).mclk = s.mclk := rfl
@[simp] theorem regSet_lclk (s : State) (k : Nat) (w : Word) : (regSet s k w).lclk = s.lclk := rfl
@[simp] theorem regSet_mem (s : State) (k : Nat) (w : Word) : (regSet s k w).mem = s.mem := rfl
@[simp] theorem regSet_scr (s : State) (k : Nat) (w : Word) : (regSet s k w).scr = s.scr := rfl
@[simp] theorem regSet_arena (s : State) (k : Nat) (w : Word) : (regSet s k w).arena = s.arena := rfl
@[simp] theorem regSet_bst (s : State) (k : Nat) (w : Word) : (regSet s k w).bst = s.bst := rfl
@[simp] theorem regSet_ring (s : State) (k : Nat) (w : Word) : (regSet s k w).ring = s.ring := rfl
@[simp] theorem regSet_aboard (s : State) (k : Nat) (w : Word) : (regSet s k w).aboard = s.aboard := rfl
@[simp] theorem regSet_caps (s : State) (k : Nat) (w : Word) : (regSet s k w).caps = s.caps := rfl
@[simp] theorem regSet_held (s : State) (k : Nat) (w : Word) : (regSet s k w).held = s.held := rfl
@[simp] theorem regSet_groups (s : State) (k : Nat) (w : Word) : (regSet s k w).groups = s.groups := rfl
@[simp] theorem regSet_teams (s : State) (k : Nat) (w : Word) : (regSet s k w).teams = s.teams := rfl
@[simp] theorem regSet_clusters (s : State) (k : Nat) (w : Word) : (regSet s k w).clusters = s.clusters := rfl
@[simp] theorem regSet_saved (s : State) (k : Nat) (w : Word) : (regSet s k w).saved = s.saved := rfl
@[simp] theorem regSet_launches (s : State) (k : Nat) (w : Word) : (regSet s k w).launches = s.launches := rfl
@[simp] theorem regSet_queues (s : State) (k : Nat) (w : Word) : (regSet s k w).queues = s.queues := rfl
@[simp] theorem regSet_idents (s : State) (k : Nat) (w : Word) : (regSet s k w).idents = s.idents := rfl
@[simp] theorem regSet_launchCtx (s : State) (k : Nat) (w : Word) : (regSet s k w).launchCtx = s.launchCtx := rfl
@[simp] theorem regSet_events (s : State) (k : Nat) (w : Word) : (regSet s k w).events = s.events := rfl
@[simp] theorem regSet_prestat (s : State) (k : Nat) (w : Word) : (regSet s k w).prestat = s.prestat := rfl
@[simp] theorem regSet_leavers (s : State) (k : Nat) (w : Word) : (regSet s k w).leavers = s.leavers := rfl
@[simp] theorem regSet_rotq (s : State) (k : Nat) (w : Word) : (regSet s k w).rotq = s.rotq := rfl
@[simp] theorem regSet_slot (s : State) (k : Nat) (w : Word) : (regSet s k w).slot = s.slot := rfl
@[simp] theorem regSet_ctxs (s : State) (k : Nat) (w : Word) : (regSet s k w).ctxs = s.ctxs := rfl
@[simp] theorem regSet_banks (s : State) (k : Nat) (w : Word) : (regSet s k w).banks = s.banks := rfl
@[simp] theorem regSet_columns (s : State) (k : Nat) (w : Word) : (regSet s k w).columns = s.columns := rfl
@[simp] theorem regSet_granules (s : State) (k : Nat) (w : Word) : (regSet s k w).granules = s.granules := rfl
@[simp] theorem regSet_codes (s : State) (k : Nat) (w : Word) : (regSet s k w).codes = s.codes := rfl
@[simp] theorem regSet_images (s : State) (k : Nat) (w : Word) : (regSet s k w).images = s.images := rfl
@[simp] theorem regSet_tlb (s : State) (k : Nat) (w : Word) : (regSet s k w).tlb = s.tlb := rfl
@[simp] theorem regSet_lts (s : State) (k : Nat) (w : Word) : (regSet s k w).lts = s.lts := rfl
@[simp] theorem regSet_wts (s : State) (k : Nat) (w : Word) : (regSet s k w).wts = s.wts := rfl
@[simp] theorem regSet_rts (s : State) (k : Nat) (w : Word) : (regSet s k w).rts = s.rts := rfl
@[simp] theorem regSet_stamp (s : State) (k : Nat) (w : Word) : (regSet s k w).stamp = s.stamp := rfl
@[simp] theorem regSet_ltFloor (s : State) (k : Nat) (w : Word) : (regSet s k w).ltFloor = s.ltFloor := rfl
@[simp] theorem regSet_olds (s : State) (k : Nat) (w : Word) : (regSet s k w).olds = s.olds := rfl
@[simp] theorem regSet_late (s : State) (k : Nat) (w : Word) : (regSet s k w).late = s.late := rfl
@[simp] theorem regSet_walks (s : State) (k : Nat) (w : Word) : (regSet s k w).walks = s.walks := rfl
@[simp] theorem regSet_l1 (s : State) (k : Nat) (w : Word) : (regSet s k w).l1 = s.l1 := rfl
@[simp] theorem regSet_llc (s : State) (k : Nat) (w : Word) : (regSet s k w).llc = s.llc := rfl
@[simp] theorem regSet_uses (s : State) (k : Nat) (w : Word) : (regSet s k w).uses = s.uses := rfl
@[simp] theorem regSet_spilled (s : State) (k : Nat) (w : Word) : (regSet s k w).spilled = s.spilled := rfl
@[simp] theorem regSet_partials (s : State) (k : Nat) (w : Word) : (regSet s k w).partials = s.partials := rfl
@[simp] theorem regSet_tiles (s : State) (k : Nat) (w : Word) : (regSet s k w).tiles = s.tiles := rfl
@[simp] theorem regSet_resvs (s : State) (k : Nat) (w : Word) : (regSet s k w).resvs = s.resvs := rfl
@[simp] theorem regSet_spills (s : State) (k : Nat) (w : Word) : (regSet s k w).spills = s.spills := rfl
@[simp] theorem regSet_defs (s : State) (k : Nat) (w : Word) : (regSet s k w).defs = s.defs := rfl
@[simp] theorem regSet_bowner (s : State) (k : Nat) (w : Word) : (regSet s k w).bowner = s.bowner := rfl
@[simp] theorem regSet_cmds (s : State) (k : Nat) (w : Word) : (regSet s k w).cmds = s.cmds := rfl
@[simp] theorem regSet_msgs (s : State) (k : Nat) (w : Word) : (regSet s k w).msgs = s.msgs := rfl
@[simp] theorem regSet_tris (s : State) (k : Nat) (w : Word) : (regSet s k w).tris = s.tris := rfl
@[simp] theorem regSet_plans (s : State) (k : Nat) (w : Word) : (regSet s k w).plans = s.plans := rfl
@[simp] theorem regSet_locus (s : State) (k : Nat) (w : Word) : (regSet s k w).locus = s.locus := rfl
@[simp] theorem regSet_filters (s : State) (k : Nat) (w : Word) : (regSet s k w).filters = s.filters := rfl
@[simp] theorem regSet_samples (s : State) (k : Nat) (w : Word) : (regSet s k w).samples = s.samples := rfl
@[simp] theorem regSet_stops (s : State) (k : Nat) (w : Word) : (regSet s k w).stops = s.stops := rfl
@[simp] theorem regSet_steps (s : State) (k : Nat) (w : Word) : (regSet s k w).steps = s.steps := rfl
@[simp] theorem regSet_irqs (s : State) (k : Nat) (w : Word) : (regSet s k w).irqs = s.irqs := rfl
@[simp] theorem regSet_ratio (s : State) (k : Nat) (w : Word) : (regSet s k w).ratio = s.ratio := rfl
@[simp] theorem regSet_stall (s : State) (k : Nat) (w : Word) : (regSet s k w).stall = s.stall := rfl
@[simp] theorem regSet_retireState (s : State) (k : Nat) (w : Word) : (regSet s k w).retireState = s.retireState := rfl
@[simp] theorem regSet_retire (s : State) (k : Nat) (w : Word) : (regSet s k w).retire = s.retire := rfl
@[simp] theorem regSet_retireQueue (s : State) (k : Nat) (w : Word) : (regSet s k w).retireQueue = s.retireQueue := rfl
@[simp] theorem regSet_wear (s : State) (k : Nat) (w : Word) : (regSet s k w).wear = s.wear := rfl
@[simp] theorem regSet_failed (s : State) (k : Nat) (w : Word) : (regSet s k w).failed = s.failed := rfl
@[simp] theorem regSet_fuseKey (s : State) (k : Nat) (w : Word) : (regSet s k w).fuseKey = s.fuseKey := rfl
@[simp] theorem regSet_rollback (s : State) (k : Nat) (w : Word) : (regSet s k w).rollback = s.rollback := rfl
@[simp] theorem regSet_flashHeader (s : State) (k : Nat) (w : Word) : (regSet s k w).flashHeader = s.flashHeader := rfl
@[simp] theorem regSet_flashBody (s : State) (k : Nat) (w : Word) : (regSet s k w).flashBody = s.flashBody := rfl
@[simp] theorem regSet_flashKey (s : State) (k : Nat) (w : Word) : (regSet s k w).flashKey = s.flashKey := rfl
@[simp] theorem regSet_flashSig (s : State) (k : Nat) (w : Word) : (regSet s k w).flashSig = s.flashSig := rfl
@[simp] theorem regSet_pstate (s : State) (k : Nat) (w : Word) : (regSet s k w).pstate = s.pstate := rfl
@[simp] theorem regSet_floor (s : State) (k : Nat) (w : Word) : (regSet s k w).floor = s.floor := rfl
@[simp] theorem regSet_causes (s : State) (k : Nat) (w : Word) : (regSet s k w).causes = s.causes := rfl
@[simp] theorem regSet_causeSince (s : State) (k : Nat) (w : Word) : (regSet s k w).causeSince = s.causeSince := rfl
@[simp] theorem regSet_quietSince (s : State) (k : Nat) (w : Word) : (regSet s k w).quietSince = s.quietSince := rfl
@[simp] theorem regSet_sessionKeys (s : State) (k : Nat) (w : Word) : (regSet s k w).sessionKeys = s.sessionKeys := rfl
@[simp] theorem regSet_alarmed (s : State) (k : Nat) (w : Word) : (regSet s k w).alarmed = s.alarmed := rfl
@[simp] theorem regSet_report (s : State) (k : Nat) (w : Word) : (regSet s k w).report = s.report := rfl
@[simp] theorem regSet_ptm (s : State) (k : Nat) (w : Word) : (regSet s k w).ptm = s.ptm := rfl
@[simp] theorem regSet_ucieHalf (s : State) (k : Nat) (w : Word) : (regSet s k w).ucieHalf = s.ucieHalf := rfl
@[simp] theorem regSet_subnets (s : State) (k : Nat) (w : Word) : (regSet s k w).subnets = s.subnets := rfl
@[simp] theorem regSet_peers (s : State) (k : Nat) (w : Word) : (regSet s k w).peers = s.peers := rfl
@[simp] theorem regSet_vlreqs (s : State) (k : Nat) (w : Word) : (regSet s k w).vlreqs = s.vlreqs := rfl
@[simp] theorem regSet_hostReads (s : State) (k : Nat) (w : Word) : (regSet s k w).hostReads = s.hostReads := rfl

/-! `bump`. -/

@[simp] theorem bump_turns (s : State) : (bump s).turns = s.turns := rfl
@[simp] theorem bump_iss (s : State) : (bump s).iss = s.iss := rfl
@[simp] theorem bump_free (s : State) : (bump s).free = s.free := rfl
@[simp] theorem bump_time (s : State) : (bump s).time = s.time := rfl
@[simp] theorem bump_mclk (s : State) : (bump s).mclk = s.mclk := rfl
@[simp] theorem bump_lclk (s : State) : (bump s).lclk = s.lclk := rfl
@[simp] theorem bump_mem (s : State) : (bump s).mem = s.mem := rfl
@[simp] theorem bump_scr (s : State) : (bump s).scr = s.scr := rfl
@[simp] theorem bump_arena (s : State) : (bump s).arena = s.arena := rfl
@[simp] theorem bump_bst (s : State) : (bump s).bst = s.bst := rfl
@[simp] theorem bump_ring (s : State) : (bump s).ring = s.ring := rfl
@[simp] theorem bump_aboard (s : State) : (bump s).aboard = s.aboard := rfl
@[simp] theorem bump_caps (s : State) : (bump s).caps = s.caps := rfl
@[simp] theorem bump_regs (s : State) : (bump s).regs = s.regs := rfl
@[simp] theorem bump_held (s : State) : (bump s).held = s.held := rfl
@[simp] theorem bump_groups (s : State) : (bump s).groups = s.groups := rfl
@[simp] theorem bump_teams (s : State) : (bump s).teams = s.teams := rfl
@[simp] theorem bump_clusters (s : State) : (bump s).clusters = s.clusters := rfl
@[simp] theorem bump_saved (s : State) : (bump s).saved = s.saved := rfl
@[simp] theorem bump_launches (s : State) : (bump s).launches = s.launches := rfl
@[simp] theorem bump_queues (s : State) : (bump s).queues = s.queues := rfl
@[simp] theorem bump_idents (s : State) : (bump s).idents = s.idents := rfl
@[simp] theorem bump_launchCtx (s : State) : (bump s).launchCtx = s.launchCtx := rfl
@[simp] theorem bump_events (s : State) : (bump s).events = s.events := rfl
@[simp] theorem bump_prestat (s : State) : (bump s).prestat = s.prestat := rfl
@[simp] theorem bump_leavers (s : State) : (bump s).leavers = s.leavers := rfl
@[simp] theorem bump_rotq (s : State) : (bump s).rotq = s.rotq := rfl
@[simp] theorem bump_slot (s : State) : (bump s).slot = s.slot := rfl
@[simp] theorem bump_ctxs (s : State) : (bump s).ctxs = s.ctxs := rfl
@[simp] theorem bump_banks (s : State) : (bump s).banks = s.banks := rfl
@[simp] theorem bump_columns (s : State) : (bump s).columns = s.columns := rfl
@[simp] theorem bump_granules (s : State) : (bump s).granules = s.granules := rfl
@[simp] theorem bump_codes (s : State) : (bump s).codes = s.codes := rfl
@[simp] theorem bump_images (s : State) : (bump s).images = s.images := rfl
@[simp] theorem bump_tlb (s : State) : (bump s).tlb = s.tlb := rfl
@[simp] theorem bump_lts (s : State) : (bump s).lts = s.lts := rfl
@[simp] theorem bump_wts (s : State) : (bump s).wts = s.wts := rfl
@[simp] theorem bump_rts (s : State) : (bump s).rts = s.rts := rfl
@[simp] theorem bump_stamp (s : State) : (bump s).stamp = s.stamp := rfl
@[simp] theorem bump_ltFloor (s : State) : (bump s).ltFloor = s.ltFloor := rfl
@[simp] theorem bump_olds (s : State) : (bump s).olds = s.olds := rfl
@[simp] theorem bump_late (s : State) : (bump s).late = s.late := rfl
@[simp] theorem bump_walks (s : State) : (bump s).walks = s.walks := rfl
@[simp] theorem bump_l1 (s : State) : (bump s).l1 = s.l1 := rfl
@[simp] theorem bump_llc (s : State) : (bump s).llc = s.llc := rfl
@[simp] theorem bump_uses (s : State) : (bump s).uses = s.uses := rfl
@[simp] theorem bump_spilled (s : State) : (bump s).spilled = s.spilled := rfl
@[simp] theorem bump_partials (s : State) : (bump s).partials = s.partials := rfl
@[simp] theorem bump_tiles (s : State) : (bump s).tiles = s.tiles := rfl
@[simp] theorem bump_resvs (s : State) : (bump s).resvs = s.resvs := rfl
@[simp] theorem bump_spills (s : State) : (bump s).spills = s.spills := rfl
@[simp] theorem bump_defs (s : State) : (bump s).defs = s.defs := rfl
@[simp] theorem bump_bowner (s : State) : (bump s).bowner = s.bowner := rfl
@[simp] theorem bump_cmds (s : State) : (bump s).cmds = s.cmds := rfl
@[simp] theorem bump_msgs (s : State) : (bump s).msgs = s.msgs := rfl
@[simp] theorem bump_tris (s : State) : (bump s).tris = s.tris := rfl
@[simp] theorem bump_plans (s : State) : (bump s).plans = s.plans := rfl
@[simp] theorem bump_locus (s : State) : (bump s).locus = s.locus := rfl
@[simp] theorem bump_filters (s : State) : (bump s).filters = s.filters := rfl
@[simp] theorem bump_samples (s : State) : (bump s).samples = s.samples := rfl
@[simp] theorem bump_stops (s : State) : (bump s).stops = s.stops := rfl
@[simp] theorem bump_steps (s : State) : (bump s).steps = s.steps := rfl
@[simp] theorem bump_irqs (s : State) : (bump s).irqs = s.irqs := rfl
@[simp] theorem bump_ratio (s : State) : (bump s).ratio = s.ratio := rfl
@[simp] theorem bump_stall (s : State) : (bump s).stall = s.stall := rfl
@[simp] theorem bump_retireState (s : State) : (bump s).retireState = s.retireState := rfl
@[simp] theorem bump_retire (s : State) : (bump s).retire = s.retire := rfl
@[simp] theorem bump_retireQueue (s : State) : (bump s).retireQueue = s.retireQueue := rfl
@[simp] theorem bump_wear (s : State) : (bump s).wear = s.wear := rfl
@[simp] theorem bump_failed (s : State) : (bump s).failed = s.failed := rfl
@[simp] theorem bump_fuseKey (s : State) : (bump s).fuseKey = s.fuseKey := rfl
@[simp] theorem bump_rollback (s : State) : (bump s).rollback = s.rollback := rfl
@[simp] theorem bump_flashHeader (s : State) : (bump s).flashHeader = s.flashHeader := rfl
@[simp] theorem bump_flashBody (s : State) : (bump s).flashBody = s.flashBody := rfl
@[simp] theorem bump_flashKey (s : State) : (bump s).flashKey = s.flashKey := rfl
@[simp] theorem bump_flashSig (s : State) : (bump s).flashSig = s.flashSig := rfl
@[simp] theorem bump_pstate (s : State) : (bump s).pstate = s.pstate := rfl
@[simp] theorem bump_floor (s : State) : (bump s).floor = s.floor := rfl
@[simp] theorem bump_causes (s : State) : (bump s).causes = s.causes := rfl
@[simp] theorem bump_causeSince (s : State) : (bump s).causeSince = s.causeSince := rfl
@[simp] theorem bump_quietSince (s : State) : (bump s).quietSince = s.quietSince := rfl
@[simp] theorem bump_sessionKeys (s : State) : (bump s).sessionKeys = s.sessionKeys := rfl
@[simp] theorem bump_alarmed (s : State) : (bump s).alarmed = s.alarmed := rfl
@[simp] theorem bump_report (s : State) : (bump s).report = s.report := rfl
@[simp] theorem bump_ptm (s : State) : (bump s).ptm = s.ptm := rfl
@[simp] theorem bump_ucieHalf (s : State) : (bump s).ucieHalf = s.ucieHalf := rfl
@[simp] theorem bump_subnets (s : State) : (bump s).subnets = s.subnets := rfl
@[simp] theorem bump_peers (s : State) : (bump s).peers = s.peers := rfl
@[simp] theorem bump_vlreqs (s : State) : (bump s).vlreqs = s.vlreqs := rfl
@[simp] theorem bump_hostReads (s : State) : (bump s).hostReads = s.hostReads := rfl

/-! `chose`. -/

@[simp] theorem chose_turns (s : State) : (chose s).turns = s.turns := rfl
@[simp] theorem chose_iss (s : State) : (chose s).iss = s.iss := rfl
@[simp] theorem chose_fresh (s : State) : (chose s).fresh = s.fresh := rfl
@[simp] theorem chose_time (s : State) : (chose s).time = s.time := rfl
@[simp] theorem chose_mclk (s : State) : (chose s).mclk = s.mclk := rfl
@[simp] theorem chose_lclk (s : State) : (chose s).lclk = s.lclk := rfl
@[simp] theorem chose_mem (s : State) : (chose s).mem = s.mem := rfl
@[simp] theorem chose_scr (s : State) : (chose s).scr = s.scr := rfl
@[simp] theorem chose_arena (s : State) : (chose s).arena = s.arena := rfl
@[simp] theorem chose_bst (s : State) : (chose s).bst = s.bst := rfl
@[simp] theorem chose_ring (s : State) : (chose s).ring = s.ring := rfl
@[simp] theorem chose_aboard (s : State) : (chose s).aboard = s.aboard := rfl
@[simp] theorem chose_caps (s : State) : (chose s).caps = s.caps := rfl
@[simp] theorem chose_regs (s : State) : (chose s).regs = s.regs := rfl
@[simp] theorem chose_held (s : State) : (chose s).held = s.held := rfl
@[simp] theorem chose_groups (s : State) : (chose s).groups = s.groups := rfl
@[simp] theorem chose_teams (s : State) : (chose s).teams = s.teams := rfl
@[simp] theorem chose_clusters (s : State) : (chose s).clusters = s.clusters := rfl
@[simp] theorem chose_saved (s : State) : (chose s).saved = s.saved := rfl
@[simp] theorem chose_launches (s : State) : (chose s).launches = s.launches := rfl
@[simp] theorem chose_queues (s : State) : (chose s).queues = s.queues := rfl
@[simp] theorem chose_idents (s : State) : (chose s).idents = s.idents := rfl
@[simp] theorem chose_launchCtx (s : State) : (chose s).launchCtx = s.launchCtx := rfl
@[simp] theorem chose_events (s : State) : (chose s).events = s.events := rfl
@[simp] theorem chose_prestat (s : State) : (chose s).prestat = s.prestat := rfl
@[simp] theorem chose_leavers (s : State) : (chose s).leavers = s.leavers := rfl
@[simp] theorem chose_rotq (s : State) : (chose s).rotq = s.rotq := rfl
@[simp] theorem chose_slot (s : State) : (chose s).slot = s.slot := rfl
@[simp] theorem chose_ctxs (s : State) : (chose s).ctxs = s.ctxs := rfl
@[simp] theorem chose_banks (s : State) : (chose s).banks = s.banks := rfl
@[simp] theorem chose_columns (s : State) : (chose s).columns = s.columns := rfl
@[simp] theorem chose_granules (s : State) : (chose s).granules = s.granules := rfl
@[simp] theorem chose_codes (s : State) : (chose s).codes = s.codes := rfl
@[simp] theorem chose_images (s : State) : (chose s).images = s.images := rfl
@[simp] theorem chose_tlb (s : State) : (chose s).tlb = s.tlb := rfl
@[simp] theorem chose_lts (s : State) : (chose s).lts = s.lts := rfl
@[simp] theorem chose_wts (s : State) : (chose s).wts = s.wts := rfl
@[simp] theorem chose_rts (s : State) : (chose s).rts = s.rts := rfl
@[simp] theorem chose_stamp (s : State) : (chose s).stamp = s.stamp := rfl
@[simp] theorem chose_ltFloor (s : State) : (chose s).ltFloor = s.ltFloor := rfl
@[simp] theorem chose_olds (s : State) : (chose s).olds = s.olds := rfl
@[simp] theorem chose_late (s : State) : (chose s).late = s.late := rfl
@[simp] theorem chose_walks (s : State) : (chose s).walks = s.walks := rfl
@[simp] theorem chose_l1 (s : State) : (chose s).l1 = s.l1 := rfl
@[simp] theorem chose_llc (s : State) : (chose s).llc = s.llc := rfl
@[simp] theorem chose_uses (s : State) : (chose s).uses = s.uses := rfl
@[simp] theorem chose_spilled (s : State) : (chose s).spilled = s.spilled := rfl
@[simp] theorem chose_partials (s : State) : (chose s).partials = s.partials := rfl
@[simp] theorem chose_tiles (s : State) : (chose s).tiles = s.tiles := rfl
@[simp] theorem chose_resvs (s : State) : (chose s).resvs = s.resvs := rfl
@[simp] theorem chose_spills (s : State) : (chose s).spills = s.spills := rfl
@[simp] theorem chose_defs (s : State) : (chose s).defs = s.defs := rfl
@[simp] theorem chose_bowner (s : State) : (chose s).bowner = s.bowner := rfl
@[simp] theorem chose_cmds (s : State) : (chose s).cmds = s.cmds := rfl
@[simp] theorem chose_msgs (s : State) : (chose s).msgs = s.msgs := rfl
@[simp] theorem chose_tris (s : State) : (chose s).tris = s.tris := rfl
@[simp] theorem chose_plans (s : State) : (chose s).plans = s.plans := rfl
@[simp] theorem chose_locus (s : State) : (chose s).locus = s.locus := rfl
@[simp] theorem chose_filters (s : State) : (chose s).filters = s.filters := rfl
@[simp] theorem chose_samples (s : State) : (chose s).samples = s.samples := rfl
@[simp] theorem chose_stops (s : State) : (chose s).stops = s.stops := rfl
@[simp] theorem chose_steps (s : State) : (chose s).steps = s.steps := rfl
@[simp] theorem chose_irqs (s : State) : (chose s).irqs = s.irqs := rfl
@[simp] theorem chose_ratio (s : State) : (chose s).ratio = s.ratio := rfl
@[simp] theorem chose_stall (s : State) : (chose s).stall = s.stall := rfl
@[simp] theorem chose_retireState (s : State) : (chose s).retireState = s.retireState := rfl
@[simp] theorem chose_retire (s : State) : (chose s).retire = s.retire := rfl
@[simp] theorem chose_retireQueue (s : State) : (chose s).retireQueue = s.retireQueue := rfl
@[simp] theorem chose_wear (s : State) : (chose s).wear = s.wear := rfl
@[simp] theorem chose_failed (s : State) : (chose s).failed = s.failed := rfl
@[simp] theorem chose_fuseKey (s : State) : (chose s).fuseKey = s.fuseKey := rfl
@[simp] theorem chose_rollback (s : State) : (chose s).rollback = s.rollback := rfl
@[simp] theorem chose_flashHeader (s : State) : (chose s).flashHeader = s.flashHeader := rfl
@[simp] theorem chose_flashBody (s : State) : (chose s).flashBody = s.flashBody := rfl
@[simp] theorem chose_flashKey (s : State) : (chose s).flashKey = s.flashKey := rfl
@[simp] theorem chose_flashSig (s : State) : (chose s).flashSig = s.flashSig := rfl
@[simp] theorem chose_pstate (s : State) : (chose s).pstate = s.pstate := rfl
@[simp] theorem chose_floor (s : State) : (chose s).floor = s.floor := rfl
@[simp] theorem chose_causes (s : State) : (chose s).causes = s.causes := rfl
@[simp] theorem chose_causeSince (s : State) : (chose s).causeSince = s.causeSince := rfl
@[simp] theorem chose_quietSince (s : State) : (chose s).quietSince = s.quietSince := rfl
@[simp] theorem chose_sessionKeys (s : State) : (chose s).sessionKeys = s.sessionKeys := rfl
@[simp] theorem chose_alarmed (s : State) : (chose s).alarmed = s.alarmed := rfl
@[simp] theorem chose_report (s : State) : (chose s).report = s.report := rfl
@[simp] theorem chose_ptm (s : State) : (chose s).ptm = s.ptm := rfl
@[simp] theorem chose_ucieHalf (s : State) : (chose s).ucieHalf = s.ucieHalf := rfl
@[simp] theorem chose_subnets (s : State) : (chose s).subnets = s.subnets := rfl
@[simp] theorem chose_peers (s : State) : (chose s).peers = s.peers := rfl
@[simp] theorem chose_vlreqs (s : State) : (chose s).vlreqs = s.vlreqs := rfl
@[simp] theorem chose_hostReads (s : State) : (chose s).hostReads = s.hostReads := rfl

/-! `after`. -/

@[simp] theorem after_turns (s : State) (g : Group) : (s.after g).turns = s.turns := rfl
@[simp] theorem after_free (s : State) (g : Group) : (s.after g).free = s.free := rfl
@[simp] theorem after_fresh (s : State) (g : Group) : (s.after g).fresh = s.fresh := rfl
@[simp] theorem after_time (s : State) (g : Group) : (s.after g).time = s.time := rfl
@[simp] theorem after_mclk (s : State) (g : Group) : (s.after g).mclk = s.mclk := rfl
@[simp] theorem after_lclk (s : State) (g : Group) : (s.after g).lclk = s.lclk := rfl
@[simp] theorem after_mem (s : State) (g : Group) : (s.after g).mem = s.mem := rfl
@[simp] theorem after_scr (s : State) (g : Group) : (s.after g).scr = s.scr := rfl
@[simp] theorem after_arena (s : State) (g : Group) : (s.after g).arena = s.arena := rfl
@[simp] theorem after_bst (s : State) (g : Group) : (s.after g).bst = s.bst := rfl
@[simp] theorem after_ring (s : State) (g : Group) : (s.after g).ring = s.ring := rfl
@[simp] theorem after_aboard (s : State) (g : Group) : (s.after g).aboard = s.aboard := rfl
@[simp] theorem after_caps (s : State) (g : Group) : (s.after g).caps = s.caps := rfl
@[simp] theorem after_regs (s : State) (g : Group) : (s.after g).regs = s.regs := rfl
@[simp] theorem after_held (s : State) (g : Group) : (s.after g).held = s.held := rfl
@[simp] theorem after_teams (s : State) (g : Group) : (s.after g).teams = s.teams := rfl
@[simp] theorem after_clusters (s : State) (g : Group) : (s.after g).clusters = s.clusters := rfl
@[simp] theorem after_saved (s : State) (g : Group) : (s.after g).saved = s.saved := rfl
@[simp] theorem after_launches (s : State) (g : Group) : (s.after g).launches = s.launches := rfl
@[simp] theorem after_queues (s : State) (g : Group) : (s.after g).queues = s.queues := rfl
@[simp] theorem after_idents (s : State) (g : Group) : (s.after g).idents = s.idents := rfl
@[simp] theorem after_launchCtx (s : State) (g : Group) : (s.after g).launchCtx = s.launchCtx := rfl
@[simp] theorem after_events (s : State) (g : Group) : (s.after g).events = s.events := rfl
@[simp] theorem after_prestat (s : State) (g : Group) : (s.after g).prestat = s.prestat := rfl
@[simp] theorem after_leavers (s : State) (g : Group) : (s.after g).leavers = s.leavers := rfl
@[simp] theorem after_rotq (s : State) (g : Group) : (s.after g).rotq = s.rotq := rfl
@[simp] theorem after_slot (s : State) (g : Group) : (s.after g).slot = s.slot := rfl
@[simp] theorem after_ctxs (s : State) (g : Group) : (s.after g).ctxs = s.ctxs := rfl
@[simp] theorem after_banks (s : State) (g : Group) : (s.after g).banks = s.banks := rfl
@[simp] theorem after_columns (s : State) (g : Group) : (s.after g).columns = s.columns := rfl
@[simp] theorem after_granules (s : State) (g : Group) : (s.after g).granules = s.granules := rfl
@[simp] theorem after_codes (s : State) (g : Group) : (s.after g).codes = s.codes := rfl
@[simp] theorem after_images (s : State) (g : Group) : (s.after g).images = s.images := rfl
@[simp] theorem after_tlb (s : State) (g : Group) : (s.after g).tlb = s.tlb := rfl
@[simp] theorem after_lts (s : State) (g : Group) : (s.after g).lts = s.lts := rfl
@[simp] theorem after_wts (s : State) (g : Group) : (s.after g).wts = s.wts := rfl
@[simp] theorem after_rts (s : State) (g : Group) : (s.after g).rts = s.rts := rfl
@[simp] theorem after_stamp (s : State) (g : Group) : (s.after g).stamp = s.stamp := rfl
@[simp] theorem after_ltFloor (s : State) (g : Group) : (s.after g).ltFloor = s.ltFloor := rfl
@[simp] theorem after_olds (s : State) (g : Group) : (s.after g).olds = s.olds := rfl
@[simp] theorem after_late (s : State) (g : Group) : (s.after g).late = s.late := rfl
@[simp] theorem after_walks (s : State) (g : Group) : (s.after g).walks = s.walks := rfl
@[simp] theorem after_l1 (s : State) (g : Group) : (s.after g).l1 = s.l1 := rfl
@[simp] theorem after_llc (s : State) (g : Group) : (s.after g).llc = s.llc := rfl
@[simp] theorem after_uses (s : State) (g : Group) : (s.after g).uses = s.uses := rfl
@[simp] theorem after_spilled (s : State) (g : Group) : (s.after g).spilled = s.spilled := rfl
@[simp] theorem after_partials (s : State) (g : Group) : (s.after g).partials = s.partials := rfl
@[simp] theorem after_tiles (s : State) (g : Group) : (s.after g).tiles = s.tiles := rfl
@[simp] theorem after_resvs (s : State) (g : Group) : (s.after g).resvs = s.resvs := rfl
@[simp] theorem after_spills (s : State) (g : Group) : (s.after g).spills = s.spills := rfl
@[simp] theorem after_defs (s : State) (g : Group) : (s.after g).defs = s.defs := rfl
@[simp] theorem after_bowner (s : State) (g : Group) : (s.after g).bowner = s.bowner := rfl
@[simp] theorem after_cmds (s : State) (g : Group) : (s.after g).cmds = s.cmds := rfl
@[simp] theorem after_msgs (s : State) (g : Group) : (s.after g).msgs = s.msgs := rfl
@[simp] theorem after_tris (s : State) (g : Group) : (s.after g).tris = s.tris := rfl
@[simp] theorem after_plans (s : State) (g : Group) : (s.after g).plans = s.plans := rfl
@[simp] theorem after_locus (s : State) (g : Group) : (s.after g).locus = s.locus := rfl
@[simp] theorem after_filters (s : State) (g : Group) : (s.after g).filters = s.filters := rfl
@[simp] theorem after_samples (s : State) (g : Group) : (s.after g).samples = s.samples := rfl
@[simp] theorem after_stops (s : State) (g : Group) : (s.after g).stops = s.stops := rfl
@[simp] theorem after_steps (s : State) (g : Group) : (s.after g).steps = s.steps := rfl
@[simp] theorem after_irqs (s : State) (g : Group) : (s.after g).irqs = s.irqs := rfl
@[simp] theorem after_ratio (s : State) (g : Group) : (s.after g).ratio = s.ratio := rfl
@[simp] theorem after_stall (s : State) (g : Group) : (s.after g).stall = s.stall := rfl
@[simp] theorem after_retireState (s : State) (g : Group) : (s.after g).retireState = s.retireState := rfl
@[simp] theorem after_retire (s : State) (g : Group) : (s.after g).retire = s.retire := rfl
@[simp] theorem after_retireQueue (s : State) (g : Group) : (s.after g).retireQueue = s.retireQueue := rfl
@[simp] theorem after_wear (s : State) (g : Group) : (s.after g).wear = s.wear := rfl
@[simp] theorem after_failed (s : State) (g : Group) : (s.after g).failed = s.failed := rfl
@[simp] theorem after_fuseKey (s : State) (g : Group) : (s.after g).fuseKey = s.fuseKey := rfl
@[simp] theorem after_rollback (s : State) (g : Group) : (s.after g).rollback = s.rollback := rfl
@[simp] theorem after_flashHeader (s : State) (g : Group) : (s.after g).flashHeader = s.flashHeader := rfl
@[simp] theorem after_flashBody (s : State) (g : Group) : (s.after g).flashBody = s.flashBody := rfl
@[simp] theorem after_flashKey (s : State) (g : Group) : (s.after g).flashKey = s.flashKey := rfl
@[simp] theorem after_flashSig (s : State) (g : Group) : (s.after g).flashSig = s.flashSig := rfl
@[simp] theorem after_pstate (s : State) (g : Group) : (s.after g).pstate = s.pstate := rfl
@[simp] theorem after_floor (s : State) (g : Group) : (s.after g).floor = s.floor := rfl
@[simp] theorem after_causes (s : State) (g : Group) : (s.after g).causes = s.causes := rfl
@[simp] theorem after_causeSince (s : State) (g : Group) : (s.after g).causeSince = s.causeSince := rfl
@[simp] theorem after_quietSince (s : State) (g : Group) : (s.after g).quietSince = s.quietSince := rfl
@[simp] theorem after_sessionKeys (s : State) (g : Group) : (s.after g).sessionKeys = s.sessionKeys := rfl
@[simp] theorem after_alarmed (s : State) (g : Group) : (s.after g).alarmed = s.alarmed := rfl
@[simp] theorem after_report (s : State) (g : Group) : (s.after g).report = s.report := rfl
@[simp] theorem after_ptm (s : State) (g : Group) : (s.after g).ptm = s.ptm := rfl
@[simp] theorem after_ucieHalf (s : State) (g : Group) : (s.after g).ucieHalf = s.ucieHalf := rfl
@[simp] theorem after_subnets (s : State) (g : Group) : (s.after g).subnets = s.subnets := rfl
@[simp] theorem after_peers (s : State) (g : Group) : (s.after g).peers = s.peers := rfl
@[simp] theorem after_vlreqs (s : State) (g : Group) : (s.after g).vlreqs = s.vlreqs := rfl
@[simp] theorem after_hostReads (s : State) (g : Group) : (s.after g).hostReads = s.hostReads := rfl

/-! `moved`. -/

@[simp] theorem moved_turns (s : State) (g : Group) : (s.moved g).turns = s.turns := rfl
@[simp] theorem moved_free (s : State) (g : Group) : (s.moved g).free = s.free := rfl
@[simp] theorem moved_fresh (s : State) (g : Group) : (s.moved g).fresh = s.fresh := rfl
@[simp] theorem moved_time (s : State) (g : Group) : (s.moved g).time = s.time := rfl
@[simp] theorem moved_mclk (s : State) (g : Group) : (s.moved g).mclk = s.mclk := rfl
@[simp] theorem moved_lclk (s : State) (g : Group) : (s.moved g).lclk = s.lclk := rfl
@[simp] theorem moved_mem (s : State) (g : Group) : (s.moved g).mem = s.mem := rfl
@[simp] theorem moved_scr (s : State) (g : Group) : (s.moved g).scr = s.scr := rfl
@[simp] theorem moved_arena (s : State) (g : Group) : (s.moved g).arena = s.arena := rfl
@[simp] theorem moved_bst (s : State) (g : Group) : (s.moved g).bst = s.bst := rfl
@[simp] theorem moved_ring (s : State) (g : Group) : (s.moved g).ring = s.ring := rfl
@[simp] theorem moved_aboard (s : State) (g : Group) : (s.moved g).aboard = s.aboard := rfl
@[simp] theorem moved_caps (s : State) (g : Group) : (s.moved g).caps = s.caps := rfl
@[simp] theorem moved_regs (s : State) (g : Group) : (s.moved g).regs = s.regs := rfl
@[simp] theorem moved_held (s : State) (g : Group) : (s.moved g).held = s.held := rfl
@[simp] theorem moved_teams (s : State) (g : Group) : (s.moved g).teams = s.teams := rfl
@[simp] theorem moved_clusters (s : State) (g : Group) : (s.moved g).clusters = s.clusters := rfl
@[simp] theorem moved_saved (s : State) (g : Group) : (s.moved g).saved = s.saved := rfl
@[simp] theorem moved_launches (s : State) (g : Group) : (s.moved g).launches = s.launches := rfl
@[simp] theorem moved_queues (s : State) (g : Group) : (s.moved g).queues = s.queues := rfl
@[simp] theorem moved_idents (s : State) (g : Group) : (s.moved g).idents = s.idents := rfl
@[simp] theorem moved_launchCtx (s : State) (g : Group) : (s.moved g).launchCtx = s.launchCtx := rfl
@[simp] theorem moved_events (s : State) (g : Group) : (s.moved g).events = s.events := rfl
@[simp] theorem moved_prestat (s : State) (g : Group) : (s.moved g).prestat = s.prestat := rfl
@[simp] theorem moved_leavers (s : State) (g : Group) : (s.moved g).leavers = s.leavers := rfl
@[simp] theorem moved_rotq (s : State) (g : Group) : (s.moved g).rotq = s.rotq := rfl
@[simp] theorem moved_slot (s : State) (g : Group) : (s.moved g).slot = s.slot := rfl
@[simp] theorem moved_ctxs (s : State) (g : Group) : (s.moved g).ctxs = s.ctxs := rfl
@[simp] theorem moved_banks (s : State) (g : Group) : (s.moved g).banks = s.banks := rfl
@[simp] theorem moved_columns (s : State) (g : Group) : (s.moved g).columns = s.columns := rfl
@[simp] theorem moved_granules (s : State) (g : Group) : (s.moved g).granules = s.granules := rfl
@[simp] theorem moved_codes (s : State) (g : Group) : (s.moved g).codes = s.codes := rfl
@[simp] theorem moved_images (s : State) (g : Group) : (s.moved g).images = s.images := rfl
@[simp] theorem moved_tlb (s : State) (g : Group) : (s.moved g).tlb = s.tlb := rfl
@[simp] theorem moved_lts (s : State) (g : Group) : (s.moved g).lts = s.lts := rfl
@[simp] theorem moved_wts (s : State) (g : Group) : (s.moved g).wts = s.wts := rfl
@[simp] theorem moved_rts (s : State) (g : Group) : (s.moved g).rts = s.rts := rfl
@[simp] theorem moved_stamp (s : State) (g : Group) : (s.moved g).stamp = s.stamp := rfl
@[simp] theorem moved_ltFloor (s : State) (g : Group) : (s.moved g).ltFloor = s.ltFloor := rfl
@[simp] theorem moved_olds (s : State) (g : Group) : (s.moved g).olds = s.olds := rfl
@[simp] theorem moved_late (s : State) (g : Group) : (s.moved g).late = s.late := rfl
@[simp] theorem moved_walks (s : State) (g : Group) : (s.moved g).walks = s.walks := rfl
@[simp] theorem moved_l1 (s : State) (g : Group) : (s.moved g).l1 = s.l1 := rfl
@[simp] theorem moved_llc (s : State) (g : Group) : (s.moved g).llc = s.llc := rfl
@[simp] theorem moved_uses (s : State) (g : Group) : (s.moved g).uses = s.uses := rfl
@[simp] theorem moved_spilled (s : State) (g : Group) : (s.moved g).spilled = s.spilled := rfl
@[simp] theorem moved_partials (s : State) (g : Group) : (s.moved g).partials = s.partials := rfl
@[simp] theorem moved_tiles (s : State) (g : Group) : (s.moved g).tiles = s.tiles := rfl
@[simp] theorem moved_resvs (s : State) (g : Group) : (s.moved g).resvs = s.resvs := rfl
@[simp] theorem moved_spills (s : State) (g : Group) : (s.moved g).spills = s.spills := rfl
@[simp] theorem moved_defs (s : State) (g : Group) : (s.moved g).defs = s.defs := rfl
@[simp] theorem moved_bowner (s : State) (g : Group) : (s.moved g).bowner = s.bowner := rfl
@[simp] theorem moved_cmds (s : State) (g : Group) : (s.moved g).cmds = s.cmds := rfl
@[simp] theorem moved_msgs (s : State) (g : Group) : (s.moved g).msgs = s.msgs := rfl
@[simp] theorem moved_tris (s : State) (g : Group) : (s.moved g).tris = s.tris := rfl
@[simp] theorem moved_plans (s : State) (g : Group) : (s.moved g).plans = s.plans := rfl
@[simp] theorem moved_locus (s : State) (g : Group) : (s.moved g).locus = s.locus := rfl
@[simp] theorem moved_filters (s : State) (g : Group) : (s.moved g).filters = s.filters := rfl
@[simp] theorem moved_samples (s : State) (g : Group) : (s.moved g).samples = s.samples := rfl
@[simp] theorem moved_stops (s : State) (g : Group) : (s.moved g).stops = s.stops := rfl
@[simp] theorem moved_steps (s : State) (g : Group) : (s.moved g).steps = s.steps := rfl
@[simp] theorem moved_irqs (s : State) (g : Group) : (s.moved g).irqs = s.irqs := rfl
@[simp] theorem moved_ratio (s : State) (g : Group) : (s.moved g).ratio = s.ratio := rfl
@[simp] theorem moved_stall (s : State) (g : Group) : (s.moved g).stall = s.stall := rfl
@[simp] theorem moved_retireState (s : State) (g : Group) : (s.moved g).retireState = s.retireState := rfl
@[simp] theorem moved_retire (s : State) (g : Group) : (s.moved g).retire = s.retire := rfl
@[simp] theorem moved_retireQueue (s : State) (g : Group) : (s.moved g).retireQueue = s.retireQueue := rfl
@[simp] theorem moved_wear (s : State) (g : Group) : (s.moved g).wear = s.wear := rfl
@[simp] theorem moved_failed (s : State) (g : Group) : (s.moved g).failed = s.failed := rfl
@[simp] theorem moved_fuseKey (s : State) (g : Group) : (s.moved g).fuseKey = s.fuseKey := rfl
@[simp] theorem moved_rollback (s : State) (g : Group) : (s.moved g).rollback = s.rollback := rfl
@[simp] theorem moved_flashHeader (s : State) (g : Group) : (s.moved g).flashHeader = s.flashHeader := rfl
@[simp] theorem moved_flashBody (s : State) (g : Group) : (s.moved g).flashBody = s.flashBody := rfl
@[simp] theorem moved_flashKey (s : State) (g : Group) : (s.moved g).flashKey = s.flashKey := rfl
@[simp] theorem moved_flashSig (s : State) (g : Group) : (s.moved g).flashSig = s.flashSig := rfl
@[simp] theorem moved_pstate (s : State) (g : Group) : (s.moved g).pstate = s.pstate := rfl
@[simp] theorem moved_floor (s : State) (g : Group) : (s.moved g).floor = s.floor := rfl
@[simp] theorem moved_causes (s : State) (g : Group) : (s.moved g).causes = s.causes := rfl
@[simp] theorem moved_causeSince (s : State) (g : Group) : (s.moved g).causeSince = s.causeSince := rfl
@[simp] theorem moved_quietSince (s : State) (g : Group) : (s.moved g).quietSince = s.quietSince := rfl
@[simp] theorem moved_sessionKeys (s : State) (g : Group) : (s.moved g).sessionKeys = s.sessionKeys := rfl
@[simp] theorem moved_alarmed (s : State) (g : Group) : (s.moved g).alarmed = s.alarmed := rfl
@[simp] theorem moved_report (s : State) (g : Group) : (s.moved g).report = s.report := rfl
@[simp] theorem moved_ptm (s : State) (g : Group) : (s.moved g).ptm = s.ptm := rfl
@[simp] theorem moved_ucieHalf (s : State) (g : Group) : (s.moved g).ucieHalf = s.ucieHalf := rfl
@[simp] theorem moved_subnets (s : State) (g : Group) : (s.moved g).subnets = s.subnets := rfl
@[simp] theorem moved_peers (s : State) (g : Group) : (s.moved g).peers = s.peers := rfl
@[simp] theorem moved_vlreqs (s : State) (g : Group) : (s.moved g).vlreqs = s.vlreqs := rfl
@[simp] theorem moved_hostReads (s : State) (g : Group) : (s.moved g).hostReads = s.hostReads := rfl

@[simp] theorem putGroup_groups (s : State) (k : Nat) (g : Group) : (putGroup s k g).groups = tput s.groups k g := rfl
@[simp] theorem putCtx_ctxs (s : State) (c : Nat) (x : Ctx) : (putCtx s c x).ctxs = tput s.ctxs c x := rfl
@[simp] theorem putBanks_banks (s : State) (c : Nat) (b : CoreBanks) : (putBanks s c b).banks = tput s.banks c b := rfl
@[simp] theorem bump_fresh (s : State) : (bump s).fresh = s.fresh + 1 := rfl
@[simp] theorem chose_free (s : State) : (chose s).free = s.free + 1 := rfl
@[simp] theorem after_done (s : State) (g : Group) : (s.after g).iss.done = true := rfl
@[simp] theorem moved_done (s : State) (g : Group) : (s.moved g).iss.done = true := rfl
@[simp] theorem group_putGroup_self (s : State) (k : Nat) (g : Group) : (putGroup s k g).group k = some g := tget_tput_self _ _ _
theorem group_putGroup_ne (s : State) {j k : Nat} (g : Group) (h : j ≠ k) : (putGroup s k g).group j = s.group j :=
  tget_tput_ne _ _ h
@[simp] theorem group_putCtx (s : State) (c : Nat) (x : Ctx) (k : Nat) : (putCtx s c x).group k = s.group k := rfl
@[simp] theorem group_regSet (s : State) (c : Nat) (w : Word) (k : Nat) : (regSet s c w).group k = s.group k := rfl
@[simp] theorem ctxOf_putGroup (s : State) (k : Nat) (g : Group) (c : Nat) : ctxOf (putGroup s k g) c = ctxOf s c := rfl
@[simp] theorem ctxOf_regSet (s : State) (k : Nat) (w : Word) (c : Nat) : ctxOf (regSet s k w) c = ctxOf s c := rfl
@[simp] theorem ctxOf_putCtx_self (s : State) (c : Nat) (x : Ctx) : ctxOf (putCtx s c x) c = x := by simp [ctxOf]
theorem ctxOf_putCtx_ne (s : State) {c e : Nat} (x : Ctx) (h : e ≠ c) : ctxOf (putCtx s c x) e = ctxOf s e := by
  simp [ctxOf, tget_tput_ne _ _ h]
theorem ctxOf_congr {s t : State} (h : t.ctxs = s.ctxs) (c : Nat) : ctxOf t c = ctxOf s c := by simp [ctxOf, h]
theorem haltedCtx_congr {s t : State} (h : t.ctxs = s.ctxs) (c : Nat) : haltedCtx t c = haltedCtx s c := by
  simp [haltedCtx, ctxOf_congr h]
/-- A register reads as it was stored. -/
@[simp] theorem regGet_regSet_self (s : State) (k : Nat) (w : Word) : regGet (regSet s k w) k = w := cget_cset_self _ _ k w
theorem regGet_regSet_ne (s : State) {j k : Nat} (w : Word) (h : j ≠ k) : regGet (regSet s k w) j = regGet s j := by
  simp only [regGet, regSet, cget_eq_tget]
  unfold cset; split
  · rw [tget_cdel_ne _ h]
  · rw [tget_tput_ne _ _ h]

/-! `setS`. -/

@[simp] theorem setS_id (g : Group) (r : Nat) (w : Word) : (g.setS r w).id = g.id := by unfold Group.setS; split <;> rfl
@[simp] theorem setS_core (g : Group) (r : Nat) (w : Word) : (g.setS r w).core = g.core := by unfold Group.setS; split <;> rfl
@[simp] theorem setS_bank (g : Group) (r : Nat) (w : Word) : (g.setS r w).bank = g.bank := by unfold Group.setS; split <;> rfl
@[simp] theorem setS_wedge (g : Group) (r : Nat) (w : Word) : (g.setS r w).wedge = g.wedge := by unfold Group.setS; split <;> rfl
@[simp] theorem setS_slot (g : Group) (r : Nat) (w : Word) : (g.setS r w).slot = g.slot := by unfold Group.setS; split <;> rfl
@[simp] theorem setS_lanes (g : Group) (r : Nat) (w : Word) : (g.setS r w).lanes = g.lanes := by unfold Group.setS; split <;> rfl
@[simp] theorem setS_v (g : Group) (r : Nat) (w : Word) : (g.setS r w).v = g.v := by unfold Group.setS; split <;> rfl
@[simp] theorem setS_m (g : Group) (r : Nat) (w : Word) : (g.setS r w).m = g.m := by unfold Group.setS; split <;> rfl
@[simp] theorem setS_f (g : Group) (r : Nat) (w : Word) : (g.setS r w).f = g.f := by unfold Group.setS; split <;> rfl
@[simp] theorem setS_h (g : Group) (r : Nat) (w : Word) : (g.setS r w).h = g.h := by unfold Group.setS; split <;> rfl
@[simp] theorem setS_c (g : Group) (r : Nat) (w : Word) : (g.setS r w).c = g.c := by unfold Group.setS; split <;> rfl
@[simp] theorem setS_tile (g : Group) (r : Nat) (w : Word) : (g.setS r w).tile = g.tile := by unfold Group.setS; split <;> rfl
@[simp] theorem setS_cause (g : Group) (r : Nat) (w : Word) : (g.setS r w).cause = g.cause := by unfold Group.setS; split <;> rfl
@[simp] theorem setS_causeUp (g : Group) (r : Nat) (w : Word) : (g.setS r w).causeUp = g.causeUp := by unfold Group.setS; split <;> rfl
@[simp] theorem setS_faulted (g : Group) (r : Nat) (w : Word) : (g.setS r w).faulted = g.faulted := by unfold Group.setS; split <;> rfl
@[simp] theorem setS_rmode (g : Group) (r : Nat) (w : Word) : (g.setS r w).rmode = g.rmode := by unfold Group.setS; split <;> rfl
@[simp] theorem setS_mode (g : Group) (r : Nat) (w : Word) : (g.setS r w).mode = g.mode := by unfold Group.setS; split <;> rfl
@[simp] theorem setS_lfsr (g : Group) (r : Nat) (w : Word) : (g.setS r w).lfsr = g.lfsr := by unfold Group.setS; split <;> rfl
@[simp] theorem setS_tieSrc (g : Group) (r : Nat) (w : Word) : (g.setS r w).tieSrc = g.tieSrc := by unfold Group.setS; split <;> rfl
@[simp] theorem setS_tieReg (g : Group) (r : Nat) (w : Word) : (g.setS r w).tieReg = g.tieReg := by unfold Group.setS; split <;> rfl
@[simp] theorem setS_syms (g : Group) (r : Nat) (w : Word) : (g.setS r w).syms = g.syms := by unfold Group.setS; split <;> rfl
@[simp] theorem setS_floor (g : Group) (r : Nat) (w : Word) : (g.setS r w).floor = g.floor := by unfold Group.setS; split <;> rfl
@[simp] theorem setS_starve (g : Group) (r : Nat) (w : Word) : (g.setS r w).starve = g.starve := by unfold Group.setS; split <;> rfl
@[simp] theorem setS_lastA (g : Group) (r : Nat) (w : Word) : (g.setS r w).lastA = g.lastA := by unfold Group.setS; split <;> rfl
@[simp] theorem setS_lastLanes (g : Group) (r : Nat) (w : Word) : (g.setS r w).lastLanes = g.lastLanes := by unfold Group.setS; split <;> rfl
@[simp] theorem setS_latch (g : Group) (r : Nat) (w : Word) : (g.setS r w).latch = g.latch := by unfold Group.setS; split <;> rfl
@[simp] theorem setS_phase (g : Group) (r : Nat) (w : Word) : (g.setS r w).phase = g.phase := by unfold Group.setS; split <;> rfl
@[simp] theorem setS_phaseVals (g : Group) (r : Nat) (w : Word) : (g.setS r w).phaseVals = g.phaseVals := by unfold Group.setS; split <;> rfl
@[simp] theorem setS_phaseAt (g : Group) (r : Nat) (w : Word) : (g.setS r w).phaseAt = g.phaseAt := by unfold Group.setS; split <;> rfl
@[simp] theorem setS_phaseLanes (g : Group) (r : Nat) (w : Word) : (g.setS r w).phaseLanes = g.phaseLanes := by unfold Group.setS; split <;> rfl
@[simp] theorem setS_active (g : Group) (r : Nat) (w : Word) : (g.setS r w).active = g.active := by unfold Group.setS; split <;> rfl
@[simp] theorem setS_order (g : Group) (r : Nat) (w : Word) : (g.setS r w).order = g.order := by unfold Group.setS; split <;> rfl
@[simp] theorem setS_entered (g : Group) (r : Nat) (w : Word) : (g.setS r w).entered = g.entered := by unfold Group.setS; split <;> rfl
@[simp] theorem setS_readySince (g : Group) (r : Nat) (w : Word) : (g.setS r w).readySince = g.readySince := by unfold Group.setS; split <;> rfl
@[simp] theorem setS_forced (g : Group) (r : Nat) (w : Word) : (g.setS r w).forced = g.forced := by unfold Group.setS; split <;> rfl
@[simp] theorem setS_waitSince (g : Group) (r : Nat) (w : Word) : (g.setS r w).waitSince = g.waitSince := by unfold Group.setS; split <;> rfl
@[simp] theorem setS_blocked (g : Group) (r : Nat) (w : Word) : (g.setS r w).blocked = g.blocked := by unfold Group.setS; split <;> rfl
@[simp] theorem setS_ready (g : Group) (r : Nat) (w : Word) : (g.setS r w).ready = g.ready := by unfold Group.setS; split <;> rfl
@[simp] theorem setS_watches (g : Group) (r : Nat) (w : Word) : (g.setS r w).watches = g.watches := by unfold Group.setS; split <;> rfl
@[simp] theorem setS_ctxSel (g : Group) (r : Nat) (w : Word) : (g.setS r w).ctxSel = g.ctxSel := by unfold Group.setS; split <;> rfl
@[simp] theorem setS_ops (g : Group) (r : Nat) (w : Word) : (g.setS r w).ops = g.ops := by unfold Group.setS; split <;> rfl
@[simp] theorem setS_waits (g : Group) (r : Nat) (w : Word) : (g.setS r w).waits = g.waits := by unfold Group.setS; split <;> rfl
@[simp] theorem setS_arrived (g : Group) (r : Nat) (w : Word) : (g.setS r w).arrived = g.arrived := by unfold Group.setS; split <;> rfl
@[simp] theorem setS_skid (g : Group) (r : Nat) (w : Word) : (g.setS r w).skid = g.skid := by unfold Group.setS; split <;> rfl
@[simp] theorem setS_step (g : Group) (r : Nat) (w : Word) : (g.setS r w).step = g.step := by unfold Group.setS; split <;> rfl
@[simp] theorem setS_stepLanes (g : Group) (r : Nat) (w : Word) : (g.setS r w).stepLanes = g.stepLanes := by unfold Group.setS; split <;> rfl
@[simp] theorem setS_replay (g : Group) (r : Nat) (w : Word) : (g.setS r w).replay = g.replay := by unfold Group.setS; split <;> rfl
@[simp] theorem setS_sent (g : Group) (r : Nat) (w : Word) : (g.setS r w).sent = g.sent := by unfold Group.setS; split <;> rfl

/-! `setElem`. -/

@[simp] theorem setElem_id (g : Group) (r l : Nat) (e : Elem) : (g.setElem r l e).id = g.id := rfl
@[simp] theorem setElem_core (g : Group) (r l : Nat) (e : Elem) : (g.setElem r l e).core = g.core := rfl
@[simp] theorem setElem_bank (g : Group) (r l : Nat) (e : Elem) : (g.setElem r l e).bank = g.bank := rfl
@[simp] theorem setElem_wedge (g : Group) (r l : Nat) (e : Elem) : (g.setElem r l e).wedge = g.wedge := rfl
@[simp] theorem setElem_slot (g : Group) (r l : Nat) (e : Elem) : (g.setElem r l e).slot = g.slot := rfl
@[simp] theorem setElem_lanes (g : Group) (r l : Nat) (e : Elem) : (g.setElem r l e).lanes = g.lanes := rfl
@[simp] theorem setElem_s (g : Group) (r l : Nat) (e : Elem) : (g.setElem r l e).s = g.s := rfl
@[simp] theorem setElem_m (g : Group) (r l : Nat) (e : Elem) : (g.setElem r l e).m = g.m := rfl
@[simp] theorem setElem_f (g : Group) (r l : Nat) (e : Elem) : (g.setElem r l e).f = g.f := rfl
@[simp] theorem setElem_h (g : Group) (r l : Nat) (e : Elem) : (g.setElem r l e).h = g.h := rfl
@[simp] theorem setElem_c (g : Group) (r l : Nat) (e : Elem) : (g.setElem r l e).c = g.c := rfl
@[simp] theorem setElem_tile (g : Group) (r l : Nat) (e : Elem) : (g.setElem r l e).tile = g.tile := rfl
@[simp] theorem setElem_cause (g : Group) (r l : Nat) (e : Elem) : (g.setElem r l e).cause = g.cause := rfl
@[simp] theorem setElem_causeUp (g : Group) (r l : Nat) (e : Elem) : (g.setElem r l e).causeUp = g.causeUp := rfl
@[simp] theorem setElem_faulted (g : Group) (r l : Nat) (e : Elem) : (g.setElem r l e).faulted = g.faulted := rfl
@[simp] theorem setElem_rmode (g : Group) (r l : Nat) (e : Elem) : (g.setElem r l e).rmode = g.rmode := rfl
@[simp] theorem setElem_mode (g : Group) (r l : Nat) (e : Elem) : (g.setElem r l e).mode = g.mode := rfl
@[simp] theorem setElem_lfsr (g : Group) (r l : Nat) (e : Elem) : (g.setElem r l e).lfsr = g.lfsr := rfl
@[simp] theorem setElem_tieSrc (g : Group) (r l : Nat) (e : Elem) : (g.setElem r l e).tieSrc = g.tieSrc := rfl
@[simp] theorem setElem_tieReg (g : Group) (r l : Nat) (e : Elem) : (g.setElem r l e).tieReg = g.tieReg := rfl
@[simp] theorem setElem_syms (g : Group) (r l : Nat) (e : Elem) : (g.setElem r l e).syms = g.syms := rfl
@[simp] theorem setElem_floor (g : Group) (r l : Nat) (e : Elem) : (g.setElem r l e).floor = g.floor := rfl
@[simp] theorem setElem_starve (g : Group) (r l : Nat) (e : Elem) : (g.setElem r l e).starve = g.starve := rfl
@[simp] theorem setElem_lastA (g : Group) (r l : Nat) (e : Elem) : (g.setElem r l e).lastA = g.lastA := rfl
@[simp] theorem setElem_lastLanes (g : Group) (r l : Nat) (e : Elem) : (g.setElem r l e).lastLanes = g.lastLanes := rfl
@[simp] theorem setElem_latch (g : Group) (r l : Nat) (e : Elem) : (g.setElem r l e).latch = g.latch := rfl
@[simp] theorem setElem_phase (g : Group) (r l : Nat) (e : Elem) : (g.setElem r l e).phase = g.phase := rfl
@[simp] theorem setElem_phaseVals (g : Group) (r l : Nat) (e : Elem) : (g.setElem r l e).phaseVals = g.phaseVals := rfl
@[simp] theorem setElem_phaseAt (g : Group) (r l : Nat) (e : Elem) : (g.setElem r l e).phaseAt = g.phaseAt := rfl
@[simp] theorem setElem_phaseLanes (g : Group) (r l : Nat) (e : Elem) : (g.setElem r l e).phaseLanes = g.phaseLanes := rfl
@[simp] theorem setElem_active (g : Group) (r l : Nat) (e : Elem) : (g.setElem r l e).active = g.active := rfl
@[simp] theorem setElem_order (g : Group) (r l : Nat) (e : Elem) : (g.setElem r l e).order = g.order := rfl
@[simp] theorem setElem_entered (g : Group) (r l : Nat) (e : Elem) : (g.setElem r l e).entered = g.entered := rfl
@[simp] theorem setElem_readySince (g : Group) (r l : Nat) (e : Elem) : (g.setElem r l e).readySince = g.readySince := rfl
@[simp] theorem setElem_forced (g : Group) (r l : Nat) (e : Elem) : (g.setElem r l e).forced = g.forced := rfl
@[simp] theorem setElem_waitSince (g : Group) (r l : Nat) (e : Elem) : (g.setElem r l e).waitSince = g.waitSince := rfl
@[simp] theorem setElem_blocked (g : Group) (r l : Nat) (e : Elem) : (g.setElem r l e).blocked = g.blocked := rfl
@[simp] theorem setElem_ready (g : Group) (r l : Nat) (e : Elem) : (g.setElem r l e).ready = g.ready := rfl
@[simp] theorem setElem_watches (g : Group) (r l : Nat) (e : Elem) : (g.setElem r l e).watches = g.watches := rfl
@[simp] theorem setElem_ctxSel (g : Group) (r l : Nat) (e : Elem) : (g.setElem r l e).ctxSel = g.ctxSel := rfl
@[simp] theorem setElem_ops (g : Group) (r l : Nat) (e : Elem) : (g.setElem r l e).ops = g.ops := rfl
@[simp] theorem setElem_waits (g : Group) (r l : Nat) (e : Elem) : (g.setElem r l e).waits = g.waits := rfl
@[simp] theorem setElem_arrived (g : Group) (r l : Nat) (e : Elem) : (g.setElem r l e).arrived = g.arrived := rfl
@[simp] theorem setElem_skid (g : Group) (r l : Nat) (e : Elem) : (g.setElem r l e).skid = g.skid := rfl
@[simp] theorem setElem_step (g : Group) (r l : Nat) (e : Elem) : (g.setElem r l e).step = g.step := rfl
@[simp] theorem setElem_stepLanes (g : Group) (r l : Nat) (e : Elem) : (g.setElem r l e).stepLanes = g.stepLanes := rfl
@[simp] theorem setElem_replay (g : Group) (r l : Nat) (e : Elem) : (g.setElem r l e).replay = g.replay := rfl
@[simp] theorem setElem_sent (g : Group) (r l : Nat) (e : Elem) : (g.setElem r l e).sent = g.sent := rfl

/-! `setM`. -/

@[simp] theorem setM_id (g : Group) (k : Nat) (w : Word) : (g.setM k w).id = g.id := rfl
@[simp] theorem setM_core (g : Group) (k : Nat) (w : Word) : (g.setM k w).core = g.core := rfl
@[simp] theorem setM_bank (g : Group) (k : Nat) (w : Word) : (g.setM k w).bank = g.bank := rfl
@[simp] theorem setM_wedge (g : Group) (k : Nat) (w : Word) : (g.setM k w).wedge = g.wedge := rfl
@[simp] theorem setM_slot (g : Group) (k : Nat) (w : Word) : (g.setM k w).slot = g.slot := rfl
@[simp] theorem setM_lanes (g : Group) (k : Nat) (w : Word) : (g.setM k w).lanes = g.lanes := rfl
@[simp] theorem setM_v (g : Group) (k : Nat) (w : Word) : (g.setM k w).v = g.v := rfl
@[simp] theorem setM_s (g : Group) (k : Nat) (w : Word) : (g.setM k w).s = g.s := rfl
@[simp] theorem setM_f (g : Group) (k : Nat) (w : Word) : (g.setM k w).f = g.f := rfl
@[simp] theorem setM_h (g : Group) (k : Nat) (w : Word) : (g.setM k w).h = g.h := rfl
@[simp] theorem setM_c (g : Group) (k : Nat) (w : Word) : (g.setM k w).c = g.c := rfl
@[simp] theorem setM_tile (g : Group) (k : Nat) (w : Word) : (g.setM k w).tile = g.tile := rfl
@[simp] theorem setM_cause (g : Group) (k : Nat) (w : Word) : (g.setM k w).cause = g.cause := rfl
@[simp] theorem setM_causeUp (g : Group) (k : Nat) (w : Word) : (g.setM k w).causeUp = g.causeUp := rfl
@[simp] theorem setM_faulted (g : Group) (k : Nat) (w : Word) : (g.setM k w).faulted = g.faulted := rfl
@[simp] theorem setM_rmode (g : Group) (k : Nat) (w : Word) : (g.setM k w).rmode = g.rmode := rfl
@[simp] theorem setM_mode (g : Group) (k : Nat) (w : Word) : (g.setM k w).mode = g.mode := rfl
@[simp] theorem setM_lfsr (g : Group) (k : Nat) (w : Word) : (g.setM k w).lfsr = g.lfsr := rfl
@[simp] theorem setM_tieSrc (g : Group) (k : Nat) (w : Word) : (g.setM k w).tieSrc = g.tieSrc := rfl
@[simp] theorem setM_tieReg (g : Group) (k : Nat) (w : Word) : (g.setM k w).tieReg = g.tieReg := rfl
@[simp] theorem setM_syms (g : Group) (k : Nat) (w : Word) : (g.setM k w).syms = g.syms := rfl
@[simp] theorem setM_floor (g : Group) (k : Nat) (w : Word) : (g.setM k w).floor = g.floor := rfl
@[simp] theorem setM_starve (g : Group) (k : Nat) (w : Word) : (g.setM k w).starve = g.starve := rfl
@[simp] theorem setM_lastA (g : Group) (k : Nat) (w : Word) : (g.setM k w).lastA = g.lastA := rfl
@[simp] theorem setM_lastLanes (g : Group) (k : Nat) (w : Word) : (g.setM k w).lastLanes = g.lastLanes := rfl
@[simp] theorem setM_latch (g : Group) (k : Nat) (w : Word) : (g.setM k w).latch = g.latch := rfl
@[simp] theorem setM_phase (g : Group) (k : Nat) (w : Word) : (g.setM k w).phase = g.phase := rfl
@[simp] theorem setM_phaseVals (g : Group) (k : Nat) (w : Word) : (g.setM k w).phaseVals = g.phaseVals := rfl
@[simp] theorem setM_phaseAt (g : Group) (k : Nat) (w : Word) : (g.setM k w).phaseAt = g.phaseAt := rfl
@[simp] theorem setM_phaseLanes (g : Group) (k : Nat) (w : Word) : (g.setM k w).phaseLanes = g.phaseLanes := rfl
@[simp] theorem setM_active (g : Group) (k : Nat) (w : Word) : (g.setM k w).active = g.active := rfl
@[simp] theorem setM_order (g : Group) (k : Nat) (w : Word) : (g.setM k w).order = g.order := rfl
@[simp] theorem setM_entered (g : Group) (k : Nat) (w : Word) : (g.setM k w).entered = g.entered := rfl
@[simp] theorem setM_readySince (g : Group) (k : Nat) (w : Word) : (g.setM k w).readySince = g.readySince := rfl
@[simp] theorem setM_forced (g : Group) (k : Nat) (w : Word) : (g.setM k w).forced = g.forced := rfl
@[simp] theorem setM_waitSince (g : Group) (k : Nat) (w : Word) : (g.setM k w).waitSince = g.waitSince := rfl
@[simp] theorem setM_blocked (g : Group) (k : Nat) (w : Word) : (g.setM k w).blocked = g.blocked := rfl
@[simp] theorem setM_ready (g : Group) (k : Nat) (w : Word) : (g.setM k w).ready = g.ready := rfl
@[simp] theorem setM_watches (g : Group) (k : Nat) (w : Word) : (g.setM k w).watches = g.watches := rfl
@[simp] theorem setM_ctxSel (g : Group) (k : Nat) (w : Word) : (g.setM k w).ctxSel = g.ctxSel := rfl
@[simp] theorem setM_ops (g : Group) (k : Nat) (w : Word) : (g.setM k w).ops = g.ops := rfl
@[simp] theorem setM_waits (g : Group) (k : Nat) (w : Word) : (g.setM k w).waits = g.waits := rfl
@[simp] theorem setM_arrived (g : Group) (k : Nat) (w : Word) : (g.setM k w).arrived = g.arrived := rfl
@[simp] theorem setM_skid (g : Group) (k : Nat) (w : Word) : (g.setM k w).skid = g.skid := rfl
@[simp] theorem setM_step (g : Group) (k : Nat) (w : Word) : (g.setM k w).step = g.step := rfl
@[simp] theorem setM_stepLanes (g : Group) (k : Nat) (w : Word) : (g.setM k w).stepLanes = g.stepLanes := rfl
@[simp] theorem setM_replay (g : Group) (k : Nat) (w : Word) : (g.setM k w).replay = g.replay := rfl
@[simp] theorem setM_sent (g : Group) (k : Nat) (w : Word) : (g.setM k w).sent = g.sent := rfl

/-! `setH`. -/

@[simp] theorem setH_id (g : Group) (k : Nat) (b : BitVec 8192) : (g.setH k b).id = g.id := rfl
@[simp] theorem setH_core (g : Group) (k : Nat) (b : BitVec 8192) : (g.setH k b).core = g.core := rfl
@[simp] theorem setH_bank (g : Group) (k : Nat) (b : BitVec 8192) : (g.setH k b).bank = g.bank := rfl
@[simp] theorem setH_wedge (g : Group) (k : Nat) (b : BitVec 8192) : (g.setH k b).wedge = g.wedge := rfl
@[simp] theorem setH_slot (g : Group) (k : Nat) (b : BitVec 8192) : (g.setH k b).slot = g.slot := rfl
@[simp] theorem setH_lanes (g : Group) (k : Nat) (b : BitVec 8192) : (g.setH k b).lanes = g.lanes := rfl
@[simp] theorem setH_v (g : Group) (k : Nat) (b : BitVec 8192) : (g.setH k b).v = g.v := rfl
@[simp] theorem setH_s (g : Group) (k : Nat) (b : BitVec 8192) : (g.setH k b).s = g.s := rfl
@[simp] theorem setH_m (g : Group) (k : Nat) (b : BitVec 8192) : (g.setH k b).m = g.m := rfl
@[simp] theorem setH_f (g : Group) (k : Nat) (b : BitVec 8192) : (g.setH k b).f = g.f := rfl
@[simp] theorem setH_c (g : Group) (k : Nat) (b : BitVec 8192) : (g.setH k b).c = g.c := rfl
@[simp] theorem setH_tile (g : Group) (k : Nat) (b : BitVec 8192) : (g.setH k b).tile = g.tile := rfl
@[simp] theorem setH_cause (g : Group) (k : Nat) (b : BitVec 8192) : (g.setH k b).cause = g.cause := rfl
@[simp] theorem setH_causeUp (g : Group) (k : Nat) (b : BitVec 8192) : (g.setH k b).causeUp = g.causeUp := rfl
@[simp] theorem setH_faulted (g : Group) (k : Nat) (b : BitVec 8192) : (g.setH k b).faulted = g.faulted := rfl
@[simp] theorem setH_rmode (g : Group) (k : Nat) (b : BitVec 8192) : (g.setH k b).rmode = g.rmode := rfl
@[simp] theorem setH_mode (g : Group) (k : Nat) (b : BitVec 8192) : (g.setH k b).mode = g.mode := rfl
@[simp] theorem setH_lfsr (g : Group) (k : Nat) (b : BitVec 8192) : (g.setH k b).lfsr = g.lfsr := rfl
@[simp] theorem setH_tieSrc (g : Group) (k : Nat) (b : BitVec 8192) : (g.setH k b).tieSrc = g.tieSrc := rfl
@[simp] theorem setH_tieReg (g : Group) (k : Nat) (b : BitVec 8192) : (g.setH k b).tieReg = g.tieReg := rfl
@[simp] theorem setH_syms (g : Group) (k : Nat) (b : BitVec 8192) : (g.setH k b).syms = g.syms := rfl
@[simp] theorem setH_floor (g : Group) (k : Nat) (b : BitVec 8192) : (g.setH k b).floor = g.floor := rfl
@[simp] theorem setH_starve (g : Group) (k : Nat) (b : BitVec 8192) : (g.setH k b).starve = g.starve := rfl
@[simp] theorem setH_lastA (g : Group) (k : Nat) (b : BitVec 8192) : (g.setH k b).lastA = g.lastA := rfl
@[simp] theorem setH_lastLanes (g : Group) (k : Nat) (b : BitVec 8192) : (g.setH k b).lastLanes = g.lastLanes := rfl
@[simp] theorem setH_latch (g : Group) (k : Nat) (b : BitVec 8192) : (g.setH k b).latch = g.latch := rfl
@[simp] theorem setH_phase (g : Group) (k : Nat) (b : BitVec 8192) : (g.setH k b).phase = g.phase := rfl
@[simp] theorem setH_phaseVals (g : Group) (k : Nat) (b : BitVec 8192) : (g.setH k b).phaseVals = g.phaseVals := rfl
@[simp] theorem setH_phaseAt (g : Group) (k : Nat) (b : BitVec 8192) : (g.setH k b).phaseAt = g.phaseAt := rfl
@[simp] theorem setH_phaseLanes (g : Group) (k : Nat) (b : BitVec 8192) : (g.setH k b).phaseLanes = g.phaseLanes := rfl
@[simp] theorem setH_active (g : Group) (k : Nat) (b : BitVec 8192) : (g.setH k b).active = g.active := rfl
@[simp] theorem setH_order (g : Group) (k : Nat) (b : BitVec 8192) : (g.setH k b).order = g.order := rfl
@[simp] theorem setH_entered (g : Group) (k : Nat) (b : BitVec 8192) : (g.setH k b).entered = g.entered := rfl
@[simp] theorem setH_readySince (g : Group) (k : Nat) (b : BitVec 8192) : (g.setH k b).readySince = g.readySince := rfl
@[simp] theorem setH_forced (g : Group) (k : Nat) (b : BitVec 8192) : (g.setH k b).forced = g.forced := rfl
@[simp] theorem setH_waitSince (g : Group) (k : Nat) (b : BitVec 8192) : (g.setH k b).waitSince = g.waitSince := rfl
@[simp] theorem setH_blocked (g : Group) (k : Nat) (b : BitVec 8192) : (g.setH k b).blocked = g.blocked := rfl
@[simp] theorem setH_ready (g : Group) (k : Nat) (b : BitVec 8192) : (g.setH k b).ready = g.ready := rfl
@[simp] theorem setH_watches (g : Group) (k : Nat) (b : BitVec 8192) : (g.setH k b).watches = g.watches := rfl
@[simp] theorem setH_ctxSel (g : Group) (k : Nat) (b : BitVec 8192) : (g.setH k b).ctxSel = g.ctxSel := rfl
@[simp] theorem setH_ops (g : Group) (k : Nat) (b : BitVec 8192) : (g.setH k b).ops = g.ops := rfl
@[simp] theorem setH_waits (g : Group) (k : Nat) (b : BitVec 8192) : (g.setH k b).waits = g.waits := rfl
@[simp] theorem setH_arrived (g : Group) (k : Nat) (b : BitVec 8192) : (g.setH k b).arrived = g.arrived := rfl
@[simp] theorem setH_skid (g : Group) (k : Nat) (b : BitVec 8192) : (g.setH k b).skid = g.skid := rfl
@[simp] theorem setH_step (g : Group) (k : Nat) (b : BitVec 8192) : (g.setH k b).step = g.step := rfl
@[simp] theorem setH_stepLanes (g : Group) (k : Nat) (b : BitVec 8192) : (g.setH k b).stepLanes = g.stepLanes := rfl
@[simp] theorem setH_replay (g : Group) (k : Nat) (b : BitVec 8192) : (g.setH k b).replay = g.replay := rfl
@[simp] theorem setH_sent (g : Group) (k : Nat) (b : BitVec 8192) : (g.setH k b).sent = g.sent := rfl

/-! `setLanes`. -/

@[simp] theorem setLanes_id (g : Group) (m : Word) (f : Lane → Lane) : (g.setLanes m f).id = g.id := rfl
@[simp] theorem setLanes_core (g : Group) (m : Word) (f : Lane → Lane) : (g.setLanes m f).core = g.core := rfl
@[simp] theorem setLanes_bank (g : Group) (m : Word) (f : Lane → Lane) : (g.setLanes m f).bank = g.bank := rfl
@[simp] theorem setLanes_wedge (g : Group) (m : Word) (f : Lane → Lane) : (g.setLanes m f).wedge = g.wedge := rfl
@[simp] theorem setLanes_slot (g : Group) (m : Word) (f : Lane → Lane) : (g.setLanes m f).slot = g.slot := rfl
@[simp] theorem setLanes_v (g : Group) (m : Word) (f : Lane → Lane) : (g.setLanes m f).v = g.v := rfl
@[simp] theorem setLanes_s (g : Group) (m : Word) (f : Lane → Lane) : (g.setLanes m f).s = g.s := rfl
@[simp] theorem setLanes_m (g : Group) (m : Word) (f : Lane → Lane) : (g.setLanes m f).m = g.m := rfl
@[simp] theorem setLanes_f (g : Group) (m : Word) (f : Lane → Lane) : (g.setLanes m f).f = g.f := rfl
@[simp] theorem setLanes_h (g : Group) (m : Word) (f : Lane → Lane) : (g.setLanes m f).h = g.h := rfl
@[simp] theorem setLanes_c (g : Group) (m : Word) (f : Lane → Lane) : (g.setLanes m f).c = g.c := rfl
@[simp] theorem setLanes_tile (g : Group) (m : Word) (f : Lane → Lane) : (g.setLanes m f).tile = g.tile := rfl
@[simp] theorem setLanes_cause (g : Group) (m : Word) (f : Lane → Lane) : (g.setLanes m f).cause = g.cause := rfl
@[simp] theorem setLanes_causeUp (g : Group) (m : Word) (f : Lane → Lane) : (g.setLanes m f).causeUp = g.causeUp := rfl
@[simp] theorem setLanes_faulted (g : Group) (m : Word) (f : Lane → Lane) : (g.setLanes m f).faulted = g.faulted := rfl
@[simp] theorem setLanes_rmode (g : Group) (m : Word) (f : Lane → Lane) : (g.setLanes m f).rmode = g.rmode := rfl
@[simp] theorem setLanes_mode (g : Group) (m : Word) (f : Lane → Lane) : (g.setLanes m f).mode = g.mode := rfl
@[simp] theorem setLanes_lfsr (g : Group) (m : Word) (f : Lane → Lane) : (g.setLanes m f).lfsr = g.lfsr := rfl
@[simp] theorem setLanes_tieSrc (g : Group) (m : Word) (f : Lane → Lane) : (g.setLanes m f).tieSrc = g.tieSrc := rfl
@[simp] theorem setLanes_tieReg (g : Group) (m : Word) (f : Lane → Lane) : (g.setLanes m f).tieReg = g.tieReg := rfl
@[simp] theorem setLanes_syms (g : Group) (m : Word) (f : Lane → Lane) : (g.setLanes m f).syms = g.syms := rfl
@[simp] theorem setLanes_floor (g : Group) (m : Word) (f : Lane → Lane) : (g.setLanes m f).floor = g.floor := rfl
@[simp] theorem setLanes_starve (g : Group) (m : Word) (f : Lane → Lane) : (g.setLanes m f).starve = g.starve := rfl
@[simp] theorem setLanes_lastA (g : Group) (m : Word) (f : Lane → Lane) : (g.setLanes m f).lastA = g.lastA := rfl
@[simp] theorem setLanes_lastLanes (g : Group) (m : Word) (f : Lane → Lane) : (g.setLanes m f).lastLanes = g.lastLanes := rfl
@[simp] theorem setLanes_latch (g : Group) (m : Word) (f : Lane → Lane) : (g.setLanes m f).latch = g.latch := rfl
@[simp] theorem setLanes_phase (g : Group) (m : Word) (f : Lane → Lane) : (g.setLanes m f).phase = g.phase := rfl
@[simp] theorem setLanes_phaseVals (g : Group) (m : Word) (f : Lane → Lane) : (g.setLanes m f).phaseVals = g.phaseVals := rfl
@[simp] theorem setLanes_phaseAt (g : Group) (m : Word) (f : Lane → Lane) : (g.setLanes m f).phaseAt = g.phaseAt := rfl
@[simp] theorem setLanes_phaseLanes (g : Group) (m : Word) (f : Lane → Lane) : (g.setLanes m f).phaseLanes = g.phaseLanes := rfl
@[simp] theorem setLanes_active (g : Group) (m : Word) (f : Lane → Lane) : (g.setLanes m f).active = g.active := rfl
@[simp] theorem setLanes_order (g : Group) (m : Word) (f : Lane → Lane) : (g.setLanes m f).order = g.order := rfl
@[simp] theorem setLanes_entered (g : Group) (m : Word) (f : Lane → Lane) : (g.setLanes m f).entered = g.entered := rfl
@[simp] theorem setLanes_readySince (g : Group) (m : Word) (f : Lane → Lane) : (g.setLanes m f).readySince = g.readySince := rfl
@[simp] theorem setLanes_forced (g : Group) (m : Word) (f : Lane → Lane) : (g.setLanes m f).forced = g.forced := rfl
@[simp] theorem setLanes_waitSince (g : Group) (m : Word) (f : Lane → Lane) : (g.setLanes m f).waitSince = g.waitSince := rfl
@[simp] theorem setLanes_blocked (g : Group) (m : Word) (f : Lane → Lane) : (g.setLanes m f).blocked = g.blocked := rfl
@[simp] theorem setLanes_ready (g : Group) (m : Word) (f : Lane → Lane) : (g.setLanes m f).ready = g.ready := rfl
@[simp] theorem setLanes_watches (g : Group) (m : Word) (f : Lane → Lane) : (g.setLanes m f).watches = g.watches := rfl
@[simp] theorem setLanes_ctxSel (g : Group) (m : Word) (f : Lane → Lane) : (g.setLanes m f).ctxSel = g.ctxSel := rfl
@[simp] theorem setLanes_ops (g : Group) (m : Word) (f : Lane → Lane) : (g.setLanes m f).ops = g.ops := rfl
@[simp] theorem setLanes_waits (g : Group) (m : Word) (f : Lane → Lane) : (g.setLanes m f).waits = g.waits := rfl
@[simp] theorem setLanes_arrived (g : Group) (m : Word) (f : Lane → Lane) : (g.setLanes m f).arrived = g.arrived := rfl
@[simp] theorem setLanes_skid (g : Group) (m : Word) (f : Lane → Lane) : (g.setLanes m f).skid = g.skid := rfl
@[simp] theorem setLanes_step (g : Group) (m : Word) (f : Lane → Lane) : (g.setLanes m f).step = g.step := rfl
@[simp] theorem setLanes_stepLanes (g : Group) (m : Word) (f : Lane → Lane) : (g.setLanes m f).stepLanes = g.stepLanes := rfl
@[simp] theorem setLanes_replay (g : Group) (m : Word) (f : Lane → Lane) : (g.setLanes m f).replay = g.replay := rfl
@[simp] theorem setLanes_sent (g : Group) (m : Word) (f : Lane → Lane) : (g.setLanes m f).sent = g.sent := rfl

/-! `place`. -/

@[simp] theorem place_id (g : Group) (m : Word) (f : Nat → Word × Arrival) : (g.place m f).id = g.id := rfl
@[simp] theorem place_core (g : Group) (m : Word) (f : Nat → Word × Arrival) : (g.place m f).core = g.core := rfl
@[simp] theorem place_bank (g : Group) (m : Word) (f : Nat → Word × Arrival) : (g.place m f).bank = g.bank := rfl
@[simp] theorem place_wedge (g : Group) (m : Word) (f : Nat → Word × Arrival) : (g.place m f).wedge = g.wedge := rfl
@[simp] theorem place_slot (g : Group) (m : Word) (f : Nat → Word × Arrival) : (g.place m f).slot = g.slot := rfl
@[simp] theorem place_v (g : Group) (m : Word) (f : Nat → Word × Arrival) : (g.place m f).v = g.v := rfl
@[simp] theorem place_s (g : Group) (m : Word) (f : Nat → Word × Arrival) : (g.place m f).s = g.s := rfl
@[simp] theorem place_m (g : Group) (m : Word) (f : Nat → Word × Arrival) : (g.place m f).m = g.m := rfl
@[simp] theorem place_f (g : Group) (m : Word) (f : Nat → Word × Arrival) : (g.place m f).f = g.f := rfl
@[simp] theorem place_h (g : Group) (m : Word) (f : Nat → Word × Arrival) : (g.place m f).h = g.h := rfl
@[simp] theorem place_c (g : Group) (m : Word) (f : Nat → Word × Arrival) : (g.place m f).c = g.c := rfl
@[simp] theorem place_tile (g : Group) (m : Word) (f : Nat → Word × Arrival) : (g.place m f).tile = g.tile := rfl
@[simp] theorem place_cause (g : Group) (m : Word) (f : Nat → Word × Arrival) : (g.place m f).cause = g.cause := rfl
@[simp] theorem place_causeUp (g : Group) (m : Word) (f : Nat → Word × Arrival) : (g.place m f).causeUp = g.causeUp := rfl
@[simp] theorem place_faulted (g : Group) (m : Word) (f : Nat → Word × Arrival) : (g.place m f).faulted = g.faulted := rfl
@[simp] theorem place_rmode (g : Group) (m : Word) (f : Nat → Word × Arrival) : (g.place m f).rmode = g.rmode := rfl
@[simp] theorem place_mode (g : Group) (m : Word) (f : Nat → Word × Arrival) : (g.place m f).mode = g.mode := rfl
@[simp] theorem place_lfsr (g : Group) (m : Word) (f : Nat → Word × Arrival) : (g.place m f).lfsr = g.lfsr := rfl
@[simp] theorem place_tieSrc (g : Group) (m : Word) (f : Nat → Word × Arrival) : (g.place m f).tieSrc = g.tieSrc := rfl
@[simp] theorem place_tieReg (g : Group) (m : Word) (f : Nat → Word × Arrival) : (g.place m f).tieReg = g.tieReg := rfl
@[simp] theorem place_syms (g : Group) (m : Word) (f : Nat → Word × Arrival) : (g.place m f).syms = g.syms := rfl
@[simp] theorem place_floor (g : Group) (m : Word) (f : Nat → Word × Arrival) : (g.place m f).floor = g.floor := rfl
@[simp] theorem place_starve (g : Group) (m : Word) (f : Nat → Word × Arrival) : (g.place m f).starve = g.starve := rfl
@[simp] theorem place_lastA (g : Group) (m : Word) (f : Nat → Word × Arrival) : (g.place m f).lastA = g.lastA := rfl
@[simp] theorem place_lastLanes (g : Group) (m : Word) (f : Nat → Word × Arrival) : (g.place m f).lastLanes = g.lastLanes := rfl
@[simp] theorem place_latch (g : Group) (m : Word) (f : Nat → Word × Arrival) : (g.place m f).latch = g.latch := rfl
@[simp] theorem place_phase (g : Group) (m : Word) (f : Nat → Word × Arrival) : (g.place m f).phase = g.phase := rfl
@[simp] theorem place_phaseVals (g : Group) (m : Word) (f : Nat → Word × Arrival) : (g.place m f).phaseVals = g.phaseVals := rfl
@[simp] theorem place_phaseAt (g : Group) (m : Word) (f : Nat → Word × Arrival) : (g.place m f).phaseAt = g.phaseAt := rfl
@[simp] theorem place_phaseLanes (g : Group) (m : Word) (f : Nat → Word × Arrival) : (g.place m f).phaseLanes = g.phaseLanes := rfl
@[simp] theorem place_active (g : Group) (m : Word) (f : Nat → Word × Arrival) : (g.place m f).active = g.active := rfl
@[simp] theorem place_order (g : Group) (m : Word) (f : Nat → Word × Arrival) : (g.place m f).order = g.order := rfl
@[simp] theorem place_entered (g : Group) (m : Word) (f : Nat → Word × Arrival) : (g.place m f).entered = g.entered := rfl
@[simp] theorem place_readySince (g : Group) (m : Word) (f : Nat → Word × Arrival) : (g.place m f).readySince = g.readySince := rfl
@[simp] theorem place_forced (g : Group) (m : Word) (f : Nat → Word × Arrival) : (g.place m f).forced = g.forced := rfl
@[simp] theorem place_waitSince (g : Group) (m : Word) (f : Nat → Word × Arrival) : (g.place m f).waitSince = g.waitSince := rfl
@[simp] theorem place_blocked (g : Group) (m : Word) (f : Nat → Word × Arrival) : (g.place m f).blocked = g.blocked := rfl
@[simp] theorem place_ready (g : Group) (m : Word) (f : Nat → Word × Arrival) : (g.place m f).ready = g.ready := rfl
@[simp] theorem place_watches (g : Group) (m : Word) (f : Nat → Word × Arrival) : (g.place m f).watches = g.watches := rfl
@[simp] theorem place_ctxSel (g : Group) (m : Word) (f : Nat → Word × Arrival) : (g.place m f).ctxSel = g.ctxSel := rfl
@[simp] theorem place_ops (g : Group) (m : Word) (f : Nat → Word × Arrival) : (g.place m f).ops = g.ops := rfl
@[simp] theorem place_waits (g : Group) (m : Word) (f : Nat → Word × Arrival) : (g.place m f).waits = g.waits := rfl
@[simp] theorem place_arrived (g : Group) (m : Word) (f : Nat → Word × Arrival) : (g.place m f).arrived = g.arrived := rfl
@[simp] theorem place_skid (g : Group) (m : Word) (f : Nat → Word × Arrival) : (g.place m f).skid = g.skid := rfl
@[simp] theorem place_step (g : Group) (m : Word) (f : Nat → Word × Arrival) : (g.place m f).step = g.step := rfl
@[simp] theorem place_stepLanes (g : Group) (m : Word) (f : Nat → Word × Arrival) : (g.place m f).stepLanes = g.stepLanes := rfl
@[simp] theorem place_replay (g : Group) (m : Word) (f : Nat → Word × Arrival) : (g.place m f).replay = g.replay := rfl
@[simp] theorem place_sent (g : Group) (m : Word) (f : Nat → Word × Arrival) : (g.place m f).sent = g.sent := rfl

/-! `writeLanes`. -/

@[simp] theorem writeLanes_id (s : State) (g : Group) (a n : Nat) (f : Nat → Nat → Word) : (writeLanes s g a n f).id = g.id := rfl
@[simp] theorem writeLanes_core (s : State) (g : Group) (a n : Nat) (f : Nat → Nat → Word) : (writeLanes s g a n f).core = g.core := rfl
@[simp] theorem writeLanes_bank (s : State) (g : Group) (a n : Nat) (f : Nat → Nat → Word) : (writeLanes s g a n f).bank = g.bank := rfl
@[simp] theorem writeLanes_wedge (s : State) (g : Group) (a n : Nat) (f : Nat → Nat → Word) : (writeLanes s g a n f).wedge = g.wedge := rfl
@[simp] theorem writeLanes_slot (s : State) (g : Group) (a n : Nat) (f : Nat → Nat → Word) : (writeLanes s g a n f).slot = g.slot := rfl
@[simp] theorem writeLanes_lanes (s : State) (g : Group) (a n : Nat) (f : Nat → Nat → Word) : (writeLanes s g a n f).lanes = g.lanes := rfl
@[simp] theorem writeLanes_s (s : State) (g : Group) (a n : Nat) (f : Nat → Nat → Word) : (writeLanes s g a n f).s = g.s := rfl
@[simp] theorem writeLanes_m (s : State) (g : Group) (a n : Nat) (f : Nat → Nat → Word) : (writeLanes s g a n f).m = g.m := rfl
@[simp] theorem writeLanes_f (s : State) (g : Group) (a n : Nat) (f : Nat → Nat → Word) : (writeLanes s g a n f).f = g.f := rfl
@[simp] theorem writeLanes_h (s : State) (g : Group) (a n : Nat) (f : Nat → Nat → Word) : (writeLanes s g a n f).h = g.h := rfl
@[simp] theorem writeLanes_c (s : State) (g : Group) (a n : Nat) (f : Nat → Nat → Word) : (writeLanes s g a n f).c = g.c := rfl
@[simp] theorem writeLanes_tile (s : State) (g : Group) (a n : Nat) (f : Nat → Nat → Word) : (writeLanes s g a n f).tile = g.tile := rfl
@[simp] theorem writeLanes_cause (s : State) (g : Group) (a n : Nat) (f : Nat → Nat → Word) : (writeLanes s g a n f).cause = g.cause := rfl
@[simp] theorem writeLanes_causeUp (s : State) (g : Group) (a n : Nat) (f : Nat → Nat → Word) : (writeLanes s g a n f).causeUp = g.causeUp := rfl
@[simp] theorem writeLanes_faulted (s : State) (g : Group) (a n : Nat) (f : Nat → Nat → Word) : (writeLanes s g a n f).faulted = g.faulted := rfl
@[simp] theorem writeLanes_rmode (s : State) (g : Group) (a n : Nat) (f : Nat → Nat → Word) : (writeLanes s g a n f).rmode = g.rmode := rfl
@[simp] theorem writeLanes_mode (s : State) (g : Group) (a n : Nat) (f : Nat → Nat → Word) : (writeLanes s g a n f).mode = g.mode := rfl
@[simp] theorem writeLanes_lfsr (s : State) (g : Group) (a n : Nat) (f : Nat → Nat → Word) : (writeLanes s g a n f).lfsr = g.lfsr := rfl
@[simp] theorem writeLanes_tieSrc (s : State) (g : Group) (a n : Nat) (f : Nat → Nat → Word) : (writeLanes s g a n f).tieSrc = g.tieSrc := rfl
@[simp] theorem writeLanes_tieReg (s : State) (g : Group) (a n : Nat) (f : Nat → Nat → Word) : (writeLanes s g a n f).tieReg = g.tieReg := rfl
@[simp] theorem writeLanes_syms (s : State) (g : Group) (a n : Nat) (f : Nat → Nat → Word) : (writeLanes s g a n f).syms = g.syms := rfl
@[simp] theorem writeLanes_floor (s : State) (g : Group) (a n : Nat) (f : Nat → Nat → Word) : (writeLanes s g a n f).floor = g.floor := rfl
@[simp] theorem writeLanes_starve (s : State) (g : Group) (a n : Nat) (f : Nat → Nat → Word) : (writeLanes s g a n f).starve = g.starve := rfl
@[simp] theorem writeLanes_lastA (s : State) (g : Group) (a n : Nat) (f : Nat → Nat → Word) : (writeLanes s g a n f).lastA = g.lastA := rfl
@[simp] theorem writeLanes_lastLanes (s : State) (g : Group) (a n : Nat) (f : Nat → Nat → Word) : (writeLanes s g a n f).lastLanes = g.lastLanes := rfl
@[simp] theorem writeLanes_latch (s : State) (g : Group) (a n : Nat) (f : Nat → Nat → Word) : (writeLanes s g a n f).latch = g.latch := rfl
@[simp] theorem writeLanes_phase (s : State) (g : Group) (a n : Nat) (f : Nat → Nat → Word) : (writeLanes s g a n f).phase = g.phase := rfl
@[simp] theorem writeLanes_phaseVals (s : State) (g : Group) (a n : Nat) (f : Nat → Nat → Word) : (writeLanes s g a n f).phaseVals = g.phaseVals := rfl
@[simp] theorem writeLanes_phaseAt (s : State) (g : Group) (a n : Nat) (f : Nat → Nat → Word) : (writeLanes s g a n f).phaseAt = g.phaseAt := rfl
@[simp] theorem writeLanes_phaseLanes (s : State) (g : Group) (a n : Nat) (f : Nat → Nat → Word) : (writeLanes s g a n f).phaseLanes = g.phaseLanes := rfl
@[simp] theorem writeLanes_active (s : State) (g : Group) (a n : Nat) (f : Nat → Nat → Word) : (writeLanes s g a n f).active = g.active := rfl
@[simp] theorem writeLanes_order (s : State) (g : Group) (a n : Nat) (f : Nat → Nat → Word) : (writeLanes s g a n f).order = g.order := rfl
@[simp] theorem writeLanes_entered (s : State) (g : Group) (a n : Nat) (f : Nat → Nat → Word) : (writeLanes s g a n f).entered = g.entered := rfl
@[simp] theorem writeLanes_readySince (s : State) (g : Group) (a n : Nat) (f : Nat → Nat → Word) : (writeLanes s g a n f).readySince = g.readySince := rfl
@[simp] theorem writeLanes_forced (s : State) (g : Group) (a n : Nat) (f : Nat → Nat → Word) : (writeLanes s g a n f).forced = g.forced := rfl
@[simp] theorem writeLanes_waitSince (s : State) (g : Group) (a n : Nat) (f : Nat → Nat → Word) : (writeLanes s g a n f).waitSince = g.waitSince := rfl
@[simp] theorem writeLanes_blocked (s : State) (g : Group) (a n : Nat) (f : Nat → Nat → Word) : (writeLanes s g a n f).blocked = g.blocked := rfl
@[simp] theorem writeLanes_ready (s : State) (g : Group) (a n : Nat) (f : Nat → Nat → Word) : (writeLanes s g a n f).ready = g.ready := rfl
@[simp] theorem writeLanes_watches (s : State) (g : Group) (a n : Nat) (f : Nat → Nat → Word) : (writeLanes s g a n f).watches = g.watches := rfl
@[simp] theorem writeLanes_ctxSel (s : State) (g : Group) (a n : Nat) (f : Nat → Nat → Word) : (writeLanes s g a n f).ctxSel = g.ctxSel := rfl
@[simp] theorem writeLanes_ops (s : State) (g : Group) (a n : Nat) (f : Nat → Nat → Word) : (writeLanes s g a n f).ops = g.ops := rfl
@[simp] theorem writeLanes_waits (s : State) (g : Group) (a n : Nat) (f : Nat → Nat → Word) : (writeLanes s g a n f).waits = g.waits := rfl
@[simp] theorem writeLanes_arrived (s : State) (g : Group) (a n : Nat) (f : Nat → Nat → Word) : (writeLanes s g a n f).arrived = g.arrived := rfl
@[simp] theorem writeLanes_skid (s : State) (g : Group) (a n : Nat) (f : Nat → Nat → Word) : (writeLanes s g a n f).skid = g.skid := rfl
@[simp] theorem writeLanes_step (s : State) (g : Group) (a n : Nat) (f : Nat → Nat → Word) : (writeLanes s g a n f).step = g.step := rfl
@[simp] theorem writeLanes_stepLanes (s : State) (g : Group) (a n : Nat) (f : Nat → Nat → Word) : (writeLanes s g a n f).stepLanes = g.stepLanes := rfl
@[simp] theorem writeLanes_replay (s : State) (g : Group) (a n : Nat) (f : Nat → Nat → Word) : (writeLanes s g a n f).replay = g.replay := rfl
@[simp] theorem writeLanes_sent (s : State) (g : Group) (a n : Nat) (f : Nat → Nat → Word) : (writeLanes s g a n f).sent = g.sent := rfl

/-! Registers read after they are written. -/

/-- s0 reads 0 (R46). -/
@[simp] theorem sreg_zero (g : Group) : g.sreg 0 = 0 := rfl
/-- A write to s0 is discarded (R46). -/
@[simp] theorem setS_zero (g : Group) (w : Word) : g.setS 0 w = g := rfl
theorem sreg_setS_self (g : Group) {r : Nat} (hr : r ≠ 0) (w : Word) : (g.setS r w).sreg r = w := by
  simp [Group.sreg, Group.setS, hr, SVal.word]
theorem sreg_setS_ne (g : Group) {q r : Nat} (w : Word) (h : q ≠ r) : (g.setS r w).sreg q = g.sreg q := by
  unfold Group.setS; split
  · rfl
  · simp only [Group.sreg, cget_cset_ne _ _ _ h]
@[simp] theorem elem_setElem_self (g : Group) (r l : Nat) (e : Elem) : (g.setElem r l e).elem r l = e :=
  cget_cset_self _ _ _ _
theorem elem_setElem_ne (g : Group) {r l q k : Nat} (e : Elem) (h : vkey q k ≠ vkey r l) :
    (g.setElem r l e).elem q k = g.elem q k := cget_cset_ne _ _ _ h
@[simp] theorem mreg_setM_self (g : Group) (k : Nat) (w : Word) : (g.setM k w).mreg k = w := cget_cset_self _ _ _ _
theorem mreg_setM_ne (g : Group) {j k : Nat} (w : Word) (h : j ≠ k) : (g.setM k w).mreg j = g.mreg j :=
  cget_cset_ne _ _ _ h
@[simp] theorem hreg_setH_self (g : Group) (k : Nat) (b : BitVec 8192) : (g.setH k b).hreg k = b := by
  simp [Group.hreg, Group.setH, HVal.bits]
theorem hreg_setH_ne (g : Group) {j k : Nat} (b : BitVec 8192) (h : j ≠ k) : (g.setH k b).hreg j = g.hreg j := by
  simp only [Group.hreg, Group.setH, cget_cset_ne _ _ _ h]

end Sys2Proof.Machine
end

