-- ==== Sys2Proof/Laws/Access.lean ====
section
/-! SUPPORT. Per-lane accesses: the frame of an access that issues, and watchpoints that strike nothing. -/

namespace Sys2Proof.Machine

/-- Where an access issues, it acts on its group and executing lanes. -/
theorem laneMem_of_ready {s : State} {g : Group} {rule : PfxRule} {dst data mv ms : List Nat} {flag : Nat}
    {fl : Group → Nat} (h : AccessReady s g rule dst data mv ms flag) (hf : fl g = flag) (k : Group → List Nat → Out) :
    laneMem s rule dst data mv ms fl k = k g (lanesOf (execMask s g)) := by
  obtain ⟨hi, hk, hc, hfl⟩ := h
  rw [laneMem, begin_of_issues hi, blockingAccess_of_known hk, annHold, hc, charged, hf, hfl]; rfl

theorem AtOnce.midst {s : State} {g : Group} (h : AtOnce s g) : g.midst = false := by
  rw [← h.2]; rfl
/-- Where an issue makes every access of its instruction, it makes its points in turn and ends. -/
theorem partwise_of_atOnce {s : State} {g : Group} (h : AtOnce s g) (gather : Bool) (f : State → Point → State × Nat)
    (k : State → List Point → Out) (start : (State → List Point → Out) → Out) :
    partwise s g gather f k start = start fun u ps => inParts u g gather f [] ps k := by
  simp [partwise, h.midst]
theorem inParts_of_whole {s : State} (h : s.iss.cut = 0) (g : Group) (gather : Bool) (f : State → Point → State × Nat)
    (ps : List Point) (k : State → List Point → Out) :
    inParts s g gather f [] ps k = k (makePoints f s ps).1 (makePoints f s ps).2 := by
  simp [inParts, h]

/-- An operation left outstanding, as `completeOp` leaves it. -/
theorem completeOp_eq (s : State) (g : Group) (k : Nat) (vw sw : List (Nat × Word)) :
    completeOp s g k vw sw none false = .next (s.awaits g k vw sw) := rfl

theorem Unwatched.congr {s t : State} {g : Group} (h : Unwatched s g) (hr : t.regs = s.regs) : Unwatched t g := by
  intro k hk
  have := h k hk
  simp only [regGet, ctxPart, hr] at this ⊢
  exact this

theorem strike_of_none {s : State} {g : Group} {rd wr : Bool} {xs : List Seen}
    (h : ∀ k, k < 4 → xs.filter (watchMatches s (ctxPart s g.id.ctx) g.id.ctx k rd wr) = []) :
    strike s g rd wr xs = (s, none) := by
  have hh : ((List.range 4).filterMap fun k =>
      (leastBy Seen.lane (xs.filter (watchMatches s (ctxPart s g.id.ctx) g.id.ctx k rd wr))).map fun x => (k, x)) = [] := by
    rw [List.filterMap_eq_nil_iff]
    intro k hk
    rw [h k (by simpa using hk)]
    rfl
  unfold strike
  simp only [hh, List.filter_nil, List.foldl_nil]

theorem strike_of_unwatched {s : State} {g : Group} (h : Unwatched s g) (rd wr : Bool) (xs : List Seen) :
    strike s g rd wr xs = (s, none) :=
  strike_of_none fun k hk => by
    rw [List.filter_eq_nil_iff]
    intro x _
    simp [watchMatches, h k hk]

theorem strike_nil (s : State) (g : Group) (rd wr : Bool) : strike s g rd wr [] = (s, none) :=
  strike_of_none fun _ _ => rfl

/-- An issue that no watchpoint sees ends as it would. -/
theorem watched_of_none {t : State} {g : Group} {rd wr : Bool} {xs : List Seen} (h : strike t g rd wr xs = (t, none)) :
    watched g rd wr xs (.next t) = .next t := by
  simp only [watched, h, ite_self]

theorem watched_awaits {s t : State} {g h : Group} (hu : Unwatched s g) (hr : t.regs = s.regs) (rd wr : Bool)
    (xs : List Seen) (k : Nat) (vw sw : List (Nat × Word)) :
    watched g rd wr xs (completeOp t h k vw sw none false) = .next (t.awaits h k vw sw) := by
  rw [completeOp_eq]
  exact watched_of_none (strike_of_unwatched (hu.congr (t := t.awaits h k vw sw) hr) _ _ _)

theorem watched_nil (g : Group) (rd wr : Bool) (t : State) : watched g rd wr [] (.next t) = .next t :=
  watched_of_none (strike_nil _ _ _ _)

/-! Loss of idempotent status changes teams alone. -/

@[simp] theorem loseIdem_regs (s : State) (g : Group) : (loseIdem s g).regs = s.regs := by
  unfold loseIdem; split <;> rfl
@[simp] theorem loseIfRemote_regs (s : State) (g : Group) (ks : List Nat) : (loseIfRemote s g ks).regs = s.regs := by
  unfold loseIfRemote; split <;> simp
@[simp] theorem loseIdem_iss (s : State) (g : Group) : (loseIdem s g).iss = s.iss := by
  unfold loseIdem; split <;> rfl
@[simp] theorem loseIfRemote_iss (s : State) (g : Group) (ks : List Nat) : (loseIfRemote s g ks).iss = s.iss := by
  unfold loseIfRemote; split <;> simp
@[simp] theorem loseIdem_groups (s : State) (g : Group) : (loseIdem s g).groups = s.groups := by
  unfold loseIdem; split <;> rfl
@[simp] theorem loseIfRemote_groups (s : State) (g : Group) (ks : List Nat) : (loseIfRemote s g ks).groups = s.groups := by
  unfold loseIfRemote; split <;> simp
@[simp] theorem loseIdem_mem (s : State) (g : Group) : (loseIdem s g).mem = s.mem := by
  unfold loseIdem; split <;> rfl
@[simp] theorem loseIfRemote_mem (s : State) (g : Group) (ks : List Nat) : (loseIfRemote s g ks).mem = s.mem := by
  unfold loseIfRemote; split <;> simp
@[simp] theorem loseIdem_scr (s : State) (g : Group) : (loseIdem s g).scr = s.scr := by
  unfold loseIdem; split <;> rfl
@[simp] theorem loseIfRemote_scr (s : State) (g : Group) (ks : List Nat) : (loseIfRemote s g ks).scr = s.scr := by
  unfold loseIfRemote; split <;> simp
@[simp] theorem loseIdem_partials (s : State) (g : Group) : (loseIdem s g).partials = s.partials := by
  unfold loseIdem; split <;> rfl
@[simp] theorem loseIfRemote_partials (s : State) (g : Group) (ks : List Nat) : (loseIfRemote s g ks).partials = s.partials := by
  unfold loseIfRemote; split <;> simp
@[simp] theorem loseIdem_l1 (s : State) (g : Group) : (loseIdem s g).l1 = s.l1 := by
  unfold loseIdem; split <;> rfl
@[simp] theorem loseIfRemote_l1 (s : State) (g : Group) (ks : List Nat) : (loseIfRemote s g ks).l1 = s.l1 := by
  unfold loseIfRemote; split <;> simp
@[simp] theorem loseIdem_caps (s : State) (g : Group) : (loseIdem s g).caps = s.caps := by
  unfold loseIdem; split <;> rfl
@[simp] theorem loseIfRemote_caps (s : State) (g : Group) (ks : List Nat) : (loseIfRemote s g ks).caps = s.caps := by
  unfold loseIfRemote; split <;> simp
@[simp] theorem loseIdem_fresh (s : State) (g : Group) : (loseIdem s g).fresh = s.fresh := by
  unfold loseIdem; split <;> rfl
@[simp] theorem loseIfRemote_fresh (s : State) (g : Group) (ks : List Nat) : (loseIfRemote s g ks).fresh = s.fresh := by
  unfold loseIfRemote; split <;> simp
@[simp] theorem loseIdem_time (s : State) (g : Group) : (loseIdem s g).time = s.time := by
  unfold loseIdem; split <;> rfl
@[simp] theorem loseIfRemote_time (s : State) (g : Group) (ks : List Nat) : (loseIfRemote s g ks).time = s.time := by
  unfold loseIfRemote; split <;> simp
@[simp] theorem loseIdem_ctxs (s : State) (g : Group) : (loseIdem s g).ctxs = s.ctxs := by
  unfold loseIdem; split <;> rfl
@[simp] theorem loseIfRemote_ctxs (s : State) (g : Group) (ks : List Nat) : (loseIfRemote s g ks).ctxs = s.ctxs := by
  unfold loseIfRemote; split <;> simp

/-- The checks of scratch accesses that all pass. -/
theorem checkScratchLanes_of_ok {s : State} {g : Group} {addr key : Nat → Nat} {n : Nat} {ex : List Nat}
    (h : ∀ l ∈ ex, checkScratch s g.id.tid (addr l) n n = .ok (key l)) :
    checkScratchLanes s g addr n ex = (s, [], ex.map fun l => (l, key l)) := by
  unfold checkScratchLanes
  induction ex with
  | nil => rfl
  | cons l ls ih =>
    have := ih fun l hl => h l (List.mem_cons_of_mem _ hl)
    simp only [checkLanes, h l List.mem_cons_self, this, List.map_cons]

end Sys2Proof.Machine
end

