-- ==== Sys2Proof/Laws/Dispatch.lean ====
section
/-! SUPPORT. Each arm of `exec` as an equation, so that no proof unfolds the dispatch. -/

namespace Sys2Proof.Machine

theorem exec_clauseHeader (len : BitVec 5) (flagB : BitVec 4) (flagA : BitVec 4) (wait : BitVec 12) (s : State) :
    exec (.clauseHeader len flagB flagA wait) s = execClauseHeader len flagB flagA wait s := rfl
theorem exec_prefixWord (d : VReg) (dv : Bool) (ftz : Bool) (zero : Bool) (rnd : BitVec 3) (mask : BitVec 4) (s : State) :
    exec (.prefixWord d dv ftz zero rnd mask) s = execPrefixWord d dv ftz zero rnd mask s := rfl
theorem exec_longForm (minor : BitVec 4) (b : BitVec 7) (a : BitVec 7) (icls : BitVec 6) (lit : Word) (s : State) :
    exec (.longForm minor b a icls lit) s = execLongForm minor b a icls lit s := rfl
theorem exec_nopHalf (s : State) :
    exec (.nopHalf) s = execNopHalf s := rfl
theorem exec_addI32Half (a : BitVec 6) (b : BitVec 5) (s : State) :
    exec (.addI32Half a b) s = execAddI32Half a b s := rfl
theorem exec_subI32Half (a : BitVec 6) (b : BitVec 5) (s : State) :
    exec (.subI32Half a b) s = execSubI32Half a b s := rfl
theorem exec_mulI32Half (a : BitVec 6) (b : BitVec 5) (s : State) :
    exec (.mulI32Half a b) s = execMulI32Half a b s := rfl
theorem exec_andB32Half (a : BitVec 6) (b : BitVec 5) (s : State) :
    exec (.andB32Half a b) s = execAndB32Half a b s := rfl
theorem exec_orB32Half (a : BitVec 6) (b : BitVec 5) (s : State) :
    exec (.orB32Half a b) s = execOrB32Half a b s := rfl
theorem exec_xorB32Half (a : BitVec 6) (b : BitVec 5) (s : State) :
    exec (.xorB32Half a b) s = execXorB32Half a b s := rfl
theorem exec_shlB32Half (a : BitVec 6) (b : BitVec 5) (s : State) :
    exec (.shlB32Half a b) s = execShlB32Half a b s := rfl
theorem exec_shrN32Half (a : BitVec 6) (b : BitVec 5) (s : State) :
    exec (.shrN32Half a b) s = execShrN32Half a b s := rfl
theorem exec_faddF32Half (a : BitVec 6) (b : BitVec 5) (s : State) :
    exec (.faddF32Half a b) s = execFaddF32Half a b s := rfl
theorem exec_fsubF32Half (a : BitVec 6) (b : BitVec 5) (s : State) :
    exec (.fsubF32Half a b) s = execFsubF32Half a b s := rfl
theorem exec_fmulF32Half (a : BitVec 6) (b : BitVec 5) (s : State) :
    exec (.fmulF32Half a b) s = execFmulF32Half a b s := rfl
theorem exec_fminF32Half (a : BitVec 6) (b : BitVec 5) (s : State) :
    exec (.fminF32Half a b) s = execFminF32Half a b s := rfl
theorem exec_fmaxF32Half (a : BitVec 6) (b : BitVec 5) (s : State) :
    exec (.fmaxF32Half a b) s = execFmaxF32Half a b s := rfl
theorem exec_movB32Half (a : BitVec 6) (b : BitVec 5) (s : State) :
    exec (.movB32Half a b) s = execMovB32Half a b s := rfl
theorem exec_minI32Half (a : BitVec 6) (b : BitVec 5) (s : State) :
    exec (.minI32Half a b) s = execMinI32Half a b s := rfl
theorem exec_scalarAdd (a : SReg) (b : SReg) (c : XOp) (s : State) :
    exec (.scalarAdd a b c) s = execScalarAdd a b c s := rfl
theorem exec_scalarSub (a : SReg) (b : SReg) (c : XOp) (s : State) :
    exec (.scalarSub a b c) s = execScalarSub a b c s := rfl
theorem exec_scalarMul (a : SReg) (b : SReg) (c : XOp) (s : State) :
    exec (.scalarMul a b c) s = execScalarMul a b c s := rfl
theorem exec_scalarMulhiI32 (a : SReg) (b : SReg) (c : XOp) (s : State) :
    exec (.scalarMulhiI32 a b c) s = execScalarMulhiI32 a b c s := rfl
theorem exec_scalarMulhiN32 (a : SReg) (b : SReg) (c : XOp) (s : State) :
    exec (.scalarMulhiN32 a b c) s = execScalarMulhiN32 a b c s := rfl
theorem exec_scalarAnd (a : SReg) (b : SReg) (c : XOp) (s : State) :
    exec (.scalarAnd a b c) s = execScalarAnd a b c s := rfl
theorem exec_scalarOr (a : SReg) (b : SReg) (c : XOp) (s : State) :
    exec (.scalarOr a b c) s = execScalarOr a b c s := rfl
theorem exec_scalarXor (a : SReg) (b : SReg) (c : XOp) (s : State) :
    exec (.scalarXor a b c) s = execScalarXor a b c s := rfl
theorem exec_scalarShl (a : SReg) (b : SReg) (c : XOp) (s : State) :
    exec (.scalarShl a b c) s = execScalarShl a b c s := rfl
theorem exec_scalarShr (a : SReg) (b : SReg) (c : XOp) (s : State) :
    exec (.scalarShr a b c) s = execScalarShr a b c s := rfl
theorem exec_scalarSra (a : SReg) (b : SReg) (c : XOp) (s : State) :
    exec (.scalarSra a b c) s = execScalarSra a b c s := rfl
theorem exec_scalarMinI32 (a : SReg) (b : SReg) (c : XOp) (s : State) :
    exec (.scalarMinI32 a b c) s = execScalarMinI32 a b c s := rfl
theorem exec_scalarMaxI32 (a : SReg) (b : SReg) (c : XOp) (s : State) :
    exec (.scalarMaxI32 a b c) s = execScalarMaxI32 a b c s := rfl
theorem exec_scalarMinN32 (a : SReg) (b : SReg) (c : XOp) (s : State) :
    exec (.scalarMinN32 a b c) s = execScalarMinN32 a b c s := rfl
theorem exec_scalarMaxN32 (a : SReg) (b : SReg) (c : XOp) (s : State) :
    exec (.scalarMaxN32 a b c) s = execScalarMaxN32 a b c s := rfl
theorem exec_scalarMov (a : SReg) (c : XOp) (s : State) :
    exec (.scalarMov a c) s = execScalarMov a c s := rfl
theorem exec_seteq (a : SReg) (b : SReg) (c : XOp) (s : State) :
    exec (.seteq a b c) s = execSeteq a b c s := rfl
theorem exec_setne (a : SReg) (b : SReg) (c : XOp) (s : State) :
    exec (.setne a b c) s = execSetne a b c s := rfl
theorem exec_setltI32 (a : SReg) (b : SReg) (c : XOp) (s : State) :
    exec (.setltI32 a b c) s = execSetltI32 a b c s := rfl
theorem exec_setleI32 (a : SReg) (b : SReg) (c : XOp) (s : State) :
    exec (.setleI32 a b c) s = execSetleI32 a b c s := rfl
theorem exec_setltN32 (a : SReg) (b : SReg) (c : XOp) (s : State) :
    exec (.setltN32 a b c) s = execSetltN32 a b c s := rfl
theorem exec_setleN32 (a : SReg) (b : SReg) (c : XOp) (s : State) :
    exec (.setleN32 a b c) s = execSetleN32 a b c s := rfl
theorem exec_scalarSel (a : SReg) (b : SReg) (c : XOp) (s : State) :
    exec (.scalarSel a b c) s = execScalarSel a b c s := rfl
theorem exec_bra (n : BranchOp) (s : State) :
    exec (.bra n) s = execBra n s := rfl
theorem exec_brcNz (a : VReg) (n : BranchOp) (s : State) :
    exec (.brcNz a n) s = execBrcNz a n s := rfl
theorem exec_brcZ (a : VReg) (n : BranchOp) (s : State) :
    exec (.brcZ a n) s = execBrcZ a n s := rfl
theorem exec_bri (a : VReg) (s : State) :
    exec (.bri a) s = execBri a s := rfl
theorem exec_call (a : VReg) (n : BranchOp) (s : State) :
    exec (.call a n) s = execCall a n s := rfl
theorem exec_ret (a : VReg) (s : State) :
    exec (.ret a) s = execRet a s := rfl
theorem exec_exit (s : State) :
    exec (.exit) s = execExit s := rfl
theorem exec_elect (a : SReg) (s : State) :
    exec (.elect a) s = execElect a s := rfl
theorem exec_yield (s : State) :
    exec (.yield) s = execYield s := rfl
theorem exec_trap (n : BitVec 14) (s : State) :
    exec (.trap n) s = execTrap n s := rfl
theorem exec_brk (n : BitVec 14) (s : State) :
    exec (.brk n) s = execBrk n s := rfl
theorem exec_settile (b : XOp) (s : State) :
    exec (.settile b) s = execSettile b s := rfl
theorem exec_mjoin (a : MReg) (s : State) :
    exec (.mjoin a) s = execMjoin a s := rfl
theorem exec_mleave (a : MReg) (s : State) :
    exec (.mleave a) s = execMleave a s := rfl
theorem exec_mwait (a : MReg) (s : State) :
    exec (.mwait a) s = execMwait a s := rfl
theorem exec_mrd (a : SReg) (b : MReg) (s : State) :
    exec (.mrd a b) s = execMrd a b s := rfl
theorem exec_mwr (a : MReg) (b : SReg) (s : State) :
    exec (.mwr a b) s = execMwr a b s := rfl
theorem exec_waitAny (a : SReg) (b : SReg) (c : XOp) (s : State) :
    exec (.waitAny a b c) s = execWaitAny a b c s := rfl
theorem exec_waitAll (a : SReg) (b : SReg) (c : XOp) (s : State) :
    exec (.waitAll a b c) s = execWaitAll a b c s := rfl
theorem exec_sleepAt (b : SReg) (s : State) :
    exec (.sleepAt b) s = execSleepAt b s := rfl
theorem exec_sleepAtProm (b : SReg) (s : State) :
    exec (.sleepAtProm b) s = execSleepAtProm b s := rfl
theorem exec_rdtime (a : SReg) (s : State) :
    exec (.rdtime a) s = execRdtime a s := rfl
theorem exec_barTeam (n : BitVec 4) (s : State) :
    exec (.barTeam n) s = execBarTeam n s := rfl
theorem exec_barCluster (n : BitVec 4) (s : State) :
    exec (.barCluster n) s = execBarCluster n s := rfl
theorem exec_evsig (b : SReg) (s : State) :
    exec (.evsig b) s = execEvsig b s := rfl
theorem exec_launch (a : SReg) (b : SReg) (c : XOp) (s : State) :
    exec (.launch a b c) s = execLaunch a b c s := rfl
theorem exec_symWait (c : XOp) (s : State) :
    exec (.symWait c) s = execSymWait c s := rfl
theorem exec_rdsrS (a : SReg) (n : BitVec 14) (s : State) :
    exec (.rdsrS a n) s = execRdsrS a n s := rfl
theorem exec_rdsrV (a : VReg) (n : BitVec 14) (s : State) :
    exec (.rdsrV a n) s = execRdsrV a n s := rfl
theorem exec_wrsr (a : SReg) (n : BitVec 14) (s : State) :
    exec (.wrsr a n) s = execWrsr a n s := rfl
theorem exec_addV (a : VReg) (b : VReg) (c : VReg) (s : State) :
    exec (.addV a b c) s = execAddV a b c s := rfl
theorem exec_addX (a : VReg) (b : VReg) (c : XOp) (s : State) :
    exec (.addX a b c) s = execAddX a b c s := rfl
theorem exec_subV (a : VReg) (b : VReg) (c : VReg) (s : State) :
    exec (.subV a b c) s = execSubV a b c s := rfl
theorem exec_subX (a : VReg) (b : VReg) (c : XOp) (s : State) :
    exec (.subX a b c) s = execSubX a b c s := rfl
theorem exec_mulV (a : VReg) (b : VReg) (c : VReg) (s : State) :
    exec (.mulV a b c) s = execMulV a b c s := rfl
theorem exec_mulX (a : VReg) (b : VReg) (c : XOp) (s : State) :
    exec (.mulX a b c) s = execMulX a b c s := rfl
theorem exec_mulhiI32V (a : VReg) (b : VReg) (c : VReg) (s : State) :
    exec (.mulhiI32V a b c) s = execMulhiI32V a b c s := rfl
theorem exec_mulhiI32X (a : VReg) (b : VReg) (c : XOp) (s : State) :
    exec (.mulhiI32X a b c) s = execMulhiI32X a b c s := rfl
theorem exec_mulhiN32V (a : VReg) (b : VReg) (c : VReg) (s : State) :
    exec (.mulhiN32V a b c) s = execMulhiN32V a b c s := rfl
theorem exec_mulhiN32X (a : VReg) (b : VReg) (c : XOp) (s : State) :
    exec (.mulhiN32X a b c) s = execMulhiN32X a b c s := rfl
theorem exec_madV (a : VReg) (b : VReg) (c : VReg) (s : State) :
    exec (.madV a b c) s = execMadV a b c s := rfl
theorem exec_madX (a : VReg) (b : VReg) (c : XOp) (s : State) :
    exec (.madX a b c) s = execMadX a b c s := rfl
theorem exec_minI32V (a : VReg) (b : VReg) (c : VReg) (s : State) :
    exec (.minI32V a b c) s = execMinI32V a b c s := rfl
theorem exec_minI32X (a : VReg) (b : VReg) (c : XOp) (s : State) :
    exec (.minI32X a b c) s = execMinI32X a b c s := rfl
theorem exec_maxI32V (a : VReg) (b : VReg) (c : VReg) (s : State) :
    exec (.maxI32V a b c) s = execMaxI32V a b c s := rfl
theorem exec_maxI32X (a : VReg) (b : VReg) (c : XOp) (s : State) :
    exec (.maxI32X a b c) s = execMaxI32X a b c s := rfl
theorem exec_minN32V (a : VReg) (b : VReg) (c : VReg) (s : State) :
    exec (.minN32V a b c) s = execMinN32V a b c s := rfl
theorem exec_minN32X (a : VReg) (b : VReg) (c : XOp) (s : State) :
    exec (.minN32X a b c) s = execMinN32X a b c s := rfl
theorem exec_maxN32V (a : VReg) (b : VReg) (c : VReg) (s : State) :
    exec (.maxN32V a b c) s = execMaxN32V a b c s := rfl
theorem exec_maxN32X (a : VReg) (b : VReg) (c : XOp) (s : State) :
    exec (.maxN32X a b c) s = execMaxN32X a b c s := rfl
theorem exec_andV (a : VReg) (b : VReg) (c : VReg) (s : State) :
    exec (.andV a b c) s = execAndV a b c s := rfl
theorem exec_andX (a : VReg) (b : VReg) (c : XOp) (s : State) :
    exec (.andX a b c) s = execAndX a b c s := rfl
theorem exec_orV (a : VReg) (b : VReg) (c : VReg) (s : State) :
    exec (.orV a b c) s = execOrV a b c s := rfl
theorem exec_orX (a : VReg) (b : VReg) (c : XOp) (s : State) :
    exec (.orX a b c) s = execOrX a b c s := rfl
theorem exec_xorV (a : VReg) (b : VReg) (c : VReg) (s : State) :
    exec (.xorV a b c) s = execXorV a b c s := rfl
theorem exec_xorX (a : VReg) (b : VReg) (c : XOp) (s : State) :
    exec (.xorX a b c) s = execXorX a b c s := rfl
theorem exec_shlV (a : VReg) (b : VReg) (c : VReg) (s : State) :
    exec (.shlV a b c) s = execShlV a b c s := rfl
theorem exec_shlX (a : VReg) (b : VReg) (c : XOp) (s : State) :
    exec (.shlX a b c) s = execShlX a b c s := rfl
theorem exec_shrV (a : VReg) (b : VReg) (c : VReg) (s : State) :
    exec (.shrV a b c) s = execShrV a b c s := rfl
theorem exec_shrX (a : VReg) (b : VReg) (c : XOp) (s : State) :
    exec (.shrX a b c) s = execShrX a b c s := rfl
theorem exec_sraV (a : VReg) (b : VReg) (c : VReg) (s : State) :
    exec (.sraV a b c) s = execSraV a b c s := rfl
theorem exec_sraX (a : VReg) (b : VReg) (c : XOp) (s : State) :
    exec (.sraX a b c) s = execSraX a b c s := rfl
theorem exec_absI32 (a : VReg) (b : VReg) (s : State) :
    exec (.absI32 a b) s = execAbsI32 a b s := rfl
theorem exec_popcB32 (a : VReg) (b : VReg) (s : State) :
    exec (.popcB32 a b) s = execPopcB32 a b s := rfl
theorem exec_clzB32 (a : VReg) (b : VReg) (s : State) :
    exec (.clzB32 a b) s = execClzB32 a b s := rfl
theorem exec_brevB32 (a : VReg) (b : VReg) (s : State) :
    exec (.brevB32 a b) s = execBrevB32 a b s := rfl
theorem exec_bfeN32V (a : VReg) (b : VReg) (c : VReg) (s : State) :
    exec (.bfeN32V a b c) s = execBfeN32V a b c s := rfl
theorem exec_bfeN32X (a : VReg) (b : VReg) (c : XOp) (s : State) :
    exec (.bfeN32X a b c) s = execBfeN32X a b c s := rfl
theorem exec_bfeI32V (a : VReg) (b : VReg) (c : VReg) (s : State) :
    exec (.bfeI32V a b c) s = execBfeI32V a b c s := rfl
theorem exec_bfeI32X (a : VReg) (b : VReg) (c : XOp) (s : State) :
    exec (.bfeI32X a b c) s = execBfeI32X a b c s := rfl
theorem exec_bfiB32V (a : VReg) (b : VReg) (c : VReg) (s : State) :
    exec (.bfiB32V a b c) s = execBfiB32V a b c s := rfl
theorem exec_bfiB32X (a : VReg) (b : VReg) (c : XOp) (s : State) :
    exec (.bfiB32X a b c) s = execBfiB32X a b c s := rfl
theorem exec_movB32V (a : VReg) (c : VReg) (s : State) :
    exec (.movB32V a c) s = execMovB32V a c s := rfl
theorem exec_movB32X (a : VReg) (c : XOp) (s : State) :
    exec (.movB32X a c) s = execMovB32X a c s := rfl
theorem exec_addI64V (a : VReg) (b : VReg) (c : VReg) (s : State) :
    exec (.addI64V a b c) s = execAddI64V a b c s := rfl
theorem exec_addI64X (a : VReg) (b : VReg) (c : XOp) (s : State) :
    exec (.addI64X a b c) s = execAddI64X a b c s := rfl
theorem exec_subI64V (a : VReg) (b : VReg) (c : VReg) (s : State) :
    exec (.subI64V a b c) s = execSubI64V a b c s := rfl
theorem exec_subI64X (a : VReg) (b : VReg) (c : XOp) (s : State) :
    exec (.subI64X a b c) s = execSubI64X a b c s := rfl
theorem exec_shlB64V (a : VReg) (b : VReg) (c : VReg) (s : State) :
    exec (.shlB64V a b c) s = execShlB64V a b c s := rfl
theorem exec_shlB64X (a : VReg) (b : VReg) (c : XOp) (s : State) :
    exec (.shlB64X a b c) s = execShlB64X a b c s := rfl
theorem exec_shrN64V (a : VReg) (b : VReg) (c : VReg) (s : State) :
    exec (.shrN64V a b c) s = execShrN64V a b c s := rfl
theorem exec_shrN64X (a : VReg) (b : VReg) (c : XOp) (s : State) :
    exec (.shrN64X a b c) s = execShrN64X a b c s := rfl
theorem exec_sraI64V (a : VReg) (b : VReg) (c : VReg) (s : State) :
    exec (.sraI64V a b c) s = execSraI64V a b c s := rfl
theorem exec_sraI64X (a : VReg) (b : VReg) (c : XOp) (s : State) :
    exec (.sraI64X a b c) s = execSraI64X a b c s := rfl
theorem exec_mulWideI32V (a : VReg) (b : VReg) (c : VReg) (s : State) :
    exec (.mulWideI32V a b c) s = execMulWideI32V a b c s := rfl
theorem exec_mulWideI32X (a : VReg) (b : VReg) (c : XOp) (s : State) :
    exec (.mulWideI32X a b c) s = execMulWideI32X a b c s := rfl
theorem exec_mulWideN32V (a : VReg) (b : VReg) (c : VReg) (s : State) :
    exec (.mulWideN32V a b c) s = execMulWideN32V a b c s := rfl
theorem exec_mulWideN32X (a : VReg) (b : VReg) (c : XOp) (s : State) :
    exec (.mulWideN32X a b c) s = execMulWideN32X a b c s := rfl
theorem exec_cmpEqB32V (a : MReg) (b : VReg) (c : VReg) (s : State) :
    exec (.cmpEqB32V a b c) s = execCmpEqB32V a b c s := rfl
theorem exec_cmpEqB32X (a : MReg) (b : VReg) (c : XOp) (s : State) :
    exec (.cmpEqB32X a b c) s = execCmpEqB32X a b c s := rfl
theorem exec_cmpNeB32V (a : MReg) (b : VReg) (c : VReg) (s : State) :
    exec (.cmpNeB32V a b c) s = execCmpNeB32V a b c s := rfl
theorem exec_cmpNeB32X (a : MReg) (b : VReg) (c : XOp) (s : State) :
    exec (.cmpNeB32X a b c) s = execCmpNeB32X a b c s := rfl
theorem exec_cmpLtI32V (a : MReg) (b : VReg) (c : VReg) (s : State) :
    exec (.cmpLtI32V a b c) s = execCmpLtI32V a b c s := rfl
theorem exec_cmpLtI32X (a : MReg) (b : VReg) (c : XOp) (s : State) :
    exec (.cmpLtI32X a b c) s = execCmpLtI32X a b c s := rfl
theorem exec_cmpLeI32V (a : MReg) (b : VReg) (c : VReg) (s : State) :
    exec (.cmpLeI32V a b c) s = execCmpLeI32V a b c s := rfl
theorem exec_cmpLeI32X (a : MReg) (b : VReg) (c : XOp) (s : State) :
    exec (.cmpLeI32X a b c) s = execCmpLeI32X a b c s := rfl
theorem exec_cmpGtI32V (a : MReg) (b : VReg) (c : VReg) (s : State) :
    exec (.cmpGtI32V a b c) s = execCmpGtI32V a b c s := rfl
theorem exec_cmpGtI32X (a : MReg) (b : VReg) (c : XOp) (s : State) :
    exec (.cmpGtI32X a b c) s = execCmpGtI32X a b c s := rfl
theorem exec_cmpGeI32V (a : MReg) (b : VReg) (c : VReg) (s : State) :
    exec (.cmpGeI32V a b c) s = execCmpGeI32V a b c s := rfl
theorem exec_cmpGeI32X (a : MReg) (b : VReg) (c : XOp) (s : State) :
    exec (.cmpGeI32X a b c) s = execCmpGeI32X a b c s := rfl
theorem exec_cmpLtN32V (a : MReg) (b : VReg) (c : VReg) (s : State) :
    exec (.cmpLtN32V a b c) s = execCmpLtN32V a b c s := rfl
theorem exec_cmpLtN32X (a : MReg) (b : VReg) (c : XOp) (s : State) :
    exec (.cmpLtN32X a b c) s = execCmpLtN32X a b c s := rfl
theorem exec_cmpLeN32V (a : MReg) (b : VReg) (c : VReg) (s : State) :
    exec (.cmpLeN32V a b c) s = execCmpLeN32V a b c s := rfl
theorem exec_cmpLeN32X (a : MReg) (b : VReg) (c : XOp) (s : State) :
    exec (.cmpLeN32X a b c) s = execCmpLeN32X a b c s := rfl
theorem exec_cmpGtN32V (a : MReg) (b : VReg) (c : VReg) (s : State) :
    exec (.cmpGtN32V a b c) s = execCmpGtN32V a b c s := rfl
theorem exec_cmpGtN32X (a : MReg) (b : VReg) (c : XOp) (s : State) :
    exec (.cmpGtN32X a b c) s = execCmpGtN32X a b c s := rfl
theorem exec_cmpGeN32V (a : MReg) (b : VReg) (c : VReg) (s : State) :
    exec (.cmpGeN32V a b c) s = execCmpGeN32V a b c s := rfl
theorem exec_cmpGeN32X (a : MReg) (b : VReg) (c : XOp) (s : State) :
    exec (.cmpGeN32X a b c) s = execCmpGeN32X a b c s := rfl
theorem exec_fcmpEqF32V (a : MReg) (b : VReg) (c : VReg) (s : State) :
    exec (.fcmpEqF32V a b c) s = execFcmpEqF32V a b c s := rfl
theorem exec_fcmpEqF32X (a : MReg) (b : VReg) (c : XOp) (s : State) :
    exec (.fcmpEqF32X a b c) s = execFcmpEqF32X a b c s := rfl
theorem exec_fcmpLtF32V (a : MReg) (b : VReg) (c : VReg) (s : State) :
    exec (.fcmpLtF32V a b c) s = execFcmpLtF32V a b c s := rfl
theorem exec_fcmpLtF32X (a : MReg) (b : VReg) (c : XOp) (s : State) :
    exec (.fcmpLtF32X a b c) s = execFcmpLtF32X a b c s := rfl
theorem exec_fcmpLeF32V (a : MReg) (b : VReg) (c : VReg) (s : State) :
    exec (.fcmpLeF32V a b c) s = execFcmpLeF32V a b c s := rfl
theorem exec_fcmpLeF32X (a : MReg) (b : VReg) (c : XOp) (s : State) :
    exec (.fcmpLeF32X a b c) s = execFcmpLeF32X a b c s := rfl
theorem exec_fcmpNeF32V (a : MReg) (b : VReg) (c : VReg) (s : State) :
    exec (.fcmpNeF32V a b c) s = execFcmpNeF32V a b c s := rfl
theorem exec_fcmpNeF32X (a : MReg) (b : VReg) (c : XOp) (s : State) :
    exec (.fcmpNeF32X a b c) s = execFcmpNeF32X a b c s := rfl
theorem exec_fcmpUnF32V (a : MReg) (b : VReg) (c : VReg) (s : State) :
    exec (.fcmpUnF32V a b c) s = execFcmpUnF32V a b c s := rfl
theorem exec_fcmpUnF32X (a : MReg) (b : VReg) (c : XOp) (s : State) :
    exec (.fcmpUnF32X a b c) s = execFcmpUnF32X a b c s := rfl
theorem exec_faddF32V (a : VReg) (b : VReg) (c : VReg) (s : State) :
    exec (.faddF32V a b c) s = execFaddF32V a b c s := rfl
theorem exec_faddF32X (a : VReg) (b : VReg) (c : XOp) (s : State) :
    exec (.faddF32X a b c) s = execFaddF32X a b c s := rfl
theorem exec_fsubF32V (a : VReg) (b : VReg) (c : VReg) (s : State) :
    exec (.fsubF32V a b c) s = execFsubF32V a b c s := rfl
theorem exec_fsubF32X (a : VReg) (b : VReg) (c : XOp) (s : State) :
    exec (.fsubF32X a b c) s = execFsubF32X a b c s := rfl
theorem exec_fmulF32V (a : VReg) (b : VReg) (c : VReg) (s : State) :
    exec (.fmulF32V a b c) s = execFmulF32V a b c s := rfl
theorem exec_fmulF32X (a : VReg) (b : VReg) (c : XOp) (s : State) :
    exec (.fmulF32X a b c) s = execFmulF32X a b c s := rfl
theorem exec_ffmaF32V (a : VReg) (b : VReg) (c : VReg) (s : State) :
    exec (.ffmaF32V a b c) s = execFfmaF32V a b c s := rfl
theorem exec_ffmaF32X (a : VReg) (b : VReg) (c : XOp) (s : State) :
    exec (.ffmaF32X a b c) s = execFfmaF32X a b c s := rfl
theorem exec_fminF32V (a : VReg) (b : VReg) (c : VReg) (s : State) :
    exec (.fminF32V a b c) s = execFminF32V a b c s := rfl
theorem exec_fminF32X (a : VReg) (b : VReg) (c : XOp) (s : State) :
    exec (.fminF32X a b c) s = execFminF32X a b c s := rfl
theorem exec_fmaxF32V (a : VReg) (b : VReg) (c : VReg) (s : State) :
    exec (.fmaxF32V a b c) s = execFmaxF32V a b c s := rfl
theorem exec_fmaxF32X (a : VReg) (b : VReg) (c : XOp) (s : State) :
    exec (.fmaxF32X a b c) s = execFmaxF32X a b c s := rfl
theorem exec_fnegF32 (a : VReg) (b : VReg) (s : State) :
    exec (.fnegF32 a b) s = execFnegF32 a b s := rfl
theorem exec_fabsF32 (a : VReg) (b : VReg) (s : State) :
    exec (.fabsF32 a b) s = execFabsF32 a b s := rfl
theorem exec_fclassF32 (a : VReg) (b : VReg) (s : State) :
    exec (.fclassF32 a b) s = execFclassF32 a b s := rfl
theorem exec_frndF32 (a : VReg) (b : VReg) (s : State) :
    exec (.frndF32 a b) s = execFrndF32 a b s := rfl
theorem exec_frcpF32 (a : VReg) (b : VReg) (s : State) :
    exec (.frcpF32 a b) s = execFrcpF32 a b s := rfl
theorem exec_frsqF32 (a : VReg) (b : VReg) (s : State) :
    exec (.frsqF32 a b) s = execFrsqF32 a b s := rfl
theorem exec_fsqrtF32 (a : VReg) (b : VReg) (s : State) :
    exec (.fsqrtF32 a b) s = execFsqrtF32 a b s := rfl
theorem exec_fex2F32 (a : VReg) (b : VReg) (s : State) :
    exec (.fex2F32 a b) s = execFex2F32 a b s := rfl
theorem exec_flg2F32 (a : VReg) (b : VReg) (s : State) :
    exec (.flg2F32 a b) s = execFlg2F32 a b s := rfl
theorem exec_fsinF32 (a : VReg) (b : VReg) (s : State) :
    exec (.fsinF32 a b) s = execFsinF32 a b s := rfl
theorem exec_fcosF32 (a : VReg) (b : VReg) (s : State) :
    exec (.fcosF32 a b) s = execFcosF32 a b s := rfl
theorem exec_cvt (dt : NumTy) (sat : Bool) (st : NumTy) (b : VReg) (a : VReg) (s : State) :
    exec (.cvt dt sat st b a) s = execCvt dt sat st b a s := rfl
theorem exec_paddF16V (a : VReg) (b : VReg) (c : VReg) (s : State) :
    exec (.paddF16V a b c) s = execPaddF16V a b c s := rfl
theorem exec_paddF16X (a : VReg) (b : VReg) (c : XOp) (s : State) :
    exec (.paddF16X a b c) s = execPaddF16X a b c s := rfl
theorem exec_psubF16V (a : VReg) (b : VReg) (c : VReg) (s : State) :
    exec (.psubF16V a b c) s = execPsubF16V a b c s := rfl
theorem exec_psubF16X (a : VReg) (b : VReg) (c : XOp) (s : State) :
    exec (.psubF16X a b c) s = execPsubF16X a b c s := rfl
theorem exec_pmulF16V (a : VReg) (b : VReg) (c : VReg) (s : State) :
    exec (.pmulF16V a b c) s = execPmulF16V a b c s := rfl
theorem exec_pmulF16X (a : VReg) (b : VReg) (c : XOp) (s : State) :
    exec (.pmulF16X a b c) s = execPmulF16X a b c s := rfl
theorem exec_pfmaF16V (a : VReg) (b : VReg) (c : VReg) (s : State) :
    exec (.pfmaF16V a b c) s = execPfmaF16V a b c s := rfl
theorem exec_pfmaF16X (a : VReg) (b : VReg) (c : XOp) (s : State) :
    exec (.pfmaF16X a b c) s = execPfmaF16X a b c s := rfl
theorem exec_pminF16V (a : VReg) (b : VReg) (c : VReg) (s : State) :
    exec (.pminF16V a b c) s = execPminF16V a b c s := rfl
theorem exec_pminF16X (a : VReg) (b : VReg) (c : XOp) (s : State) :
    exec (.pminF16X a b c) s = execPminF16X a b c s := rfl
theorem exec_pmaxF16V (a : VReg) (b : VReg) (c : VReg) (s : State) :
    exec (.pmaxF16V a b c) s = execPmaxF16V a b c s := rfl
theorem exec_pmaxF16X (a : VReg) (b : VReg) (c : XOp) (s : State) :
    exec (.pmaxF16X a b c) s = execPmaxF16X a b c s := rfl
theorem exec_paddBf16V (a : VReg) (b : VReg) (c : VReg) (s : State) :
    exec (.paddBf16V a b c) s = execPaddBf16V a b c s := rfl
theorem exec_paddBf16X (a : VReg) (b : VReg) (c : XOp) (s : State) :
    exec (.paddBf16X a b c) s = execPaddBf16X a b c s := rfl
theorem exec_psubBf16V (a : VReg) (b : VReg) (c : VReg) (s : State) :
    exec (.psubBf16V a b c) s = execPsubBf16V a b c s := rfl
theorem exec_psubBf16X (a : VReg) (b : VReg) (c : XOp) (s : State) :
    exec (.psubBf16X a b c) s = execPsubBf16X a b c s := rfl
theorem exec_pmulBf16V (a : VReg) (b : VReg) (c : VReg) (s : State) :
    exec (.pmulBf16V a b c) s = execPmulBf16V a b c s := rfl
theorem exec_pmulBf16X (a : VReg) (b : VReg) (c : XOp) (s : State) :
    exec (.pmulBf16X a b c) s = execPmulBf16X a b c s := rfl
theorem exec_pfmaBf16V (a : VReg) (b : VReg) (c : VReg) (s : State) :
    exec (.pfmaBf16V a b c) s = execPfmaBf16V a b c s := rfl
theorem exec_pfmaBf16X (a : VReg) (b : VReg) (c : XOp) (s : State) :
    exec (.pfmaBf16X a b c) s = execPfmaBf16X a b c s := rfl
theorem exec_pminBf16V (a : VReg) (b : VReg) (c : VReg) (s : State) :
    exec (.pminBf16V a b c) s = execPminBf16V a b c s := rfl
theorem exec_pminBf16X (a : VReg) (b : VReg) (c : XOp) (s : State) :
    exec (.pminBf16X a b c) s = execPminBf16X a b c s := rfl
theorem exec_pmaxBf16V (a : VReg) (b : VReg) (c : VReg) (s : State) :
    exec (.pmaxBf16V a b c) s = execPmaxBf16V a b c s := rfl
theorem exec_pmaxBf16X (a : VReg) (b : VReg) (c : XOp) (s : State) :
    exec (.pmaxBf16X a b c) s = execPmaxBf16X a b c s := rfl
theorem exec_fdot4E4m3V (a : VReg) (b : VReg) (c : VReg) (s : State) :
    exec (.fdot4E4m3V a b c) s = execFdot4E4m3V a b c s := rfl
theorem exec_fdot4E4m3X (a : VReg) (b : VReg) (c : XOp) (s : State) :
    exec (.fdot4E4m3X a b c) s = execFdot4E4m3X a b c s := rfl
theorem exec_fdot4E5m2V (a : VReg) (b : VReg) (c : VReg) (s : State) :
    exec (.fdot4E5m2V a b c) s = execFdot4E5m2V a b c s := rfl
theorem exec_fdot4E5m2X (a : VReg) (b : VReg) (c : XOp) (s : State) :
    exec (.fdot4E5m2X a b c) s = execFdot4E5m2X a b c s := rfl
theorem exec_tbpackTb8 (a : VReg) (b : VReg) (c : SReg) (s : State) :
    exec (.tbpackTb8 a b c) s = execTbpackTb8 a b c s := rfl
theorem exec_tbpackTb4 (a : VReg) (b : VReg) (c : SReg) (s : State) :
    exec (.tbpackTb4 a b c) s = execTbpackTb4 a b c s := rfl
theorem exec_tbpackSatTb8 (a : VReg) (b : VReg) (c : SReg) (s : State) :
    exec (.tbpackSatTb8 a b c) s = execTbpackSatTb8 a b c s := rfl
theorem exec_tbpackSatTb4 (a : VReg) (b : VReg) (c : SReg) (s : State) :
    exec (.tbpackSatTb4 a b c) s = execTbpackSatTb4 a b c s := rfl
theorem exec_tbunpTb8 (a : VReg) (b : VReg) (c : SReg) (s : State) :
    exec (.tbunpTb8 a b c) s = execTbunpTb8 a b c s := rfl
theorem exec_tbunpTb4 (a : VReg) (b : VReg) (c : SReg) (s : State) :
    exec (.tbunpTb4 a b c) s = execTbunpTb4 a b c s := rfl
theorem exec_xlaneGetV (a : VReg) (b : VReg) (c : VReg) (s : State) :
    exec (.xlaneGetV a b c) s = execXlaneGetV a b c s := rfl
theorem exec_xlaneGetX (a : VReg) (b : VReg) (c : XOp) (s : State) :
    exec (.xlaneGetX a b c) s = execXlaneGetX a b c s := rfl
theorem exec_xlaneBackV (a : VReg) (b : VReg) (c : VReg) (s : State) :
    exec (.xlaneBackV a b c) s = execXlaneBackV a b c s := rfl
theorem exec_xlaneBackX (a : VReg) (b : VReg) (c : XOp) (s : State) :
    exec (.xlaneBackX a b c) s = execXlaneBackX a b c s := rfl
theorem exec_xlaneFwdV (a : VReg) (b : VReg) (c : VReg) (s : State) :
    exec (.xlaneFwdV a b c) s = execXlaneFwdV a b c s := rfl
theorem exec_xlaneFwdX (a : VReg) (b : VReg) (c : XOp) (s : State) :
    exec (.xlaneFwdX a b c) s = execXlaneFwdX a b c s := rfl
theorem exec_xlaneMixV (a : VReg) (b : VReg) (c : VReg) (s : State) :
    exec (.xlaneMixV a b c) s = execXlaneMixV a b c s := rfl
theorem exec_xlaneMixX (a : VReg) (b : VReg) (c : XOp) (s : State) :
    exec (.xlaneMixX a b c) s = execXlaneMixX a b c s := rfl
theorem exec_pollSome (a : VReg) (b : VReg) (s : State) :
    exec (.pollSome a b) s = execPollSome a b s := rfl
theorem exec_pollEvery (a : VReg) (b : VReg) (s : State) :
    exec (.pollEvery a b) s = execPollEvery a b s := rfl
theorem exec_pollBits (a : VReg) (b : VReg) (s : State) :
    exec (.pollBits a b) s = execPollBits a b s := rfl
theorem exec_foldAddI32 (a : VReg) (b : VReg) (s : State) :
    exec (.foldAddI32 a b) s = execFoldAddI32 a b s := rfl
theorem exec_foldMinI32 (a : VReg) (b : VReg) (s : State) :
    exec (.foldMinI32 a b) s = execFoldMinI32 a b s := rfl
theorem exec_foldMaxI32 (a : VReg) (b : VReg) (s : State) :
    exec (.foldMaxI32 a b) s = execFoldMaxI32 a b s := rfl
theorem exec_foldAddF32 (a : VReg) (b : VReg) (s : State) :
    exec (.foldAddF32 a b) s = execFoldAddF32 a b s := rfl
theorem exec_prefixAddI32 (a : VReg) (b : VReg) (s : State) :
    exec (.prefixAddI32 a b) s = execPrefixAddI32 a b s := rfl
theorem exec_prefixAddF32 (a : VReg) (b : VReg) (s : State) :
    exec (.prefixAddF32 a b) s = execPrefixAddF32 a b s := rfl
theorem exec_sameB32 (a : VReg) (b : VReg) (s : State) :
    exec (.sameB32 a b) s = execSameB32 a b s := rfl
theorem exec_sameF32 (a : VReg) (b : VReg) (s : State) :
    exec (.sameF32 a b) s = execSameF32 a b s := rfl
theorem exec_selV (a : VReg) (k : MReg) (b : VReg) (c : VReg) (s : State) :
    exec (.selV a k b c) s = execSelV a k b c s := rfl
theorem exec_selX (a : VReg) (k : MReg) (b : VReg) (c : XOp) (s : State) :
    exec (.selX a k b c) s = execSelX a k b c s := rfl
theorem exec_ldg (t : AccTy) (a : VReg) (bc : MemOp) (s : State) :
    exec (.ldg t a bc) s = execLdg t a bc s := rfl
theorem exec_ldgSym (t : AccTy) (a : VReg) (bc : MemOp) (s : State) :
    exec (.ldgSym t a bc) s = execLdgSym t a bc s := rfl
theorem exec_stg (t : AccTy) (a : VReg) (bc : MemOp) (s : State) :
    exec (.stg t a bc) s = execStg t a bc s := rfl
theorem exec_lds (t : AccTy) (a : VReg) (bc : MemOp) (s : State) :
    exec (.lds t a bc) s = execLds t a bc s := rfl
theorem exec_ldsSym (t : AccTy) (a : VReg) (bc : MemOp) (s : State) :
    exec (.ldsSym t a bc) s = execLdsSym t a bc s := rfl
theorem exec_sts (t : AccTy) (a : VReg) (bc : MemOp) (s : State) :
    exec (.sts t a bc) s = execSts t a bc s := rfl
theorem exec_ldt (t : AccTy) (a : VReg) (b : SReg) (c : VReg) (s : State) :
    exec (.ldt t a b c) s = execLdt t a b c s := rfl
theorem exec_ldtSym (t : AccTy) (a : VReg) (b : SReg) (c : VReg) (s : State) :
    exec (.ldtSym t a b c) s = execLdtSym t a b c s := rfl
theorem exec_stt (t : AccTy) (a : VReg) (b : SReg) (c : VReg) (s : State) :
    exec (.stt t a b c) s = execStt t a b c s := rfl
theorem exec_ropz (a : VReg) (c : VReg) (s : State) :
    exec (.ropz a c) s = execRopz a c s := rfl
theorem exec_ropc (a : VReg) (b : SReg) (c : VReg) (s : State) :
    exec (.ropc a b c) s = execRopc a b c s := rfl
theorem exec_atg32 (o : AtomOp) (a : VReg) (bc : MemOp) (s : State) :
    exec (.atg32 o a bc) s = execAtg32 o a bc s := rfl
theorem exec_atg64 (o : AtomOp) (a : VReg) (bc : MemOp) (s : State) :
    exec (.atg64 o a bc) s = execAtg64 o a bc s := rfl
theorem exec_ats32 (o : AtomOp) (a : VReg) (bc : MemOp) (s : State) :
    exec (.ats32 o a bc) s = execAts32 o a bc s := rfl
theorem exec_ats64 (o : AtomOp) (a : VReg) (bc : MemOp) (s : State) :
    exec (.ats64 o a bc) s = execAts64 o a bc s := rfl
theorem exec_red32 (o : AtomOp) (a : VReg) (bc : MemOp) (s : State) :
    exec (.red32 o a bc) s = execRed32 o a bc s := rfl
theorem exec_red64 (o : AtomOp) (a : VReg) (bc : MemOp) (s : State) :
    exec (.red64 o a bc) s = execRed64 o a bc s := rfl
theorem exec_fenceGroup (s : State) :
    exec (.fenceGroup) s = execFenceGroup s := rfl
theorem exec_fenceTeam (s : State) :
    exec (.fenceTeam) s = execFenceTeam s := rfl
theorem exec_fenceFacet (s : State) :
    exec (.fenceFacet) s = execFenceFacet s := rfl
theorem exec_fenceCluster (s : State) :
    exec (.fenceCluster) s = execFenceCluster s := rfl
theorem exec_fencePackage (s : State) :
    exec (.fencePackage) s = execFencePackage s := rfl
theorem exec_fenceSystem (s : State) :
    exec (.fenceSystem) s = execFenceSystem s := rfl
theorem exec_ack (s : State) :
    exec (.ack) s = execAck s := rfl
theorem exec_tdisc (b : SReg) (s : State) :
    exec (.tdisc b) s = execTdisc b s := rfl
theorem exec_prefetchL1 (bc : MemOp) (s : State) :
    exec (.prefetchL1 bc) s = execPrefetchL1 bc s := rfl
theorem exec_prefetchSlice (bc : MemOp) (s : State) :
    exec (.prefetchSlice bc) s = execPrefetchSlice bc s := rfl
theorem exec_surfDef (a : SReg) (b : SReg) (c : SReg) (s : State) :
    exec (.surfDef a b c) s = execSurfDef a b c s := rfl
theorem exec_surfDrop (a : SReg) (c : SReg) (s : State) :
    exec (.surfDrop a c) s = execSurfDrop a c s := rfl
theorem exec_surfClr (a : SReg) (c : SReg) (s : State) :
    exec (.surfClr a c) s = execSurfClr a c s := rfl
theorem exec_surfDecomp (a : SReg) (c : SReg) (s : State) :
    exec (.surfDecomp a c) s = execSurfDecomp a c s := rfl
theorem exec_annBoard (b : SReg) (s : State) :
    exec (.annBoard b) s = execAnnBoard b s := rfl
theorem exec_annAlight (b : SReg) (s : State) :
    exec (.annAlight b) s = execAnnAlight b s := rfl
theorem exec_annLdB32 (a : VReg) (bc : MemOp) (s : State) :
    exec (.annLdB32 a bc) s = execAnnLdB32 a bc s := rfl
theorem exec_annLdB64 (a : VReg) (bc : MemOp) (s : State) :
    exec (.annLdB64 a bc) s = execAnnLdB64 a bc s := rfl
theorem exec_annLdSymI32 (a : VReg) (bc : MemOp) (s : State) :
    exec (.annLdSymI32 a bc) s = execAnnLdSymI32 a bc s := rfl
theorem exec_annLdSymF32 (a : VReg) (bc : MemOp) (s : State) :
    exec (.annLdSymF32 a bc) s = execAnnLdSymF32 a bc s := rfl
theorem exec_annWait (k : WatchCond) (w : BitVec 2) (a : SReg) (b : SReg) (c : SReg) (s : State) :
    exec (.annWait k w a b c) s = execAnnWait k w a b c s := rfl
theorem exec_annOp32 (o : AtomOp) (a : VReg) (bc : MemOp) (s : State) :
    exec (.annOp32 o a bc) s = execAnnOp32 o a bc s := rfl
theorem exec_annOp64 (o : AtomOp) (a : VReg) (bc : MemOp) (s : State) :
    exec (.annOp64 o a bc) s = execAnnOp64 o a bc s := rfl
theorem exec_putSigSet (a : SReg) (b : SReg) (s : State) :
    exec (.putSigSet a b) s = execPutSigSet a b s := rfl
theorem exec_putSigAdd (a : SReg) (b : SReg) (s : State) :
    exec (.putSigAdd a b) s = execPutSigAdd a b s := rfl
theorem exec_getpGroup (a : SReg) (b : SReg) (s : State) :
    exec (.getpGroup a b) s = execGetpGroup a b s := rfl
theorem exec_getpTeam (a : SReg) (b : SReg) (s : State) :
    exec (.getpTeam a b) s = execGetpTeam a b s := rfl
theorem exec_getpFacet (a : SReg) (b : SReg) (s : State) :
    exec (.getpFacet a b) s = execGetpFacet a b s := rfl
theorem exec_getpCluster (a : SReg) (b : SReg) (s : State) :
    exec (.getpCluster a b) s = execGetpCluster a b s := rfl
theorem exec_getpPackage (a : SReg) (b : SReg) (s : State) :
    exec (.getpPackage a b) s = execGetpPackage a b s := rfl
theorem exec_getpSystem (a : SReg) (b : SReg) (s : State) :
    exec (.getpSystem a b) s = execGetpSystem a b s := rfl
theorem exec_pushCopy (vec : Bool) (b : BitVec 7) (a : SReg) (s : State) :
    exec (.pushCopy vec b a) s = execPushCopy vec b a s := rfl
theorem exec_pushTensor (vec : Bool) (b : BitVec 7) (a : SReg) (s : State) :
    exec (.pushTensor vec b a) s = execPushTensor vec b a s := rfl
theorem exec_pushGather (vec : Bool) (b : BitVec 7) (a : SReg) (s : State) :
    exec (.pushGather vec b a) s = execPushGather vec b a s := rfl
theorem exec_pushColl (vec : Bool) (b : BitVec 7) (a : SReg) (s : State) :
    exec (.pushColl vec b a) s = execPushColl vec b a s := rfl
theorem exec_pushRast (vec : Bool) (b : BitVec 7) (a : SReg) (s : State) :
    exec (.pushRast vec b a) s = execPushRast vec b a s := rfl
theorem exec_pushMsg (vec : Bool) (b : BitVec 7) (a : SReg) (s : State) :
    exec (.pushMsg vec b a) s = execPushMsg vec b a s := rfl
theorem exec_pushb (a : SReg) (b : SReg) (c : SReg) (s : State) :
    exec (.pushb a b c) s = execPushb a b c s := rfl
theorem exec_msgSend (a : SReg) (b : SReg) (c : SReg) (s : State) :
    exec (.msgSend a b c) s = execMsgSend a b c s := rfl
theorem exec_msgRecv (a : SReg) (b : SReg) (s : State) :
    exec (.msgRecv a b) s = execMsgRecv a b s := rfl
theorem exec_msgProbe (a : SReg) (b : SReg) (s : State) :
    exec (.msgProbe a b) s = execMsgProbe a b s := rfl
theorem exec_mbLd (b : SReg) (s : State) :
    exec (.mbLd b) s = execMbLd b s := rfl
theorem exec_mbZero (b : SReg) (s : State) :
    exec (.mbZero b) s = execMbZero b s := rfl
theorem exec_mmx (b : SReg) (s : State) :
    exec (.mmx b) s = execMmx b s := rfl
theorem exec_mmxLut (b : SReg) (s : State) :
    exec (.mmxLut b) s = execMmxLut b s := rfl
theorem exec_mmxR (b : SReg) (s : State) :
    exec (.mmxR b) s = execMmxR b s := rfl
theorem exec_mmxLutR (b : SReg) (s : State) :
    exec (.mmxLutR b) s = execMmxLutR b s := rfl
theorem exec_hxor (a : HReg) (b : HReg) (c : HReg) (s : State) :
    exec (.hxor a b c) s = execHxor a b c s := rfl
theorem exec_hrot (a : HReg) (b : HReg) (c : XOp) (s : State) :
    exec (.hrot a b c) s = execHrot a b c s := rfl
theorem exec_hbun (a : KReg) (b : HReg) (s : State) :
    exec (.hbun a b) s = execHbun a b s := rfl
theorem exec_hclrH (a : HReg) (s : State) :
    exec (.hclrH a) s = execHclrH a s := rfl
theorem exec_hclrC (a : KReg) (s : State) :
    exec (.hclrC a) s = execHclrC a s := rfl
theorem exec_hmaj (a : HReg) (b : KReg) (s : State) :
    exec (.hmaj a b) s = execHmaj a b s := rfl
theorem exec_hpop (a : SReg) (b : HReg) (s : State) :
    exec (.hpop a b) s = execHpop a b s := rfl
theorem exec_hdist (a : SReg) (b : HReg) (c : HReg) (s : State) :
    exec (.hdist a b c) s = execHdist a b c s := rfl
theorem exec_hldS (a : HReg) (b : SReg) (s : State) :
    exec (.hldS a b) s = execHldS a b s := rfl
theorem exec_hldG (a : HReg) (b : SReg) (s : State) :
    exec (.hldG a b) s = execHldG a b s := rfl
theorem exec_hstS (a : HReg) (b : SReg) (s : State) :
    exec (.hstS a b) s = execHstS a b s := rfl
theorem exec_hstG (a : HReg) (b : SReg) (s : State) :
    exec (.hstG a b) s = execHstG a b s := rfl
theorem exec_hfrom (a : HReg) (b : VReg) (s : State) :
    exec (.hfrom a b) s = execHfrom a b s := rfl
theorem exec_hto (a : VReg) (b : HReg) (s : State) :
    exec (.hto a b) s = execHto a b s := rfl
theorem exec_hmatch (a : SReg) (b : HReg) (c : SReg) (s : State) :
    exec (.hmatch a b c) s = execHmatch a b c s := rfl
theorem exec_htie (a : HReg) (s : State) :
    exec (.htie a) s = execHtie a s := rfl
theorem exec_htieSeed (b : SReg) (s : State) :
    exec (.htieSeed b) s = execHtieSeed b s := rfl
theorem exec_grd (a : SReg) (b : SReg) (c : SReg) (s : State) :
    exec (.grd a b c) s = execGrd a b c s := rfl
theorem exec_gwr (a : SReg) (b : SReg) (c : SReg) (s : State) :
    exec (.gwr a b c) s = execGwr a b c s := rfl
theorem exec_resume (a : SReg) (b : SReg) (s : State) :
    exec (.resume a b) s = execResume a b s := rfl
theorem exec_bankset (a : SReg) (b : SReg) (c : SReg) (s : State) :
    exec (.bankset a b c) s = execBankset a b c s := rfl
theorem exec_tlbinv (a : SReg) (b : SReg) (c : SReg) (s : State) :
    exec (.tlbinv a b c) s = execTlbinv a b c s := rfl
theorem exec_halt (a : SReg) (b : SReg) (s : State) :
    exec (.halt a b) s = execHalt a b s := rfl
theorem exec_filterAdd (d : BitVec 4) (a : BitVec 4) (b : BitVec 4) (s : State) :
    exec (.filterAdd d a b) s = execFilterAdd d a b s := rfl
theorem exec_filterSub (d : BitVec 4) (a : BitVec 4) (b : BitVec 4) (s : State) :
    exec (.filterSub d a b) s = execFilterSub d a b s := rfl
theorem exec_filterAnd (d : BitVec 4) (a : BitVec 4) (b : BitVec 4) (s : State) :
    exec (.filterAnd d a b) s = execFilterAnd d a b s := rfl
theorem exec_filterOr (d : BitVec 4) (a : BitVec 4) (b : BitVec 4) (s : State) :
    exec (.filterOr d a b) s = execFilterOr d a b s := rfl
theorem exec_filterXor (d : BitVec 4) (a : BitVec 4) (b : BitVec 4) (s : State) :
    exec (.filterXor d a b) s = execFilterXor d a b s := rfl
theorem exec_filterShl (d : BitVec 4) (a : BitVec 4) (b : BitVec 4) (s : State) :
    exec (.filterShl d a b) s = execFilterShl d a b s := rfl
theorem exec_filterShr (d : BitVec 4) (a : BitVec 4) (b : BitVec 4) (s : State) :
    exec (.filterShr d a b) s = execFilterShr d a b s := rfl
theorem exec_filterAddi (d : BitVec 4) (a : BitVec 4) (imm : BitVec 14) (s : State) :
    exec (.filterAddi d a imm) s = execFilterAddi d a imm s := rfl
theorem exec_filterAndi (d : BitVec 4) (a : BitVec 4) (imm : BitVec 14) (s : State) :
    exec (.filterAndi d a imm) s = execFilterAndi d a imm s := rfl
theorem exec_filterShli (d : BitVec 4) (a : BitVec 4) (imm : BitVec 5) (s : State) :
    exec (.filterShli d a imm) s = execFilterShli d a imm s := rfl
theorem exec_filterShri (d : BitVec 4) (a : BitVec 4) (imm : BitVec 5) (s : State) :
    exec (.filterShri d a imm) s = execFilterShri d a imm s := rfl
theorem exec_filterLdlo (d : BitVec 4) (imm : BitVec 16) (s : State) :
    exec (.filterLdlo d imm) s = execFilterLdlo d imm s := rfl
theorem exec_filterLdhi (d : BitVec 4) (imm : BitVec 16) (s : State) :
    exec (.filterLdhi d imm) s = execFilterLdhi d imm s := rfl
theorem exec_filterBeq (a : BitVec 4) (b : BitVec 4) (imm : BitVec 14) (s : State) :
    exec (.filterBeq a b imm) s = execFilterBeq a b imm s := rfl
theorem exec_filterBne (a : BitVec 4) (b : BitVec 4) (imm : BitVec 14) (s : State) :
    exec (.filterBne a b imm) s = execFilterBne a b imm s := rfl
theorem exec_filterBltu (a : BitVec 4) (b : BitVec 4) (imm : BitVec 14) (s : State) :
    exec (.filterBltu a b imm) s = execFilterBltu a b imm s := rfl
theorem exec_filterBgeu (a : BitVec 4) (b : BitVec 4) (imm : BitVec 14) (s : State) :
    exec (.filterBgeu a b imm) s = execFilterBgeu a b imm s := rfl
theorem exec_filterKeep (s : State) :
    exec (.filterKeep) s = execFilterKeep s := rfl
theorem exec_filterDrop (s : State) :
    exec (.filterDrop) s = execFilterDrop s := rfl
theorem exec_filterCount (a : BitVec 4) (byReg : Bool) (c : BitVec 4) (s : State) :
    exec (.filterCount a byReg c) s = execFilterCount a byReg c s := rfl
theorem exec_filterTrig (t : BitVec 2) (s : State) :
    exec (.filterTrig t) s = execFilterTrig t s := rfl
theorem exec_filterRdcnt (d : BitVec 4) (c : BitVec 4) (s : State) :
    exec (.filterRdcnt d c) s = execFilterRdcnt d c s := rfl
theorem exec_starvationFloor (g : Nat) (s : State) :
    exec (.starvationFloor g) s = execStarvationFloor g s := rfl
theorem exec_groupSwap (g : Nat) (s : State) :
    exec (.groupSwap g) s = execGroupSwap g s := rfl
theorem exec_forcedSwap (core : Nat) (wedge : Nat) (s : State) :
    exec (.forcedSwap core wedge) s = execForcedSwap core wedge s := rfl
theorem exec_waitRelease (g : Nat) (w : Nat) (s : State) :
    exec (.waitRelease g w) s = execWaitRelease g w s := rfl
theorem exec_sleepRelease (g : Nat) (lane : Nat) (s : State) :
    exec (.sleepRelease g lane) s = execSleepRelease g lane s := rfl
theorem exec_barrierArrival (g : Nat) (s : State) :
    exec (.barrierArrival g) s = execBarrierArrival g s := rfl
theorem exec_barrierRouterArrival (tid : Nat) (s : State) :
    exec (.barrierRouterArrival tid) s = execBarrierRouterArrival tid s := rfl
theorem exec_symbolDelivery (g : Nat) (k : Nat) (s : State) :
    exec (.symbolDelivery g k) s = execSymbolDelivery g k s := rfl
theorem exec_teamRetire (tid : Nat) (s : State) :
    exec (.teamRetire tid) s = execTeamRetire tid s := rfl
theorem exec_qtailDoorbell (p : Nat) (q : Nat) (tail : Nat) (s : State) :
    exec (.qtailDoorbell p q tail) s = execQtailDoorbell p q tail s := rfl
theorem exec_ringEntryMove (p : Nat) (q : Nat) (s : State) :
    exec (.ringEntryMove p q) s = execRingEntryMove p q s := rfl
theorem exec_queueHead (p : Nat) (q : Nat) (s : State) :
    exec (.queueHead p q) s = execQueueHead p q s := rfl
theorem exec_clusterPlacement (p : Nat) (q : Nat) (quad : Nat) (x : Nat) (y : Nat) (s : State) :
    exec (.clusterPlacement p q quad x y) s = execClusterPlacement p q quad x y s := rfl
theorem exec_bankRotation (core : Nat) (bank : Nat) (s : State) :
    exec (.bankRotation core bank) s = execBankRotation core bank s := rfl
theorem exec_preemptRequest (p : Nat) (s : State) :
    exec (.preemptRequest p) s = execPreemptRequest p s := rfl
theorem exec_vacateComplete (p : Nat) (s : State) :
    exec (.vacateComplete p) s = execVacateComplete p s := rfl
theorem exec_extensionMoveBack (p : Nat) (s : State) :
    exec (.extensionMoveBack p) s = execExtensionMoveBack p s := rfl
theorem exec_haltLineArrival (ctx : Nat) (src : Nat) (s : State) :
    exec (.haltLineArrival ctx src) s = execHaltLineArrival ctx src s := rfl
theorem exec_skidStop (ctx : Nat) (src : Nat) (s : State) :
    exec (.skidStop ctx src) s = execSkidStop ctx src s := rfl
theorem exec_stopAreaWrite (ctx : Nat) (s : State) :
    exec (.stopAreaWrite ctx) s = execStopAreaWrite ctx s := rfl
theorem exec_handlerStart (p : Nat) (s : State) :
    exec (.handlerStart p) s = execHandlerStart p s := rfl
theorem exec_handlerCoreMove (p : Nat) (s : State) :
    exec (.handlerCoreMove p) s = execHandlerCoreMove p s := rfl
theorem exec_pageWalk (core : Nat) (ctx : Nat) (va : Nat) (s : State) :
    exec (.pageWalk core ctx va) s = execPageWalk core ctx va s := rfl
theorem exec_l1CopyLapse (core : Nat) (line : Nat) (s : State) :
    exec (.l1CopyLapse core line) s = execL1CopyLapse core line s := rfl
theorem exec_stationEntry (core : Nat) (s : State) :
    exec (.stationEntry core) s = execStationEntry core s := rfl
theorem exec_annulusCapture (core : Nat) (slot : Nat) (s : State) :
    exec (.annulusCapture core slot) s = execAnnulusCapture core slot s := rfl
theorem exec_watchPassage (core : Nat) (slot : Nat) (s : State) :
    exec (.watchPassage core slot) s = execWatchPassage core slot s := rfl
theorem exec_hostAccess (target : HostTarget) (addr : Nat) (len : Nat) (data : Option (List Byte)) (s : State) :
    exec (.hostAccess target addr len data) s = execHostAccess target addr len data s := rfl
theorem exec_peerAccess (dev : Nat) (kind : PeerOp) (addr : Nat) (data : List Byte) (s : State) :
    exec (.peerAccess dev kind addr data) s = execPeerAccess dev kind addr data s := rfl
theorem exec_vlReplyTimeout (req : Nat) (s : State) :
    exec (.vlReplyTimeout req) s = execVlReplyTimeout req s := rfl
theorem exec_vlFlitReceive (port : Nat) (flit : Nat) (s : State) :
    exec (.vlFlitReceive port flit) s = execVlFlitReceive port flit s := rfl
theorem exec_putSigDelivery (cmd : Nat) (n : Nat) (s : State) :
    exec (.putSigDelivery cmd n) s = execPutSigDelivery cmd n s := rfl
theorem exec_putSigFlag (cmd : Nat) (s : State) :
    exec (.putSigFlag cmd) s = execPutSigFlag cmd s := rfl
theorem exec_getpTransfer (cmd : Nat) (n : Nat) (s : State) :
    exec (.getpTransfer cmd n) s = execGetpTransfer cmd n s := rfl
theorem exec_requestEngineHandoff (core : Nat) (queue : Nat) (unit : Nat) (s : State) :
    exec (.requestEngineHandoff core queue unit) s = execRequestEngineHandoff core queue unit s := rfl
theorem exec_copyCommand (cmd : Nat) (n : Nat) (s : State) :
    exec (.copyCommand cmd n) s = execCopyCommand cmd n s := rfl
theorem exec_tensorCommand (cmd : Nat) (n : Nat) (s : State) :
    exec (.tensorCommand cmd n) s = execTensorCommand cmd n s := rfl
theorem exec_gatherCommand (cmd : Nat) (n : Nat) (s : State) :
    exec (.gatherCommand cmd n) s = execGatherCommand cmd n s := rfl
theorem exec_collCommand (cmd : Nat) (n : Nat) (s : State) :
    exec (.collCommand cmd n) s = execCollCommand cmd n s := rfl
theorem exec_engineCompletion (cmd : Nat) (s : State) :
    exec (.engineCompletion cmd) s = execEngineCompletion cmd s := rfl
theorem exec_pushbListRead (core : Nat) (s : State) :
    exec (.pushbListRead core) s = execPushbListRead core s := rfl
theorem exec_msgArrival (msg : Nat) (s : State) :
    exec (.msgArrival msg) s = execMsgArrival msg s := rfl
theorem exec_matrixQueueAccept (core : Nat) (s : State) :
    exec (.matrixQueueAccept core) s = execMatrixQueueAccept core s := rfl
theorem exec_mbLdCommand (core : Nat) (n : Nat) (s : State) :
    exec (.mbLdCommand core n) s = execMbLdCommand core n s := rfl
theorem exec_mbZeroCommand (core : Nat) (s : State) :
    exec (.mbZeroCommand core) s = execMbZeroCommand core s := rfl
theorem exec_denseComputation (core : Nat) (n : Nat) (s : State) :
    exec (.denseComputation core n) s = execDenseComputation core n s := rfl
theorem exec_tableLookup (core : Nat) (n : Nat) (s : State) :
    exec (.tableLookup core n) s = execTableLookup core n s := rfl
theorem exec_matrixCompletion (core : Nat) (s : State) :
    exec (.matrixCompletion core) s = execMatrixCompletion core s := rfl
theorem exec_rastAccept (cmd : Nat) (s : State) :
    exec (.rastAccept cmd) s = execRastAccept cmd s := rfl
theorem exec_triangleSetup (quad : Nat) (s : State) :
    exec (.triangleSetup quad) s = execTriangleSetup quad s := rfl
theorem exec_fragmentGroupLaunch (quad : Nat) (core : Nat) (wedge : Nat) (bank : Nat) (s : State) :
    exec (.fragmentGroupLaunch quad core wedge bank) s = execFragmentGroupLaunch quad core wedge bank s := rfl
theorem exec_bankUnitApply (core : Nat) (s : State) :
    exec (.bankUnitApply core) s = execBankUnitApply core s := rfl
theorem exec_ratioChange (s : State) :
    exec (.ratioChange) s = execRatioChange s := rfl
theorem exec_ratioStallEnd (s : State) :
    exec (.ratioStallEnd) s = execRatioStallEnd s := rfl
theorem exec_busRetire (s : State) :
    exec (.busRetire) s = execBusRetire s := rfl
theorem exec_retireCopyDone (s : State) :
    exec (.retireCopyDone) s = execRetireCopyDone s := rfl
theorem exec_wearStateChange (sel : Nat) (state : Nat) (eolh : Nat) (used : Nat) (s : State) :
    exec (.wearStateChange sel state eolh used) s = execWearStateChange sel state eolh used s := rfl
theorem exec_subnetWake (n : Nat) (occ : Nat) (s : State) :
    exec (.subnetWake n occ) s = execSubnetWake n occ s := rfl
theorem exec_subnetOn (n : Nat) (s : State) :
    exec (.subnetOn n) s = execSubnetOn n s := rfl
theorem exec_subnetOff (n : Nat) (s : State) :
    exec (.subnetOff n) s = execSubnetOff n s := rfl
theorem exec_ptmDialogue (s : State) :
    exec (.ptmDialogue) s = execPtmDialogue s := rfl
theorem exec_ptmResponse (master : Nat) (delay : Nat) (s : State) :
    exec (.ptmResponse master delay) s = execPtmResponse master delay s := rfl
theorem exec_timeStep (off : Nat) (s : State) :
    exec (.timeStep off) s = execTimeStep off s := rfl
theorem exec_locusFilter (stack : Nat) (s : State) :
    exec (.locusFilter stack) s = execLocusFilter stack s := rfl
theorem exec_filterLoad (p : Nat) (s : State) :
    exec (.filterLoad p) s = execFilterLoad p s := rfl
theorem exec_sampleTag (core : Nat) (wedge : Nat) (s : State) :
    exec (.sampleTag core wedge) s = execSampleTag core wedge s := rfl
theorem exec_samplingRecord (core : Nat) (wedge : Nat) (level : Nat) (lats : List Nat) (s : State) :
    exec (.samplingRecord core wedge level lats) s = execSamplingRecord core wedge level lats s := rfl
theorem exec_stopcGo (p : Nat) (s : State) :
    exec (.stopcGo p) s = execStopcGo p s := rfl
theorem exec_stepWithinHalt (p : Nat) (s : State) :
    exec (.stepWithinHalt p) s = execStepWithinHalt p s := rfl
theorem exec_stepNotify (p : Nat) (s : State) :
    exec (.stepNotify p) s = execStepNotify p s := rfl
theorem exec_stepCompletion (p : Nat) (s : State) :
    exec (.stepCompletion p) s = execStepCompletion p s := rfl
theorem exec_annWindowEnable (ctx : Nat) (val : Nat) (s : State) :
    exec (.annWindowEnable ctx val) s = execAnnWindowEnable ctx val s := rfl
theorem exec_annWindowDisable (ctx : Nat) (val : Nat) (s : State) :
    exec (.annWindowDisable ctx val) s = execAnnWindowDisable ctx val s := rfl
theorem exec_partqWrite (p : Nat) (mask : Nat) (s : State) :
    exec (.partqWrite p mask) s = execPartqWrite p mask s := rfl
theorem exec_hcoreWrite (p : Nat) (core : Nat) (s : State) :
    exec (.hcoreWrite p core) s = execHcoreWrite p core s := rfl
theorem exec_contextCreate (ctx : Nat) (val : Nat) (s : State) :
    exec (.contextCreate ctx val) s = execContextCreate ctx val s := rfl
theorem exec_contextInvalidate (ctx : Nat) (val : Nat) (s : State) :
    exec (.contextInvalidate ctx val) s = execContextInvalidate ctx val s := rfl
theorem exec_pstateRun (s : State) :
    exec (.pstateRun) s = execPstateRun s := rfl
theorem exec_pstateIdle (s : State) :
    exec (.pstateIdle) s = execPstateIdle s := rfl
theorem exec_pstateSleep (s : State) :
    exec (.pstateSleep) s = execPstateSleep s := rfl
theorem exec_floorRaise (s : State) :
    exec (.floorRaise) s = execFloorRaise s := rfl
theorem exec_floorFall (s : State) :
    exec (.floorFall) s = execFloorFall s := rfl
theorem exec_alarm (level : Nat) (src : Nat) (s : State) :
    exec (.alarm level src) s = execAlarm level src s := rfl
theorem exec_attestationReport (s : State) :
    exec (.attestationReport) s = execAttestationReport s := rfl
theorem exec_reportPublish (s : State) :
    exec (.reportPublish) s = execReportPublish s := rfl
theorem exec_bringUp (s : State) :
    exec (.bringUp) s = execBringUp s := rfl
theorem exec_registerWrite (off : Nat) (val : Nat) (s : State) :
    exec (.registerWrite off val) s = execRegisterWrite off val s := rfl
theorem exec_accessPerformed (g : Nat) (op : Nat) (s : State) :
    exec (.accessPerformed g op) s = execAccessPerformed g op s := rfl
theorem exec_spillWriteCompletion (req : Nat) (s : State) :
    exec (.spillWriteCompletion req) s = execSpillWriteCompletion req s := rfl
theorem exec_tlbEntryDrop (ix : Nat) (s : State) :
    exec (.tlbEntryDrop ix) s = execTlbEntryDrop ix s := rfl
theorem exec_vimenLinkPortTraining (port : Nat) (lanes : Nat) (s : State) :
    exec (.vimenLinkPortTraining port lanes) s = execVimenLinkPortTraining port lanes s := rfl
theorem exec_ucieLaneLoss (lanes : Nat) (s : State) :
    exec (.ucieLaneLoss lanes) s = execUcieLaneLoss lanes s := rfl
theorem exec_thermalOrPowerCause (cause : Nat) (on : Bool) (s : State) :
    exec (.thermalOrPowerCause cause on) s = execThermalOrPowerCause cause on s := rfl
theorem exec_rcRegisterRead (off : Nat) (s : State) :
    exec (.rcRegisterRead off) s = execRcRegisterRead off s := rfl

end Sys2Proof.Machine
end

