-- ==== Sys2Proof/Laws/Exceptions.lean ====
section
/-! SUPPORT. What a trace record, a fault and a local trap do to the state: each as one lemma. -/

namespace Sys2Proof.Machine

/-- A trace record changes only the Loci and the count of lost records (R412). -/
theorem queueRecord_cases (s : State) (k p : Nat) (ws : List Word) :
    (∃ l, queueRecord s k p ws = { s with locus := l }) ∨ (∃ r, queueRecord s k p ws = { s with regs := r }) := by
  unfold queueRecord
  simp only
  split
  · exact .inl ⟨_, rfl⟩
  · exact .inr ⟨_, rfl⟩

theorem emit_cases (s : State) (ty k p src pl : Nat) (n : Names) :
    emit s ty k p src pl n = s ∨ (∃ l, emit s ty k p src pl n = { s with locus := l })
      ∨ (∃ r, emit s ty k p src pl n = { s with regs := r }) := by
  unfold emit
  split
  · exact .inr (queueRecord_cases _ _ _ _)
  · exact .inl rfl

@[simp] theorem emit_groups (s : State) (ty k p src pl : Nat) (n : Names) : (emit s ty k p src pl n).groups = s.groups := by
  rcases emit_cases s ty k p src pl n with h | ⟨_, h⟩ | ⟨_, h⟩ <;> rw [h]
@[simp] theorem emit_ctxs (s : State) (ty k p src pl : Nat) (n : Names) : (emit s ty k p src pl n).ctxs = s.ctxs := by
  rcases emit_cases s ty k p src pl n with h | ⟨_, h⟩ | ⟨_, h⟩ <;> rw [h]
@[simp] theorem emit_time (s : State) (ty k p src pl : Nat) (n : Names) : (emit s ty k p src pl n).time = s.time := by
  rcases emit_cases s ty k p src pl n with h | ⟨_, h⟩ | ⟨_, h⟩ <;> rw [h]
@[simp] theorem emit_iss (s : State) (ty k p src pl : Nat) (n : Names) : (emit s ty k p src pl n).iss = s.iss := by
  rcases emit_cases s ty k p src pl n with h | ⟨_, h⟩ | ⟨_, h⟩ <;> rw [h]
@[simp] theorem emit_mem (s : State) (ty k p src pl : Nat) (n : Names) : (emit s ty k p src pl n).mem = s.mem := by
  rcases emit_cases s ty k p src pl n with h | ⟨_, h⟩ | ⟨_, h⟩ <;> rw [h]
@[simp] theorem emit_scr (s : State) (ty k p src pl : Nat) (n : Names) : (emit s ty k p src pl n).scr = s.scr := by
  rcases emit_cases s ty k p src pl n with h | ⟨_, h⟩ | ⟨_, h⟩ <;> rw [h]
@[simp] theorem emit_arena (s : State) (ty k p src pl : Nat) (n : Names) : (emit s ty k p src pl n).arena = s.arena := by
  rcases emit_cases s ty k p src pl n with h | ⟨_, h⟩ | ⟨_, h⟩ <;> rw [h]
@[simp] theorem emit_bst (s : State) (ty k p src pl : Nat) (n : Names) : (emit s ty k p src pl n).bst = s.bst := by
  rcases emit_cases s ty k p src pl n with h | ⟨_, h⟩ | ⟨_, h⟩ <;> rw [h]
@[simp] theorem emit_ring (s : State) (ty k p src pl : Nat) (n : Names) : (emit s ty k p src pl n).ring = s.ring := by
  rcases emit_cases s ty k p src pl n with h | ⟨_, h⟩ | ⟨_, h⟩ <;> rw [h]

@[simp] theorem noteCause_groups (s : State) (g c : Nat) : (noteCause s g c).groups = s.groups := by
  unfold noteCause; split <;> rfl
@[simp] theorem noteCause_ctxs (s : State) (g c : Nat) : (noteCause s g c).ctxs = s.ctxs := by
  unfold noteCause; split <;> rfl
@[simp] theorem noteCause_time (s : State) (g c : Nat) : (noteCause s g c).time = s.time := by
  unfold noteCause; split <;> rfl
@[simp] theorem noteCause_done (s : State) (g c : Nat) : (noteCause s g c).iss.done = s.iss.done := by
  unfold noteCause; split <;> rfl
@[simp] theorem noteCause_iss_g (s : State) (g c : Nat) : (noteCause s g c).iss.g = s.iss.g := by
  unfold noteCause; split <;> rfl

/-- The group of a local trap with a handler, while its context's halt line is down (R372): link and information in
every lane of the trap, and the lanes at the handler. -/
def Group.trapped (g : Group) (lanes : Word) (code link h : Nat) (info : Nat → Nat) : Group :=
  { ((lanesOf lanes).foldl (fun x l =>
      (x.setElem (g.id.nv - 1) l (.val (word link))).setElem (g.id.nv - 2) l (.val (word (info l + code)))) g).setLanes
        lanes (fun l => { l with pcv := word h, st := .running, hop := .along })
    with cause := code, causeUp := false }

/-- A local trap with a handler, while the halt line is down, of an issue that is no single step changes the group and
the trace alone. -/
theorem takeTrap_of_entry {s : State} {gid : Nat} {g : Group} {h : Nat} (hg : s.group gid = some g) (hs : g.step ≠ 1)
    (he : g.id.trapEntry = some h) (hh : haltedCtx s g.id.ctx = false) (lanes : Word) (code link : Nat)
    (info : Nat → Nat) (d : Detail) :
    takeTrap s gid lanes code link info d
      = putGroup (emit (noteCause s gid code) 0x05 (stackOf g.core) (ctxPart (noteCause s gid code) g.id.ctx)
          (srcWedge g.core g.wedge) (code + 2 ^ 32 * link) (g.names lanes)) gid (g.trapped lanes code link h info) := by
  simp only [takeTrap, hg, he, hh, if_neg hs]
  rfl

theorem failing_down (g : Group) (lanes : Word) (cause : Nat) : g.failing false lanes cause
    = { g with cause := cause, causeUp := true, faulted := g.faulted ||| lanes } := rfl

theorem raiseLine_down {s : State} {c : Nat} (h : (ctxOf s c).halt = none) (src base : Nat) :
    raiseLine s c src base = putCtx s c { ctxOf s c with
      halts := ((ctxOf s c).halts + 1) % 2 ^ 32
      halt := some { time := s.time, src := src, base := base, recs := [], arrived := [], stopped := [], written := false,
                     placed := 0, noHandler := false } } := by
  simp [raiseLine, h]

/-- A fault of a group that is neither a handler's nor stepped, while its context's halt line is down (R374, R375):
the group's `cause`, the halt line with this wedge and TIME, and one stop record. -/
theorem raiseFault_first {s : State} {gid : Nat} {g : Group} (hg : s.group gid = some g) (hn : g.id.handler = false)
    (hs : g.step ≠ 1) (hh : haltedCtx s g.id.ctx = false) (lanes : Word) (cause : Nat) (ltf : Bool) (pc : Nat)
    (d : Detail) :
    ∃ s1 : State, s1.ctxs = s.ctxs ∧ s1.groups = s.groups ∧ s1.time = s.time ∧ s1.iss.done = s.iss.done
      ∧ raiseFault s gid lanes cause ltf pc d
        = addRec (raiseLine (putGroup s1 gid (g.failing false lanes cause)) g.id.ctx (srcWedge g.core g.wedge) cHalt)
            g.id.ctx (groupRec s1 (g.failing false lanes cause) lanes cause ltf false pc d) := by
  have hh2 : (ctxOf s g.id.ctx).halt = none := by simpa [haltedCtx] using hh
  simp only [raiseFault, hg, hn, Bool.false_eq_true, if_false, hs]
  generalize hs1 : emit (noteCause s gid cause) 0x05 (stackOf g.core) (ctxPart s g.id.ctx) (srcWedge g.core g.wedge)
    (cause + 2 ^ 32 * pc) (g.names lanes) = s1
  have hc : s1.ctxs = s.ctxs := by rw [← hs1]; simp
  have h1 : (ctxOf s1 g.id.ctx).halt = none := by rw [ctxOf_congr hc]; exact hh2
  have h2 : haltedCtx s1 g.id.ctx = false := by simp [haltedCtx, h1]
  refine ⟨s1, hc, by rw [← hs1]; simp, by rw [← hs1]; simp, by rw [← hs1]; simp, ?_⟩
  rw [h2]
  have h4 : (ctxOf (putGroup s1 gid (g.failing false lanes cause)) g.id.ctx).halt = none := h1
  have h5 : (g.failing false lanes cause).core = g.core := rfl
  have h6 : (g.failing false lanes cause).wedge = g.wedge := rfl
  rw [h5, h6, raiseLine_down h4]
  rfl

/-- What such a fault leaves: the group, the halt line and its first stop record. -/
theorem raiseFault_first_facts {s : State} {gid : Nat} {g : Group} (hg : s.group gid = some g) (hn : g.id.handler = false)
    (hs : g.step ≠ 1) (hh : haltedCtx s g.id.ctx = false) (lanes : Word) (cause : Nat) (ltf : Bool) (pc : Nat)
    (d : Detail) :
    (raiseFault s gid lanes cause ltf pc d).group gid = some (g.failing false lanes cause)
    ∧ ∃ h r, (ctxOf (raiseFault s gid lanes cause ltf pc d) g.id.ctx).halt = some h ∧ h.time = s.time
      ∧ h.src = srcWedge g.core g.wedge ∧ h.recs = [r] ∧ r.cause = cause ∧ r.pc = pc
      ∧ r.detail = BitVec.ofNat 64 d.detail ∧ r.time = s.time ∧ r.lmask = (g.failing false lanes cause).fragment lanes := by
  obtain ⟨s1, hc, hgr, ht, -, e⟩ := raiseFault_first hg hn hs hh lanes cause ltf pc d
  have h1 : (ctxOf s1 g.id.ctx).halt = none := by rw [ctxOf_congr hc]; simpa [haltedCtx] using hh
  have h2 : (ctxOf (putGroup s1 gid (g.failing false lanes cause)) g.id.ctx).halt = none := h1
  rw [e, raiseLine_down h2]
  refine ⟨?_, ?_⟩
  · rw [addRec, ctxOf_putCtx_self]
    simp
  · refine ⟨_, _, by simp only [addRec, ctxOf_putCtx_self, List.nil_append]; rfl, ht, rfl, rfl, rfl, rfl, rfl, ht, rfl⟩

end Sys2Proof.Machine
end

