-- ==== Sys2Proof/Laws/Lanes.lean ====
section
/-! SUPPORT. What the shapes of lane instructions do: their result elements (R164, R201), and that known operands
give known results in place of forms (R54, R55). -/

namespace Sys2Proof.Machine

theorem vkey_inj {r q l k : Nat} (hl : l < 32) (hk : k < 32) (h : vkey r l = vkey q k) : r = q ∧ l = k := by
  unfold vkey at h; omega

/-- The writes of a lane instruction. -/
theorem mem_writes {s : State} {g : Group} {a n : Nat} {f : Nat → Nat → Elem} {k : Nat} {e : Elem} :
    (k, e) ∈ ((lanesOf s.iss.lanes).flatMap fun l => (List.range n).filterMap fun i =>
      if bit (execMask s g) l then some (vkey (a + i) l, f l i)
      else if zeroing s then some (vkey (a + i) l, Elem.val 0)
      else none)
    ↔ ∃ l i, bit s.iss.lanes l = true ∧ i < n ∧ k = vkey (a + i) l
      ∧ ((bit (execMask s g) l = true ∧ e = f l i)
        ∨ (bit (execMask s g) l = false ∧ zeroing s = true ∧ e = .val 0)) := by
  simp only [List.mem_flatMap, List.mem_filterMap, List.mem_range, mem_lanesOf_iff]
  constructor
  · rintro ⟨l, hl, i, hi, h⟩
    refine ⟨l, i, hl, hi, ?_⟩
    split at h
    · rename_i hb; simp only [Option.some.injEq, Prod.mk.injEq] at h; exact ⟨h.1.symm, .inl ⟨hb, h.2.symm⟩⟩
    · split at h
      · rename_i hb hz
        simp only [Option.some.injEq, Prod.mk.injEq] at h
        exact ⟨h.1.symm, .inr ⟨by simpa using hb, hz, h.2.symm⟩⟩
      · simp at h
  · rintro ⟨l, i, hl, hi, rfl, h⟩
    refine ⟨l, hl, i, hi, ?_⟩
    rcases h with ⟨hb, rfl⟩ | ⟨hb, hz, rfl⟩
    · simp [hb]
    · simp [hb, hz]

/-- What a lane instruction writes, and that it writes nothing else (R164, R201). -/
theorem elem_writeElems (s : State) (g : Group) (a n : Nat) (f : Nat → Nat → Elem) (r : Nat)
    {l : Nat} (hl : l < 32) :
    (writeElems s g a n f).elem r l
      = if a ≤ r ∧ r < a + n ∧ bit s.iss.lanes l = true then
          (if bit (execMask s g) l then f l (r - a) else if zeroing s then .val 0 else g.elem r l)
        else g.elem r l := by
  unfold writeElems Group.elem
  simp only
  by_cases hin : a ≤ r ∧ r < a + n ∧ bit s.iss.lanes l = true
  · rw [if_pos hin]
    obtain ⟨h1, h2, h3⟩ := hin
    have hkey : vkey r l = vkey (a + (r - a)) l := by congr 1; omega
    by_cases hb : bit (execMask s g) l = true
    · rw [if_pos hb]
      refine cget_csets_of_mem _ _ (mem_writes.mpr ⟨l, r - a, h3, by omega, hkey, .inl ⟨hb, rfl⟩⟩) ?_
      intro y hy
      obtain ⟨k, i, hk, hi, he, h⟩ := mem_writes.mp hy
      obtain ⟨e1, e2⟩ := vkey_inj hl (bit_lt hk) he
      subst e2
      have : i = r - a := by omega
      subst this
      rcases h with ⟨-, h⟩ | ⟨h, -⟩
      · exact h
      · rw [hb] at h; exact absurd h (by simp)
    · rw [if_neg hb]
      by_cases hz : zeroing s = true
      · rw [if_pos hz]
        refine cget_csets_of_mem _ _ (mem_writes.mpr ⟨l, r - a, h3, by omega, hkey, .inr ⟨by simpa using hb, hz, rfl⟩⟩) ?_
        intro y hy
        obtain ⟨k, i, hk, hi, he, h⟩ := mem_writes.mp hy
        obtain ⟨e1, e2⟩ := vkey_inj hl (bit_lt hk) he
        subst e2
        rcases h with ⟨h, -⟩ | ⟨-, -, h⟩
        · exact absurd h hb
        · exact h
      · rw [if_neg hz]
        apply cget_csets_of_not_mem
        rintro ⟨j, y⟩ hy he
        simp only at he
        subst he
        obtain ⟨k, i, hk, hi, he, h⟩ := mem_writes.mp hy
        obtain ⟨e1, e2⟩ := vkey_inj hl (bit_lt hk) he
        subst e2
        rcases h with ⟨h, -⟩ | ⟨-, h, -⟩
        · exact hb h
        · exact hz h
  · rw [if_neg hin]
    apply cget_csets_of_not_mem
    rintro ⟨j, y⟩ hy he
    simp only at he
    subst he
    obtain ⟨k, i, hk, hi, he, h⟩ := mem_writes.mp hy
    obtain ⟨e1, e2⟩ := vkey_inj hl (bit_lt hk) he
    subst e2
    exact hin ⟨by omega, by omega, hk⟩

/-- Writing words makes no register hold a form that held none. -/
theorem formRegs_writeLanes (s : State) (g : Group) (a n : Nat) (f : Nat → Nat → Word) :
    (writeLanes s g a n f).formRegs ≤ g.formRegs := by
  unfold Group.formRegs
  have key : ∀ r : Nat, ((writeLanes s g a n f).v.any fun e => e.1 / 32 == r && e.2.isForm) = true →
      (g.v.any fun e => e.1 / 32 == r && e.2.isForm) = true := by
    intro r h
    rw [List.any_eq_true] at h ⊢
    obtain ⟨⟨k, e⟩, hm, hp⟩ := h
    rcases mem_csets hm with hw | hc
    · obtain ⟨l, i, -, -, -, h⟩ := mem_writes.mp hw
      rcases h with ⟨-, rfl⟩ | ⟨-, -, rfl⟩ <;> simp [Elem.isForm] at hp
    · exact ⟨_, hc, hp⟩
  refine List.Sublist.length_le ?_
  have : ∀ (p q : Nat → Bool) (l : List Nat), (∀ r, p r = true → q r = true) → (l.filter p).Sublist (l.filter q) := by
    intro p q l h
    induction l with
    | nil => exact List.Sublist.slnil
    | cons x t ih =>
      by_cases hp : p x = true
      · simp [hp, h x hp, ih]
      · by_cases hq : q x = true
        · simp only [List.filter_cons, hp, hq]; exact ih.cons _
        · simp [hp, hq, ih]
  exact this _ _ _ key

/-- The word of an operand, 0 where the instruction has none. -/
def wordOr (g : Group) (r : Option Nat) (l : Nat) : Word := (g.optElem r l).word
def srcOr (g : Group) (x : Option Src) (flt : Bool) (l : Nat) : Word := (g.srcElem x flt l).word

theorem writeElems_congr {s : State} {g : Group} {a n : Nat} {f k : Nat → Nat → Elem}
    (h : ∀ l, bit (execMask s g) l = true → ∀ i, f l i = k l i) : writeElems s g a n f = writeElems s g a n k := by
  unfold writeElems
  have : ((lanesOf s.iss.lanes).flatMap fun l => (List.range n).filterMap fun i =>
      if bit (execMask s g) l then some (vkey (a + i) l, f l i)
      else if zeroing s then some (vkey (a + i) l, Elem.val 0) else none)
    = ((lanesOf s.iss.lanes).flatMap fun l => (List.range n).filterMap fun i =>
      if bit (execMask s g) l then some (vkey (a + i) l, k l i)
      else if zeroing s then some (vkey (a + i) l, Elem.val 0) else none) := by
    congr 1; funext l
    congr 1; funext i
    split
    · rename_i hb; rw [h l hb i]
    · rfl
  simp only [this]

/-- A transform-capable instruction on known operands writes its value in every executing lane. -/
theorem laneXform_of_known {s : State} {g : Group} {rule : PfxRule} {a : VReg} {t : Group → Xform} {b : Option Nat}
    {x : Option Src} {flt : Bool} {addend : Option Nat}
    (h : LaneReady s g rule a.toNat 1 (xformReads b x addend) (x.toList.flatMap Src.sregs)) (hf : g.formRegs ≤ 16) :
    laneXform s rule a t b x flt addend = .next (s.after (writeLanes s g a.toNat 1 fun l _ =>
      (t g).value (wordOr g b l) (srcOr g x flt l) (wordOr g addend l))) := by
  obtain ⟨hi, hk⟩ := h
  have hv : (List.range 1).map (a.toNat + ·) ++ xformReads b x addend = a.toNat :: xformReads b x addend := rfl
  rw [hv] at hi
  unfold laneXform
  simp only
  rw [begin_of_issues hi]
  have opt : ∀ (r : Option Nat) l, l ∈ lanesOf (execMask s g) → (∀ q ∈ r.toList, q ∈ xformReads b x addend) →
      g.optElem r l = .val (wordOr g r l) := by
    intro r l hl hr
    cases r with
    | none => rfl
    | some q =>
      have := hk q (hr q (by simp)) l hl
      simp only [wordOr, Group.optElem]
      rw [this]; rfl
  have src : ∀ l, l ∈ lanesOf (execMask s g) → g.srcElem x flt l = .val (srcOr g x flt l) := by
    intro l hl
    rcases x with _ | (r | o)
    · rfl
    · have := hk r.toNat (by simp [xformReads, Src.vregs]) l hl
      simp only [srcOr, Group.srcElem]
      rw [this]; rfl
    · rfl
  have hres : ∀ l ∈ lanesOf (execMask s g), xformAt g (t g) b x flt addend l
      = some (.val ((t g).value (wordOr g b l) (srcOr g x flt l) (wordOr g addend l))) := by
    intro l hl
    rw [xformAt, opt b l hl (by intro q hq; simp only [xformReads, List.mem_append]; exact .inl (.inl hq)),
      opt addend l hl (by intro q hq; simp only [xformReads, List.mem_append]; exact .inr hq), src l hl]
    rfl
  have hbad : ((lanesOf (execMask s g)).filter fun l => (xformAt g (t g) b x flt addend l).isNone) = [] := by
    rw [List.filter_eq_nil_iff]
    intro l hl
    rw [hres l hl]; simp
  have hw : (writeElems s g a.toNat 1 fun l _ => (xformAt g (t g) b x flt addend l).getD (.val 0))
      = writeLanes s g a.toNat 1 fun l _ => (t g).value (wordOr g b l) (srcOr g x flt l) (wordOr g addend l) :=
    writeElems_congr fun l hl i => by rw [hres l ((mem_lanesOf_iff _ _).mpr hl)]; rfl
  have hle := formRegs_writeLanes s g a.toNat 1 fun l _ => (t g).value (wordOr g b l) (srcOr g x flt l) (wordOr g addend l)
  rw [hbad, hw, List.isEmpty_nil, if_pos rfl, if_pos (by simp; right; omega)]
  rfl

end Sys2Proof.Machine
end

