-- ==== Sys2Proof/Tests/Slice0.lean ====
section
/-! SUPPORT. Tests of the model: a well-formedness smoke, words of the spec's encodings, single steps whose results are
worked out from the spec's rules by hand, and for each statement a state and operands that meet its hypotheses. -/

namespace Sys2Proof.Tests

open Sys2Proof Sys2Proof.Machine

set_option Elab.async false
set_option synthInstance.maxSize 4096
set_option synthInstance.maxHeartbeats 400000

/-! Well-formedness: for each check an ill-formed term, which the check refuses, and a neighbour that stands. -/

theorem test_wf_literal_only_in_long_form :
    (Instr.scalarAdd 1 2 (.lit 5)).wf = false ∧ (Instr.addX 1 2 (.lit 5)).wf = false ∧ (Instr.bra (.far 8)).wf = false
    ∧ (Instr.ldg .b32 4 (.offFar 2 8)).wf = false ∧ (Instr.lds .b32 4 (.idxFar 2 1 8)).wf = false
    ∧ (Instr.lds .b32 4 (.pairFar 2 8)).wf = false ∧ (Instr.scalarAdd 1 2 (.imm 5)).wf = true := by decide +kernel

theorem test_wf_prefix_codes :
    (Instr.prefixWord 0 false false false 6 15).wf = false ∧ (Instr.prefixWord 0 false false false 0 12).wf = false
    ∧ (Instr.prefixWord 0 false false false 5 11).wf = true := by decide +kernel

theorem test_wf_mask_registers :
    (Instr.mjoin 12).wf = false ∧ (Instr.mleave 12).wf = false ∧ (Instr.mwait 15).wf = false ∧ (Instr.mrd 1 12).wf = false
    ∧ (Instr.mwr 13 1).wf = false ∧ (Instr.cmpEqB32V 12 1 2).wf = false ∧ (Instr.fcmpUnF32X 12 1 (.s 2)).wf = false
    ∧ (Instr.selV 1 12 2 3).wf = false ∧ (Instr.mjoin 11).wf = true := by decide +kernel

theorem test_wf_scalar_pairs_and_blocks :
    (Instr.sleepAt 3).wf = false ∧ (Instr.rdtime 5).wf = false ∧ (Instr.launch 1 3 (.s 0)).wf = false
    ∧ (Instr.waitAny 1 61 (.s 0)).wf = false ∧ (Instr.waitAll 1 61 (.s 0)).wf = false ∧ (Instr.annBoard 61).wf = false
    ∧ (Instr.putSigSet 1 57).wf = false ∧ (Instr.putSigAdd 1 58).wf = false ∧ (Instr.getpSystem 1 3).wf = false
    ∧ (Instr.msgSend 1 3 4).wf = false ∧ (Instr.msgRecv 1 61).wf = false ∧ (Instr.msgProbe 3 4).wf = false
    ∧ (Instr.mbZero 3).wf = false ∧ (Instr.mmxR 49).wf = false ∧ (Instr.mmxLutR 49).wf = false
    ∧ (Instr.hldG 1 3).wf = false ∧ (Instr.hstG 1 3).wf = false ∧ (Instr.hmatch 3 1 4).wf = false
    ∧ (Instr.grd 3 1 2).wf = false ∧ (Instr.gwr 3 1 2).wf = false ∧ (Instr.tlbinv 1 3 2).wf = false
    ∧ (Instr.hmatch 4 1 62).wf = true := by decide +kernel

theorem test_wf_vector_pairs_and_blocks :
    (Instr.addI64V 1 2 3).wf = false ∧ (Instr.addI64V 2 1 3).wf = false ∧ (Instr.shlB64X 2 3 (.imm 1)).wf = false
    ∧ (Instr.mulWideI32V 1 3 3).wf = false ∧ (Instr.ropc 2 0 3).wf = false ∧ (Instr.hfrom 1 4).wf = false
    ∧ (Instr.hto 12 1).wf = false ∧ (Instr.pushCopy true 113 1).wf = false ∧ (Instr.pushCopy false 49 1).wf = false
    ∧ (Instr.pushMsg true 112 1).wf = true ∧ (Instr.mulWideN32V 2 3 3).wf = true := by decide +kernel

theorem test_wf_accesses :
    (Instr.ldg .b64 5 (.off 2 0)).wf = false ∧ (Instr.ldg .b128 6 (.off 2 0)).wf = false ∧ (Instr.ldg .b32 5 (.off 3 0)).wf = false
    ∧ (Instr.lds .rawB32 4 (.off 3 0)).wf = false ∧ (Instr.ldt .b8 4 1 2).wf = false ∧ (Instr.ldg .b32 4 (.idx 0 1)).wf = false
    ∧ (Instr.ldg .b32 4 (.pair 3)).wf = false ∧ (Instr.atg64 .addF 4 (.off 2 0)).wf = false
    ∧ (Instr.atg32 .cas 5 (.off 2 0)).wf = false ∧ (Instr.atg64 .cas 6 (.off 2 0)).wf = false
    ∧ (Instr.red32 .swap 4 (.off 2 0)).wf = false ∧ (Instr.red64 .addF 4 (.off 2 0)).wf = false
    ∧ (Instr.annOp32 .addF 4 (.off 2 0)).wf = false ∧ (Instr.ats32 .addF 5 (.off 3 0)).wf = true := by decide +kernel

theorem test_wf_conversion_and_filter :
    (Instr.cvt .f32 false .f32 1 2).wf = false ∧ (Instr.filterCount 3 false 1).wf = false
    ∧ (Instr.filterCount 3 true 1).wf = true ∧ (Instr.cvt .e4m3 true .f32 6 7).wf = true := by decide +kernel

/-! Decoding: words that the spec writes out. -/

theorem test_decode_half : decodeTableWord 16 0x0000 = some .nopHalf ∧ decodeTableWord 16 0x1852 = some (.faddF32Half 2 3)
    ∧ decodeTableWord 16 0x0020 = none := by decide +kernel

theorem test_decode_clause_and_prefix :
    decodeTableWord 32 0x1F90057D = some (.clauseHeader 3 15 2 10) ∧ decodeTableWord 32 0x0FF8007D = some (.clauseHeader 1 15 15 0)
    ∧ decodeTableWord 32 0x0009497F = some (.prefixWord 4 true false true 1 2)
    ∧ decodeTableWord 64 0x4B800000380125FB = some (.longForm 7 0 9 0x0B 0x4B800000) := by decide +kernel

theorem test_decode_scalar :
    decodeTableWord 64 0x100000030001017B = some (.longForm 0 0 8 0x02 0x10000003)
    ∧ decodeTableWord 32 0x00C08A03 = some (.scalarAdd 20 2 (.s 6))
    ∧ decodeTableWord 32 0x88804803 = some (.scalarShl 16 1 (.imm 4))
    ∧ decodeTableWord 32 0x00E00985 = some (.scalarMov 19 (.s 7)) := by decide +kernel

theorem test_decode_control :
    decodeTableWord 32 0x00000007 = some (.bra (.near 0)) ∧ decodeTableWord 32 0x0FFF4007 = some (.bra (.near 0x3FFD))
    ∧ decodeTableWord 32 0x60000007 = some .exit ∧ decodeTableWord 32 0x01C2028B = some (.waitAny 5 8 (.s 14))
    ∧ decodeTableWord 32 0x9006088B = some (.rdsrS 17 0x18) := by decide +kernel

theorem test_decode_lanes :
    decodeTableWord 32 0x28A1011B = some (.cmpLtI32X 2 4 (.imm 5)) ∧ decodeTableWord 32 0x320183A3 = some (.cvt .e4m3 true .f32 6 7)
    ∧ decodeTableWord 32 0x3060809D = some (.ffmaF32V 1 2 3) ∧ decodeTableWord 32 0x8A044303 = some (.scalarShl 6 17 (.imm 16))
    ∧ decodeTableWord 32 (2 * 2 ^ 28 + 65 * 2 ^ 21 + 4 * 2 ^ 14 + 5 * 2 ^ 7 + 0x2F) = some (.xlaneFwdX 5 4 (.imm 1)) := by
  decide +kernel

theorem test_decode_loads_and_stores :
    decodeTableWord 32 0x20008241 = some (.ldg .b32 4 (.off 2 0)) ∧ decodeTableWord 32 0xC0008241 = some (.ldg .rawB32 4 (.off 2 0))
    ∧ decodeTableWord 32 0x102082C1 = some (.ldg .b16 5 (.off 2 1)) ∧ decodeTableWord 32 0x000082C1 = some (.ldg .b8 5 (.off 2 0))
    ∧ decodeTableWord 32 0x20008245 = some (.stg .b32 4 (.off 2 0)) ∧ decodeTableWord 32 0x4041444D = some (.ldt .b128 8 5 2)
    ∧ decodeTableWord 32 0x40048441 = some (.ldg .b128 8 (.off 18 0))
    ∧ decodeTableWord 32 0x90510355 = some (.atg32 .cas 6 (.idx 4 2)) := by decide +kernel

theorem test_decode_memory_control :
    decodeTableWord 32 0x40000061 = some .fencePackage ∧ decodeTableWord 32 0xA1A30561 = some (.surfDef 10 12 13)
    ∧ decodeTableWord 32 0xD2C00C61 = some (.surfDecomp 24 22)
    ∧ decodeTableWord 32 0x90E184E5 = some (.annWait .ge 1 9 6 7) ∧ decodeTableWord 32 0x1120C653 = some (.ropc 12 3 9)
    ∧ decodeTableWord 32 0x00600253 = some (.ropz 4 3) := by decide +kernel

theorem test_decode_engines :
    decodeTableWord 32 0x300403ED = some (.pushColl false 16 7) ∧ decodeTableWord 32 0x002402ED = some (.pushCopy true 16 5)
    ∧ decodeTableWord 32 0x402802ED = some (.pushRast true 32 5) ∧ decodeTableWord 32 0x8002036D = some (.msgRecv 6 8)
    ∧ decodeTableWord 32 0x0001006F = some (.mbLd 4) ∧ decodeTableWord 32 0x1001806F = some (.mbZero 6)
    ∧ decodeTableWord 32 0x2002006F = some (.mmx 8) ∧ decodeTableWord 32 0x3002006F = some (.mmxLut 8)
    ∧ decodeTableWord 32 0x4004006F = some (.mmxR 16) ∧ decodeTableWord 32 0x5004006F = some (.mmxLutR 16) := by
  decide +kernel

theorem test_decode_hyper :
    decodeTableWord 32 0x004041F1 = some (.hxor 3 1 2) ∧ decodeTableWord 32 0x186142F1 = some (.hrot 5 5 (.imm 3))
    ∧ decodeTableWord 32 0x70010171 = some (.hldS 2 4) ∧ decodeTableWord 32 0xB1810571 = some (.hmatch 10 4 12) := by
  decide +kernel

theorem test_decode_filter :
    decodeFilter 0x2E0C0008 = some (.filterShri 8 3 8) ∧ decodeFilter 0x262000FF = some (.filterAndi 8 8 0xFF)
    ∧ decodeFilter 0x32400005 = some (.filterLdlo 9 5) ∧ decodeFilter 0x44224002 = some (.filterBne 8 9 2)
    ∧ decodeFilter 0x88000003 = some (.filterCount 0 false 3) ∧ decodeFilter 0x84000000 = some .filterDrop
    ∧ decodeFilter 0x402AC001 = some (.filterBeq 10 11 1) ∧ decodeFilter 0x80000000 = some .filterKeep := by
  decide +kernel

/-- Reserved major class 0x3B, a reserved minor, an odd pair and a register that does not exist are no instructions, nor is a
nonzero unused field (R173). -/
theorem test_decode_refuses :
    decodeTableWord 32 0x00000077 = none ∧ decodeTableWord 32 0xF0000003 = none ∧ decodeTableWord 32 0x80000297 = none
    ∧ decodeTableWord 32 0x00002003 = none ∧ decodeTableWord 32 0x60000087 = none := by decide +kernel

/-! A small state: group 4, of team 3 in context 0, with lanes 0 and 1 running at the first word of a clause at offset 0, lane 0
issuing; the team holds scratch granule 0, and page 0 is mapped for reading, writing and execution. -/

/-- The group of the tests. -/
def grp : Group := { loadedGroup true with
  lanes := (loadedGroup true).lanes.mapIdx fun l x => if l < 2 then Lane.born 0 else x
  latch := none }

/-- The state of the tests with another group in its place. -/
def stateOf (g : Group) : State :=
  let s := State.reset.withCode true 4 0
  { s with
    turns := [], groups := [(4, g)], teams := s.teams.map fun p => (p.1, { p.2 with grans := [0] })
    tlb := [{ owner := 0, ctx := 0, page := 0, big := false, pte := 0x1C5 }]
    iss := { Issue.none with g := 4, lanes := 1, a := 4, ia := 4, next := 8, len := 1, flagA := 0, flagB := 1 } }

/-- The state of the tests. -/
def st : State := stateOf grp

/-- The same issue under a prefix. -/
def withPfx (s : State) (p : Pfx) : State := { s with iss := { s.iss with pfx := some p } }

/-- The next state of an outcome. -/
def after (o : Out) : State :=
  match o with
  | .next t => t
  | _ => State.reset

/-- The group of the tests in a state. -/
def grpOf (s : State) : Group := (s.group 4).getD grp

/-! For each statement, states and operands that meet the hypotheses of its clauses. -/

/-- RegisterWrites needs only a group; ScalarInstructions at s63, an immediate and a literal. -/
theorem witness_ScalarInstructions :
    Issues st grp { sr := (63 : SReg).toNat :: XOp.reg (.s 63) } ∧ Issues st grp { sr := (0 : SReg).toNat :: XOp.reg (.imm 63) }
    ∧ Issues st grp { sr := XOp.reg (.lit 0xFFFFFFFF) }
    ∧ Issues st grp { sr := (63 : SReg).toNat :: (0 : SReg).toNat :: XOp.reg (.s 1) } := by unfold Issues; decide +kernel

/-- Branches: the nearest and the farthest displacement, a branch of a lane with a known element, an even offset, and an exit
that leaves lane 1 alive. -/
theorem witness_Branches :
    BranchOp.bad (.near 0x2000) = false ∧ BranchOp.bad (.far 0xFFFFFFFC) = false ∧ Issues st grp {}
    ∧ Issues st grp { v := [127], vr := [127] } ∧ Known grp [127] (lanesOf st.iss.lanes)
    ∧ (∀ l ∈ lanesOf st.iss.lanes, (grp.vword 127 l).toNat % 2 = 0) ∧ grp.id.frag = none
    ∧ ((List.range 12).foldl (fun h k => h.setM k (h.mreg k &&& ~~~st.iss.lanes))
        (grp.setLanes st.iss.lanes fun l => { l with st := .exited, hop := .along })).testMasks.live ≠ 0
    ∧ (let s : State := { st with iss := { st.iss with lanes := 3 } }
       Issues s grp {} ∧ grp.id.frag = none ∧ grp.id.tid = some 3 ∧ (tget s.teams 3).isSome = true
       ∧ ((List.range 12).foldl (fun h k => h.setM k (h.mreg k &&& ~~~s.iss.lanes))
           (grp.setLanes s.iss.lanes fun l => { l with st := .exited, hop := .along })).testMasks.live = 0) := by
  unfold Issues Known; decide +kernel

/-- ElectWritesLowestLane at the highest lane and at the lowest. -/
theorem witness_ElectWritesLowestLane :
    Issues st grp {} ∧ bit st.iss.lanes 0 = true
    ∧ (let s : State := { st with iss := { st.iss with lanes := 0x80000000 } }
       Issues s grp {} ∧ bit s.iss.lanes 31 = true ∧ ∀ k, k < 31 → bit s.iss.lanes k = false) := by
  unfold Issues; decide +kernel

/-- SettileSetsTileSize with 32, and with 3. -/
theorem witness_SettileSetsTileSize :
    Issues st grp { sr := XOp.reg (.lit 32) } ∧ (grp.opX (.lit 32)).toNat ∈ [2, 4, 8, 16, 32]
    ∧ Issues st grp { sr := XOp.reg (.imm 3) } ∧ (grp.opX (.imm 3)).toNat ∉ [2, 4, 8, 16, 32] ∧ grp.id.handler = false
    ∧ grp.step ≠ 1 ∧ haltedCtx st grp.id.ctx = false := by unfold Issues; decide +kernel

theorem witness_YieldAndMasks : Issues st grp {} ∧ Issues st grp { sr := [(63 : SReg).toNat] } := by
  unfold Issues; decide +kernel

/-- TrapAndBreakpoint: a kernel with a trap entry at 0x200. -/
theorem witness_TrapAndBreakpoint :
    (let g : Group := { grp with id := { grp.id with trapEntry := some 0x200 } }
     Issues (stateOf g) g {} ∧ g.id.trapEntry = some 0x200 ∧ haltedCtx (stateOf g) g.id.ctx = false ∧ 2 ≤ g.id.nv)
    ∧ Issues st grp {} ∧ grp.id.handler = false ∧ grp.step ≠ 1 ∧ haltedCtx st grp.id.ctx = false := by
  unfold Issues; decide +kernel

/-- WaitsReturnOrPark: four words of type 0 with timeout 0, and a TIME condition still to come with a timeout. -/
theorem witness_WaitsReturnOrPark :
    Issues st grp { sr := (List.range 4).map ((60 : SReg).toNat + ·) ++ XOp.reg (.imm 0) }
    ∧ (List.range 4).map (fun k => readCond st grp (grp.sreg (60 + k))) = [WCond.none, .none, .none, .none].map CondRead.ok
    ∧ ((((List.range 4).map (60 + ·)).map grp.sreg).flatMap condRegs).any grp.sPending = false ∧ grp.opX (.imm 0) = 0
    ∧ joined st grp true [WCond.none, .none, .none, .none] = false ∧ grp.opX (.imm 1) ≠ 0
    ∧ (armAll st (ctxPart st 0) 4 st.fresh [WCond.none, .none, .none, .none]).isOk = true := by
  unfold Issues; decide +kernel

/-- SleepTimeBarriersEvents: an instant that has come and one still to come; a promise object at 0 with its instant in the
next 8 bytes; a team; no capture in flight. -/
theorem witness_SleepTimeBarriersEvents :
    Issues st grp { sr := [62, 63] } ∧ grp.spair 62 ≤ st.time
    ∧ (let g := grp.setS 62 5
       Issues (stateOf g) g { sr := [62, 63] } ∧ (stateOf g).time < g.spair 62)
    ∧ Issues st grp { sr := [2] } ∧ (checkScratch st grp.id.tid 0 8 8).toOption = some 0 ∧ (checkScratch st grp.id.tid 8 8 8).toOption = some 8
    ∧ rdN st.scr 0 8 = 0
    ∧ (let s : State := { st with scr := [(0, 1)] }
       rdN s.scr 0 8 ≠ 0 ∧ rdN s.scr 8 8 = 0 ∧ Issues s grp { sr := [2] } ∧ (checkScratch s grp.id.tid 0 8 8).toOption = some 0)
    ∧ (let s : State := { st with scr := [(0, 1), (8, 9)] }
       rdN s.scr 0 8 ≠ 0 ∧ s.time < rdN s.scr 8 8 ∧ (checkScratch s grp.id.tid 8 8 8).toOption = some 8)
    ∧ Issues st grp {} ∧ grp.id.tid ≠ none ∧ capsBusy st st.iss.g = false := by unfold Issues; decide +kernel

/-- LaunchAndSymbolWait: a descriptor at address 0, a queue that cannot take it, one that can, and a wait on no symbol and on
one delivered. -/
theorem witness_LaunchAndSymbolWait :
    Issues st grp { sr := (2 : SReg).toNat :: ((2 : SReg).toNat + 1) :: XOp.reg (.imm 0) } ∧ (grp.opX (.imm 0)).toNat < 2 ^ 7
    ∧ (checkAccess st grp.core grp.id.ctx (grp.spair 2) 128 .read anyFmt (natural 64)).2.isOk = true
    ∧ capsBusy st st.iss.g = false
    ∧ fenceClear (checkAccess st grp.core grp.id.ctx (grp.spair 2) 128 .read anyFmt (natural 64)).1 4 grp 5 = true
    ∧ (queueOf st 0 0).en = false
    ∧ (let s := putQueue st 0 0 { queueOf st 0 0 with en := true }
       (queueOf s 0 0).entries.length < 32 ∧ (queueOf s 0 0).en = true ∧ (queueOf s 0 0).ctx = grp.id.ctx)
    ∧ Issues st grp { sr := XOp.reg (.imm 1) }
    ∧ (let g : Group := { grp with syms := [(0, { always := true, flt := false, xs := [], pois := 0, delivered := true,
                                                  known := true, stamp := 0, due := none })] }
       Issues (stateOf g) g { sr := XOp.reg (.imm 1) } ∧ ∀ p ∈ g.syms, bit (g.opX (.imm 1)) p.1 = true → p.2.delivered = true) := by
  unfold Issues; decide +kernel

/-- SpecialRegisters: a group at user and at supervisor level; a register that it may read, one that is not listed and one
for the host alone. -/
theorem witness_SpecialRegisters :
    Issues st grp {} ∧ Issues st grp { v := [127] } ∧ Issues st grp { sr := [63] } ∧ grp.id.sup = false
    ∧ Issues st grp { v := [127], sr := [63] }
    ∧ (let g : Group := { grp with id := { grp.id with sup := true } }
       Issues (stateOf g) g { v := [127], sr := [63] } ∧ g.id.sup = true ∧ listedReg 0x20D = true ∧ hostOnly 0x20D = false
       ∧ listedReg 0x3FFF = false ∧ listedReg 0x400 = true ∧ hostOnly 0x400 = true) := by unfold Issues; decide +kernel

/-- The lane instructions of classes 0x08 to 0x13: V and X forms, from v127 down, with and without a prefix. -/
theorem witness_lane_instructions :
    grp.formRegs ≤ 16
    ∧ LaneReady st grp .plain 127 1 ((126 : VReg).toNat :: (Src.v 125).vregs) (Src.v 125).sregs
    ∧ LaneReady st grp .plain 0 1 ((0 : VReg).toNat :: (Src.x (.imm 63)).vregs) (Src.x (.imm 63)).sregs
    ∧ LaneReady st grp .round 127 1 ((126 : VReg).toNat :: (Src.x (.s 63)).vregs) (Src.x (.s 63)).sregs
    ∧ LaneReady st grp .plain 126 2 (126 :: 127 :: (Src.v 3).vregs) (Src.v 3).sregs
    ∧ LaneReady st grp .plain 5 1 [127] [] ∧ LaneReady st grp .plain 5 1 [] [63] ∧ LaneReady st grp .plain 63 1 [63, 31] [] := by
  unfold LaneReady Issues Known; decide +kernel

/-- IntegerArithmetic, BitFieldsAndPairs, SixteenBitForms, FloatingArithmetic and PackedAndBlock: with a
fourth operand and rounding in the prefix, and without. -/
theorem witness_fourth_operand :
    (let p : Pfx := { d := some 127, ftz := false, zero := false, rnd := 0, mask := none }
     LaneReady (withPfx st p) grp .dOnly 1 1 ((2 : VReg).toNat :: (Src.v 3).vregs ++ [(fourth (withPfx st p)).getD 1]) (Src.v 3).sregs)
    ∧ (let p : Pfx := { d := some 127, ftz := true, zero := true, rnd := 2, mask := some 11 }
       LaneReady (withPfx st p) grp .roundD 1 1 ((2 : VReg).toNat :: (Src.v 3).vregs ++ [(fourth (withPfx st p)).getD 1])
         (Src.v 3).sregs
       ∧ LaneReady (withPfx st p) grp .roundD 1 1 (2 :: (fourth (withPfx st p)).getD 1 :: (Src.v 3).vregs) (Src.v 3).sregs)
    ∧ LaneReady st grp .roundD 1 1 ((2 : VReg).toNat :: (Src.v 3).vregs ++ [(fourth st).getD 1]) (Src.v 3).sregs := by
  unfold LaneReady Issues Known; decide +kernel

/-- ComparesAndSelects, FclassSetsOneBit, FloatingUnaryAndSpecial, RoundingAndConversions. -/
theorem witness_ComparesAndSelects :
    Issues st grp { rule := .plain, v := 127 :: (Src.v 126).vregs, vr := 127 :: (Src.v 126).vregs, sr := (Src.v 126).sregs }
    ∧ Known grp (127 :: (Src.v 126).vregs) (lanesOf (execMask st grp))
    ∧ Issues st grp { rule := .plain, v := 0 :: (Src.x (.s 63)).vregs, vr := 0 :: (Src.x (.s 63)).vregs, sr := (Src.x (.s 63)).sregs }
    ∧ LaneReady st grp .plain 127 1 (126 :: (Src.x (.imm 32)).vregs) (Src.x (.imm 32)).sregs
    ∧ LaneReady st grp .round 127 1 [126] [] ∧ LaneReady st grp .plain 127 1 [126] [] ∧ grp.formRegs ≤ 16 := by
  unfold LaneReady Issues Known; decide +kernel

/-- CrossLane and PackedAndBlock: the registers read in every lane. -/
theorem witness_CrossLane :
    Issues st grp { rule := .plain, v := 127 :: 126 :: (Src.v 125).vregs, vr := 126 :: (Src.v 125).vregs, sr := (Src.v 125).sregs }
    ∧ Known grp [126] (crossLanes st grp) ∧ Known grp (Src.v 125).vregs (lanesOf (execMask st grp))
    ∧ Issues st grp { rule := .plain, v := [127, 126], vr := [126] }
    ∧ Issues st grp { rule := .round, v := [127, 126], vr := [126] } ∧ Known grp [126] (List.range 32)
    ∧ LaneReady st grp .plain 127 1 [126] [63] := by
  unfold LaneReady Issues Known; decide +kernel

/-- A group with a form over symbol 0 in lane 0 of v2, in the always mode. -/
def formed : Group :=
  { grp with mode := 2, v := [(vkey 2 0, Elem.form 0 3 4 false true)]
             syms := [(0, { always := true, flt := false, xs := [], pois := 0, delivered := false, known := true, stamp := 0, due := none })] }

/-- FormsAndSymbolicLoads: a form in the executing lane; a symbolic load from scratch and from memory in always mode. -/
theorem witness_FormsAndSymbolicLoads :
    (Issues (stateOf formed) formed { rule := .plain, v := 127 :: 2 :: (Src.v 3).vregs, vr := 2 :: (Src.v 3).vregs, sr := (Src.v 3).sregs }
      ∧ (∀ l ∈ lanesOf (execMask (stateOf formed) formed), formed.elem 2 l = .form 0 3 4 false true)
      ∧ Known formed (Src.v 3).vregs (lanesOf (execMask (stateOf formed) formed)) ∧ formed.formRegs < 16
      ∧ Issues (stateOf formed) formed { rule := .plain, v := [127, 126, 2], vr := [126, 2] } ∧ Known formed [126, 127] [0]
      ∧ Issues (stateOf formed) formed { rule := .dOnly, v := [127, 126, 2, 127], vr := [126, 2, 127] }
      ∧ Issues (stateOf formed) formed { rule := .dOnly, v := [127, 2, 3, 127], vr := [2, 3, 127] } ∧ Known formed [3, 127] [0])
    ∧ (let g : Group := { formed with v := [(vkey 2 0, Elem.form 0 3 4 true true)] }
       Issues (stateOf g) g { rule := .round, v := 127 :: 2 :: (Src.v 3).vregs, vr := 2 :: (Src.v 3).vregs, sr := (Src.v 3).sregs }
       ∧ (∀ l ∈ lanesOf (execMask (stateOf g) g), g.elem 2 l = .form 0 3 4 true true) ∧ Known g [3, 126, 127] [0]
       ∧ Issues (stateOf g) g { rule := .round, v := [127, 126, 2], vr := [126, 2] }
       ∧ Issues (stateOf g) g { rule := .roundD, v := [127, 2, 3, 127], vr := [2, 3, 127] } ∧ g.formRegs < 16)
    ∧ (let g : Group := { formed with v := [(vkey 2 0, Elem.pois 5 0 false)], id := { formed.id with trapEntry := some 0x200 } }
       Issues (stateOf g) g { rule := .plain, v := 127 :: 2 :: (Src.v 3).vregs, vr := 2 :: (Src.v 3).vregs, sr := (Src.v 3).sregs }
       ∧ (∀ r ∈ 2 :: (Src.v 3).vregs, ∀ j ∈ lanesOf (execMask (stateOf g) g), (g.elem r j).isForm = false)
       ∧ (∀ l ∈ lanesOf (execMask (stateOf g) g), g.elem 2 l = .pois 5 0 false) ∧ g.id.trapEntry = some 0x200
       ∧ haltedCtx (stateOf g) g.id.ctx = false ∧ Known g [3] [0] ∧ g.formRegs < 16)
    ∧ (let g : Group := { formed with v := [(vkey 2 0, Elem.pois 5 0 true)] }
       Issues (stateOf g) g { rule := .round, v := 127 :: 2 :: (Src.v 3).vregs, vr := 2 :: (Src.v 3).vregs, sr := (Src.v 3).sregs }
       ∧ ∀ l ∈ lanesOf (execMask (stateOf g) g), g.elem 2 l = .pois 5 0 true)
    ∧ (let g : Group := { grp with mode := 1 }
       let s := stateOf g
       g.mode ≠ 0 ∧ AccTy.form .f32 = some true ∧ Unwatched s g
       ∧ AccessReady s g .plain (regsFrom 127 (AccTy.regs .f32)) [] (MemOp.vregs (.off 2 127)) (MemOp.sregs false (.off 2 127)) 15
       ∧ (∀ l ∈ lanesOf (execMask s g), (checkScratch s g.id.tid (g.memAddr false 4 (.off 2 127) l) 4 4).toOption = some 508)
       ∧ ((zeroOff s g 127 1).newForms 127 true (lanesOf (execMask s g)) (csets 0 [] [(0, 0)]) 0 true s.fresh).isSome = true
       ∧ g.freeSym = some 0) := by
  unfold AccessReady Unwatched Issues Known; decide +kernel

/-- ScratchAccesses and FrameOfScratchAccesses: a load and a store of 16 bytes at the granule's end, and atomics of both
widths. -/
theorem witness_ScratchAccesses :
    Unwatched st grp ∧ AtOnce st grp
    ∧ (let g := grp.setS 2 65520
       AccessReady (stateOf g) g .plain (regsFrom 124 (AccTy.regs .b128)) [] (MemOp.vregs (.off 2 0)) (MemOp.sregs false (.off 2 0)) 0
       ∧ AccessReady (stateOf g) g .noZero [] (regsFrom 124 (AccTy.regs .b128)) (MemOp.vregs (.off 2 0)) (MemOp.sregs false (.off 2 0)) 1
       ∧ ∀ l ∈ lanesOf (execMask (stateOf g) g),
          (checkScratch (stateOf g) g.id.tid (g.memAddr false 16 (.off 2 0) l) 16 16).toOption = some 65520)
    ∧ AccessReady st grp .plain [] (regsFrom 124 (atomRegs .cas true)) (MemOp.vregs (.idx 2 1)) (MemOp.sregs false (.idx 2 1)) 0
    ∧ AccessReady st grp .plain [] (regsFrom 127 (atomRegs .add false)) (MemOp.vregs (.pair 2)) (MemOp.sregs false (.pair 2)) 0
    ∧ (∀ l ∈ lanesOf (execMask st grp), (checkScratch st grp.id.tid (grp.memAddr false 8 (.idx 2 1) l) 8 8).toOption = some 0)
    ∧ grp.mode = 0 := by
  unfold AccessReady Unwatched AtOnce Issues Known; decide +kernel

/-- GlobalLoads and GlobalStoresAndAtomics: accesses whose page is mapped; no reduction waits and no copy is held. -/
theorem witness_global_accesses :
    Unwatched st grp ∧ AtOnce st grp ∧ st.partials = []
    ∧ AccessReady st grp .plain (regsFrom 4 (AccTy.regs .b32)) [] (MemOp.vregs (.off 2 0)) (MemOp.sregs true (.off 2 0)) 0
    ∧ AccessReady st grp .noZero [] (regsFrom 4 (AccTy.regs .b32)) (MemOp.vregs (.off 2 0)) (MemOp.sregs true (.off 2 0)) 1
    ∧ AccessReady st grp .plain [] (regsFrom 4 (atomRegs .cas true)) (MemOp.vregs (.off 2 0)) (MemOp.sregs true (.off 2 0)) 0
    ∧ AccessReady st grp .noZero [] (regsFrom 4 (wideRegs false)) (MemOp.vregs (.off 2 0)) (MemOp.sregs true (.off 2 0)) 1
    ∧ (let addr := grp.memAddr true 4 (.off 2 0)
       let ex := lanesOf (execMask st grp)
       let r := checkLanes (fun u l => checkLoad st.tlb u grp.core grp.id.ctx (addr l) .b32) addr st ex
       let w := checkLanes (fun u l => checkAccessIn st.tlb u grp.core grp.id.ctx (addr l) 4 .write (storeForbids .b32) (natural 4)) addr st ex
       let a := checkLanes (fun u l => checkAtomic st.tlb u grp false (addr l)) addr st ex
       r.2.1 = [] ∧ r.2.2.length = 1 ∧ (∀ p ∈ r.2.2, peerSilent r.1 p.2.pte = false)
       ∧ (∀ sec, tget st.l1 (l1Key grp.core sec) = none) ∧ (∀ p ∈ r.2.2, decodes .b32 (pteFmt p.2.pte) = false)
       ∧ w.2.1 = [] ∧ (∀ p ∈ w.2.2, peerSilent w.1 p.2.pte = false) ∧ w.2.2.length = 1
       ∧ a.2.1 = [] ∧ (∀ p ∈ a.2.2, peerSilent a.1 p.2.pte = false) ∧ a.2.2.length = 1) := by
  unfold AccessReady Unwatched AtOnce Issues Known
  refine ⟨by decide +kernel, by decide +kernel, by decide +kernel, by decide +kernel, by decide +kernel, by decide +kernel,
    by decide +kernel, ?_⟩
  refine ⟨by decide +kernel, by decide +kernel, by decide +kernel, fun _ => rfl, ?_⟩
  decide +kernel

/-- AccessesInParts: a store of 16 bytes of which an issue makes the first of two points, the next issue that makes the last, and
one of three points left that makes one; an atomic in the midst of its requests. -/
theorem witness_AccessesInParts :
    let left (ps : List Point) (lane0 : Group) : Group :=
      { lane0 with phase := 20, phaseVals := [0] ++ ps.flatMap Point.nums, phaseAt := 4, phaseLanes := 1 }
    let p (k : Nat) : Point := { lane := 0, key := k, pte := 0, n := 8, off := 0, got := 0 }
    let s : State := { st with iss := { st.iss with cut := 1 } }
    let t (g : Group) : State := { stateOf g with iss := { st.iss with cut := 1 } }
    let g1 := left [p 8] grp
    let g3 := left [p 8, p 16, p 24] grp
    Unwatched s grp ∧ s.iss.cut = 1
    ∧ AccessReady s grp .noZero [] (regsFrom 4 (AccTy.regs .b128)) (MemOp.vregs (.off 2 0)) (MemOp.sregs false (.off 2 0)) 1
    ∧ (checkScratch s grp.id.tid (grp.memAddr false 16 (.off 2 0) 0) 16 16).toOption = some 0 ∧ grp.midst = false
    ∧ (scratchPoints 16 [(0, 0)]).length = 2
    ∧ Unwatched (t g1) g1 ∧ g1.midst = true ∧ g1.parts.2.length ≤ 1 ∧ (g1.parts.2.map (·.key)).eraseDups.length ≤ 1
    ∧ AccessReady (t g1) g1 .noZero [] (regsFrom 4 (AccTy.regs .b128)) (MemOp.vregs (.off 2 0)) (MemOp.sregs false (.off 2 0)) 1
    ∧ AccessReady (t g1) g1 .plain [] (regsFrom 4 (atomRegs .add true)) (MemOp.vregs (.off 2 0)) (MemOp.sregs false (.off 2 0)) 0
    ∧ partsHeld (t g1) false g1.parts.2 = false ∧ partsHeld (t g1) true g1.parts.2 = false ∧ partsHeld (t g3) true g3.parts.2 = false
    ∧ AccessReady (t g3) g3 .plain [] (regsFrom 4 (atomRegs .add true)) (MemOp.vregs (.off 2 0)) (MemOp.sregs true (.off 2 0)) 0
    ∧ (requestsOf true g1.parts.2).length ≤ 1 ∧ 1 < (requestsOf true g3.parts.2).length
    ∧ ((requestsOf true [p 8, p 16, p 8]).map List.length) = [2, 1]
    ∧ Unwatched (t g3) g3 ∧ g3.midst = true ∧ 1 < g3.parts.2.length
    ∧ AccessReady (t g3) g3 .noZero [] (regsFrom 4 (AccTy.regs .b128)) (MemOp.vregs (.off 2 0)) (MemOp.sregs false (.off 2 0)) 1 := by
  unfold AccessReady Unwatched Issues Known; decide +kernel

/-- A surface of one tile of R32F, raw, in slot 0 of a table at page 1, its home at page 2. -/
def surfEntry : Nat := 4 + 2 ^ 12 + 7 * 2 ^ 64 + 7 * 2 ^ 80 + 0x20000 * 2 ^ 192

/-- The state of the tests with a group and with that surface entered. -/
def surfState (g : Group) : State :=
  let s := stateOf g
  let s := { s with mem := wrN s.mem 0x10000 64 surfEntry
                    tlb := { owner := 0, ctx := 0, page := 0x10000, big := false, pte := 0x101C5 }
                      :: { owner := 0, ctx := 0, page := 0x20000, big := false, pte := 0x201C5 } :: s.tlb }
  regSet s (kCtx 0 0x102) 0x10001

theorem witness_surface_of_the_tests :
    surfBase (surfState grp) 0 = some 0x10000 ∧ (surfAt (surfState grp) 0 0).isSome = true
    ∧ surfAt (surfState grp) 0 1 = none := by decide +kernel

/-- SurfaceAccesses: the first sample of the surface, whose tile is resident. -/
theorem witness_SurfaceAccesses :
    let s := surfState grp
    let r := checkLanes (fun s l => (s, checkSample s 0 0 (grp.vword 5 l).toNat 4)) (fun l => sampleAddr 0 (grp.vword 5 l).toNat) s
      (lanesOf (execMask s grp))
    r.2.1 = [] ∧ r.2.2.length = 1 ∧ (readyLanes s 0 r.2.2).2 = (false, [])
    ∧ AccessReady s grp .plain (regsFrom 4 (AccTy.regs .f32)) [] [5] [2] 0
    ∧ AccessReady s grp .noZero [] (regsFrom 4 (AccTy.regs .f32)) [5] [2] 1 ∧ grp.mode = 0 := by
  unfold AccessReady Issues Known; decide +kernel

/-- OrderingAndCaches: no capture in flight, a `tdisc` of id 1, an address for a prefetch. -/
theorem witness_OrderingAndCaches :
    Issues st grp {} ∧ Issues (stateOf (grp.setS 2 1)) (grp.setS 2 1) { sr := [2] } ∧ ((grp.setS 2 1).sreg 2).toNat % 2 ^ 10 ≠ 0
    ∧ capsBusy st 4 = false ∧ st.partials = [] ∧ (2 < 4 → grp.core ∈ scopeCores st grp.core (clusterOf st grp) 2)
    ∧ cmdsBusy st 4 = false ∧ opsBusy grp = false ∧ cmdsBusy { st with cmds := [(9, newCmd st grp 4 4 .copy [] [] 0)] } 4 = true
    ∧ st.late = []
    ∧ Issues st grp { v := MemOp.vregs (.idx 2 5), vr := MemOp.vregs (.idx 2 5), sr := MemOp.sregs true (.idx 2 5) }
    ∧ Known grp (MemOp.vregs (.idx 2 5)) (lanesOf st.iss.lanes) := by
  unfold Issues Known; decide +kernel

/-- SurfaceManagement: a block that is refused, one whose home is not mapped; of a definition under way, on a slot that is
defined, beside another of the slot, one whose first column is reserved, whose column has no room, and whose columns all are; a
slot not defined and a defined one. -/
theorem witness_SurfaceManagement :
    let block : Nat := 4 + 7 * 2 ^ 32 + 7 * 2 ^ 48 + 0x20000 * 2 ^ 64
    let s := surfState grp
    let u := surfOfBlock block
    Issues s grp { sr := [2, 3] } ∧ grp.phase = 0 ∧ capsBusy s 4 = false ∧ flagFull grp s.iss.flagA = false
    ∧ (checkScratch s grp.id.tid (grp.sreg 2).toNat 32 32).toOption = some 0
    ∧ blockBad 0 = true ∧ blockBad block = false ∧ homeMapped s grp u = true
    ∧ homeMapped s grp (surfOfBlock (block + 0x10000 * 2 ^ 64)) = false
    ∧ surfAt s 0 0 ≠ none ∧ surfAt s 0 1 = none ∧ (s.group 4).isSome = true
    ∧ (let job : DefJob := { g := 4, core := 0, ctx := 0, tid := some 3, slot := 1, block := block, begun := false }
       let d (s : State) : State := { s with turns := [.define 9], defs := [(9, job)] }
       let o : Op := { flag := none, vw := [], sw := [(2, 0)], hw := none, ext := true }
       let g := { grp with ops := [(9, o)] }
       (d s).turns = .define 9 :: [] ∧ tget (d s).defs 9 = some job ∧ defining (d s) 9 job = false
       ∧ defining { d s with defs := [(8, { job with begun := true }), (9, job)] } 9 job = true
       ∧ (surfState g).group job.g = some g ∧ tget g.ops 9 = some o)
    ∧ ((surfCores s 0 1 u).find? fun k => (resvOf s k 0 1).isNone) = some 13
    ∧ (match reserve s 0 13 0 1 (resvBytes u (tilesIn s 13 0 1 u).length) with
      | .done _ => true
      | _ => false) = true
    ∧ (match reserve s 0 13 0 1 (2 ^ 40) with
      | .full _ => true
      | _ => false) = true
    ∧ (let s : State := { s with resvs := [{ core := 13, ctx := 0, slot := 1, bytes := 256, touched := 0, failed := false }] }
       surfCores s 0 1 u ≠ [] ∧ ∀ k ∈ surfCores s 0 1 u, resvOf s k 0 1 ≠ none)
    ∧ Issues s grp { sr := [3] } ∧ s.spills = [] ∧ atWorkOn s (some 4) 0 0 (fun p => decide (50 ≤ p)) = false
    ∧ slotHeld s none 0 0 = false
    ∧ (match surfAt s 0 0 with
      | some f => !f.comp && (match ready s 0 0 f 0 with
          | .ok _ _ => true
          | _ => false)
        && (eachTile (clearRaw grp 0 f) (List.range f.tiles) (stampSurface (touchAll s 0 0) 0 0 0)).2.isNone
        && (eachTile (homeRaw grp 0 f) (List.range f.tiles) ((List.range f.tiles).foldl (rawTile grp 0 f) (touchAll s 0 0))).2.isNone
      | none => false) = true
    ∧ (let s : State := { s with mem := wrN s.mem 0x10000 64 (surfEntry + 2 ^ 11) }
       (surfAt s 0 0).map Surf.comp = some true) := by
  unfold Issues; decide +kernel

/-- The state of the tests with context 0's Annulus window on slots 0 to 1. -/
def ringState (g : Group) : State := regSet (stateOf g) (0x300) 0x80020000

/-- AnnulusInstructions: a window of two slots, an aligned address of each width, a line of memory to board. -/
theorem witness_AnnulusInstructions :
    let s := ringState grp
    stationFull s grp.core = false ∧ (∀ l ∈ lanesOf (execMask s grp), (checkRing s 0 (grp.memAddr false 8 (.off 2 15) l) 8).toOption = some 1)
    ∧ AccessReady s grp .no (regsFrom 4 (wideRegs true)) [] (MemOp.vregs (.off 2 15)) (MemOp.sregs false (.off 2 15)) 0
    ∧ AccessReady s grp .no [4] [] (MemOp.vregs (.off 2 15)) (MemOp.sregs false (.off 2 15)) 15
    ∧ AccessReady s grp .no [] (regsFrom 4 (atomRegs .cas true)) (MemOp.vregs (.off 2 15)) (MemOp.sregs false (.off 2 15)) 0
    ∧ capsBusy s 4 = false ∧ flagFull grp s.iss.flagB = false ∧ Unwatched s grp
    ∧ (checkRing s 0 0 64).toOption = some 0 ∧ (checkBoard s grp.core 0 (grp.spair 4)).2.isOk = true
    ∧ Issues s grp { sr := [2, 4, 5] } ∧ Issues s grp { sr := [2] } ∧ Issues s grp { sr := [2, 6] }
    ∧ (checkRing s 0 0 4).toOption = some 0 ∧ (dropWatch s 4 grp 3).2 = grp
    ∧ (grp.newForms 4 false (lanesOf (execMask s grp)) [] 0 false s.fresh).isSome = true := by
  unfold AccessReady Unwatched Issues Known; decide +kernel

/-- A capture of lane 0 of the group of the tests on slot 0. -/
def capOf (kind : Nat) : Capture :=
  { g := 4, ctx := 0, slot := 0, kind := kind, op := .add, wide := false, lanes := [(0, 4, 7, 0)], dst := 2, oid := 6, line := 0
    entry := some 0, cancelled := false, failed := false, stamp := 0, pc := 4, team := some 3, launch := 1, teamNo := 0, grp := 0, handle := 0 }

/-- The group of the tests with a watch on ring address 4 that any word meets. -/
def watching : Group :=
  { grp with watches := [(0, { addr := 4, cond := .ge, cmp := 0, dst := 2, op := 6, fired := false })]
             s := [(2, SVal.pend 6 0)] }

/-- The state of the tests at clock 1152 with one capture in station 0. -/
def capState (kind oid : Nat) : State :=
  { ringState watching with caps := [(0, { capOf kind with oid := oid })], mclk := 1152 }

/-- A state with bank 0 of core 0 in the copy of a retirement. -/
def retiring (s : State) : State := { s with retire := some { retireJob s 0 4 with copying := true } }

/-- AnnulusPassages: a load, an operation and a watch due at slot 0's passage of station 0, with the bank of the group free and
held, and a capture that waits for an entry. -/
theorem witness_AnnulusPassages :
    dueNow (capState 2 6) 0 0 = some (0, capOf 2) ∧ dueNow (capState 3 6) 0 0 = some (0, capOf 3)
    ∧ dueNow (capState 4 0) 0 0 = some (0, { capOf 4 with oid := 0 })
    ∧ ((capState 4 0).group 4).map (fun g => (tget g.watches 0).isSome) = some true
    ∧ cget (.val 0) watching.s 2 = .pend 6 0 ∧ resultHeld (capState 4 0) 4 = false
    ∧ resultHeld (retiring (capState 2 6)) 4 = true
    ∧ (stationCaps { st with caps := [(0, { capOf 2 with entry := none })] } 0).find? (fun c => c.2.entry.isNone)
      = some (0, { capOf 2 with entry := none })
    ∧ (({ grp with v := [(vkey 2 0, Elem.pend 6 0)] } : Group).elem 2 0).awaits 6 = true := by decide +kernel

/-! Commands. -/

/-- What a check of a command answers. -/
def fateIs (f : CmdFate) (ws : List Word) : Bool :=
  match f with
  | .ok e => e == ws
  | _ => false

/-- A unit of a command's work is done. -/
def unitDone (r : Unit1) : Bool :=
  match r with
  | .done _ _ => true
  | _ => false

/-- A COPY of four bytes within scratch, from offset 0 to offset 16. -/
def copyWords : List Word := [0x501, 4, 1, 0, 0, 0, 16, 0, 0, 0xFFFFFFFF, 0, 0, 0, 0, 0, 0]
/-- A TENSOR of one byte, its shape record at offset 64. -/
def tensorWords : List Word := [0x511, 0, 0, 0, 0, 0, 16, 0, 64, 0xFFFFFFFF, 0, 0, 0, 0, 0, 0]
def shapeWords : List Word := List.replicate 10 1 ++ [0, 0, 0, 0, 0, 0x4688]
/-- A GATHER of one row of one byte, its index list at offset 128. -/
def gatherWords : List Word := [0x518, 1, 1, 1, 0, 0, 16, 0, 128, 0xFFFFFFFF, 0, 0, 0, 0, 0, 0]
/-- A COLL of rank 0 of 2. -/
def collWords : List Word := [0x121, 0, 2, 0, 0, 0, 0, 0, 1, 0xFFFFFFFF, 0, 0, 0, 0, 0, 0]
def rastWords : List Word := 0x30 :: List.replicate 15 0
/-- A MSG of two payload words to team 0 of the own launch. -/
def msgWords : List Word := [0x240, 0, 0, 5, 0, 0] ++ List.replicate 10 0

/-- The state of the tests with a shape record at scratch offset 64. -/
def shaped : State := { st with scr := shapeWords.foldl (fun p w => (p.1 + 4, wrN p.2 p.1 4 w.toNat)) (64, []) |>.2 }

/-- EngineCommands: for each queue a command that passes its checks, a reserved and an illegal one, an empty and a full queue;
the ends of a list's length. -/
theorem witness_EngineCommands :
    capsBusy shaped 4 = false ∧ flagFull grp shaped.iss.flagB = false
    ∧ Issues shaped grp { v := (List.range 16).map (112 + ·), vr := (List.range 16).map (112 + ·) }
    ∧ Known grp ((List.range 16).map (112 + ·)) [0] ∧ Issues shaped grp { sr := (List.range 16).map (48 + ·) }
    ∧ fateIs (cmdFate shaped (some 3) 0 1 .copy copyWords) [] = true ∧ fateIs (cmdFate shaped (some 3) 0 1 .tensor tensorWords) shapeWords = true
    ∧ fateIs (cmdFate shaped (some 3) 0 1 .gather gatherWords) [] = true ∧ fateIs (cmdFate shaped (some 3) 0 1 .coll collWords) [] = true
    ∧ fateIs (cmdFate shaped (some 3) 0 1 .rast rastWords) [] = true ∧ fateIs (cmdFate shaped (some 3) 0 1 .msg msgWords) [] = true
    ∧ cmdFate shaped (some 3) 0 1 .copy (0x1000501 :: copyWords.tail) = .reserved
    ∧ cmdFate shaped (some 3) 0 1 .copy (0x502 :: copyWords.tail) = .illegal
    ∧ queueFull shaped 0 .copy = false
    ∧ queueFull { st with cmds := (List.range 16).map fun k => (k, newCmd st grp 4 4 .copy copyWords [] 0) } 0 .copy = true
    ∧ Issues shaped grp { sr := [2, 3, 4, 5] } ∧ Issues shaped grp { sr := [2, 3] }
    ∧ (checkScratch shaped (some 3) 0 (64 * 256) 64).toOption = some 0 ∧ (unreadList shaped 0).isSome = false
    ∧ (unreadList { st with cmds := [(9, newCmd st grp 4 4 .list [] [] 0)] } 0).isSome = true
    ∧ flagFull grp (cflagOf .copy copyWords) = false := by
  unfold Issues Known; decide +kernel

/-- The group of the tests with the scalars of a transfer from s8: 4 bytes to 0x100 from 0x200, operand 64, flag at 0x300. -/
def xferGrp : Group := (((grp.setS 8 0x100).setS 10 0x200).setS 12 4).setS 13 64 |>.setS 14 0x300

/-- TransfersAndMessages, the issue of `put.sig` and `getp`. -/
theorem witness_transfers :
    let s := stateOf xferGrp
    let x := xferOf xferGrp 8
    let r1 := checkRange s 0 0 x.src x.count 4 0 .read anyFmt
    let r2 := checkRange r1.1 0 0 x.dst x.count 4 1 .write anyFmt
    let r3 := checkRange r2.1 0 0 x.flag 8 8 1 .write anyFmt
    x.count = 4 ∧ r1.2.length = 0 ∧ r2.2.length = 0 ∧ r3.2.length = 0 ∧ (checkRange r2.1 0 0 x.flag 8 8 2 .atomic plainOnly).2.length = 0
    ∧ (aliasFails r3.1 0 0 x.src x.count).length = 0 ∧ (checkScratch r2.1 (some 3) x.arg.toNat 8 8).toOption = some 64
    ∧ (queued r3.1 0 .putSig).length + (queued r3.1 0 .getp).length = 0
    ∧ Issues s xferGrp { sr := (List.range 8).map (8 + ·) } ∧ Issues s xferGrp { sr := (List.range 6).map (8 + ·) } := by
  unfold Issues; decide +kernel

/-- A transfer of two words under way. -/
def moving (k : CmdKind) (pos : Nat) : Cmd :=
  { newCmd st grp 4 4 k (if k = .putSig then [0x100, 0, 0, 7, 0x300, 0, 8] else [0x100, 0, 0x200, 0, 64, 0, 8]) [1, 2] 0 with
    flag := none, pos := pos }

/-- TransfersAndMessages, the deliveries. -/
theorem witness_deliveries :
    xferRuns st (moving .putSig 0) = true ∧ (moving .putSig 0).pos < (moving .putSig 0).total ∧ (moving .putSig 2).total ≤ (moving .putSig 2).pos
    ∧ nthW (moving .putSig 2).words 2 ≠ 1
    ∧ (match (checkAccess st 0 0 0x100 4 .write anyFmt (fun _ => 1)).2 with
      | .ok l => peerSilent st l.pte
      | .error _ => true) = false
    ∧ (checkAccess st 0 0 ((moving .putSig 2).pair 4) 8 .write anyFmt (fun _ => 1)).2.isOk = true
    ∧ (moving .getp 0).pos + 1 < (moving .getp 0).total ∧ (moving .getp 1).pos + 1 = (moving .getp 1).total
    ∧ aboardCore st (moving .getp 1).tid = true ∧ st.vlreqs = [] ∧ cmdHeld st (moving .getp 0) = false
    ∧ (checkAccess st 0 0 ((moving .getp 0).pair 2) 4 .read anyFmt (fun _ => 1)).2.isOk = true := by decide +kernel

/-- A message of team 0 to itself with tag 5, and a receive that takes any message. -/
def note : Msg := { ctx := 0, launch := 1, team := 0, srcTeam := 0, srcLaunch := 1, tag := 5, payload := [1, 2], held := none,
                    refused := false, sender := 0, unit := 0, entered := 0 }
def anyRecv : Recv := { src := 0xFFFFFFFF, tag := 0xFFFFFFFF, landing := 0, stamp := 1 }

/-- The state of the tests with changed posts of team 3. -/
def posting (ps : Tab Recv) : State := { st with teams := st.teams.map fun p => (p.1, { p.2 with posts := ps }) }

/-- TransfersAndMessages, the messages: all handles taken, handle 0 free with and without a message waiting, a message that
arrives with and without a receive for it. -/
theorem witness_messages :
    Issues st grp { sr := (List.range 4).map (60 + ·) } ∧ grp.sreg 63 = 0
    ∧ (checkScratch st (some 3) (grp.sreg 62).toNat 64 64).toOption = some 0
    ∧ ((tget (posting ((List.range 64).map fun k => (k, anyRecv))).teams 3).map fun t => (List.range 64).all fun h => (tget t.posts h).isSome) = some true
    ∧ ((tget st.teams 3).map fun t => (tget t.posts 0).isNone) = some true
    ∧ ((tget st.teams 3).map fun t => (oldestHeld st 0 t anyRecv.takes).isNone) = some true
    ∧ (let s : State := { st with msgs := [(9, { note with held := some 0 })] }
       ((tget s.teams 3).map fun t => (oldestHeld s 0 t anyRecv.takes).map (·.1)) = some (some 9) ∧ anyRecv.takes note = true)
    ∧ Issues st grp { sr := [62, 63] }
    ∧ (let s : State := { posting [(7, anyRecv)] with msgs := [(9, note)] }
       haltedCtx s 0 = false ∧ msgBehind s 9 note = false ∧ (msgTeam s note).map (·.1) = some 3 ∧ busHeld s 0 0 = false ∧ inMask s 0 = true
       ∧ ((msgTeam s note).bind fun p => (firstPost p.2 note).map (·.1)) = some 7)
    ∧ ((msgTeam { st with msgs := [(9, note)] } note).bind fun p => firstPost p.2 note) = none := by
  unfold Issues; decide +kernel

/-- EngineWork: a COPY queued and one taken by unit 15, a TENSOR, a GATHER, a COLL, a finished COPY and a list. -/
theorem witness_EngineWork :
    (let x := newCmd st grp 4 4 .copy copyWords [] 0
     let s : State := { st with cmds := [(9, x)] }
     nextHandoff s 0 .copy = some (9, x) ∧ x.stage = .queued ∧ mayBegin s x = true ∧ engineBusy s (quadOf 0) 15 = false)
    ∧ (let x : Cmd := { newCmd st grp 4 4 .copy copyWords [] 0 with stage := .taken 15 }
       let s : State := { st with cmds := [(9, x)] }
       cmdHeld s x = false ∧ mayGoOn s x x.midSector = true ∧ unitDone (copyUnit s x) = true ∧ (nthW x.words 0).toNat = 0x501
       ∧ scrAccess s x.tid 0 1 = some 0 ∧ scrAccess s x.tid 16 1 = some 16 ∧ busHeld s 0 0 = false)
    ∧ (let x : Cmd := { newCmd st grp 4 4 .tensor tensorWords shapeWords 0 with stage := .taken 0 }
       let s : State := { shaped with cmds := [(9, x)] }
       mayGoOn s x x.midSector = true ∧ unitDone (tensorUnit s x) = true)
    ∧ (let x : Cmd := { newCmd st grp 4 4 .gather gatherWords [] 0 with stage := .taken 0 }
       let s : State := { st with cmds := [(9, x)] }
       mayGoOn s x x.midSector = true ∧ unitDone (gatherUnit s x) = true)
    ∧ (let x : Cmd := { newCmd st grp 4 4 .coll collWords [] 0 with stage := .taken 0 }
       let s : State := { st with cmds := [(9, x)] }
       cmdHeld s x = false ∧ x.begun = false ∧ mayGoOn s x (x.midSector || decide (2 ≤ x.acc)) = true ∧ joinBad s x = false)
    ∧ (let x : Cmd := { newCmd st grp 4 4 .copy copyWords [] 0 with stage := .finished }
       engineKind x.kind = true ∧ cmdHeld { st with cmds := [(9, x)] } x = false
       ∧ aboardCore { st with cmds := [(9, x)] } x.tid = true)
    ∧ (let x : Cmd := { newCmd st grp 4 4 .list [] [] 0 with acc := 1 }
       let s : State := { st with cmds := [(9, x)] }
       unreadList s 0 = some (9, x) ∧ x.stage = .queued ∧ mayBegin s x = true ∧ busHeld s 0 0 = false ∧ listGoes s x = true
       ∧ inMask s 0 = true ∧ (({ s with groups := [(4, { grp with step := 1 })] } : State).group x.g).map Group.step = some 1)
    ∧ (let x : Cmd := { newCmd st grp 4 4 .list copyWords [] 0 with begun := true, acc := 1 }
       let s : State := { st with cmds := [(9, x)] }
       unreadList s 0 = none ∧ listOf s 0 = some (9, x) ∧ listGoes s x = true
       ∧ queueOfOp ((nthW ((List.range 16).map fun i => nthW x.words i) 0).toNat % 2 ^ 8) = some .copy
       ∧ fateIs (cmdFate s x.tid x.ctx x.launch .copy ((List.range 16).map fun i => nthW x.words i)) [] = true
       ∧ queueFull s 0 .copy = false ∧ (∀ p ∈ s.group x.g, flagFull p (cflagOf .copy copyWords) = false)) := by decide +kernel

/-- An `mb.ld` of one row of one unit of FP16 from scratch offset 64; an `mmx` of one step over registers of FP16. -/
def mbWords : List Word := [1, 0, 0, 64, 0, 0, 0, 15, 0xFFFFFFFF] ++ List.replicate 7 0
def mmxWords : List Word := [0, 0, 0, 0, 0, 0, 0, 0, 0, 15, 0xFFFFFFFF, 0, 0, 0, 0, 0]

/-- MatrixCommands: each command at its issue, in the queue and at its work. -/
theorem witness_MatrixCommands :
    grp.id.tid = some 3 ∧ tget st.bowner 0 = none ∧ matrixFull st 0 = false ∧ capsBusy st 4 = false
    ∧ Issues st grp { sr := [2] } ∧ Issues st grp { sr := [2, 3] } ∧ Issues st grp { sr := (List.range 16).map (48 + ·) }
    ∧ flagFull grp st.iss.flagB = false ∧ (checkScratch st (some 3) 0 64 64).toOption = some 0
    ∧ fateIs (mbLdFate st (some 3) 0 mbWords) [] = true ∧ flagFull grp 15 = false
    ∧ (let x : Cmd := { newCmd st grp 4 4 .mbLd mbWords [] 0 with stage := .taken 0, begun := true }
       let s : State := { st with cmds := [(9, x)] }
       (matrixQueue s 0).filter (fun p => p.2.stage != .finished) = [(9, x)] ∧ mayGoOn s x false = true
       ∧ mayBegin s { x with begun := false } = true ∧ busHeld s 0 1 = false ∧ unitDone (mbStep s x) = true)
    ∧ (let x := newCmd st grp 4 4 .mbZero [32767, 1, 0] [] 0
       (matrixQueue { st with cmds := [(9, x)] } 0).find? (fun p => p.2.stage == .queued) = some (9, x))
    ∧ (let x : Cmd := { newCmd st grp 4 4 .mbZero [32767, 1, 0] [] 0 with stage := .finished }
       (matrixQueue { st with cmds := [(9, x)] } 0).find? (fun p => p.2.stage == .finished) = some (9, x)
       ∧ cmdHeld { st with cmds := [(9, x)] } x = false) := by
  unfold Issues; decide +kernel

/-- MatrixCommands, an `mmx` and an `mmx.lut` of one step from scratch to scratch, at the issue and at the work, and a register
source block. -/
theorem witness_matrix_products :
    let dense : List Word := [0x400000, 0, 0, 0, 64, 0, 256, 64, 0, 15, 0xFFFFFFFF] ++ List.replicate 5 0
    let table : List Word := [0x400000 + 0x6000 + 1, 0, 0, 0, 64, 0, 256, 64, 0, 15, 0xFFFFFFFF] ++ List.replicate 5 0
    let job (k : CmdKind) (ws : List Word) : Cmd := { newCmd st grp 4 4 k ws [] 0 with stage := .taken 0, begun := true }
    fateIs (mmxFate st (some 3) 0 128 false dense (regRows grp dense)) [] = true
    ∧ fateIs (mmxFate st (some 3) 0 128 true table (regRows grp table)) [] = true
    ∧ mmxRegs mmxWords = (List.range 16).map (0 + ·) ∧ Known grp (mmxRegs mmxWords) [0]
    ∧ (∀ r ∈ mmxRegs mmxWords, ∀ l ∈ List.range 32, (grp.elem r l).isPend = false)
    ∧ fateIs (mmxFate st (some 3) 0 128 false mmxWords (regRows grp mmxWords)) (regRows grp mmxWords) = true
    ∧ unitDone (mmxStep { st with cmds := [(9, job .mmx dense)] } (job .mmx dense)) = true
    ∧ unitDone (mmxStep { st with cmds := [(9, job .lut table)] } (job .lut table)) = true
    ∧ mmxTotal (job .mmx dense) = 1 := by
  unfold Known; decide +kernel

/-- HypervectorRegisters: the highest register of each kind, a row of eight v registers, one entry of an associative
memory in scratch. -/
theorem witness_HypervectorRegisters :
    Issues st grp { h := [15, 14, 13], hr := [14, 13] } ∧ Issues st grp { h := [15, 14], hr := [14], sr := XOp.reg (.s 63) }
    ∧ Issues st grp { sr := [63] } ∧ Issues st grp { c := [1] } ∧ Issues st grp { c := [1], h := [15], hr := [15] }
    ∧ Issues st grp { h := [15], c := [1] } ∧ grp.tieSrc = true
    ∧ (let g := { grp with tieSrc := false, tieReg := 15 }
       Issues (stateOf g) g { h := [15], c := [1] } ∧ g.tieSrc = false ∧ g.tieReg < g.id.nhr ∧ g.hPending g.tieReg = false
       ∧ (let g := { g with id := { g.id with nhr := 8 } }
          Issues (stateOf g) g { h := [7], c := [1] } ∧ g.id.nhr ≤ g.tieReg))
    ∧ flagFull grp st.iss.flagA = false ∧ Issues st grp { h := [15], hr := [15] } ∧ Issues st grp { h := [15, 14], hr := [15, 14] }
    ∧ Issues st grp { h := [15], v := (List.range 8).map (120 + ·), vr := (List.range 8).map (120 + ·) }
    ∧ Known grp ((List.range 8).map (120 + ·)) (List.range 32)
    ∧ Issues st grp { v := (List.range 8).map (120 + ·), h := [15], hr := [15] }
    ∧ (let g := grp.setS 9 1
       Issues (stateOf g) g { h := [15], hr := [15], sr := [8, 9] } ∧ capsBusy (stateOf g) 4 = false
       ∧ (g.sreg 8).toNat = 0 ∧ (g.sreg 9).toNat = 1
       ∧ (checkScratch (stateOf g) g.id.tid 0 1024 1024).toOption = some 0 ∧ scrAccess (stateOf g) g.id.tid 0 1024 = some 0) := by
  unfold Issues Known; decide +kernel

/-- HypervectorMemory: a kibibyte at offset 0 of scratch and at virtual address 0. -/
theorem witness_HypervectorMemory :
    let ok := fun e : Except Fail (List Nat) => match e with
      | .ok ks => decide (ks = (List.range 16).map (64 * ·))
      | .error _ => false
    capsBusy st 4 = false ∧ Unwatched st grp ∧ ok (kibScratch st grp 0) = true
    ∧ Issues st grp { h := [15], sr := [62] } ∧ Issues st grp { h := [15], hr := [15], sr := [62] }
    ∧ Issues st grp { h := [15], sr := [62, 63] } ∧ Issues st grp { h := [15], hr := [15], sr := [62, 63] }
    ∧ flagFull grp st.iss.flagA = false ∧ flagFull grp st.iss.flagB = false
    ∧ (kibGlobal st grp .read 0).2.1 = [] ∧ (∀ p ∈ (kibGlobal st grp .read 0).2.2, peerSilent (kibGlobal st grp .read 0).1 p.2.pte = false)
    ∧ (kibGlobal st grp .write 0).2.1 = []
    ∧ (∀ p ∈ (kibGlobal st grp .write 0).2.2, peerSilent (kibGlobal st grp .write 0).1 p.2.pte = false)
    ∧ (kibGlobal st grp .read 0).2.2.length = 16
    ∧ (checkScratch st grp.id.tid (63 * 1024) 1024 64).toOption = some 64512 := by
  unfold Unwatched Issues; decide +kernel

/-- The group of the tests at supervisor level, and beside it group 6 of context 1, valid in the same partition and
halted with its stop area written, at place 1 of the same wedge; v2 of its lane 0 holds a form. -/
def supGrp : Group := { grp with id := { grp.id with sup := true } }
def haltGrp : Group := { formed with id := { formed.id with ctx := 1, tid := none }, slot := 1, core := 0, bank := 0, wedge := 0 }
def raised : Halt := { time := 0, src := 0, base := 0x52, recs := [], arrived := [], stopped := [], written := true, noHandler := false, placed := 0 }
def supState (g : Group) (halts : Bool) : State :=
  let s := regSet (stateOf g) (kCtx 1 0x55) 0x80000000
  putGroup (putCtx s 1 { ctxOf s 1 with halt := if halts then some raised else none }) 6 haltGrp

/-- PrivilegedAccess: no group at place 2; one of another partition; one that runs; and one of a halted context, with an
element of each kind, a running lane and a lane that has exited. -/
theorem witness_PrivilegedAccess :
    let g := (supGrp.setS 4 (word (2 ^ 14 * 1))).setS 5 0
    let s := supState g true
    Issues s g { sr := [6, 4, 5], priv := true } ∧ haltedCtx s g.id.ctx = false ∧ groupAt s 0 0 0 2 = none
    ∧ groupAt s 0 0 0 1 = some 6 ∧ s.group 6 = some haltGrp ∧ ctxPart s 1 = ctxPart s 0 ∧ haltedCtx s 1 = true
    ∧ haltedCtx (supState g false) 1 = false
    ∧ ctxPart (regSet s (kCtx 1 0x55) 0x90000000) 1 ≠ ctxPart (regSet s (kCtx 1 0x55) 0x90000000) 0
    ∧ (∃ r, r < haltGrp.id.nv ∧ (haltGrp.elem r 0).isForm = true) ∧ haltGrp.elem 127 31 = .val 0
    ∧ haltGrp.id.nhr = 16 ∧ haltGrp.id.ncr = 2 ∧ (haltGrp.lane 31).live = false ∧ haltGrp.phaseLanes = 0
    ∧ haltGrp.lane 0 = { (haltGrp.lane 0) with st := .running } := by
  unfold Issues; decide +kernel

/-- PrivilegedControl: contexts that are not valid, its own, running and halted; a core outside the partition; a bank to
bind, to unbind and to select; an entry to drop. -/
theorem witness_PrivilegedControl :
    let s := supState supGrp true
    Issues st grp {} ∧ grp.id.sup = false ∧ supGrp.settled = supGrp
    ∧ Issues s supGrp { sr := [4], priv := true } ∧ Issues s supGrp { sr := [4, 5], priv := true }
    ∧ Issues s supGrp { sr := [4, 5, 6], priv := true } ∧ ctxValid s 2 = false ∧ ctxValid s 1 = true ∧ ctxPart s 1 = ctxPart s 0
    ∧ haltedCtx s 1 = true ∧ haltedCtx (supState supGrp false) 1 = false ∧ s.alarmed = false ∧ (ctxOf s 1).handler = none
    ∧ (ctxOf (putCtx s 1 { ctxOf s 1 with handler := some 9 }) 1).handler = some 9 ∧ supGrp.id.tid ≠ some 9
    ∧ capsBusy s 4 = false ∧ cmdsBusy s 4 = false ∧ stepping s 1 = false
    ∧ (let g := { supGrp with phase := 1, phaseVals := [1] }
       Issues (supState g true) g { sr := [4], priv := true } ∧ (ctxOf (supState g true) 1).halt = some raised ∧ raised.written = true)
    ∧ 71 ∈ partCores s 0 ∧ 72 ∉ partCores s 0 ∧ boundTo s 1 0 = none ∧ bankEmpty s 1 0 = true ∧ bankUsable s 1 0 = true
    ∧ boundTo s 0 0 ≠ none ∧ bankEmpty s 0 0 = false ∧ bankEmpty (setBound s 1 3 (some 1)) 1 3 = true
    ∧ handlerCore s 0 ≠ some 1 ∧ bankPol s 0 = false
    ∧ bankPol (regSet s (kPart 0 0x200) 0xFFFFFFFF) 0 = true := by
  unfold Issues; decide +kernel

/-- A record of eight words under the filter of Locus 4, of partition 0, that names team 0 of launch 1; the trace buffer of that
partition is one unit of 4 KiB at 0x1000. -/
def recWords : List Word := [0, 0, 0, 0, 0, 1, 0, 0]
def recLocus (ws : List Word) : Locus := { locusOf st 4 with cur := some (0, ws), q := [], index := 0 }
def locusState (r550 : Word) (ws : List Word) : State :=
  let s := regSet (regSet (regSet st (kPart 0 0x510) 0x1001) (kPart 0 0x512) 1) (kPart 0 0x550) r550
  { s with locus := [(4, recLocus ws)] }

/-- FilterProgram: triggers with ACT 0 and ACT 2, a record that fits in the trace buffer and one that does not. -/
theorem witness_FilterProgram :
    (let s : State := { locusState 2 recWords with launchCtx := [(1, 0)] }
     locusOf s s.iss.g = recLocus recWords ∧ (recLocus recWords).cur = some (0, recWords)
     ∧ (regGet s (kPart 0 0x550)).toNat / 2 ^ 0 % 4 = 2 ∧ (regGet s (kPart 0 0x550)).toNat / 2 ^ 2 % 4 < 2
     ∧ nthW recWords 4 ≠ 0xFFFFFFFF ∧ haltedCtx s 0 = false
     ∧ tget s.launchCtx (0 * 2 ^ 32 + (nthW recWords 5).toNat) = some 0
     ∧ (teamNamed s 0 (nthW recWords 5).toNat (nthW recWords 4).toNat).map (·.1) = some 3
     ∧ regGet64 s (kPart 0 0x510) % 2 = 1 ∧ bit (regGet s (kPart 0 0x550)) 31 = false ∧ recWords.length % 8 = 0
     ∧ (regGet s (kPart 0 0x513)).toNat + recWords.length / 8 ≤ (regGet s (kPart 0 0x512)).toNat % 2 ^ 20 * 128
     ∧ bit (regGet s (kPart 0 0x512)) 31 = false)
    ∧ (let s := regSet (locusState 2 recWords) (kPart 0 0x513) 128
       (regGet s (kPart 0 0x512)).toNat % 2 ^ 20 * 128 < (regGet s (kPart 0 0x513)).toNat % 2 ^ 31 + recWords.length / 8)
    ∧ bit (regGet (locusState 0x80000000 recWords) (kPart 0 0x550)) 31 = true ∧ regGet64 st (kPart 0 0x510) % 2 = 0 := by
  decide +kernel

/-- EncodingWords: a header whose flag 0 is clear and one whose flag is charged; a latch at the issue address; a literal that
is a multiple of four; an even register and a width of each kind. -/
theorem witness_EncodingWords :
    st.group st.iss.g = some grp ∧ (∀ k, k < 12 → (1 : BitVec 12).getLsbD k = true → grp.flag k = 0)
    ∧ (let g := { grp with f := [(0, 1)] }
       (stateOf g).group (stateOf g).iss.g = some g ∧ (1 : BitVec 12).getLsbD 0 = true ∧ g.flag 0 ≠ 0)
    ∧ (let g := { grp with latch := some { at_ := 4, entered := true, pfx := none, pfxBad := false } }
       ∃ y, g.latch = some y ∧ y.at_ = (stateOf g).iss.a)
    ∧ Issues st grp { sr := [63] } ∧ (8 : Word).toNat % 4 = 0 ∧ (126 : VReg).toNat % 2 = 0 ∧ (11 : MReg).toNat < 12
    ∧ accTyOf 2 = some .b32 ∧ AccTy.dataOk .b32 127 = true ∧ AccTy.plain .b32 = true := by
  refine ⟨by decide +kernel, by decide +kernel, by decide +kernel, ⟨_, rfl, by decide +kernel⟩, ?_, by decide +kernel⟩
  unfold Issues
  decide +kernel

/-- The group of the tests, active, and a pending one beside it that has been ready from the start. -/
def busyGrp : Group := { grp with lanes := grp.lanes.map fun l => if l.running then { l with st := .mwait 0 } else l }
def readyGrp : Group := { grp with active := false, readySince := some 0, slot := 1 }
def twoState (g : Group) : State := { putGroup (stateOf g) 6 readyGrp with lclk := 48 }

/-- SwapsBarriersTeams: a group at the limit of starvation, one with every lane parked beside a ready one, and the same
pair at the limit of a forced swap. -/
theorem witness_swaps :
    (let g := { grp with starve := 64, lastA := 0, lanes := grp.lanes.mapIdx fun l x => if l = 1 then Lane.born 8 else x }
     (stateOf g).group 4 = some g ∧ 64 ≤ g.starve ∧ 8 ∈ g.above g.lastLanes g.lastA
     ∧ (∀ q ∈ g.above g.lastLanes g.lastA, 8 ≤ q))
    ∧ (let g := { grp with starve := 64, lastA := 8 }
       (stateOf g).group 4 = some g ∧ 64 ≤ g.starve ∧ g.above g.lastLanes g.lastA = [])
    ∧ (let s := twoState busyGrp
       s.group 4 = some busyGrp ∧ busyGrp.active = true ∧ (banksOf s 0).selected = some 0 ∧ longWait s busyGrp = true
       ∧ s.group 6 = some readyGrp
       ∧ longestReady (wedgeGroups s 0 0 0) = some (6, readyGrp))
    ∧ (let s := twoState grp
       (banksOf s 0).selected = some 0 ∧ readyGrp.readySince = some 0 ∧ longestReady (wedgeGroups s 0 0 0) = some (6, readyGrp)
       ∧ 0 + 48 ≤ s.lclk ∧ (4, grp) ∈ wedgeGroups s 0 0 0 ∧ grp.active = true ∧ grp.forced = false) := by decide +kernel

/-- The group of the tests with both its lanes parked at barrier 1. -/
def barGrp (cl : Bool) (arr : Option (Bool × Nat)) : Group := { grp with
  lanes := grp.lanes.map fun l => if l.running then { l with st := .bar cl 1, adv := 4 } else l
  arrived := arr }
/-- Its state, with a second team 7 of the cluster that has a group of its own. -/
def clusterState : State :=
  let s := stateOf (barGrp true (some (true, 1)))
  { s with
    groups := s.groups ++ [(6, { readyGrp with id := { readyGrp.id with tid := some 7 } })]
    teams := s.teams ++ (s.teams.map fun p => (7, { p.2 with grans := [] }))
    clusters := s.clusters.map fun p => (p.1, { p.2 with teams := [3, 7], left := 2 }) }
/-- A team whose groups have ended, with and without a line aboard. -/
def endedState (a : Tab Aboard) : State :=
  { st with groups := [], teams := st.teams.map fun p => (p.1, { p.2 with left := 0 }), bowner := [(0, 3)], aboard := a }

/-- SwapsBarriersTeams: an arrival at a team barrier and at a cluster barrier, the arrival of the team at the router, and a
retirement without and with a line still aboard. -/
theorem witness_barriers :
    (let g := barGrp false none
     let s := stateOf g
     s.group 4 = some g ∧ asleep s g = false ∧ g.barOf = some (false, 1) ∧ g.id.tid = some 3 ∧ g.arrived = none
     ∧ capsBusy s 4 = false ∧ cmdsBusy s 4 = false ∧ lateOf s 4 = false ∧ sorted s.groups = true ∧ (∀ p ∈ s.groups, p.1 = 4))
    ∧ (barGrp true none).barOf = some (true, 1) ∧ opsBusy (barGrp true none) = false
    ∧ (let s := clusterState
       (tget s.teams 3).map Team.cid = some 2 ∧ (tget s.clusters 2).map Cluster.teams = some [3, 7]
       ∧ (tget s.clusters 2).map Cluster.arrivals = some [] ∧ (liveGroups s 3).map (·.1) = [4]
       ∧ (∀ p ∈ liveGroups s 3, p.2.arrived = some (true, 1)) ∧ (liveGroups s 7).map (·.1) = [6])
    ∧ (let s := endedState []
       (tget s.teams 3).map Team.left = some 0 ∧ s.cmds = [] ∧ s.caps = [] ∧ s.aboard = [] ∧ tget s.bowner 0 = some 3)
    ∧ (let s := endedState [(0, { line := 0, team := some 3, va := 0, tid := 0 })]
       (∃ p ∈ s.aboard, p.2.team = some 3) ∧ (tget s.teams 3).map (fun t => (t.aliased, t.handler, t.ctx)) = some (false, false, 0)
       ∧ haltedCtx s 0 = false) := by decide +kernel

/-- WakesAndResults: an armed wait whose deadline has come, a sleep and a promise whose instants have come with the object at
0 and at 1, a known symbol that an element awaits, and an access of v9's lane 0 charged to flag 0. -/
theorem witness_WakesAndResults :
    (let g := { grp with waits := [(1, { any := true, dst := 5, conds := [.flag 0], deadline := some 0 })] }
     (stateOf g).group 4 = some g ∧ asleep (stateOf g) g = false ∧ (tget g.waits 1).isSome = true
     ∧ joined (stateOf g) g true [.flag 0] = true)
    ∧ (let g := { grp with lanes := grp.lanes.map fun l => if l.running then { l with st := .sleep 0 } else l }
       asleep (stateOf g) g = false ∧ (g.lane 0).st = .sleep 0 ∧ 0 ≤ (stateOf g).time)
    ∧ (let g := { grp with lanes := grp.lanes.map fun l => if l.running then { l with st := .promise 64 (some 0) } else l }
       let s := stateOf g
       let u : State := { s with scr := wrN [] 64 8 1 }
       asleep s g = false ∧ (g.lane 0).st = .promise 64 (some 0) ∧ scrAccess s g.id.tid 64 8 = some 64 ∧ busHeld s 0 0 = false
       ∧ rdN s.scr 64 8 = 0 ∧ rdN u.scr 64 8 ≠ 0 ∧ scrAccess u g.id.tid 64 8 = some 64)
    ∧ busHeld st grp.core (4 + grp.bank) = false
    ∧ (let y : Sym := { always := true, flt := false, xs := [(0, 7)], pois := 0, delivered := false, known := true, stamp := 0, due := none }
       tget (({ grp with syms := [(0, y), (1, { y with always := false })] } : Group).syms) 1 = some { y with always := false }
       ∧ tget (({ grp with syms := [(0, y)] } : Group).syms) 0 = some y
       ∧ ∀ d, y.due = some d → d ≤ st.mclk)
    ∧ (let g := grp.addOp 9 0 [(vkey 9 0, 5)] [] none false
       (stateOf g).group 4 = some g ∧ (∃ o, tget g.ops 9 = some o ∧ o.ext = false ∧ o.flag = some 0 ∧ o.vw = [(vkey 9 0, 5)])
       ∧ (g.elem 9 0).awaits 9 = true ∧ (g.elem 9 1).awaits 9 = false) := by
  refine ⟨by decide +kernel, by decide +kernel, by decide +kernel, by decide +kernel, by decide +kernel, by decide +kernel,
    ⟨_, by rfl, by decide +kernel⟩, by decide +kernel⟩

/-- The state of the tests with queue 0 of partition 0 enabled for context 0 as given. -/
def queueState (q : Queue) : State := putQueue st 0 0 { q with en := true }
/-- An entry of a descriptor. -/
def entryOf (ws : List Word) : QEntry := { words := ws, addr := none, ctx := 0, ident := 0, parent := none }
/-- The launch of the tests with its one cluster still to place. -/
def dueState : State :=
  { queueState { queueOf st 0 0 with headLaunch := some 1 } with
    launches := st.launches.map fun p => (p.1, { p.2 with nextLin := 0 }) }
/-- A core whose bank 0, bound to context 0 and holding the group of the tests, is not selected. -/
def unselected : State :=
  let s := stateOf { grp with ready := true }
  putBanks s 0 { banksOf s 0 with selected := none }
/-- A pre-emption request for `n` cores below PRIO `k`, accepted, with a save area. -/
def preState (n k : Nat) : State :=
  let s := regSet st (kPart 0 0x220) (word (n + 2 ^ 16 * k))
  { regSet s (kPart 0 0x214) 64 with prestat := [(0, (1, 0, []))] }

/-- SequencerEvents: an entry in a host ring; a descriptor that passes the checks and one that does not; a cluster to place;
a bank to select; requests for no core, for a core that nothing can vacate and for the core of the tests; an entry of
the extension. -/
theorem witness_SequencerEvents :
    portOpen (regSet st 0x600 0x24000000) false = true
    ∧ (let s := queueState { queueOf st 0 0 with host := true, tail := 1, log2n := 4 }
     let x := queueOf s 0 0
     x.en = true ∧ x.host = true ∧ x.head % 2 ^ x.log2n ≠ x.tail % 2 ^ x.log2n ∧ x.entries.length < 32)
    ∧ (let s := queueState { queueOf st 0 0 with entries := [entryOf loadedDesc] }
       let x := queueOf s 0 0
       let r := startLaunch s 0 0 0 0 loadedDesc none false
       x.headLaunch = none ∧ x.entries = [entryOf loadedDesc] ∧ ctxValid s 0 = true ∧ ctxPart s 0 = 0
       ∧ descCode r.2 r.1 = 0 ∧ bit (nthW loadedDesc 10) 4 = false)
    ∧ (let s := queueState { queueOf st 0 0 with entries := [entryOf (List.replicate 32 0)] }
       let r := startLaunch s 0 0 0 0 (List.replicate 32 0) none false
       descCode r.2 r.1 ≠ 0)
    ∧ dueState.pstate = 0 ∧ (queueTurn dueState 0).map (·.1) = some 0
    ∧ ((queueTurn dueState 0).map fun x => rectFits dueState x.2 0 0 0 && rectFree dueState x.2 0 0 0) = some true
    ∧ (let s := unselected
       partOfQuad s (quadOf 0) = some 0 ∧ bankPol s 0 = false ∧ handlerHolds s 0 = false ∧ bankRunnable s 0 0 = true
       ∧ (banksOf s 0).selected ≠ some 0 ∧ (∀ k, k < 4 → bankRunnable s 0 k = true → bankRank s 0 k ≤ bankRank s 0 0)
       ∧ (banksOf s 0).selected = none)
    ∧ (let s := preState 0 1
       tget s.prestat 0 = some (1, 0, []) ∧ (regGet s (kPart 0 0x220)).toNat % 2 ^ 10 = 0)
    ∧ (let s := preState 1 0
       (∀ c ∈ s.clusters, c.2.part = 0 → preemptible s c.2 ((regGet s (kPart 0 0x220)).toNat / 2 ^ 16 % 8) = false))
    ∧ (let s := preState 1 1
       (s.clusters.map (·.1)) = [2]
       ∧ (∀ c ∈ s.clusters, c.2.part = 0 ∧ preemptible s c.2 ((regGet s (kPart 0 0x220)).toNat / 2 ^ 16 % 8) = true)
       ∧ (coresOf s [2]).length = (regGet s (kPart 0 0x220)).toNat % 2 ^ 10
       ∧ 1 ≤ (regGet s (kPart 0 0x220)).toNat % 2 ^ 10 ∧ savesFit s 0 [2] = true
       ∧ mayVacate { s with prestat := [(0, (1, 0, [2]))] } 2 = true)
    ∧ (let e : EvEntry := { ev := 9, waiters := [], ext := true }
       let s : State := { st with events := [(0, [e])] }
       evTable s 0 = [] ++ e :: [] ∧ e.ext = true ∧ ((evTable s 0).filter fun y => !y.ext).length < 4096) := by
  decide +kernel

/-- The state of the tests with context 0 halted. -/
def hlt (s : State) (h : Halt) : State := putCtx s 0 { ctxOf s 0 with halt := some h }
def rising : Halt := { time := 0, src := 0, base := 0x52, recs := [], arrived := [], stopped := [], written := false, noHandler := false, placed := 0 }
/-- With a handler descriptor at 0 for it, which holds the given words, and core 0 for handlers. -/
def handlerState (ws : List Word) : State :=
  let s := regSet (regSet st (kCtx 0 0x52) 1) (kPart 0 0x54) 0
  { s with mem := ws.foldl (fun p w => (p.1 + 4, wrN p.2 p.1 4 w.toNat)) (0, []) |>.2 }

/-- HaltEvents, the line: its arrival at a wedge and at a station, the skid's end of a wedge, of an empty matrix queue and of
a request engine, and a stop area without a descriptor and with one. -/
theorem witness_halt_line :
    (let s := hlt st rising
     (ctxOf s 0).halt = some rising ∧ rising.written = false ∧ rising.arrived.all (fun q => q.1 != srcWedge 0 0) = true
     ∧ ¬ (srcStation 0 ≤ srcWedge 0 0 ∧ srcWedge 0 0 < srcStation 576) ∧ rising.arrived.all (fun q => q.1 != srcStation 575) = true)
    ∧ (let h := { rising with arrived := [(srcWedge 0 0, 0), (srcMatrix 0, 0), (srcRequest 0, 0)] }
       h.arrived.any (fun q => q.1 == srcWedge 0 0) = true ∧ h.stopped.contains (srcWedge 0 0) = false
       ∧ srcWedge 0 0 < srcMatrix 0 ∧ (∀ q ∈ (hlt st h).groups, q.2.haltsWith 0 = true → q.2.midst = false)
       ∧ h.arrived.any (fun q => q.1 == srcMatrix 0) = true ∧ matrixHead (hlt st h) 0 = none
       ∧ h.arrived.any (fun q => q.1 == srcRequest 0) = true)
    ∧ (let h := { rising with stopped := [srcWedge 0 0] }
       (∀ k ∈ workUnits (hlt st h) 0, h.stopped.contains k = true) ∧ handlerDesc (hlt st h) 0 = none
       ∧ (let s := hlt (handlerState loadedDesc) h
          (∀ k ∈ workUnits s 0, h.stopped.contains k = true) ∧ (storeStopArea s 0 h).2 = true
          ∧ handlerCore (storeStopArea s 0 h).1 (ctxPart (storeStopArea s 0 h).1 0) ≠ none)) := by decide +kernel

/-- HaltEvents, the handler: no core for it, a descriptor that fits and one that does not, and a core that lost its banks. -/
theorem witness_halt_handler :
    (let s := hlt st { rising with written := true }
     tget s.slot 0 = none ∧ nextHandled s 0 = some 0 ∧ handlerCore s 0 = none)
    ∧ (let s := hlt (handlerState loadedDesc) { rising with written := true }
       tget s.slot 0 = none ∧ s.pstate ≤ 1 ∧ busHeld s 0 7 = false ∧ busHeld s 0 0 = false
       ∧ nextHandled s 0 = some 0 ∧ handlerCore s 0 = some 0 ∧ handlerDesc s 0 = some 0
       ∧ readDesc s (seqCore s 0) 0 0 = some loadedDesc
       ∧ handlerFits s (startLaunch s 0 64 0 1 loadedDesc none true).1 0 = true)
    ∧ (let s := hlt (handlerState (List.replicate 32 0)) { rising with written := true }
       readDesc s (seqCore s 0) 0 0 = some (List.replicate 32 0)
       ∧ handlerFits s (startLaunch s 0 64 0 1 (List.replicate 32 0) none true).1 0 = false)
    ∧ (let s := handlerState []
       let u : State := { s with columns := [(0, { columnOf s 0 with degraded := true })] }
       tget u.slot 0 = none ∧ handlerCore u 0 = some 0 ∧ degraded u 0 = true) := by decide +kernel

/-- HaltEvents, the debugger: a context to stop, a step within a halt, one of a running group and one of no group, and the
ends of both kinds of step. -/
theorem witness_halt_debugger :
    portOpen (regSet st 0x600 0x24000000) false = true ∧ stepState (regSet st 0x600 0x24000000) 0 ≠ 1
    ∧ (regGet st (kPart 0 0x571)).toNat / 2 ^ 24 % 64 = 0 ∧ ctxValid st 0 = true ∧ ctxPart st 0 = 0 ∧ haltedCtx st 0 = false
    ∧ stepState st 0 ≠ 1 ∧ bit (regGet st (kPart 0 0x578)) 30 = false ∧ (stepGroup st 0).map (·.1) = some 4
    ∧ haltedCtx (hlt st rising) grp.id.ctx = true ∧ (stepGroup (hlt st rising) 0).map (·.1) = some 4
    ∧ ({ grp with step := 1 } : Group).eligible ≠ []
    ∧ (let s := regSet st (kPart 0 0x578) 0x40000000
       bit (regGet s (kPart 0 0x578)) 30 = true ∧ (stepGroup s 0).map (·.1) = some 4 ∧ haltedCtx s 0 = false)
    ∧ stepGroup (regSet st (kPart 0 0x578) 0x00004000) 0 = none
    ∧ (let g := { grp with step := 3, stepLanes := 0 }
       let s : State := { stateOf g with steps := [(0, 4)] }
       tget s.steps 0 = some 4 ∧ s.group 4 = some g ∧ g.stepLanes &&& g.live = 0)
    ∧ (let g := { grp with step := 4, id := { grp.id with tid := none } }
       let s : State := { stateOf g with steps := [(0, 4)] }
       s.group 4 = some g ∧ g.id.tid = none ∧ capsBusy s 4 = false ∧ opsBusy g = false) := by decide +kernel

/-! Rendering: a depth target in slot 0 and a colour target in slot 1, one square of 8 by 8 pixels each, a draw state at
virtual address 0 that binds both, and a triangle over half of the square. -/

def drawBits : Nat := 2 ^ 64 + 2 ^ 74 + 15 * 2 ^ 76 + 2 ^ 138 + 2 ^ 139 + 2 ^ 140 + 8 * 2 ^ 160
def drawWords : List Word := (List.range 16).map fun i => word (drawBits / 2 ^ (32 * i))
def triWords : List Word :=
  [0x30, 0, 0, 0, 0x3F800000, 0x41000000, 0, 0, 0x3F800000, 0, 0x41000000, 0, 0x3F800000, 0, 0, 0]
def drawState (g : Group) : State :=
  let s := regSet (surfState g) (kCtx 0 0x104) 1
  let m := wrN (wrN s.mem 0x10040 64 (surfEntry + 1)) 0 64 drawBits
  { s with mem := m }
def rastJob (ws : List Word) (at_ : Stage) : Cmd := { newCmd st grp 4 4 .rast ws [] 0 with stage := at_ }
def accepting (ws : List Word) : State := { drawState grp with cmds := [(9, rastJob ws .queued)] }
def fragOf (sub : List Sub) (did : List Nat) : FragLane :=
  { lane := 0, px := 0, py := 0, cover := 1, b1 := 0, b2 := 0, depth := [0], subs := sub, closed := false, pass := none, did := did }
def triOf (qs : List Nat) : Tri :=
  { ctx := 0, seq := 0, cmd := 9, ds := drawWords, words := triWords, launch := 1, quads := qs, code := 5
    surf := dsSurf (drawState grp) 0 drawWords, dropped := [] }
def planOf (core : Nat) (launched : Bool) (f : FragLane) : Plan :=
  { tri := 20, ctx := 0, seq := 0, quad := quadOf core, core := core, sx := 0, sy := 0, lanes := [f], launched := launched
    skid := false, order := 21, charges := [], g := 4, wrote := [], dropped := [], failed := [] }
def fragGrp : Group := { grp with id := { grp.id with frag := some 21, tid := none } }
def drawing (t : Tri) (ps : Tab Plan) : State :=
  { drawState grp with cmds := [(9, rastJob triWords (.taken 0))], tris := [(20, t)], plans := ps }
/-- The anchor core of the square. -/
def anchor : Nat := (anchorCore (drawState grp) 0 drawWords 0 0).getD 999

theorem witness_Rendering :
    (let s := accepting triWords
     let x := rastJob triWords .queued
     (queued s x.core .rast).head?.map (·.1) = some 9 ∧ mayBegin s x = true ∧ tooFarBehind s 0 = false
     ∧ (readDrawState s x ((nthW x.words 0).toNat / 2 ^ 8 % 2 ^ 8)).2.toOption = some drawWords
     ∧ dsOk s 0 drawWords = true ∧ (setupOf triWords).isSome = true ∧ (dsSurf s 0 drawWords).isSome = true
     ∧ (do let su ← setupOf triWords; let sf ← dsSurf s 0 drawWords; some (su.squares sf)) = some [(0, 0)]
     ∧ quadOf anchor < 8 ∧ anchorCore s 0 drawWords 0 0 = some anchor)
    ∧ (setupOf (0x30 :: List.replicate 15 0)).isNone = true ∧ dsOk (accepting triWords) 0 [] = false
    ∧ (let s := drawing (triOf [quadOf anchor]) []
       (s.tris.find? (fun p => p.2.quads.contains (quadOf anchor))).map (·.1) = some 20 ∧ (tget s.cmds 9).isSome = true
       ∧ ofHandler s (some 3) = false ∧ haltedCtx s 0 = false ∧ (partOfQuad s (quadOf anchor)).isSome = true
       ∧ (triOf []).surf.isSome = true ∧ inMask s anchor = true ∧ s.pstate = 0 ∧ (∀ b, b < 4 → busHeld s anchor (4 + b) = false))
    ∧ (let s := drawing (triOf []) [(21, planOf anchor false (fragOf [] []))]
       (s.plans.find? (fun p => p.2.quad == quadOf anchor && !p.2.launched)).map (·.1) = some 21
       ∧ (bankFor s anchor 0).isSome = true
       ∧ (s.plans.filter fun p => p.2.core == anchor && p.2.launched && planOpen s p.2).length < 256
       ∧ wedgeRoom s anchor 0 0 1 (dsVregs drawWords) 0 0 = true)
    ∧ (let s : State := { drawing (triOf []) [(21, planOf 0 true (fragOf [] []))] with
        groups := [(4, fragGrp)], iss := st.iss }
       fragGrp.id.frag = some 21 ∧ (tget s.plans 21).isSome = true ∧ (tget s.tris 20).isSome = true
       ∧ lanesOf (execMask s fragGrp) = [0] ∧ AccessReady s fragGrp .noZero [] [4, 5] [] [] s.iss.flagB ∧ fragGrp.sent = []
       ∧ AccessReady s fragGrp .noZero [] (5 :: (List.range 4).map (4 + ·)) [] [2] s.iss.flagB)
    ∧ (let d (sub : List Sub) (did : List Nat) := duesAt (drawing (triOf []) [(21, planOf anchor true (fragOf sub did))]) anchor
       let s := drawing (triOf []) [(21, planOf anchor true (fragOf [] []))]
       let z : Sub := { what := 0, mask := 1, words := [0] }
       d [] [] = [] ∧ (d [z] []).map (fun x => (x.sub.what, x.touches, x.slot)) = [(0, true, 0)]
       ∧ (d [{ z with mask := 0 }] []).map (fun x => (x.sub.what, x.touches)) = [(0, false)]
       ∧ (d [{ z with what := 1, words := [1, 2, 3, 4] }] [0]).map (fun x => (x.sub.what, x.touches, x.slot)) = [(1, false, 1)]
       ∧ (let f := { fragOf [{ z with what := 1, words := [1, 2, 3, 4] }] [0] with pass := some 15 }
          (duesAt (drawing (triOf []) [(21, planOf anchor true f)]) anchor).map (·.touches) = [true])
       ∧ (∀ k, k < 2 → (match surfAt s 0 k with
         | some f => match ready s 0 k f 0 with
           | .ok _ _ => true
           | _ => false
         | none => false) = true)) := by
  unfold AccessReady Issues Known
  decide +kernel

/-- MemoryAndFabricEvents: a page to walk, a lease that has lapsed and one that has not, a spill write whose surface is gone and
one that can be written, an access inside HBM4, the window and host memory and one past the end of HBM4, a request
without a reply, a flit of our domain and of another, a new ratio, a stall, a retirement, subnetworks and links. -/
theorem witness_MemoryAndFabricEvents :
    ctxValid st 0 = true ∧ partOfQuad st (quadOf 0) = some (ctxPart st 0)
    ∧ (let c : L1Copy := { data := [], lease := 0, grant := 0, tid := 0, gran := 0 }
       let s : State := { st with l1 := [(l1Key 0 1, c)], time := 2048 }
       tget s.l1 (l1Key 0 1) = some c ∧ c.grant + 2048 ≤ s.time)
    ∧ (let s : State := { surfState grp with spills := [(1, { ctx := 0, slot := 0, tile := 0, core := 0 })] }
       let u : State := { s with spills := cdel s.spills 1 }
       (tget s.spills 1).isSome = true ∧ surfAt u 0 1 = none ∧ spillOut s 1 0 = true ∧ arenaHeld s 0 = false
       ∧ (match surfAt u 0 0 with
         | some f => (homeWrite u 0 0 0 f 0 (tileOf u 0 0 f 0).mode (tileElems u 0 0 f 0)).isOk
             && (match homeWrite u 0 0 0 f 0 (tileOf u 0 0 f 0).mode (tileElems u 0 0 f 0) with
               | .ok t => (resvOf (leaveArena t 0 0 f 0) 0 0 0).isNone
               | .error _ => false)
         | none => false) = true)
    ∧ (let s := regSet (regSet st 0x882 0x10000) 0x884 1
       (s.sessionKeys = true ∧ 0x10000 % 64 + 64 ≤ 64 ∧ 0x10000 + 64 ≤ hbmEnd ∧ 0 < 64 ∧ s.aboard = []) ∧ s.partials = []
       ∧ regGet64 s 0x882 % 2 ^ 56 / 65536 * 65536 ≤ 0x10000
       ∧ 0x10000 + 64 ≤ regGet64 s 0x882 % 2 ^ 56 / 65536 * 65536 + (regGet s 0x884).toNat % 2 ^ 26 * 65536
       ∧ hbmEnd < hbmEnd - 32 + 64 ∧ ¬ (regGet64 s 0x882 % 2 ^ 56 / 65536 * 65536 ≤ 0))
    ∧ (let r : VlReq := { peer := 0, g := 4, ctx := 0, since := 0, cmd := some 4 }
       let s : State := { st with vlreqs := [(1, r)], time := 100000 }
       tget s.vlreqs 1 = some r ∧ r.cmd = some 4 ∧ r.since + 1000 * ((regGet s 0x885).toNat % 2 ^ 16) ≤ s.time ∧ s.cmds = []
       ∧ (let x := newCmd st grp 4 4 .copy copyWords [] 0
          tget ({ s with cmds := [(4, x)] } : State).cmds 4 = some x ∧ x.stage ≠ .finished))
    ∧ (regGet st 0x881).toNat % 2 ^ 16 = 0
    ∧ (let s := regSet st 0x400 4
       max ((regGet s 0x400).toNat % 16) s.floor ≠ s.ratio ∧ s.stall = none)
    ∧ (let s : State := { st with stall := some (96, 4), mclk := 96 }
       s.stall = some (96, 4) ∧ 96 ≤ s.mclk ∧ st.mclk < 96)
    ∧ (let s : State := { st with retireQueue := [(0, 7)] }
       s.retire = none ∧ s.retireQueue = (0, 7) :: [] ∧ 7 ∉ (columnOf s 0).retired)
    ∧ (let j : RetireJob := { retireJob st 0 7 with copying := true }
       let s : State := { st with retire := some j }
       s.retire = some j ∧ s.stall = none ∧ j.copying = true ∧ (columnOf s j.core).retired.length < 5)
    ∧ (regGet st 0x801).toNat / 2 ^ (2 * 1) % 4 = 0 ∧ (regGet st 0x801).toNat / 2 ^ (2 * 0) % 4 = 3
    ∧ (regGet st 0x800).toNat / 2 ^ 8 % 2 ^ 8 < 81 ∧ st.pstate = 0
    ∧ (let s : State := { st with subnets := [(0, { busySince := some 0, idle := none })], time := 1000 }
       (subnetOf s 0).busySince = some 0 ∧ 0 + 1000 ≤ s.time ∧ (subnetOf st 0).busySince = none)
    ∧ (let s : State := { regSet st 0x801 15 with subnets := [(1, { busySince := none, idle := some 0 })], time := 100000 }
       (subnetOf s 1).idle = some 0 ∧ 0 + 100000 ≤ s.time)
    ∧ (let s := regSet st 0x801 7
       (regGet s 0x801).toNat / 2 ^ (2 * 1) % 4 = 1)
    ∧ (let s := regSet st 0x801 15
       (regGet s 0x801).toNat / 2 ^ (2 * 1) % 4 = 3 ∧ (regGet s 0x801).toNat / 2 ^ (2 * 2) % 4 = 0) := by decide +kernel

/-- CoverageDepthAndColour: a front-facing triangle with its depths and reciprocals of w, the first pixel past the surface, a
quiet NaN, values that are none, both infinities, a half. -/
theorem witness_CoverageDepthAndColour :
    ((setupOf triWords).map fun t => decide (0 < t.area ∧ 0 < t.v0.z.2 ∧ 0 < t.v1.z.2 ∧ 0 < t.v2.z.2
      ∧ 0 < t.v0.q.2 ∧ 0 < t.v1.q.2 ∧ 0 < t.v2.q.2
      ∧ t.area = (t.v1.x - t.v0.x) * (t.v2.y - t.v0.y) - (t.v2.x - t.v0.x) * (t.v1.y - t.v0.y))) = some true
    ∧ ((setupOf triWords).bind fun t => (surfAt (surfState grp) 0 0).map fun f => (squareGroups t f 0 0).length) = some 2
    ∧ fp32.decode (0x7F800000 : Word).toNat = .inf false ∧ fp32.decode (0xFF800000 : Word).toNat = .inf true
    ∧ (fp32.decode (0x3F000000 : Word).toNat).isNan = false ∧ (1 : Nat) ∈ [1, 2, 3]
    ∧ ((surfAt (surfState grp) 0 0).map fun f => decide (f.w ≤ 8 ∧ f.h ≤ 8)) = some true
    ∧ (fp32.decode (0x7FC00000 : Word).toNat).isNan = true := by decide +kernel

/-- RegistersAndContexts: the port closed and open; a window to open, one open already, one that overlaps and one that does
not; quadrants, cores, contexts and power states in each case. -/
theorem witness_RegistersAndContexts :
    let o (s : State) : State := regSet s 0x600 0x24000000
    bit (regGet st 0x600) 29 = false ∧ bit (regGet (o st) 0x600) 29 = true ∧ st.sessionKeys = true
    ∧ (let w : Word := 0x80020000
       let base (x : Word) : Nat := x.toNat % 2 ^ 11
       let count (x : Word) : Nat := x.toNat / 2 ^ 16 % 2 ^ 11
       bit w 31 = true ∧ count w ≠ 0 ∧ base w + count w ≤ 1152 ∧ 1152 < base 0x8001047F + count 0x8002047F
       ∧ base (regGet (ringState grp) 0x300) < base w + count w)
    ∧ bit (regGet st 0x300) 31 = false ∧ (∀ k, k < 64 → bit (regGet st (0x300 + k)) 31 = false)
    ∧ bit (regGet (ringState grp) 0x300) 31 = true
    ∧ bit (0 : Word) 31 = false ∧ (ringState grp).caps = [] ∧ (ringState grp).aboard = []
    ∧ (bit (1 : Word) 0 = true ∧ bit (regGet (o st) (0x48 + 0)) 0 = true)
    ∧ (∀ k, k < 8 → ∀ q, q < 8 → k ≠ 1 → bit (2 : Word) q = true → bit (regGet (o st) (0x48 + k)) q = false)
    ∧ tget st.slot 0 = none ∧ 71 ∈ partCores st 0 ∧ degraded st 71 = false ∧ usableBanks st 71 = 4 ∧ 72 ∉ partCores st 0 := by decide +kernel

theorem witness_contexts_and_power :
    let o (s : State) : State := regSet s 0x600 0x24000000
    ctxValid (o st) 1 = false ∧ bit (0x80000000 : Word) 31 = true ∧ partMask (o st) 0 ≠ 0 ∧ partMask (o st) 7 = 0
    ∧ (let s := regSet (o st) (kCtx 2 0x55) 0x88000000
       ctxValid s 2 = true ∧ ctxPart s 2 = 0 ∧ ctxSup s 2 = true)
    ∧ ctxBusy (o st) 0 = true
    ∧ (let s : State := { o st with teams := [], launches := [], groups := [] }
       ctxValid s 0 = true ∧ ctxBusy s 0 = false ∧ winEn (winReg s 0) = false ∧ s.teams = [])
    ∧ ({ o st with pstate := 2 } : State).pstate = 2 ∧ (o st).pstate ≠ 2 ∧ (o st).teams ≠ []
    ∧ (∀ k, k < 64 → ctxValid State.reset k = false) := by decide +kernel

/-- DeviceEvents: the port open with the dialogue enabled and not, a program of no words and one whose only word is bad, a
record at a Locus, a wedge to tag, causes of the floor, wear, alarms and reports. -/
theorem witness_DeviceEvents :
    let o (s : State) : State := regSet s 0x600 0x24000000
    (let s := regSet (o st) 0x502 0x80000000
     bit (regGet s 0x502) 31 = true ∧ s.ptm = none ∧ bit (regGet (o st) 0x502) 31 = false)
    ∧ (∀ c, c < 64 → ctxValid (o State.reset) c = false) ∧ ctxValid (o st) 0 = true
    ∧ (let s := regSet st (kPart 0 0x522) 1
       let bad : State := { s with mem := wrN [] 0 4 0x84000001 }
       (regGet s (kPart 0 0x522)).toNat % 2 ^ 9 = 1 ∧ st.partials = [] ∧ portOpen (regSet s 0x600 0x24000000) false = true
       ∧ (∀ i, i < 1 → filterBad 1 i (nthW (wordsOf s.mem 0 1) i) = false)
       ∧ filterBad 1 0 (nthW (wordsOf bad.mem 0 1) 0) = true)
    ∧ (let l : Locus := { recLocus recWords with cur := none, queue := [(0, recWords)] }
       let s : State := { st with locus := [(4, l)], filters := [(16, [0x80000000])] }
       (locusOf s 4).cur = none ∧ (locusOf s 4).queue = (0, recWords) :: [] ∧ tget s.filters 16 = some [0x80000000])
    ∧ partOfQuad st (quadOf 0) = some 0
    ∧ (let s := regSet st (kPart 0 0x518) 0x80000000
       bit (regGet s (kPart 0 0x518)) 31 = true ∧ tget s.samples (srcWedge 0 1) = none
       ∧ (∀ g ∈ s.groups, ¬ (g.2.core = 0 ∧ g.2.wedge = 1)))
    ∧ (let x : Sample := { Sample.fresh 0 with state := some 4 }
       let s := regSet { st with samples := [(srcWedge 0 0, x)] } (kPart 0 0x515) 0x80
       tget s.samples (srcWedge 0 0) = some x ∧ x.state = some 4 ∧ x.level < 16 ∧ x.level ≠ 1 ∧ bit (regGet s (kPart x.part 0x515)) 7 = true)
    ∧ (let s : State := { st with causeSince := some 0, time := 100000, causes := [0] }
       s.causeSince = some 0 ∧ s.floor < 4 ∧ 0 + 100000 ≤ s.time ∧ s.causes ≠ [])
    ∧ (let s : State := { st with floor := 3, time := 10000000 }
       s.causes = [] ∧ 2 < s.floor ∧ s.quietSince + 10000000 ≤ s.time)
    ∧ (∀ e : Nat, e ∈ [719, 720, 8759, 8760] → ∃ w, w < 3 ∧ w ≠ (if e < 720 then 2 else if e < 8760 then 1 else 0))
    ∧ bit (regGet st 0x702) 0 = true ∧ 7 ∉ (columnOf st 0).retired ∧ (4608 ≤ 4625 ∧ 4625 < 4626)
    ∧ alarmOf 1 1 = true ∧ alarmOf 2 5 = true ∧ alarmOf 3 4 = true
    ∧ st.report = 0 ∧ ({ st with report := 1 } : State).report ≠ 0 ∧ bit (regGet st 0x600) 26 = true
    ∧ bit (regGet (regSet st 0x600 0) 0x600) 26 = false
    ∧ regGet64 st 0x609 % 2 ^ 56 / 4096 * 4096 + 4096 ≤ hbmEnd := by decide +kernel

/-- IssueFaults: a group of eight v registers, a prefix, a nonzero unused field. -/
theorem witness_IssueFaults :
    (let g := { grp with id := { grp.id with nv := 8 } }
     let s := stateOf g
     s.group s.iss.g = some g ∧ g.id.handler = false ∧ g.step ≠ 1 ∧ haltedCtx s g.id.ctx = false ∧ s.iss.pfx = none
     ∧ g.id.nv ≤ (8 : VReg).toNat)
    ∧ (withPfx st { d := none, ftz := false, zero := false, rnd := 0, mask := none }).iss.pfx ≠ none
    ∧ (let s : State := { st with iss := { st.iss with rsv := true } }
       s.iss.pfx = none ∧ s.iss.rsv = true ∧ (7 : VReg).toNat < grp.id.nv) := by decide +kernel

/-- DecodeAndEncodeAgree: instructions of each length and a filter word. -/
theorem witness_DecodeAndEncodeAgree :
    (Instr.nopHalf.wf = true ∧ encode .nopHalf = some (16, 0))
    ∧ ((Instr.scalarAdd 20 2 (.s 6)).wf = true ∧ encode (.scalarAdd 20 2 (.s 6)) = some (32, 0x00C08A03))
    ∧ ((Instr.longForm 7 0 9 0x0B 0x4B800000).wf = true
      ∧ encode (.longForm 7 0 9 0x0B 0x4B800000) = some (64, 0x4B800000380125FB))
    ∧ ((Instr.filterShri 8 3 8).wf = true ∧ encode (.filterShri 8 3 8) = some (32, 0x2E0C0008))
    ∧ decodeHalves [0x8A03, 0x00C0, 0, 0] = (.ok (.scalarAdd 20 2 (.s 6)), 2) ∧ decodeFilter 0x2E0C0008 = some (.filterShri 8 3 8) := by
  decide +kernel

/-- StepRunsDecoded: the loaded group at its entry, with its header passed and its words read. -/
theorem witness_StepRunsDecoded :
    (let s := State.reset.withFetchWord 32 0x00C08A03
     let s0 : State := { s with turns := [] }
     let g := loadedGroup true
     let u : State := { putGroup s0 4 { g with floor := 0 } with iss := { Issue.none with g := 4, lanes := g.lanesAt 0 } }
     s.turns = .issue 4 :: [] ∧ s.group 4 = some g ∧ mayIssue s0 4 g = true ∧ g.phase = 0 ∧ g.issueAddr = some (0, 0)
     ∧ g.stepLanes &&& g.lanesAt 0 = 0 ∧ (g.latchAt 0).entered = true ∧ (g.latchAt 0).pfx = none
     ∧ (match clauseOf u g 0 2 g.id.entry with
       | some c => decide (c.hdr = 0 ∧ 8 ≤ c.stop ∧ c.flagA = 15 ∧ c.flagB = 15)
       | none => false) = true
     ∧ (codeHalf u g 4).toOption = some 0x8A03 ∧ (codeHalf u g 6).toOption = some 0x00C0
     ∧ wordHalves 0x8A03 = 2 ∧ isLast 0x00C08A03 = false
     ∧ (decodeHalves [0x8A03, 0x00C0, 0, 0]).1 = .ok (.scalarAdd 20 2 (.s 6)))
    ∧ (let s := State.reset.withFetchWord 32 0x2E0C0008
       s.turns = .locus 0 :: [] ∧ filterWord { s with turns := [] } 0 = some 0x2E0C0008
       ∧ decodeFilter (0x2E0C0008 : Word).toNat = some (.filterShri 8 3 8))
    ∧ ({ st with turns := [.event .pstateRun] } : State).turns = .event .pstateRun :: [] := by decide +kernel

/-- StepKeepsCanonical: the state after reset, and a state from which a step goes on. -/
theorem witness_StepKeepsCanonical :
    State.reset.canonical ∧ (State.reset.withFetchWord 32 0x00C08A03).canonical
    ∧ (match step (State.reset.withFetchWord 32 0x00C08A03) with
      | .next t => Memory.wf t.mem
      | _ => false) = true := by
  unfold State.canonical
  decide +kernel

/-- FrameOfRegisterInstructions and FrameOfScratchAccesses: an instruction of each clause answers a next state. -/
theorem witness_frames :
    (let goes (i : Instr) : Bool := match exec i st with
      | .next _ => true
      | _ => false
     goes (.scalarAdd 63 0 (.imm 63)) = true ∧ goes (.addV 127 126 125) = true ∧ goes (.faddF32X 127 126 (.s 63)) = true
     ∧ goes (.mulWideI32V 126 125 124) = true ∧ goes (.cmpLtI32X 11 127 (.imm 32)) = true
     ∧ goes (.lds .b32 127 (.off 62 0)) = true ∧ goes (.sts .b32 127 (.off 62 0)) = true)
    ∧ LaneReady st grp .plain 127 1 [126, 125] [] ∧ LaneReady st grp .round 127 1 [126] [63] ∧ LaneReady st grp .plain 126 2 [125, 124] []
    ∧ Issues st grp { rule := .plain, v := [127], vr := [127], sr := [] } ∧ Known grp [127] (lanesOf (execMask st grp))
    ∧ grp.formRegs ≤ 16 ∧ Unwatched st grp ∧ lanesOf (execMask st grp) = [0]
    ∧ (checkScratch st grp.id.tid (grp.memAddr false 4 (.off 62 0) 0) 4 4).toOption = some 0
    ∧ AccessReady st grp .plain [127] [] [] [62] st.iss.flagA ∧ AccessReady st grp .noZero [] [127] [] [62] st.iss.flagB := by
  unfold LaneReady AccessReady Unwatched Issues Known
  decide +kernel

/-! Single steps: results worked out by hand from the rules named. -/

/-- What one instruction leaves in the group of the tests, from s and v registers given as pairs (the words of lane 0). -/
def from_ (ss vs : List (Nat × Word)) : Group :=
  vs.foldl (fun g p => g.setElem p.1 0 (.val p.2)) (ss.foldl (fun g p => g.setS p.1 p.2) grp)
def runOn (ss vs : List (Nat × Word)) (i : Instr) : Group := grpOf (after (exec i (stateOf (from_ ss vs))))

/-- R181: a sum wraps, and the lanes stand past the word. -/
theorem test_scalar_add_wraps : (runOn [(2, 0xFFFFFFFF)] [] (.scalarAdd 3 2 (.imm 1))).sreg 3 = 0
    ∧ ((runOn [(2, 0xFFFFFFFF)] [] (.scalarAdd 3 2 (.imm 1))).lane 0).pcv = 8
    ∧ ((runOn [(2, 0xFFFFFFFF)] [] (.scalarAdd 3 2 (.imm 1))).lane 1).pcv = 0 := by decide +kernel
/-- R181: a count of 32 shifts by 0, and an immediate is sign-extended. -/
theorem test_scalar_shift_count : (runOn [(2, 5)] [] (.scalarShl 3 2 (.lit 32))).sreg 3 = 5
    ∧ (runOn [(2, 0x80000000)] [] (.scalarSra 3 2 (.imm 0x3F))).sreg 3 = 0xFFFFFFFF := by decide +kernel
/-- R181: the high word of −1 times 2, signed and unsigned. -/
theorem test_scalar_mulhi : (runOn [(2, 0xFFFFFFFF)] [] (.scalarMulhiI32 3 2 (.imm 2))).sreg 3 = 0xFFFFFFFF
    ∧ (runOn [(2, 0xFFFFFFFF)] [] (.scalarMulhiN32 3 2 (.imm 2))).sreg 3 = 1 := by decide +kernel
/-- R46: a write to s0 is discarded. -/
theorem test_scalar_zero_register : (runOn [(2, 7)] [] (.scalarOr 0 2 (.imm 1))).sreg 0 = 0 := by decide +kernel
/-- R181: `sel` reads its destination as the condition. -/
theorem test_scalar_sel : (runOn [(3, 1), (2, 5)] [] (.scalarSel 3 2 (.imm 9))).sreg 3 = 5
    ∧ (runOn [(3, 0), (2, 5)] [] (.scalarSel 3 2 (.imm 9))).sreg 3 = 9 := by decide +kernel
/-- R181: signed and unsigned order of −1 and 1. -/
theorem test_scalar_compare : (runOn [(2, 0xFFFFFFFF)] [] (.setltI32 3 2 (.imm 1))).sreg 3 = 1
    ∧ (runOn [(2, 0xFFFFFFFF)] [] (.setltN32 3 2 (.imm 1))).sreg 3 = 0 := by decide +kernel

/-- R183: a branch back two units from the header at 0 wraps in 32 bits; `brc.z` of a nonzero element goes to the header after
its body. -/
theorem test_branch_targets : ((runOn [] [] (.bra (.near 0x3FFE))).lane 0).pcv = 0xFFFFFFF8
    ∧ ((runOn [] [(4, 1)] (.brcZ 4 (.near 3))).lane 0).pcv = 8 ∧ ((runOn [] [(4, 0)] (.brcZ 4 (.near 3))).lane 0).pcv = 12 := by
  decide +kernel
/-- R183: `call` keeps the link, and `ret` returns to it. -/
theorem test_call_and_ret : (runOn [] [] (.call 4 (.near 4))).elem 4 0 = .val 8 ∧ ((runOn [] [] (.call 4 (.near 4))).lane 0).pcv = 16
    ∧ ((runOn [] [(4, 0x102)] (.ret 4)).lane 0).pcv = 0x102 := by decide +kernel
/-- R184: an exit of lane 0 leaves lane 1. -/
theorem test_exit : (runOn [] [] .exit).live = 2 := by decide +kernel
/-- R189: `mwr` keeps live lanes only. -/
theorem test_mwr_keeps_live : (runOn [(2, 0xFFFFFFFF)] [] (.mwr 3 2)).mreg 3 = 3 := by decide +kernel
/-- R188: the tile size. -/
theorem test_settile : (runOn [] [] (.settile (.imm 8))).tile = 8 ∧ (runOn [] [] (.settile (.imm 9))).tile = 32 := by decide +kernel

/-- R204: the product wraps, `mad` adds the old destination, and lane 1 is untouched. -/
theorem test_mad : (runOn [] [(4, 1), (5, 0x10000)] (.madX 4 5 (.lit 0x10001))).elem 4 0 = .val 0x10001
    ∧ (runOn [] [(4, 1), (5, 0x10000)] (.madX 4 5 (.lit 0x10001))).elem 4 1 = .val 0 := by decide +kernel
/-- R205: a field cut at bit 31; an imm6 names no length. -/
theorem test_bfe : (runOn [] [(5, 0xF0000000)] (.bfeN32X 4 5 (.lit 0x81C))).elem 4 0 = .val 0xF
    ∧ (runOn [] [(5, 0xF0000000)] (.bfeI32X 4 5 (.lit 0x81C))).elem 4 0 = .val 0xFFFFFFFF
    ∧ (runOn [] [(5, 0xFFFFFFFF)] (.bfeN32X 4 5 (.imm 4))).elem 4 0 = .val 0 := by decide +kernel
/-- R205: the absolute value of the most negative number; the leading zeros of 0. -/
theorem test_abs_and_clz : (runOn [] [(5, 0x80000000)] (.absI32 4 5)).elem 4 0 = .val 0x80000000
    ∧ (runOn [] [(5, 0)] (.clzB32 4 5)).elem 4 0 = .val 32 := by decide +kernel
/-- R206: a 64-bit sum carries into the high word of the pair; a 64-bit shift by 33. -/
theorem test_pairs : (runOn [] [(6, 0xFFFFFFFF), (7, 0)] (.addI64X 4 6 (.imm 1))).elem 4 0 = .val 0
    ∧ (runOn [] [(6, 0xFFFFFFFF), (7, 0)] (.addI64X 4 6 (.imm 1))).elem 5 0 = .val 1
    ∧ (runOn [] [(6, 1), (7, 0)] (.shlB64X 4 6 (.lit 33))).elem 5 0 = .val 2
    ∧ (runOn [] [(6, 0xFFFFFFFF)] (.mulWideI32X 4 6 (.imm 2))).elem 5 0 = .val 0xFFFFFFFF := by decide +kernel
/-- R207: −0 equals +0, and NaN is unequal to itself. -/
theorem test_fcmp : (runOn [] [(4, 0x80000000), (5, 0)] (.fcmpEqF32V 2 4 5)).mreg 2 = 1
    ∧ (runOn [] [(4, 0x7FC00000)] (.fcmpEqF32V 2 4 4)).mreg 2 = 0 ∧ (runOn [] [(4, 0x7FC00000)] (.fcmpUnF32V 2 4 4)).mreg 2 = 1 := by
  decide +kernel
/-- R209: 1.5 + 2.25; 1 + 2⁻²⁴ ties to even; ∞ − ∞; a zero product of a negative and zero. -/
theorem test_fadd : (runOn [] [(4, 0x3FC00000), (5, 0x40100000)] (.faddF32V 6 4 5)).elem 6 0 = .val 0x40700000
    ∧ (runOn [] [(4, 0x3F800000), (5, 0x33800000)] (.faddF32V 6 4 5)).elem 6 0 = .val 0x3F800000
    ∧ (runOn [] [(4, 0x7F800000), (5, 0x7F800000)] (.fsubF32V 6 4 5)).elem 6 0 = .val 0x7FC00000
    ∧ (runOn [] [(4, 0xBF800000), (5, 0)] (.fmulF32V 6 4 5)).elem 6 0 = .val 0x80000000 := by decide +kernel
/-- R209: one rounding of the exact value: (1 + 2⁻¹²)² − (1 + 2⁻¹¹) is 2⁻²⁴. -/
theorem test_ffma_rounds_once :
    (runOn [] [(4, 0xBF801000), (5, 0x3F800800)] (.ffmaF32V 4 5 5)).elem 4 0 = .val 0x33800000 := by decide +kernel
/-- R210: −0 is less than +0, and NaN loses. -/
theorem test_fmin : (runOn [] [(4, 0), (5, 0x80000000)] (.fminF32V 6 4 5)).elem 6 0 = .val 0x80000000
    ∧ (runOn [] [(4, 0x7FC00000), (5, 0x3F800000)] (.fmaxF32V 6 4 5)).elem 6 0 = .val 0x3F800000 := by decide +kernel
/-- R211, R212: −0.4 rounds to −0; the class of a subnormal. -/
theorem test_frnd_and_fclass : (runOn [] [(4, 0xBECCCCCD)] (.frndF32 6 4)).elem 6 0 = .val 0x80000000
    ∧ (runOn [] [(4, 1)] (.fclassF32 6 4)).elem 6 0 = .val 0x20 := by decide +kernel
/-- R213: the special values of `frcp` and `fsqrt`; √2 rounded. -/
theorem test_special_functions : (runOn [] [(4, 0x80000000)] (.frcpF32 6 4)).elem 6 0 = .val 0xFF800000
    ∧ (runOn [] [(4, 0xBF800000)] (.fsqrtF32 6 4)).elem 6 0 = .val 0x7FC00000
    ∧ (runOn [] [(4, 0x40000000)] (.fsqrtF32 6 4)).elem 6 0 = .val 0x3FB504F3 := by decide +kernel
/-- R215's own examples. -/
theorem test_conversions : (runOn [] [(4, 0x43E40000)] (.cvt .e4m3 false .f32 4 6)).elem 6 0 = .val 0x7E
    ∧ (runOn [] [(4, 0x43EC0000)] (.cvt .e4m3 false .f32 4 6)).elem 6 0 = .val 0x7F
    ∧ (runOn [] [(4, 0x43EC0000)] (.cvt .e4m3 true .f32 4 6)).elem 6 0 = .val 0x7E
    ∧ (runOn [] [(4, 300)] (.cvt .i8 false .i32 4 6)).elem 6 0 = .val 44
    ∧ (runOn [] [(4, 300)] (.cvt .i8 true .i32 4 6)).elem 6 0 = .val 127
    ∧ (runOn [] [(4, 0x4788B800)] (.cvt .f16 false .f32 4 6)).elem 6 0 = .val 0x7C00 := by decide +kernel
/-- R216: 1.0 + 1.0 in the low half, −2.0 + 2.0 in the high one. -/
theorem test_padd : (runOn [] [(4, 0xC0003C00), (5, 0x40003C00)] (.paddF16V 6 4 5)).elem 6 0 = .val 0x4000 := by decide +kernel

/-- R95: a store and a load of scratch, little-endian, at an offset counted in units of the width. -/
theorem test_scratch : rdN (after (exec (.sts .b32 5 (.off 4 1)) (stateOf (from_ [(4, 8)] [(5, 0x11223344)])))).scr 12 4 = 0x11223344
    ∧ rdByte (after (exec (.sts .b32 5 (.off 4 1)) (stateOf (from_ [(4, 8)] [(5, 0x11223344)])))).scr 12 = 0x44
    ∧ rdByte (after (exec (.sts .b8 5 (.off 4 0)) (stateOf (from_ [(4, 9)] [(5, 0x11223344)])))).scr 10 = 0 := by decide +kernel
/-- R95: an odd address of a word is a fault that stores nothing. -/
theorem test_scratch_misaligned :
    haltedCtx (after (exec (.sts .b32 5 (.off 4 0)) (stateOf (from_ [(4, 2)] [(5, 1)])))) 0 = true
    ∧ (after (exec (.sts .b32 5 (.off 4 0)) (stateOf (from_ [(4, 2)] [(5, 1)])))).scr = [] := by decide +kernel
/-- R229: a global store through page 0, charged to FLAGB, and its address outside the mapping. -/
theorem test_global_store : rdN (after (exec (.stg .b32 5 (.off 4 0)) (stateOf (from_ [(4, 256)] [(5, 0x11223344)])))).mem 256 4 = 0x11223344
    ∧ (runOn [(4, 256)] [(5, 1)] (.stg .b32 5 (.off 4 0))).flag 1 = 1
    ∧ haltedCtx (after (exec (.stg .b32 5 (.off 4 0)) (stateOf (from_ [(5, 1)] [(5, 1)])))) 0 = true := by decide +kernel
/-- R268: the bits that differ, and a turn by one. -/
theorem test_hyper : let g := (grp.setH 1 5).setH 2 3
    (grpOf (after (exec (.hxor 3 1 2) (stateOf g)))).hreg 3 = 6
    ∧ (grpOf (after (exec (.hrot 3 1 (.imm 0x3F)) (stateOf g)))).hreg 3 = BitVec.ofNat 8192 (2 + 2 ^ 8191) := by decide +kernel
/-- R322, R371: a class 0x3C instruction at user level halts the context with PERM_FAULT. -/
theorem test_privileged_at_user_level : (runOn [] [] (.halt 4 5)).cause = 0x12
    ∧ haltedCtx (after (exec (.halt 4 5) st)) 0 = true := by decide +kernel
/-- R187: a breakpoint leaves the lane past itself and a stop record of cause BRK. -/
theorem test_brk : ((runOn [] [] (.brk 7)).lane 0).pcv = 8 ∧ haltedCtx (after (exec (.brk 7) st)) 0 = true := by decide +kernel
/-- R413: a filter sum goes to its register and the index moves on. -/
theorem test_filter : (let s := locusState 0 recWords
    let l := locusOf (after (exec (.filterAddi 2 5 3) s)) 4
    l.reg 2 = 3 ∧ l.index = 1) := by decide +kernel
end Sys2Proof.Tests
end

namespace Sys2Proof.Machine

/-! O60: a step keeps the five byte memories in canonical form. One lemma for each operation that answers with a
state says that it does, named after the operation under the predicate of its answer (`State.canonical.emit`,
`Out.canonical.complete`), so that the proof for an operation names the operations it calls, branch by branch. `upd`
stands for an update of fields that hold no bytes, `put` and `setScr` and its like for one that writes bytes by a rule
of Laws/Cells. -/

/-! What a step answers with, where it holds a state: that state is canonical. -/

/-- The state that an issue goes on with is canonical. -/
def Out.canonical : Out → Prop
  | .next t => t.canonical
  | _ => True

/-- The state of an engine's access, however it ends, is canonical. -/
def EngR.canonical {α : Type} : EngR α → Prop
  | .ok t _ => t.canonical
  | .wait t => t.canonical
  | .fail t _ _ => t.canonical
  | .illegal t => t.canonical

/-- The state of a unit of work, however it ends, is canonical. -/
def Unit1.canonical : Unit1 → Prop
  | .done t _ => t.canonical
  | .wait t => t.canonical
  | .fail t _ _ _ => t.canonical
  | .illegal t => t.canonical

/-- The state of an attempt to reserve room in an arena is canonical. -/
def Room.canonical : Room → Prop
  | .done t => t.canonical
  | .wait t => t.canonical
  | .full t => t.canonical

/-- The state of an attempt to make a tile resident is canonical. -/
def Ready.canonical : Ready → Prop
  | .ok t _ => t.canonical
  | .wait t => t.canonical
  | .fail t _ => t.canonical

/-- The state that a fetch leaves is canonical. -/
def Fetched.canonical : Fetched → Prop
  | .wait t => t.canonical
  | .cause o => Out.canonical o
  | .run t _ => t.canonical

/-- The state of an operation that may fail is canonical where it succeeds. -/
def OkCanonical {ε : Type} : Except ε State → Prop
  | .ok t => t.canonical
  | .error _ => True

/-- The state of an operation that may have none is canonical where there is one. -/
def SomeCanonical : Option State → Prop
  | some t => t.canonical
  | none => True

section
variable {s t : State}

theorem wf_mem (hs : s.canonical) : Memory.wf s.mem = true := hs.1
theorem wf_scr (hs : s.canonical) : Memory.wf s.scr = true := hs.2.1
theorem wf_arena (hs : s.canonical) : Memory.wf s.arena = true := hs.2.2.1
theorem wf_bst (hs : s.canonical) : Memory.wf s.bst = true := hs.2.2.2.1
theorem wf_ring (hs : s.canonical) : Memory.wf s.ring = true := hs.2.2.2.2

theorem wf_layElems {m : List Host.Cell} (hm : Memory.wf m = true) (base b : Nat) (es : List Nat) :
    Memory.wf (layElems m base b es) = true := by
  induction es generalizing m base with
  | nil => exact hm
  | cons e _ ih => exact ih (wf_wrN hm _ _ _) _

theorem wf_ite {p : Prop} [Decidable p] {m n : List Host.Cell} (hm : Memory.wf m = true) (hn : Memory.wf n = true) :
    Memory.wf (if p then m else n) = true := by split <;> assumption

namespace Out.canonical
protected theorem next (hs : s.canonical) : Out.canonical (.next s) := hs
protected theorem fault {r : Fault} : Out.canonical (.fault r) := trivial
protected theorem ite {p : Prop} [Decidable p] {a b : Out} (ha : Out.canonical a) (hb : Out.canonical b) :
    Out.canonical (if p then a else b) := by split <;> assumption
end Out.canonical

namespace EngR.canonical
variable {α : Type}
protected theorem ok {v : α} (hs : s.canonical) : EngR.canonical (.ok s v) := hs
protected theorem wait (hs : s.canonical) : EngR.canonical (.wait s : EngR α) := hs
protected theorem fail {f : Fail} {a : Nat} (hs : s.canonical) : EngR.canonical (.fail s f a : EngR α) := hs
protected theorem illegal (hs : s.canonical) : EngR.canonical (.illegal s : EngR α) := hs
end EngR.canonical

namespace Unit1.canonical
protected theorem done {x : Cmd} (hs : s.canonical) : Unit1.canonical (.done s x) := hs
protected theorem wait (hs : s.canonical) : Unit1.canonical (.wait s) := hs
protected theorem fail {f : Fail} {k a : Nat} (hs : s.canonical) : Unit1.canonical (.fail s f k a) := hs
protected theorem illegal (hs : s.canonical) : Unit1.canonical (.illegal s) := hs
end Unit1.canonical

namespace Room.canonical
protected theorem done (hs : s.canonical) : Room.canonical (.done s) := hs
protected theorem wait (hs : s.canonical) : Room.canonical (.wait s) := hs
protected theorem full (hs : s.canonical) : Room.canonical (.full s) := hs
end Room.canonical

namespace Ready.canonical
protected theorem ok {core : Nat} (hs : s.canonical) : Ready.canonical (.ok s core) := hs
protected theorem wait (hs : s.canonical) : Ready.canonical (.wait s) := hs
protected theorem fail {f : Fail} (hs : s.canonical) : Ready.canonical (.fail s f) := hs
end Ready.canonical

namespace Fetched.canonical
protected theorem wait (hs : s.canonical) : Fetched.canonical (.wait s) := hs
protected theorem cause {o : Out} (ho : Out.canonical o) : Fetched.canonical (.cause o) := ho
protected theorem run {i : Instr} (hs : s.canonical) : Fetched.canonical (.run s i) := hs
end Fetched.canonical

protected theorem OkCanonical.ok {ε : Type} (hs : s.canonical) : OkCanonical (.ok s : Except ε State) := hs
protected theorem OkCanonical.error {ε : Type} {e : ε} : OkCanonical (.error e) := trivial
protected theorem SomeCanonical.some (hs : s.canonical) : SomeCanonical (some s) := hs
protected theorem SomeCanonical.none : SomeCanonical none := trivial

namespace State.canonical

/-- An update of fields other than the byte memories, over the constructor so that it fits every `{ s with … }`. -/
protected theorem upd
    {turns iss free fresh time mclk lclk aboard caps regs held groups teams clusters saved launches queues
    idents launchCtx events prestat leavers rotq slot ctxs banks columns granules codes images tlb lts wts rts
    stamp ltFloor olds late walks l1 llc uses spilled partials tiles resvs spills defs bowner cmds msgs tris
    plans locus filters samples stops steps irqs ratio stall retireState retire retireQueue wear failed
    fuseKey rollback flashHeader flashBody flashKey flashSig pstate floor causes causeSince quietSince
    sessionKeys alarmed report ptm ucieHalf subnets peers vlreqs hostReads}
    (h : s.canonical) :
    (State.mk turns iss free fresh time mclk lclk s.mem s.scr s.arena s.bst s.ring aboard caps regs held groups teams
      clusters saved launches queues idents launchCtx events prestat leavers rotq slot ctxs banks columns
      granules codes images tlb lts wts rts stamp ltFloor olds late walks l1 llc uses spilled partials tiles
      resvs spills defs bowner cmds msgs tris plans locus filters samples stops steps irqs ratio stall
      retireState retire retireQueue wear failed fuseKey rollback flashHeader flashBody flashKey flashSig
      pstate floor causes causeSince quietSince sessionKeys alarmed report ptm ucieHalf subnets peers vlreqs
      hostReads).canonical := h

/-- An update of any fields that leaves the byte memories in canonical form. -/
protected theorem put
    {turns iss free fresh time mclk lclk aboard caps regs held groups teams clusters saved launches queues
    idents launchCtx events prestat leavers rotq slot ctxs banks columns granules codes images tlb lts wts rts
    stamp ltFloor olds late walks l1 llc uses spilled partials tiles resvs spills defs bowner cmds msgs tris
    plans locus filters samples stops steps irqs ratio stall retireState retire retireQueue wear failed
    fuseKey rollback flashHeader flashBody flashKey flashSig pstate floor causes causeSince quietSince
    sessionKeys alarmed report ptm ucieHalf subnets peers vlreqs hostReads}
    {mem scr arena bst ring : List Host.Cell} (hmem : Memory.wf mem = true) (hscr : Memory.wf scr = true)
    (harena : Memory.wf arena = true) (hbst : Memory.wf bst = true) (hring : Memory.wf ring = true) :
    (State.mk turns iss free fresh time mclk lclk mem scr arena bst ring aboard caps regs held groups teams
      clusters saved launches queues idents launchCtx events prestat leavers rotq slot ctxs banks columns
      granules codes images tlb lts wts rts stamp ltFloor olds late walks l1 llc uses spilled partials tiles
      resvs spills defs bowner cmds msgs tris plans locus filters samples stops steps irqs ratio stall
      retireState retire retireQueue wear failed fuseKey rollback flashHeader flashBody flashKey flashSig
      pstate floor causes causeSince quietSince sessionKeys alarmed report ptm ucieHalf subnets peers vlreqs
      hostReads).canonical :=
  ⟨hmem, hscr, harena, hbst, hring⟩

protected theorem setScr {m : List Host.Cell} (hs : s.canonical) (hm : Memory.wf m = true) :
    { s with scr := m }.canonical := .put (wf_mem hs) hm (wf_arena hs) (wf_bst hs) (wf_ring hs)

protected theorem setArena {m : List Host.Cell} (hs : s.canonical) (hm : Memory.wf m = true) :
    { s with arena := m }.canonical := .put (wf_mem hs) (wf_scr hs) hm (wf_bst hs) (wf_ring hs)

protected theorem setBst {m : List Host.Cell} (hs : s.canonical) (hm : Memory.wf m = true) :
    { s with bst := m }.canonical := .put (wf_mem hs) (wf_scr hs) (wf_arena hs) hm (wf_ring hs)

protected theorem setRing {m : List Host.Cell} (hs : s.canonical) (hm : Memory.wf m = true) :
    { s with ring := m }.canonical := .put (wf_mem hs) (wf_scr hs) (wf_arena hs) (wf_bst hs) hm

protected theorem ite {p : Prop} [Decidable p] (hs : s.canonical) (ht : t.canonical) :
    (if p then s else t).canonical := by split <;> assumption

protected theorem foldl {β : Type} {f : State → β → State} {l : List β}
    (hf : ∀ s b, s.canonical → (f s b).canonical) (hs : s.canonical) : (l.foldl f s).canonical := by
  induction l generalizing s with
  | nil => exact hs
  | cons b _ ih => exact ih (hf s b hs)

protected theorem foldl_fst {α β : Type} {f : State × α → β → State × α} {l : List β} {r : State × α}
    (hf : ∀ r b, r.1.canonical → (f r b).1.canonical) (hr : r.1.canonical) : (l.foldl f r).1.canonical := by
  induction l generalizing r with
  | nil => exact hr
  | cons b _ ih => exact ih (hf r b hr)

/-! What a result that has been taken apart held. -/

theorem of_pair {α : Type} {p : State × α} {a : α} (e : p = (s, a)) (h : p.1.canonical) : s.canonical := by
  subst e; exact h
theorem of_pair_snd {α : Type} {p : α × State} {a : α} (e : p = (a, s)) (h : p.2.canonical) : s.canonical := by
  subst e; exact h
theorem of_next {o : Out} (e : o = .next s) (h : Out.canonical o) : s.canonical := by subst e; exact h
theorem of_okay {ε : Type} {r : Except ε State} (e : r = .ok s) (h : OkCanonical r) : s.canonical := by
  subst e; exact h
theorem of_some {r : Option State} (e : r = some s) (h : SomeCanonical r) : s.canonical := by subst e; exact h
theorem of_engR_ok {α : Type} {r : EngR α} {v : α} (e : r = .ok s v) (h : r.canonical) : s.canonical := by
  subst e; exact h
theorem of_engR_wait {α : Type} {r : EngR α} (e : r = .wait s) (h : r.canonical) : s.canonical := by subst e; exact h
theorem of_engR_fail {α : Type} {r : EngR α} {f : Fail} {a : Nat} (e : r = .fail s f a) (h : r.canonical) :
    s.canonical := by subst e; exact h
theorem of_engR_illegal {α : Type} {r : EngR α} (e : r = .illegal s) (h : r.canonical) : s.canonical := by
  subst e; exact h
theorem of_unit_done {r : Unit1} {x : Cmd} (e : r = .done s x) (h : r.canonical) : s.canonical := by subst e; exact h
theorem of_unit_wait {r : Unit1} (e : r = .wait s) (h : r.canonical) : s.canonical := by subst e; exact h
theorem of_unit_fail {r : Unit1} {f : Fail} {k a : Nat} (e : r = .fail s f k a) (h : r.canonical) : s.canonical := by
  subst e; exact h
theorem of_unit_illegal {r : Unit1} (e : r = .illegal s) (h : r.canonical) : s.canonical := by subst e; exact h
theorem of_room_done {r : Room} (e : r = .done s) (h : r.canonical) : s.canonical := by subst e; exact h
theorem of_room_wait {r : Room} (e : r = .wait s) (h : r.canonical) : s.canonical := by subst e; exact h
theorem of_room_full {r : Room} (e : r = .full s) (h : r.canonical) : s.canonical := by subst e; exact h
theorem of_ready_ok {r : Ready} {core : Nat} (e : r = .ok s core) (h : r.canonical) : s.canonical := by
  subst e; exact h
theorem of_ready_wait {r : Ready} (e : r = .wait s) (h : r.canonical) : s.canonical := by subst e; exact h
theorem of_ready_fail {r : Ready} {f : Fail} (e : r = .fail s f) (h : r.canonical) : s.canonical := by
  subst e; exact h
theorem of_fetched_wait {r : Fetched} (e : r = .wait s) (h : r.canonical) : s.canonical := by subst e; exact h
theorem of_fetched_run {r : Fetched} {i : Instr} (e : r = .run s i) (h : r.canonical) : s.canonical := by
  subst e; exact h

end State.canonical

theorem Out.canonical.of_fetched_cause {r : Fetched} {o : Out} (e : r = .cause o) (h : r.canonical) :
    Out.canonical o := by subst e; exact h

variable {g : Group} {x : Cmd} {w : Word} {bank c cmd core gid id key n p slot tid va : Nat}

/-! ### Free choices, trace records, groups and causes -/

protected theorem State.canonical.reset : State.reset.canonical := .put wf_nil wf_nil wf_nil wf_nil wf_nil

protected theorem State.canonical.regSet {k : Nat} (hs : s.canonical) : (regSet s k w).canonical := .upd hs

protected theorem State.canonical.regSet64 {k v : Nat} (hs : s.canonical) : (regSet64 s k v).canonical :=
  .regSet (.regSet hs)

protected theorem State.canonical.putCtx {x : Ctx} (hs : s.canonical) : (putCtx s c x).canonical := .upd hs

protected theorem State.canonical.putBanks {b : CoreBanks} (hs : s.canonical) : (putBanks s core b).canonical :=
  .upd hs

protected theorem State.canonical.chose (hs : s.canonical) : (chose s).canonical := .upd hs

protected theorem Out.canonical.linked {k : State → Out} (hs : s.canonical)
    (hk : ∀ t : State, t.canonical → Out.canonical (k t)) : Out.canonical (linked s k) := by
  fun_cases linked
  · exact hk _ hs
  · exact hk _ (.chose hs)
  · exact .next (.chose hs)

protected theorem State.canonical.queueRecord {stack part : Nat} {ws : List Word} (hs : s.canonical) :
    (queueRecord s stack part ws).canonical := by
  fun_cases queueRecord
  · exact .upd hs
  · exact .regSet hs

protected theorem State.canonical.emit {ty stack part src payload : Nat} {n : Names} (hs : s.canonical) :
    (emit s ty stack part src payload n).canonical := by
  fun_cases emit
  · exact .queueRecord hs
  · exact hs

protected theorem State.canonical.putGroup {g : Nat} {gr : Group} (hs : s.canonical) :
    (putGroup s g gr).canonical := .upd hs

protected theorem State.canonical.updGroup {g : Nat} {f : Group → Group} (hs : s.canonical) :
    (updGroup s g f).canonical := .upd hs

protected theorem State.canonical.updTeam {t : Nat} {f : Team → Team} (hs : s.canonical) :
    (updTeam s t f).canonical := .upd hs

protected theorem State.canonical.bump (hs : s.canonical) : (bump s).canonical := .upd hs

protected theorem Out.canonical.complete {gr : Group} (hs : s.canonical) : (complete s gr).canonical :=
  .next (.upd hs)

protected theorem Out.canonical.completeMoved {gr : Group} (hs : s.canonical) : (completeMoved s gr).canonical :=
  .next (.upd hs)

protected theorem Out.canonical.later {phase : Nat} {vals : List Nat} (hs : s.canonical) :
    (later s g phase vals).canonical := .next (.putGroup hs)

protected theorem Out.canonical.stall (hs : s.canonical) : (stall s).canonical := .next hs

protected theorem State.canonical.raiseLine {src base : Nat} (hs : s.canonical) :
    (raiseLine s c src base).canonical := by
  fun_cases raiseLine
  · exact .putCtx hs
  · exact hs
  · exact .putCtx hs

protected theorem State.canonical.addRec {r : StopRec} (hs : s.canonical) : (addRec s c r).canonical := by
  fun_cases addRec
  · exact .putCtx hs
  · exact hs

protected theorem State.canonical.dropGroup {g : Nat} (hs : s.canonical) : (dropGroup s g).canonical := .upd hs

protected theorem State.canonical.freeB (hs : s.canonical) : (freeB s core tid).canonical := by
  fun_cases freeB
  · exact .put (wf_mem hs) (wf_scr hs) (wf_arena hs) (wf_zeroRange (wf_bst hs) _ _) (wf_ring hs)
  · exact hs

protected theorem State.canonical.discardHandler (hs : s.canonical) : (discardHandler s tid).canonical := by
  fun_cases discardHandler
  · exact hs
  · exact .upd (.putCtx (.putBanks (.freeB (.foldl (fun _ _ ht => .dropGroup ht) hs))))

protected theorem State.canonical.noteCause {g cause : Nat} (hs : s.canonical) :
    (noteCause s g cause).canonical := by
  fun_cases noteCause
  · exact .upd hs
  · exact hs

protected theorem State.canonical.stepCause {cause : Nat} (hs : s.canonical) : (stepCause s p cause).canonical :=
  .regSet hs

protected theorem State.canonical.raiseFault {g : Nat} {lanes : Word} {cause : Nat} {ltf : Bool} {pc : Nat}
    {d : Detail} (hs : s.canonical) : (raiseFault s g lanes cause ltf pc d).canonical := by
  fun_cases raiseFault
  · exact hs
  · exact .discardHandler (.emit (.noteCause hs))
  · exact .emit (.noteCause hs)
  · exact .stepCause (.putGroup (.emit (.noteCause hs)))
  · exact .addRec (.raiseLine (.putGroup (.emit (.noteCause hs))))

protected theorem Out.canonical.faultIssue {cause : Nat} {d : Detail} (hs : s.canonical) :
    (faultIssue s cause d).canonical := .next (.raiseFault hs)

protected theorem Out.canonical.faultWord {cause : Nat} (hs : s.canonical) : (faultWord s cause).canonical :=
  .faultIssue hs

protected theorem State.canonical.unitFault {stack : Nat} {tid : Option Nat} {r : StopRec} (hs : s.canonical) :
    (unitFault s c stack tid r).canonical := by
  fun_cases unitFault
  · split
    · exact .discardHandler (.emit hs)
    · exact .addRec (.raiseLine (.emit hs))
  · split
    · exact .discardHandler (.emit hs)
    · exact .addRec (.raiseLine (.emit hs))

protected theorem State.canonical.broadcast {launch team : Nat} (hs : s.canonical) :
    (broadcast s c launch team).canonical := by
  unfold Machine.broadcast
  refine .raiseLine ?_
  split
  · exact .upd hs
  · exact hs

protected theorem State.canonical.takeTrap {g : Nat} {lanes : Word} {code link : Nat} {info : Nat → Nat}
    {d : Detail} (hs : s.canonical) : (takeTrap s g lanes code link info d).canonical := by
  fun_cases takeTrap
  · exact hs
  · exact hs
  · exact .raiseFault (.putGroup hs)
  · exact .addRec (.putGroup (.ite (.stepCause (.emit (.noteCause hs))) (.emit (.noteCause hs))))
  · exact .putGroup (.ite (.stepCause (.emit (.noteCause hs))) (.emit (.noteCause hs)))

protected theorem Out.canonical.trapIssue {code : Nat} {info : Nat → Nat} {d : Detail} (hs : s.canonical) :
    (trapIssue s code info d).canonical := .next (.upd (.takeTrap hs))

/-! ### Operand forms and the checks every instruction makes -/

protected theorem Out.canonical.longStall (hs : s.canonical) : (longStall s g).canonical := .next (.putGroup hs)

protected theorem Out.canonical.begin_ {u : Use} {k : Group → Out} (hs : s.canonical) (hk : ∀ x, (k x).canonical) :
    (begin_ s u k).canonical := by
  fun_cases begin_
  · exact .fault
  · exact .faultWord hs
  · exact .faultWord hs
  · exact .faultWord hs
  · exact .faultWord hs
  · exact .longStall hs
  · exact .stall hs
  · exact hk _

protected theorem Out.canonical.blockOn {es : List (Nat × Nat × Nat)} (hs : s.canonical) :
    (blockOn s g es).canonical := by
  fun_cases blockOn
  · exact .next (.putGroup hs)
  · exact .longStall hs

protected theorem Out.canonical.poisonTrap {rs : List Nat} {k : Nat} (hs : s.canonical) :
    (poisonTrap s g rs k).canonical := .trapIssue hs

protected theorem Out.canonical.blocking {rs ls : List Nat} {k : Out} (hs : s.canonical) (hk : k.canonical) :
    (blocking s g rs ls k).canonical := by
  fun_cases blocking
  · exact .blockOn hs
  · exact .poisonTrap hs
  · exact hk

protected theorem Out.canonical.outranks {fault trap : Out} (hfault : fault.canonical) (htrap : trap.canonical) :
    (outranks fault trap).canonical := by
  fun_cases outranks
  · exact hfault
  · exact htrap
  · exact htrap

protected theorem Out.canonical.blockingAccess {rs ls : List Nat} {checks k : Out} (hs : s.canonical)
    (hchecks : checks.canonical) (hk : k.canonical) : (blockingAccess s g rs ls checks k).canonical := by
  fun_cases blockingAccess
  · exact .blockOn hs
  · exact .outranks hchecks (.poisonTrap hs)
  · exact hk

protected theorem Out.canonical.laneOp {rule : PfxRule} {a : Nat} {named rs sr : List Nat}
    {f : Group → Nat → Nat → Word} (hs : s.canonical) : (laneOp s rule a n named rs sr f).canonical :=
  .begin_ hs fun _ => .blocking hs (.complete hs)

protected theorem Out.canonical.laneOp2 {rule : PfxRule} {a b : VReg} {c : Src} {f : Word → Word → Word}
    (hs : s.canonical) : (laneOp2 s rule a b c f).canonical := .laneOp hs

protected theorem Out.canonical.laneOp1 {rule : PfxRule} {a b : VReg} {f : Group → Word → Word} (hs : s.canonical) :
    (laneOp1 s rule a b f).canonical := .laneOp hs

protected theorem Out.canonical.laneXform {rule : PfxRule} {a : VReg} {t : Group → Xform} {b : Option Nat}
    {x : Option Src} {flt : Bool} {addend : Option Nat} (hs : s.canonical) :
    (laneXform s rule a t b x flt addend).canonical := by
  unfold Machine.laneXform
  refine .begin_ hs fun _ => ?_
  extract_lets
  split
  · split
    · exact .complete hs
    · split
      · exact .next (.putGroup hs)
      · exact .longStall hs
  · exact .blocking hs (.longStall hs)

/-! ### Global and scratch memory -/

protected theorem State.canonical.fillSector {sec : Nat} (hs : s.canonical) : (fillSector s sec tid).canonical := by
  fun_cases fillSector
  · exact .upd hs
  · exact hs
  · exact .upd hs

protected theorem State.canonical.dirtyLine (hs : s.canonical) : (dirtyLine s key n).canonical := by
  fun_cases dirtyLine
  · exact hs
  · exact .upd hs

protected theorem State.canonical.writeBackSector {sec : Nat} (hs : s.canonical) :
    (writeBackSector s sec).canonical := .upd hs

protected theorem State.canonical.raiseTime {a t : Nat} (hs : s.canonical) : (raiseTime s a t).canonical := .upd hs

protected theorem State.canonical.visit {a sec : Nat} (hs : s.canonical) : (visit s a sec).canonical := .upd hs

protected theorem State.canonical.storeAt {v t : Nat} (hs : s.canonical) : (storeAt s key n v t).canonical :=
  .put (wf_wrN (wf_mem hs) _ _ _) (wf_scr hs) (wf_arena hs) (wf_bst hs) (wf_ring hs)

protected theorem State.canonical.applyPartials {x : List Partial} (hs : s.canonical) :
    (applyPartials n s x).canonical := by
  fun_induction applyPartials
  · exact hs
  · exact hs
  next ih => exact ih (.storeAt (.ite (.dirtyLine (.ite hs (.chose hs))) (.ite hs (.chose hs))))

protected theorem State.canonical.mergeLine {line : Nat} (hs : s.canonical) : (mergeLine s line).canonical := by
  fun_cases mergeLine
  · exact hs
  · exact .applyPartials (.upd hs)

protected theorem State.canonical.reach {a line : Nat} (hs : s.canonical) : (reach s a line).canonical := by
  fun_cases reach
  · exact hs
  · exact .mergeLine hs
  · exact .raiseTime (.mergeLine hs)

protected theorem State.canonical.readSlice (hs : s.canonical) : (readSlice s key n tid).1.canonical :=
  .ite (.fillSector (.mergeLine hs)) (.mergeLine hs)

protected theorem State.canonical.readSpan (hs : s.canonical) : (readSpan s key n tid).1.canonical := by
  unfold Machine.readSpan
  refine .foldl (fun _ _ ht => ?_) hs
  extract_lets
  split
  · exact .fillSector (.mergeLine ht)
  · exact .mergeLine ht

protected theorem State.canonical.writeSector {v t : Nat} (hs : s.canonical) :
    (writeSector s key n v tid t).canonical :=
  .storeAt (.ite (.dirtyLine (.fillSector (.mergeLine hs))) (.mergeLine hs))

protected theorem State.canonical.writeSectors {n1 n2 n3 n4 : Nat} (hs : s.canonical) :
    (writeSectors n s n1 n2 n3 n4).canonical := by
  fun_induction writeSectors
  · exact hs
  · exact .writeSector hs
  next ih => exact ih (.writeSector hs)

protected theorem State.canonical.writeSlice {v : Nat} (hs : s.canonical) : (writeSlice s key n v tid).canonical :=
  .writeSectors hs

protected theorem State.canonical.writeSpill {v surf : Nat} (hs : s.canonical) :
    (writeSpill s key n v tid surf).canonical := .upd (.writeSlice hs)

protected theorem State.canonical.forgetSpilled {surf : Nat} (hs : s.canonical) :
    (forgetSpilled s surf).canonical := .upd hs

protected theorem State.canonical.markOlds {due : Option Nat} (hs : s.canonical) :
    (markOlds s n cmd due).canonical := .upd hs

protected theorem State.canonical.writeEng {g : Nat} {due : Option Nat} {v : Nat} (hs : s.canonical) :
    (writeEng s g cmd due key n v tid).canonical := .raiseTime (.markOlds (.writeSector hs))

protected theorem State.canonical.scrWrite {a v : Nat} (hs : s.canonical) : (scrWrite s a key n v).canonical :=
  .put (wf_mem (.visit hs)) (wf_wrN (wf_scr (.visit hs)) _ _ _) (wf_arena (.visit hs)) (wf_bst (.visit hs))
    (wf_ring (.visit hs))

protected theorem State.canonical.scrRead {a : Nat} (hs : s.canonical) : (scrRead s a key n).1.canonical :=
  .visit hs

protected theorem State.canonical.stampEng {g sec : Nat} (hs : s.canonical) : (stampEng s g sec).canonical :=
  .raiseTime (.upd hs)

protected theorem State.canonical.scrEng {g : Nat} {due : Option Nat} {v : Nat} (hs : s.canonical) :
    (scrEng s g cmd due key n v).canonical :=
  .markOlds (.put (wf_mem (.stampEng hs)) (wf_wrN (wf_scr (.stampEng hs)) _ _ _) (wf_arena (.stampEng hs))
    (wf_bst (.stampEng hs)) (wf_ring (.stampEng hs)))

protected theorem State.canonical.readBack {fits : OldByte → Bool} {base : Nat} {m : List Host.Cell}
    {rs : List (Nat × Nat)} (hs : s.canonical) : (readBack s fits base m rs).1.canonical := by
  fun_cases readBack
  · exact hs
  · exact .chose hs

protected theorem State.canonical.readEngs {pushed seen : Nat} {acq : Bool} {rs : List (Nat × Nat)}
    (hs : s.canonical) : (readEngs s core pushed seen acq rs tid).1.canonical :=
  .readBack (.foldl (fun _ _ ht => .readSlice ht) hs)

protected theorem State.canonical.landPart {w : LateWrite} {p : LatePart} (hs : s.canonical) :
    (landPart w s p).canonical := by
  fun_cases landPart
  · exact .writeEng hs
  · exact .scrEng hs
  · exact hs

protected theorem State.canonical.landWrite {w : LateWrite} (hs : s.canonical) : (landWrite s w).canonical :=
  .foldl (fun _ _ ht => .landPart ht) hs

protected theorem State.canonical.landThose {f : LateWrite → Bool} (hs : s.canonical) : (landThose s f).canonical :=
  .foldl (fun _ _ ht => .landWrite ht) (.upd hs)

protected theorem State.canonical.landAll (hs : s.canonical) : (landAll s).canonical := .landThose hs

protected theorem State.canonical.landNth {k : Nat} (hs : s.canonical) : (landNth s k).canonical := by
  fun_cases landNth
  · exact hs
  · exact hs
  · exact .landWrite (.upd hs)

protected theorem State.canonical.landDue (hs : s.canonical) : (landDue s).canonical := .landThose hs

protected theorem State.canonical.boundLate (hs : s.canonical) : (boundLate s cmd).canonical := .upd hs

protected theorem State.canonical.makeRoom {i : Nat} (hs : s.canonical) : (makeRoom s core i).canonical := by
  fun_cases makeRoom
  · exact hs
  · exact hs
  · exact .chose (.upd hs)

protected theorem State.canonical.placeCopy {core sec : Nat} {c : L1Copy} (hs : s.canonical) :
    (placeCopy s core sec c).canonical := by
  unfold Machine.placeCopy
  extract_lets lent i t
  have ht : t.canonical := .makeRoom (.chose (.upd hs))
  exact .ite hs (.put (wf_mem ht) (wf_ite (wf_scr ht) (wf_zeroRange (wf_scr ht) _ _)) (wf_arena ht) (wf_bst ht)
    (wf_ring ht))

protected theorem State.canonical.grantCopy (hs : s.canonical) : (grantCopy s core key tid).canonical :=
  .placeCopy (.upd hs)

protected theorem State.canonical.readCore (hs : s.canonical) : (readCore s core key n tid).1.canonical := by
  fun_cases readCore
  · exact .upd hs
  · exact .grantCopy (.readSlice (.reach hs))

protected theorem State.canonical.stampWrite {a : Nat} (hs : s.canonical) : (stampWrite s a key).canonical :=
  .upd hs

protected theorem State.canonical.writeCore {a v : Nat} (hs : s.canonical) :
    (writeCore s a key n v tid).canonical := .stampWrite (.writeSector (.reach hs))

protected theorem State.canonical.readAgent {a : Nat} (hs : s.canonical) : (readAgent s a key n tid).1.canonical :=
  .upd (.readSlice (.reach hs))

protected theorem State.canonical.acquire (hs : s.canonical) : (acquire s core).canonical := .upd hs

protected theorem State.canonical.dropCopies (hs : s.canonical) : (dropCopies s core).canonical := .upd hs

protected theorem State.canonical.discard (hs : s.canonical) : (discard s tid).canonical :=
  .put (wf_foldl _ (fun _ _ ht => wf_foldl _ (fun _ _ hu => wf_ite hu (wf_wrByte hu _ _)) _ ht) _ (wf_mem hs))
    (wf_scr hs) (wf_arena hs) (wf_bst hs) (wf_ring hs)

protected theorem State.canonical.publish {cid scope t : Nat} (hs : s.canonical) :
    (publish s core cid scope t).canonical := by
  fun_cases publish
  · exact .foldl (fun _ _ ht => .raiseTime (.raiseTime ht)) hs
  · exact .upd hs

protected theorem State.canonical.publishAll (hs : s.canonical) : (publishAll s).canonical := .publish hs

protected theorem State.canonical.zeroHome {a : Nat} (hs : s.canonical) : (zeroHome s a n).canonical :=
  .put (wf_zeroRange (wf_mem hs) _ _) (wf_scr hs) (wf_arena hs) (wf_bst hs) (wf_ring hs)

protected theorem State.canonical.walkEntry {stack a : Nat} (hs : s.canonical) :
    (walkEntry s stack a).1.canonical := by
  have hr : (readSlice s a 16 0).1.canonical := .readSlice hs
  fun_cases walkEntry
  · exact hr
  · exact hs
  · exact .chose hs
  · exact .chose hr

protected theorem State.canonical.walkFrom {stack n1 : Nat} (hs : s.canonical) :
    (walkFrom s stack p va n n1).1.canonical := by
  fun_induction walkFrom
  · exact .walkEntry hs
  · exact .walkEntry hs
  · exact .walkEntry hs
  next ih => exact ih (.upd (.walkEntry hs))

protected theorem State.canonical.walk {stack : Nat} (hs : s.canonical) : (walk s stack c va).1.canonical := by
  fun_cases walk
  · exact hs
  · exact hs
  · exact .walkFrom hs

protected theorem State.canonical.translate (hs : s.canonical) : (translate s core c va).1.canonical := by
  fun_cases translate
  · exact hs
  · exact hs
  · exact .upd hs
  next e => exact .of_pair e (.walk hs)
  next e _ => exact .upd (.of_pair e (.walk hs))

protected theorem State.canonical.checkAccessIn {ts : List TlbEntry} {need : Need} {fmtBad : Nat → Bool}
    {align : Nat → Nat} (hs : s.canonical) : (checkAccessIn ts s core c va n need fmtBad align).1.canonical := by
  fun_cases checkAccessIn
  · exact hs
  next e => exact .of_pair e (.translate hs)
  next e _ _ _ => exact .of_pair e (.translate hs)
  next e _ _ _ => exact .of_pair e (.translate hs)
  next e _ _ _ _ _ _ => exact .of_pair e (.translate hs)
  next e _ _ _ _ _ _ _ => exact .of_pair e (.translate hs)
  next e _ _ _ _ _ _ => exact .of_pair e (.translate hs)

protected theorem State.canonical.checkAccess {need : Need} {fmtBad : Nat → Bool} {align : Nat → Nat}
    (hs : s.canonical) : (checkAccess s core c va n need fmtBad align).1.canonical := .checkAccessIn hs

protected theorem Out.canonical.failLanes {kind : Nat} {fs : List (Nat × Fail × Nat)} (hs : s.canonical) :
    (failLanes s g kind fs).canonical := by
  fun_cases failLanes
  · exact .stall hs
  · exact .stall hs
  · exact .faultIssue hs

/-! ### Surfaces -/

protected theorem State.canonical.entryWrite {off v : Nat} (hs : s.canonical) :
    (entryWrite s c slot off n v).canonical := by
  fun_cases entryWrite
  · exact .writeSlice hs
  · exact hs

protected theorem State.canonical.entryCount {off : Nat} {d : Int} (hs : s.canonical) :
    (entryCount s c slot off d).canonical := .entryWrite hs

protected theorem State.canonical.putTile {t : Nat} {x : Tile} (hs : s.canonical) :
    (putTile s c slot t x).canonical := .upd hs

protected theorem State.canonical.splCount {stack which : Nat} (hs : s.canonical) :
    (splCount s stack which).canonical := .regSet hs

protected theorem OkCanonical.homeWrite {f : Surf} {t mode : Nat} {es : List Nat} (hs : s.canonical) :
    OkCanonical (homeWrite s c slot core f t mode es) := by
  fun_cases homeWrite
  · exact .ok (.emit (.entryCount (.splCount hs)))
  · exact .error
  next e => exact .ok (.emit (.entryCount (.splCount (.writeSpill (.of_pair e (.checkAccess hs))))))

protected theorem State.canonical.spillFailed {f : Surf} {t : Nat} {e : Fail} (hs : s.canonical) :
    (spillFailed s c slot core f t e).canonical := .unitFault (.ite hs (.regSet (.regSet hs)))

protected theorem State.canonical.dropResv (hs : s.canonical) : (dropResv s core c slot).canonical := .upd hs

protected theorem State.canonical.touch (hs : s.canonical) : (touch s core c slot).canonical := .upd hs

protected theorem State.canonical.leaveArena {f : Surf} {t : Nat} (hs : s.canonical) :
    (leaveArena s c slot f t).canonical := .entryCount (.putTile (.setArena hs (wf_zeroRange (wf_arena hs) _ _)))

protected theorem State.canonical.startEvict {r : Resv} {f : Surf} (hs : s.canonical) :
    (startEvict s r f).canonical := by
  fun_cases startEvict
  · exact .dropResv (.foldl (fun _ _ ht => .leaveArena ht) hs)
  · exact .foldl (fun _ _ ht => .bump (.upd ht)) (.foldl (fun _ _ ht => .leaveArena ht) hs)

protected theorem State.canonical.spillDone {id : Nat} (hs : s.canonical) : (spillDone s id).canonical := by
  unfold Machine.spillDone
  split
  · exact hs
  · split
    · exact hs
    · extract_lets t
      have ht : t.canonical := .upd hs
      split
      · exact ht
      · extract_lets mode u more
        have hu : u.canonical := by
          unfold u
          split
          next e => exact .leaveArena (.of_okay e (.homeWrite ht))
          · exact .spillFailed (.upd ht)
        split
        · exact .ite hu (.dropResv hu)
        · exact hu

protected theorem State.canonical.clearFailed (hs : s.canonical) : (clearFailed s core).canonical := .upd hs

protected theorem Room.canonical.reserve {bytes : Nat} (hs : s.canonical) :
    (reserve s p core c slot bytes).canonical := by
  fun_cases reserve
  · exact .wait hs
  · exact .done (.upd (.clearFailed hs))
  · exact .full (.clearFailed hs)
  · exact .wait (.startEvict hs)
  · exact .wait (.dropResv hs)

protected theorem Ready.canonical.ready {f : Surf} {t : Nat} (hs : s.canonical) :
    (ready s c slot f t).canonical := by
  fun_cases ready
  · exact .fail hs
  · exact .wait hs
  · exact .ok (.touch hs)
  · exact .wait hs
  next e => exact .wait (.of_room_done e (.reserve hs))
  next e => exact .wait (.of_room_wait e (.reserve hs))
  next e => exact .fail (.of_room_full e (.reserve hs))
  · exact .ok (.touch (.emit (.splCount (.entryCount (.entryCount
      (.putTile (.setArena hs (wf_layElems (wf_arena hs) _ _ _))))))))
  next e => exact .fail (.of_pair e (.checkAccess hs))
  next e _ => exact .ok (.touch (.emit (.splCount (.entryCount
    (.entryCount (.putTile (.setArena (.readSpan (.of_pair e (.checkAccess hs)))
    (wf_layElems (wf_arena (.readSpan (.of_pair e (.checkAccess hs)))) _ _ _))))))))

protected theorem State.canonical.layTile {f : Surf} {t : Nat} {es : List Nat} (hs : s.canonical) :
    (layTile s c slot f t es).canonical := .putTile (.setArena hs (wf_layElems (wf_arena hs) _ _ _))

protected theorem State.canonical.recodeTile {f : Surf} {t : Nat} (hs : s.canonical) :
    (recodeTile s c slot f t).canonical := .putTile hs

protected theorem State.canonical.tileLay {p : Samp} {v : Nat} (hs : s.canonical) : (tileLay s c p n v).canonical :=
  .layTile (.upd hs)

protected theorem State.canonical.tileWrite {p : Samp} {v : Nat} (hs : s.canonical) :
    (tileWrite s c p n v).canonical := .recodeTile (.tileLay hs)

protected theorem State.canonical.visitSample {p : Samp} (hs : s.canonical) : (visitSample s core c p).canonical :=
  .visit (.raiseTime hs)

protected theorem State.canonical.stampSurface (hs : s.canonical) : (stampSurface s core c slot).canonical :=
  .upd (.raiseTime hs)

protected theorem State.canonical.forgetSurface (hs : s.canonical) : (forgetSurface s c slot).canonical :=
  .put (wf_mem hs) (wf_scr hs) (wf_zeroRange (wf_arena hs) _ _) (wf_bst hs) (wf_ring hs)

/-! ### Completion flags -/

protected theorem Out.canonical.completeOp {k : Nat} {vw sw : List (Nat × Word)} {hw : Option (Nat × BitVec 8192)}
    {ext : Bool} (hs : s.canonical) : (completeOp s g k vw sw hw ext).canonical := .complete (.bump hs)

protected theorem Out.canonical.charged {k : Nat} {go : Out} (hs : s.canonical) (hgo : go.canonical) :
    (charged s g k go).canonical := by
  fun_cases charged
  · exact .longStall hs
  · exact hgo

/-! ### Events, waits, barriers and the sets of a wedge -/

protected theorem State.canonical.fenced {scope : Nat} (hs : s.canonical) : (fenced s gid g scope).canonical :=
  .publish hs

protected theorem State.canonical.releaseAll (hs : s.canonical) : (releaseAll s gid g).canonical := .publish hs

protected theorem State.canonical.mapGroups {f : Nat → Group → Group} (hs : s.canonical) :
    (mapGroups s f).canonical := .upd hs

protected theorem SomeCanonical.evArm {ev : Nat} {w : Waiter} (hs : s.canonical) :
    SomeCanonical (evArm s p ev w) := by
  fun_cases evArm
  · exact .some (.upd hs)
  · exact .some (.upd hs)
  · exact .some (.upd hs)
  · exact .none

protected theorem State.canonical.evLeave {gone : Waiter → Bool} (hs : s.canonical) : (evLeave s gone).canonical :=
  .upd hs

protected theorem State.canonical.signalEvent {ev : Nat} (hs : s.canonical) : (signalEvent s p ev).canonical := by
  fun_cases signalEvent
  · exact hs
  · exact .emit (.upd (.mapGroups (.upd hs)))

protected theorem State.canonical.releaseWait {w : Nat} (hs : s.canonical) : (releaseWait s gid w).canonical := by
  fun_cases releaseWait
  · exact hs
  · exact hs
  · exact .evLeave (.putGroup hs)

protected theorem State.canonical.releaseBar {gs : List Nat} {cl : Bool} (hs : s.canonical) :
    (releaseBar s gs cl n).canonical := by
  unfold Machine.releaseBar
  refine .foldl (fun _ _ ht => ?_) hs
  split
  · exact ht
  · exact .raiseTime (.putGroup ht)

protected theorem State.canonical.testTeamBars (hs : s.canonical) : (testTeamBars s tid).canonical := by
  fun_cases testTeamBars
  · exact hs
  · exact .emit (.releaseBar hs)
  · exact hs
  · exact hs

protected theorem State.canonical.testClusterBars {cid : Nat} (hs : s.canonical) :
    (testClusterBars s cid).canonical := by
  fun_cases testClusterBars
  · exact hs
  · refine .foldl (fun _ _ ht => ?_) hs
    split
    · exact .emit (.upd (.releaseBar ht))
    · exact ht

protected theorem State.canonical.activate {forced : Bool} (hs : s.canonical) : (activate s gid forced).canonical :=
  .bump (.updGroup hs)

protected theorem State.canonical.deactivate (hs : s.canonical) : (deactivate s gid).canonical :=
  .bump (.updGroup hs)

protected theorem State.canonical.fillActive {wedge : Nat} (hs : s.canonical) :
    (fillActive s core bank wedge).canonical := by
  fun_cases fillActive
  · exact .activate hs
  · exact hs
  · exact hs

protected theorem State.canonical.endGroup (hs : s.canonical) : (endGroup s gid).canonical := by
  fun_cases endGroup
  · exact hs
  · exact .ite (.fillActive (.dropGroup hs)) (.dropGroup hs)
  · exact .testTeamBars (.updTeam (.ite (.fillActive (.dropGroup hs)) (.dropGroup hs)))

protected theorem State.canonical.closeFragLanes {m : Word} (hs : s.canonical) :
    (closeFragLanes s g m).canonical := by
  fun_cases closeFragLanes
  · exact hs
  · exact .upd hs

protected theorem State.canonical.loseIdem (hs : s.canonical) : (loseIdem s g).canonical := by
  fun_cases loseIdem
  · exact .updTeam hs
  · exact hs

/-! ### Waits, timed sleep, barriers, events and device-side launch -/

protected theorem Out.canonical.annHold {k : Out} (hs : s.canonical) (hk : k.canonical) :
    (annHold s k).canonical := by
  fun_cases annHold
  · exact .stall hs
  · exact hk

protected theorem OkCanonical.armAll {w : Nat} {x : List WCond} (hs : s.canonical) :
    OkCanonical (armAll s p gid w x) := by
  fun_induction armAll
  · exact .ok hs
  next e ih => exact ih (.of_some e (.evArm hs))
  · exact .error
  next ih => exact ih hs

protected theorem Out.canonical.waitOp {any : Bool} {a b : SReg} {c : XOp} (hs : s.canonical) :
    (waitOp s any a b c).canonical := by
  unfold Machine.waitOp
  refine .begin_ hs fun _ => .ite (.faultWord hs) ?_
  dsimp only
  split
  · exact .failLanes hs
  · refine .ite (.stall hs) (.ite (.stall hs) (.ite (.complete hs) ?_))
    split
    · exact .faultIssue hs
    next e => exact .completeMoved (.bump (.of_okay e (.armAll hs)))

protected theorem Out.canonical.execSleepAt {b : SReg} (hs : s.canonical) : (execSleepAt b s).canonical := by
  unfold Machine.execSleepAt
  refine .begin_ hs fun _ => ?_
  extract_lets
  split
  · exact .complete hs
  · exact .completeMoved hs

protected theorem State.canonical.promiseMiss {lanes : Word} {link addr : Nat} (hs : s.canonical) :
    (promiseMiss s gid lanes link addr p).canonical := .takeTrap hs

protected theorem Out.canonical.execSleepAtProm {b : SReg} (hs : s.canonical) :
    (execSleepAtProm b s).canonical := by
  refine .begin_ hs fun g => ?_
  extract_lets addr
  split
  · -- the two words read stay opaque, or matching the conditions on them evaluates the reads
    extract_lets p
    clear_value p
    generalize rdN s.scr _ 8 = o
    exact .ite (.stall hs) (.ite (.complete hs) (.ite (.next (.upd (.promiseMiss hs))) (.completeMoved hs)))
  · exact .failLanes hs
  · exact .failLanes hs

protected theorem Out.canonical.execRdtime {a : SReg} (hs : s.canonical) : (execRdtime a s).canonical :=
  .begin_ hs fun _ => .complete hs

protected theorem Out.canonical.barOp {cl : Bool} (hs : s.canonical) : (barOp s cl n).canonical := by
  unfold Machine.barOp
  refine .begin_ hs fun _ => ?_
  split
  · exact .faultWord hs
  · exact .completeMoved hs

protected theorem Out.canonical.execEvsig {b : SReg} (hs : s.canonical) : (execEvsig b s).canonical :=
  .begin_ hs fun _ => .annHold hs (.next (.signalEvent (.upd (.releaseAll (.loseIdem hs)))))

protected theorem State.canonical.nextIdent (hs : s.canonical) : (nextIdent s p).2.canonical := .upd hs

protected theorem State.canonical.putQueue {q : Nat} {x : Queue} (hs : s.canonical) :
    (putQueue s p q x).canonical := .upd hs

protected theorem Out.canonical.execLaunch {a b : SReg} {c : XOp} (hs : s.canonical) :
    (execLaunch a b c s).canonical := by
  unfold Machine.execLaunch
  refine .begin_ hs fun _ => ?_
  extract_lets
  split
  · exact .faultWord hs
  · split
    next e => exact .failLanes (.of_pair e (.checkAccess hs))
    next e =>
      split
      · exact .stall (.of_pair e (.checkAccess hs))
      · split
        · exact .longStall (.of_pair e (.checkAccess hs))
        · extract_lets
          split
          · exact .complete (.loseIdem (.releaseAll (.of_pair e (.checkAccess hs))))
          · refine .complete (.putQueue ?_)
            split
            · exact .upd (.upd (.loseIdem (.releaseAll (.of_pair e (.checkAccess hs)))))
            · exact .upd (.loseIdem (.releaseAll (.of_pair e (.checkAccess hs))))

protected theorem Out.canonical.execSymWait {c : XOp} (hs : s.canonical) : (execSymWait c s).canonical := by
  unfold Machine.execSymWait
  refine .begin_ hs fun _ => ?_
  extract_lets
  split
  · exact .complete hs
  · exact .longStall hs

/-! ### Per-lane accesses -/

protected theorem State.canonical.checkLanes {α : Type} {chk : State → Nat → State × Except Fail α}
    {addr : Nat → Nat} {x : List Nat} (hchk : ∀ t : State, t.canonical → ∀ x, (chk t x).1.canonical)
    (hs : s.canonical) : (checkLanes chk addr s x).1.canonical := by
  fun_induction checkLanes
  · exact hs
  next e _ ih => exact ih (.of_pair e (hchk _ hs _))
  next e _ ih => exact ih (.of_pair e (hchk _ hs _))

protected theorem Out.canonical.peerHold {ptes : List (BitVec 128)} {k : Out} (hs : s.canonical)
    (hk : k.canonical) : (peerHold s g ptes k).canonical := by
  fun_cases peerHold
  · exact hk
  · exact .next (.bump (.upd hs))

protected theorem State.canonical.makePoints {f : State → Point → State × Nat} {x : List Point}
    (hf : ∀ t : State, t.canonical → ∀ x, (f t x).1.canonical) (hs : s.canonical) :
    (makePoints f s x).1.canonical := by
  fun_induction makePoints
  · exact hs
  next ih => exact ih (hf _ hs _)

protected theorem Out.canonical.inParts {gather : Bool} {f : State → Point → State × Nat} {done todo : List Point}
    {k : State → List Point → Out} (hs : s.canonical) (hf : ∀ t : State, t.canonical → ∀ x, (f t x).1.canonical)
    (hk : ∀ t : State, t.canonical → ∀ x, (k t x).canonical) : (inParts s g gather f done todo k).canonical := by
  fun_cases inParts
  · exact hk _ (.makePoints hf hs) _
  · exact .later (.makePoints hf hs)

protected theorem Out.canonical.partwise {gather : Bool} {f : State → Point → State × Nat}
    {k : State → List Point → Out} {start : (State → List Point → Out) → Out} (hs : s.canonical)
    (hf : ∀ t : State, t.canonical → ∀ x, (f t x).1.canonical)
    (hk : ∀ t : State, t.canonical → ∀ x, (k t x).canonical)
    (hstart : ∀ x, (∀ t : State, t.canonical → ∀ y, (x t y).canonical) → (start x).canonical) :
    (partwise s g gather f k start).canonical := by
  fun_cases partwise
  · exact .stall hs
  · exact .inParts hs hf fun _ ht _ => hk _ ht _
  · exact hstart _ fun _ ht _ => .inParts ht hf fun _ hu _ => hk _ hu _

protected theorem State.canonical.strike {rd wr : Bool} {xs : List Seen} (hs : s.canonical) :
    (strike s g rd wr xs).1.canonical := by
  fun_cases strike <;> exact .foldl (fun _ _ ht => .emit ht) hs

protected theorem Out.canonical.watched {g : Group} {rd wr : Bool} {xs : List Seen} {o : Out} (ho : o.canonical) :
    (watched g rd wr xs o).canonical := by
  fun_cases watched
  next e => exact .next (.of_pair e (.strike ho))
  next e _ => exact .next (.ite (.broadcast (.raiseFault (.of_pair e (.strike ho))))
    (.raiseFault (.of_pair e (.strike ho))))
  · exact ho
  · exact ho

protected theorem Out.canonical.laneMem {rule : PfxRule} {dst data mv ms : List Nat} {flag : Group → Nat}
    {k : Group → List Nat → Out} (hs : s.canonical) (hk : ∀ x y, (k x y).canonical) :
    (laneMem s rule dst data mv ms flag k).canonical :=
  .begin_ hs fun _ => .blockingAccess hs (hk _ _) (.annHold hs (.charged hs (hk _ _)))

protected theorem Out.canonical.deliverLanes {a flag : Nat} {vals : List (Nat × List Word)} {ext : Bool}
    (hs : s.canonical) : (deliverLanes s g a n flag vals ext).canonical := .completeOp hs

protected theorem Out.canonical.symLimit (hs : s.canonical) : (symLimit s g).canonical := by
  fun_cases symLimit
  · exact .next (.putGroup hs)
  · exact .longStall hs

protected theorem Out.canonical.symbolicLoad {s0 : State} {a : Nat} {flt : Bool} {ex : List Nat}
    {vals : List (Nat × Word)} {bad : List Nat} (hs0 : s0.canonical) (hs : s.canonical) :
    (symbolicLoad s0 s g a flt ex vals bad).canonical := by
  fun_cases symbolicLoad
  · exact .complete (.bump hs)
  · exact .symLimit hs0

protected theorem Out.canonical.symbolicEnd {flt : Bool} {a : Nat} {ex : List Nat} {bad : List (Nat × Fail × Nat)}
    {perform : State → State × List Point} {xs : List Seen} (hs : s.canonical)
    (hperform : ∀ t : State, t.canonical → (perform t).1.canonical) :
    (symbolicEnd s g flt a ex bad perform xs).canonical := by
  fun_cases symbolicEnd
  · exact .stall hs
  · exact .watched (.symbolicLoad hs (hperform _ hs))

/-! ### Lane loads and stores -/

protected theorem State.canonical.checkLoad {ts : List TlbEntry} {t : AccTy} (hs : s.canonical) :
    (checkLoad ts s core c va t).1.canonical := by
  fun_cases checkLoad
  next e => exact .of_pair e (.checkAccessIn hs)
  next e _ _ _ _ => exact .of_pair e (.checkAccessIn hs)
  next e _ _ _ _ _ _ => exact .of_pair e (.checkAccessIn hs)
  next e _ _ _ _ => exact .of_pair e (.checkAccessIn hs)

protected theorem State.canonical.readFresh (hs : s.canonical) : (readFresh s core key n tid).1.canonical :=
  .grantCopy (.readSlice (.reach (.upd hs)))

protected theorem State.canonical.loadPoint {t : AccTy} {p : Point} (hs : s.canonical) :
    (loadPoint s core t p).1.canonical := by
  fun_cases loadPoint
  · exact .readFresh (.readFresh hs)
  · exact .readCore hs

protected theorem Out.canonical.loadEnd {t : AccTy} {a : Nat} {ps : List Point} {xs : List Seen}
    (hs : s.canonical) : (loadEnd s g t a ps xs).canonical := .watched (.deliverLanes hs)

protected theorem State.canonical.performLanes {α β : Type} {f : State → α → State × β} {x : List (Nat × α)}
    (hf : ∀ t : State, t.canonical → ∀ x, (f t x).1.canonical) (hs : s.canonical) :
    (performLanes f s x).1.canonical := by
  fun_induction performLanes
  · exact hs
  next ih => exact ih (hf _ hs _)

protected theorem Out.canonical.globalLoad {sym : Bool} {t : AccTy} {a : VReg} {m : MemOp} (hs : s.canonical) :
    (globalLoad s sym t a m).canonical := by
  unfold Machine.globalLoad
  refine .laneMem hs fun _ _ => .partwise hs (fun _ ht _ => .loadPoint ht) (fun _ ht _ => .loadEnd ht) fun _ ht =>
    ?_
  extract_lets
  split
  · exact .failLanes (.checkLanes (fun _ hu _ => .checkLoad hu) hs)
  · refine .peerHold (.checkLanes (fun _ hu _ => .checkLoad hu) hs) ?_
    split
    · exact ht _ (.checkLanes (fun _ hu _ => .checkLoad hu) hs) _
    · exact .symbolicEnd (.checkLanes (fun _ hu _ => .checkLoad hu) hs) fun _ hu => .makePoints
        (fun _ hv _ => .loadPoint hv) hu

protected theorem Out.canonical.globalStore {t : AccTy} {a : VReg} {m : MemOp} (hs : s.canonical) :
    (globalStore s t a m).canonical := by
  unfold Machine.globalStore
  refine .laneMem hs fun _ _ => .partwise hs (fun _ ht _ => .writeCore ht) (fun _ ht _ => .watched (.completeOp ht))
    fun _ ht => ?_
  extract_lets
  split
  · exact .failLanes (.checkLanes (fun _ hu _ => .checkAccessIn hu) hs)
  · exact .peerHold (.checkLanes (fun _ hu _ => .checkAccessIn hu) hs)
      (ht _ (.loseIdem (.checkLanes (fun _ hu _ => .checkAccessIn hu) hs)) _)

protected theorem State.canonical.loseIfRemote {keys : List Nat} (hs : s.canonical) :
    (loseIfRemote s g keys).canonical := by
  fun_cases loseIfRemote
  · exact .loseIdem hs
  · exact hs

protected theorem Out.canonical.scratchLoad {sym : Bool} {t : AccTy} {a : VReg} {m : MemOp} (hs : s.canonical) :
    (scratchLoad s sym t a m).canonical := by
  unfold Machine.scratchLoad
  refine .laneMem hs fun _ _ => .partwise hs (fun _ ht _ => .scrRead ht) (fun _ ht _ => .loadEnd ht) fun _ ht => ?_
  extract_lets
  split
  · split
    · exact .failLanes hs
    · exact ht _ hs _
  · exact .symbolicEnd hs fun _ hu => .makePoints (fun _ hv _ => .scrRead hv) hu

protected theorem Out.canonical.scratchStore {t : AccTy} {a : VReg} {m : MemOp} (hs : s.canonical) :
    (scratchStore s t a m).canonical := by
  unfold Machine.scratchStore
  refine .laneMem hs fun _ _ => .partwise hs (fun _ ht _ => .scrWrite ht) (fun _ ht _ => .watched (.completeOp ht))
    fun _ ht => ?_
  extract_lets
  split
  · exact .failLanes hs
  · exact ht _ (.loseIfRemote hs) _

protected theorem State.canonical.readyLanes {x : List (Nat × Samp)} (hs : s.canonical) :
    (readyLanes s c x).1.canonical := by
  fun_induction readyLanes
  · exact hs
  next e ih => exact ih (.of_ready_ok e (.ready hs))
  next e => exact .of_ready_wait e (.ready hs)
  next e _ ih => exact ih (.of_ready_fail e (.ready hs))

protected theorem Out.canonical.surfaceLanes {b : SReg} {c : VReg} {ex : List Nat} {mayFail : Bool} {kind : Nat}
    {k : State → List (Nat × Fail × Nat) → List (Nat × Samp) → Out} (hs : s.canonical)
    (hk : ∀ t : State, t.canonical → ∀ x y, (k t x y).canonical) :
    (surfaceLanes s g b c n ex mayFail kind k).canonical := by
  fun_cases surfaceLanes
  · exact .failLanes hs
  next e => exact .next (.of_pair e (.readyLanes hs))
  next e _ _ => exact .failLanes (.of_pair e (.readyLanes hs))
  next e _ _ => exact hk _ (.of_pair e (.readyLanes hs)) _ _

protected theorem Out.canonical.surfaceLoad {sym : Bool} {t : AccTy} {a : VReg} {b : SReg} {c : VReg}
    (hs : s.canonical) : (surfaceLoad s sym t a b c).canonical := by
  unfold Machine.surfaceLoad
  refine .laneMem hs fun _ _ => .surfaceLanes hs fun _ ht _ _ => ?_
  extract_lets
  split
  · exact .deliverLanes (.performLanes (fun _ hu _ => .visitSample hu) ht)
  · split
    · exact .stall ht
    · exact .symbolicLoad ht (.performLanes (fun _ hu _ => .visitSample hu) ht)

protected theorem Out.canonical.surfaceStore {t : AccTy} {a : VReg} {b : SReg} {c : VReg} (hs : s.canonical) :
    (surfaceStore s t a b c).canonical :=
  .laneMem hs fun _ _ => .surfaceLanes hs fun _ ht _ _ => .completeOp
    (.foldl (fun _ _ hu => .tileWrite (.visitSample hu)) (.loseIdem ht))

/-! ### Atomics and reductions -/

protected theorem State.canonical.atomPoint {o : AtomOp} {wide : Bool} {a : Nat} {rd : State → Point → State × Nat}
    {wr : State → Point → Nat → State} {p : Point} (hrd : ∀ t : State, t.canonical → ∀ x, (rd t x).1.canonical)
    (hwr : ∀ t : State, t.canonical → ∀ x y, (wr t x y).canonical) (hs : s.canonical) :
    (atomPoint g o wide a rd wr s p).1.canonical := hwr _ (hrd _ hs _) _ _

protected theorem Out.canonical.atomEnd {wide : Bool} {a : Nat} {ps : List Point} {xs : List Seen}
    (hs : s.canonical) : (atomEnd s g wide a ps xs).canonical := .watched (.deliverLanes hs)

protected theorem State.canonical.checkAtomic {ts : List TlbEntry} {wide : Bool} (hs : s.canonical) :
    (checkAtomic ts s g wide va).1.canonical := .checkAccessIn hs

protected theorem Out.canonical.globalAtomic {o : AtomOp} {wide : Bool} {a : VReg} {m : MemOp} (hs : s.canonical) :
    (globalAtomic s o wide a m).canonical := by
  unfold Machine.globalAtomic
  refine .laneMem hs fun _ _ => .partwise hs (fun _ ht _ => .atomPoint (fun _ hu _ => .readSlice (.reach hu))
    (fun _ hu _ _ => .writeCore hu) ht) (fun _ ht _ => .atomEnd ht) fun _ ht => ?_
  extract_lets
  split
  · exact .failLanes (.checkLanes (fun _ hu _ => .checkAtomic hu) hs)
  · exact .peerHold (.checkLanes (fun _ hu _ => .checkAtomic hu) hs)
      (ht _ (.loseIdem (.checkLanes (fun _ hu _ => .checkAtomic hu) hs)) _)

protected theorem Out.canonical.scratchAtomic {o : AtomOp} {wide : Bool} {a : VReg} {m : MemOp} (hs : s.canonical) :
    (scratchAtomic s o wide a m).canonical := by
  unfold Machine.scratchAtomic
  refine .laneMem hs fun _ _ => .partwise hs (fun _ ht _ => .atomPoint (fun _ hu _ => .scrRead hu)
    (fun _ hu _ _ => .scrWrite hu) ht) (fun _ ht _ => .atomEnd ht) fun _ ht => ?_
  extract_lets
  split
  · exact .failLanes hs
  · exact ht _ (.loseIfRemote hs) _

protected theorem State.canonical.reducePoint {o : AtomOp} {wide : Bool} {a : Nat} {p : Point} (hs : s.canonical) :
    (reducePoint g o wide a s p).1.canonical := .stampWrite (.upd hs)

protected theorem Out.canonical.reduction {o : AtomOp} {wide : Bool} {a : VReg} {m : MemOp} (hs : s.canonical) :
    (reduction s o wide a m).canonical := by
  unfold Machine.reduction
  refine .laneMem hs fun _ _ => .partwise hs (fun _ ht _ => .reducePoint ht)
    (fun _ ht _ => .watched (.completeOp ht)) fun _ ht => ?_
  extract_lets
  split
  · exact .failLanes (.checkLanes (fun _ hu _ => .checkAtomic hu) hs)
  · exact .peerHold (.checkLanes (fun _ hu _ => .checkAtomic hu) hs)
      (ht _ (.loseIdem (.checkLanes (fun _ hu _ => .checkAtomic hu) hs)) _)

/-! ### The Annulus ring -/

protected theorem State.canonical.ringWrite {off v : Nat} (hs : s.canonical) :
    (ringWrite s slot off n v).canonical := .setRing hs (wf_wrN (wf_ring hs) _ _ _)

/-! ### Annulus instructions and passages -/

protected theorem State.canonical.enterStation {c : Capture} (hs : s.canonical) :
    (enterStation s core c).canonical := .bump (.upd hs)

protected theorem Out.canonical.stationHold {k : Out} (hs : s.canonical) (hk : k.canonical) :
    (stationHold s g k).canonical := by
  fun_cases stationHold
  · exact .stall hs
  · exact hk

protected theorem State.canonical.enterLanes {kind : Nat} {op : AtomOp} {wide : Bool} {dst oid : Nat}
    {ok : List (Nat × Nat)} {lane : Nat → Nat × Nat × Dword × Dword} (hs : s.canonical) :
    (enterLanes s g kind op wide dst oid ok lane).canonical := .foldl (fun _ _ ht => .enterStation ht) hs

protected theorem State.canonical.checkBoard (hs : s.canonical) : (checkBoard s core c va).1.canonical := by
  fun_cases checkBoard
  · exact hs
  next e => exact .of_pair e (.translate hs)
  next e _ _ => exact .of_pair e (.translate hs)
  next e _ _ => exact .of_pair e (.translate hs)
  next e _ _ _ _ => exact .of_pair e (.translate hs)
  next e _ _ _ => exact .of_pair e (.translate hs)

protected theorem Out.canonical.failAll {kind : Nat} {f : Fail} {addr : Nat} (hs : s.canonical) :
    (failAll s g kind f addr).canonical := .failLanes hs

protected theorem Out.canonical.execAnnBoard {b : SReg} (hs : s.canonical) : (execAnnBoard b s).canonical := by
  unfold Machine.execAnnBoard
  refine .begin_ hs fun _ => .annHold hs (.charged hs (.stationHold hs ?_))
  extract_lets
  split
  next e => split <;> exact .failAll (.of_pair e (.checkBoard hs))
  next e => exact .failAll (.of_pair e (.checkBoard hs))
  next e => exact .failAll (.of_pair e (.checkBoard hs))
  next e => exact .watched (.complete (.enterStation (.bump (.loseIdem (.of_pair e (.checkBoard hs))))))

protected theorem Out.canonical.execAnnAlight {b : SReg} (hs : s.canonical) : (execAnnAlight b s).canonical := by
  unfold Machine.execAnnAlight
  refine .begin_ hs fun _ => .annHold hs (.charged hs (.stationHold hs ?_))
  extract_lets
  split
  · exact .failAll hs
  · exact .watched (.complete (.enterStation (.bump (.loseIdem hs))))

protected theorem Out.canonical.annLoad {wide : Bool} {a : Nat} {m : MemOp} {ex : List Nat} (hs : s.canonical) :
    (annLoad s g wide a m ex).canonical :=
  .stationHold hs (.ite (.failLanes hs) (.complete (.enterLanes (.bump hs))))

protected theorem Out.canonical.annSymLoad {flt : Bool} {a : Nat} {m : MemOp} {ex : List Nat} (hs : s.canonical) :
    (annSymLoad s g flt a m ex).canonical := by
  unfold Machine.annSymLoad
  refine .stationHold hs ?_
  extract_lets
  split
  · exact .symLimit hs
  · exact .complete (.enterLanes (.bump hs))

protected theorem Out.canonical.annLanes {dst data : List Nat} {m : MemOp} {flag : Group → Nat}
    {k : Group → List Nat → Out} (hs : s.canonical) (hk : ∀ x y, (k x y).canonical) :
    (annLanes s dst data m flag k).canonical := .laneMem hs fun _ _ => hk _ _

protected theorem Out.canonical.execAnnLdB32 {a : VReg} {bc : MemOp} (hs : s.canonical) :
    (execAnnLdB32 a bc s).canonical := .annLanes hs fun _ _ => .annLoad hs

protected theorem Out.canonical.execAnnLdB64 {a : VReg} {bc : MemOp} (hs : s.canonical) :
    (execAnnLdB64 a bc s).canonical := .annLanes hs fun _ _ => .annLoad hs

protected theorem Out.canonical.annSymOp {flt : Bool} {a : VReg} {m : MemOp} (hs : s.canonical) :
    (annSymOp s flt a m).canonical := by
  unfold Machine.annSymOp
  refine .annLanes hs fun _ _ => ?_
  split
  · exact .annLoad hs
  · exact .annSymLoad hs

protected theorem Out.canonical.annOp {o : AtomOp} {wide : Bool} {a : VReg} {m : MemOp} (hs : s.canonical) :
    (annOp s o wide a m).canonical :=
  .annLanes hs fun _ _ => .stationHold hs (.ite (.failLanes hs) (.complete (.enterLanes (.bump (.loseIdem hs)))))

protected theorem State.canonical.dropWatch {w : Nat} (hs : s.canonical) : (dropWatch s gid g w).1.canonical := by
  fun_cases dropWatch
  · exact hs
  · exact hs
  · exact .upd hs

protected theorem Out.canonical.execAnnWait {k : WatchCond} {w : BitVec 2} {a b c : SReg} (hs : s.canonical) :
    (execAnnWait k w a b c s).canonical := by
  unfold Machine.execAnnWait
  refine .begin_ hs fun _ => .annHold hs (.charged hs ?_)
  extract_lets
  split
  · exact .failAll hs
  · split
    · exact .stall hs
    · exact .complete (.enterStation (.bump (.dropWatch hs)))

protected theorem State.canonical.dropCapture {c : Capture} (hs : s.canonical) : (dropCapture s key c).canonical :=
  .updGroup (.upd hs)

protected theorem State.canonical.failCapture {c : Capture} {cause : Nat} (hs : s.canonical) :
    (failCapture s key c cause).canonical := .unitFault (.upd hs)

protected theorem State.canonical.captureLanes {c : Capture} {x : List (Nat × Nat × Dword × Dword)}
    (hs : s.canonical) : (captureLanes core c s x).canonical := by
  fun_induction captureLanes
  · exact hs
  next ih => exact ih (.updGroup (.ite (.ringWrite hs) hs))

protected theorem State.canonical.alight (hs : s.canonical) : (alight s core slot).canonical := by
  fun_cases alight
  · exact hs
  · exact .writeCore (.upd hs)

protected theorem State.canonical.board {c : Capture} (hs : s.canonical) : (board s key c).canonical := by
  fun_cases board
  · exact .failCapture hs
  · exact .dropCapture (.ringWrite (.upd (.readAgent hs)))

protected theorem State.canonical.capture {c : Capture} (hs : s.canonical) : (capture s key c).canonical := by
  fun_cases capture
  · exact .visit (.board (.visit hs))
  · exact .visit (.dropCapture (.alight (.visit hs)))
  · exact .dropCapture (.captureLanes (.visit hs))

protected theorem State.canonical.fireWatch {c : Capture} (hs : s.canonical) : (fireWatch s key c).canonical :=
  .updGroup (.visit (.upd hs))

protected theorem State.canonical.passed (hs : s.canonical) : (passed s core slot).canonical := .upd hs

protected theorem State.canonical.passDue {f : Capture → Bool} (hs : s.canonical) : (passDue s core f).canonical :=
  .foldl (fun _ _ ht => .passed (.ite (.fireWatch ht) (.capture ht))) hs

protected theorem Out.canonical.execAnnulusCapture (hs : s.canonical) :
    (execAnnulusCapture core slot s).canonical := by
  fun_cases execAnnulusCapture
  · exact .next hs
  · exact .next (.passed (.capture hs))
  · exact .next hs

protected theorem Out.canonical.execWatchPassage (hs : s.canonical) : (execWatchPassage core slot s).canonical := by
  fun_cases execWatchPassage
  · exact .next (.passed (.fireWatch hs))
  · exact .next hs
  · exact .next hs

protected theorem Out.canonical.execStationEntry (hs : s.canonical) : (execStationEntry core s).canonical := by
  fun_cases execStationEntry
  · exact .next hs
  · exact .next (.upd hs)
  · exact .next hs

protected theorem State.canonical.cancelCaps {f : Nat → Capture → Bool} (hs : s.canonical) :
    (cancelCaps s f).canonical := .upd hs

protected theorem State.canonical.reenter (hs : s.canonical) : (reenter s key).canonical := by
  fun_cases reenter
  · exact hs
  · exact hs
  · exact hs
  · exact .enterStation (.upd hs)
  · exact .updGroup (.enterStation (.upd hs))
  · exact .failCapture hs
  · exact .updGroup (.failCapture hs)

protected theorem State.canonical.reenterCtx {ctx : Nat} (hs : s.canonical) : (reenterCtx s ctx).canonical :=
  .foldl (fun _ _ ht => .reenter ht) hs

/-! ### Choosing and fetching what a group issues -/

protected theorem Out.canonical.fetchFail {f : Fail × Nat} (hs : s.canonical) : (fetchFail s g f).canonical :=
  .failLanes hs

protected theorem Out.canonical.fetchIllegal {a : Nat} (hs : s.canonical) : (fetchIllegal s g a).canonical :=
  .faultWord (.upd hs)

protected theorem Fetched.canonical.fetchWord {c : Clause} {l : Latch} {o : Nat} (hs : s.canonical) :
    (fetchWord s g c l o).canonical := by
  fun_cases fetchWord
  · exact .cause (.fetchFail hs)
  · exact .cause (.faultWord (.upd hs))
  · exact .cause (.fetchFail (.upd hs))
  · exact .cause (.faultWord (.upd hs))
  · exact .cause (.faultWord (.upd hs))
  · exact .cause (.faultWord (.upd hs))
  · exact .cause (.faultWord (.upd hs))
  · exact .run (.upd hs)
  · exact .run (.upd (.upd hs))

protected theorem Fetched.canonical.fetch (hs : s.canonical) : (fetch s gid).canonical := by
  fun_cases fetch
  · exact .wait hs
  · exact .wait hs
  · exact .wait hs
  · exact .cause (.next (.updGroup (.takeTrap (.upd (.upd (.putGroup hs))))))
  · exact .cause (.ite (.fetchFail (.upd (.putGroup hs))) (.fetchIllegal (.upd (.putGroup hs))))
  · exact .cause (.fetchIllegal (.upd (.putGroup hs)))
  · exact .fetchWord (.upd (.putGroup hs))
  · exact .run (.upd (.upd (.putGroup hs)))
  · exact .cause (.fetchFail (.upd (.putGroup hs)))
  · exact .cause (.fetchIllegal (.upd (.putGroup hs)))
  · exact .fetchWord (.upd (.putGroup hs))

protected theorem State.canonical.tagIssue (hs : s.canonical) : (tagIssue s).canonical := by
  fun_cases tagIssue
  · exact hs
  · exact hs
  · exact .upd hs
  · exact hs

protected theorem State.canonical.endSample (hs : s.canonical) : (endSample s).canonical := .upd hs

protected theorem State.canonical.countSkid {up : Bool} {old : Option Group} (hs : s.canonical) :
    (countSkid s up old).canonical := by
  fun_cases countSkid
  · exact .putGroup hs
  · exact .putCtx hs
  · exact hs
  · exact hs

protected theorem State.canonical.tagCause {old : State} (hs : s.canonical) : (tagCause old s).canonical := by
  fun_cases tagCause
  · exact hs
  · exact .endSample (.upd hs)

protected theorem State.canonical.afterIssue {yielded : Bool} (hs : s.canonical) :
    (afterIssue s yielded).canonical := by
  fun_cases afterIssue
  · exact .endSample hs
  · exact .putGroup (.endSample hs)
  · exact .endSample hs

/-! ### Control flow and masks -/

protected theorem Out.canonical.execBra {n : BranchOp} (hs : s.canonical) : (execBra n s).canonical := by
  unfold Machine.execBra
  refine .begin_ hs fun _ => ?_
  split
  · exact .faultWord hs
  · exact .completeMoved hs

protected theorem Out.canonical.branchOn {a : VReg} {n : BranchOp} {taken : Word → Bool} (hs : s.canonical) :
    (branchOn s a n taken).canonical := by
  unfold Machine.branchOn
  refine .begin_ hs fun _ => ?_
  split
  · exact .faultWord hs
  · exact .blocking hs (.completeMoved hs)

protected theorem Out.canonical.goIndirect {a : VReg} {m : Word} (hs : s.canonical) :
    (goIndirect s g a m).canonical := by
  fun_cases goIndirect
  · exact .completeMoved hs
  · exact .next (.upd (.raiseFault (.putGroup hs)))

protected theorem Out.canonical.indirect {a : VReg} (hs : s.canonical) : (indirect s a).canonical :=
  .begin_ hs fun _ => .blockingAccess hs (.goIndirect hs) (.goIndirect hs)

protected theorem Out.canonical.execCall {a : VReg} {n : BranchOp} (hs : s.canonical) :
    (execCall a n s).canonical := by
  unfold Machine.execCall
  refine .begin_ hs fun _ => ?_
  split
  · exact .faultWord hs
  · exact .completeMoved hs

protected theorem Out.canonical.execExit (hs : s.canonical) : (execExit s).canonical :=
  .begin_ hs fun _ => .next (.ite (.endGroup (.closeFragLanes (.upd (.putGroup hs))))
    (.closeFragLanes (.upd (.putGroup hs))))

protected theorem Out.canonical.execElect {a : SReg} (hs : s.canonical) : (execElect a s).canonical :=
  .begin_ hs fun _ => .complete hs

protected theorem Out.canonical.execYield (hs : s.canonical) : (execYield s).canonical :=
  .begin_ hs fun _ => .complete hs

protected theorem Out.canonical.execTrap {n : BitVec 14} (hs : s.canonical) : (execTrap n s).canonical :=
  .begin_ hs fun _ => .next (.upd (.takeTrap hs))

protected theorem Out.canonical.execBrk {n : BitVec 14} (hs : s.canonical) : (execBrk n s).canonical :=
  .begin_ hs fun _ => .next (.raiseFault (.upd hs))

protected theorem Out.canonical.execSettile {b : XOp} (hs : s.canonical) : (execSettile b s).canonical := by
  unfold Machine.execSettile
  refine .begin_ hs fun _ => ?_
  extract_lets
  split
  · exact .complete hs
  · exact .faultWord hs

protected theorem Out.canonical.execMjoin {a : MReg} (hs : s.canonical) : (execMjoin a s).canonical :=
  .begin_ hs fun _ => .complete hs

protected theorem Out.canonical.execMleave {a : MReg} (hs : s.canonical) : (execMleave a s).canonical :=
  .begin_ hs fun _ => .complete hs

protected theorem Out.canonical.execMwait {a : MReg} (hs : s.canonical) : (execMwait a s).canonical :=
  .begin_ hs fun _ => .completeMoved hs

protected theorem Out.canonical.execMrd {a : SReg} {b : MReg} (hs : s.canonical) : (execMrd a b s).canonical :=
  .begin_ hs fun _ => .complete hs

protected theorem Out.canonical.execMwr {a : MReg} {b : SReg} (hs : s.canonical) : (execMwr a b s).canonical :=
  .begin_ hs fun _ => .complete hs

/-! ### Cross-lane instructions -/

protected theorem Out.canonical.blockingTwo {b : Nat} {bs cs ls : List Nat} {k : Out} (hs : s.canonical)
    (hk : k.canonical) : (blockingTwo s g b bs cs ls k).canonical := by
  fun_cases blockingTwo
  · exact .blockOn hs
  · exact .poisonTrap hs
  · exact hk

protected theorem Out.canonical.xlaneOp {mode : Nat} {a b : VReg} {c : Src} (hs : s.canonical) :
    (xlaneOp s mode a b c).canonical := .begin_ hs fun _ => .blockingTwo hs (.complete hs)

protected theorem Out.canonical.tileOp {rule : PfxRule} {a b : VReg} {f : Group → List Nat → Nat → Word}
    (hs : s.canonical) : (tileOp s rule a b f).canonical := .begin_ hs fun _ => .blocking hs (.complete hs)

/-! ### Pushing engine commands and messages -/

protected theorem Out.canonical.acceptCmd {a : SReg} {k : CmdKind} {ws extra : List Word} (hs : s.canonical) :
    (acceptCmd s g a k ws extra).canonical := by
  fun_cases acceptCmd
  · exact .complete (.ite hs (.loseIdem hs))
  · exact .longStall hs
  · exact .complete (.bump (.upd (.bump (.ite hs (.loseIdem hs)))))

protected theorem Out.canonical.fated {f : CmdFate} {go : List Word → Out} (hs : s.canonical)
    (hgo : ∀ x, (go x).canonical) : (fated s g f go).canonical := by
  fun_cases fated
  · exact .faultWord hs
  · exact .faultWord hs
  · exact .failAll hs
  · exact hgo _

protected theorem Out.canonical.pushCmd {a : SReg} {k : CmdKind} {ws : List Word} (hs : s.canonical) :
    (pushCmd s g a k ws).canonical := .fated hs fun _ => .acceptCmd hs

protected theorem Out.canonical.pushOp {k : CmdKind} {vec : Bool} {b : BitVec 7} {a : SReg} (hs : s.canonical) :
    (pushOp s k vec b a).canonical := by
  unfold Machine.pushOp
  refine .begin_ hs fun _ => ?_
  extract_lets
  split
  · exact .blockingAccess hs (.fated hs fun _ => .stall hs) (.annHold hs (.charged hs (.pushCmd hs)))
  · exact .annHold hs (.charged hs (.pushCmd hs))

protected theorem Out.canonical.execPushb {a b c : SReg} (hs : s.canonical) : (execPushb a b c s).canonical := by
  unfold Machine.execPushb
  refine .begin_ hs fun _ => .annHold hs (.charged hs (.ite (.faultWord hs) ?_))
  split
  · exact .failAll hs
  · extract_lets
    split
    · exact .complete (.ite hs (.loseIdem hs))
    · exact .complete (.bump (.upd (.bump (.ite hs (.loseIdem hs)))))

protected theorem Out.canonical.execMsgSend {a b c : SReg} (hs : s.canonical) : (execMsgSend a b c s).canonical :=
  .begin_ hs fun _ => .annHold hs (.charged hs (.pushCmd hs))

protected theorem State.canonical.scrWords {addr : Nat} {ws : List Word} (hs : s.canonical) :
    (scrWords s tid addr ws).canonical := by
  fun_cases scrWords
  · exact .setScr hs (wf_foldl _ (fun _ _ ht => wf_wrN ht _ _ _) _ (wf_scr hs))
  · exact hs

protected theorem State.canonical.land {h : Nat} {r : Recv} {m : Msg} (hs : s.canonical) :
    (land s tid h r m).canonical := .updTeam (.scrWords hs)

protected theorem Out.canonical.execMsgRecv {a b : SReg} (hs : s.canonical) : (execMsgRecv a b s).canonical := by
  unfold Machine.execMsgRecv
  refine .begin_ hs fun _ => .annHold hs (.ite (.faultWord hs) ?_)
  split
  · exact .failAll hs
  · exact .failAll hs
  · split
    · exact .failAll hs
    · extract_lets
      split
      · exact .complete hs
      · refine .complete ?_
        split
        · exact .land (.upd (.bump (.updTeam hs)))
        · exact .bump (.updTeam hs)

protected theorem Out.canonical.execMsgProbe {a b : SReg} (hs : s.canonical) : (execMsgProbe a b s).canonical :=
  .begin_ hs fun _ => .complete hs

/-! ### Transfers between devices -/

protected theorem State.canonical.checkRange {align kind : Nat} {need : Need} {bad : Nat → Bool}
    (hs : s.canonical) : (checkRange s core c va n align kind need bad).1.canonical := by
  unfold Machine.checkRange
  refine .foldl_fst (fun _ _ ht => ?_) hs
  extract_lets
  split
  next e => exact .upd (.of_pair e (.checkAccess (.upd ht)))
  next e => exact .upd (.of_pair e (.checkAccess (.upd ht)))

protected theorem Out.canonical.xferChecked {fs : List XferFail} {k : Out} (hs : s.canonical) (hk : k.canonical) :
    (xferChecked s g fs k).canonical := by
  fun_cases xferChecked
  · exact .failAll hs
  · exact hk

protected theorem State.canonical.readGlobal {n1 : Nat} (hs : s.canonical) :
    (readGlobal s core c n n1).1.canonical := by
  fun_induction readGlobal
  · exact hs
  · exact hs
  next ih => exact ih (.readSlice (.upd (.checkAccess (.upd hs))))

protected theorem Out.canonical.acceptXfer {a : SReg} {k : CmdKind} {words extra : List Word} {aux : Nat}
    (hs : s.canonical) : (acceptXfer s g a k words extra aux).canonical := by
  fun_cases acceptXfer
  · exact .complete (.loseIdem hs)
  · exact .complete (.emit (.bump (.upd (.loseIdem hs))))

protected theorem Out.canonical.xferOp {b : SReg} {k : Group → Xfer → Out} (hs : s.canonical)
    (hk : ∀ x y, (k x y).canonical) : (xferOp s n b k).canonical :=
  .begin_ hs fun _ => .annHold hs (.charged hs (hk _ _))

protected theorem Out.canonical.putSig {add : Bool} {a b : SReg} (hs : s.canonical) :
    (putSig s add a b).canonical := by
  unfold Machine.putSig
  refine .xferOp hs fun _ _ => ?_
  extract_lets
  split
  · exact .failAll hs
  · exact .xferChecked (.checkRange (.checkRange (.checkRange hs)))
      (.acceptXfer (.ite (.checkRange (.checkRange (.checkRange hs)))
      (.readGlobal (.checkRange (.checkRange (.checkRange hs))))))

protected theorem Out.canonical.getpOp {scope : Nat} {a b : SReg} (hs : s.canonical) :
    (getpOp s scope a b).canonical := by
  unfold Machine.getpOp
  refine .xferOp hs fun _ _ => ?_
  extract_lets
  split
  · exact .failAll hs
  · exact .xferChecked (.checkRange (.checkRange hs)) (.acceptXfer (.checkRange (.checkRange hs)))

/-! ### Engines and the commands they run -/

protected theorem State.canonical.putCmd (hs : s.canonical) : (putCmd s id x).canonical := .upd hs

protected theorem State.canonical.stopCmd (hs : s.canonical) : (stopCmd s id x).canonical := .putCmd hs

protected theorem State.canonical.cmdFault {cause : Nat} {frec : Option FaultRec} (hs : s.canonical) :
    (cmdFault s id x cause frec).canonical := .unitFault (.stopCmd hs)

protected theorem State.canonical.cmdFail {f : Fail} {kind addr : Nat} (hs : s.canonical) :
    (cmdFail s id x f kind addr).canonical := .cmdFault hs

protected theorem EngR.canonical.bind {α β : Type} {r : EngR α} {k : State → α → EngR β} (hr : r.canonical)
    (hk : ∀ t, t.canonical → ∀ v, (k t v).canonical) : (r.bind k).canonical := by
  cases r with
  | ok t v => exact hk t hr v
  | wait t => exact hr
  | fail t f a => exact hr
  | illegal t => exact hr

protected theorem EngR.canonical.engGlob {α : Type} {need : Need} {bad : Nat → Bool} {k : State → Loc → EngR α}
    (hs : s.canonical) (hk : ∀ t : State, t.canonical → ∀ x, (k t x).canonical) :
    (engGlob s x va n need bad k).canonical := by
  fun_cases engGlob
  next e => exact .fail (.of_pair e (.checkAccess hs))
  next e _ _ _ => exact .wait (.ite (.of_pair e (.checkAccess hs)) (.bump (.upd (.of_pair e (.checkAccess hs)))))
  next e _ _ _ => exact hk _ (.upd (.of_pair e (.checkAccess hs))) _
  next e _ _ _ => exact hk _ (.of_pair e (.checkAccess hs)) _

protected theorem EngR.canonical.reachByte {need : Need} {bad : Nat → Bool} {x1 : EngAt} (hs : s.canonical) :
    (reachByte s x need bad x1).canonical := by
  fun_cases reachByte
  · exact .engGlob hs fun _ ht _ => .ok ht
  · exact .wait hs
  · exact .ok hs
  · exact .fail hs
  · exact .fail hs
  next e => exact .ok (.of_ready_ok e (.ready hs))
  next e => exact .wait (.of_ready_wait e (.ready hs))
  next e => exact .fail (.of_ready_fail e (.ready hs))

protected theorem EngR.canonical.reachBytes {need : Need} {bad : Nat → Bool} {x1 : List EngAt} (hs : s.canonical) :
    (reachBytes s x need bad x1).canonical := by
  fun_induction reachBytes
  · exact .ok hs
  next ih => exact .bind (.reachByte hs) fun _ ht _ => .bind (ih _ ht) fun _ hu _ => .ok hu

protected theorem State.canonical.readFors {rs : List (Nat × Nat)} (hs : s.canonical) :
    (readFors s x rs tid).1.canonical := .readEngs hs

protected theorem State.canonical.readFor (hs : s.canonical) : (readFor s x key n tid).1.canonical := .readFors hs

protected theorem State.canonical.readBlock {l : Loc} (hs : s.canonical) : (readBlock s x l n).1.canonical :=
  .readFors hs

protected theorem State.canonical.scrFor (hs : s.canonical) : (scrFor s x key n).1.canonical := .readBack hs

protected theorem State.canonical.spot_read {x1 : Spot} (hs : s.canonical) : (Spot.read s x x1).1.canonical := by
  fun_cases Spot.read
  · exact .readFor hs
  · exact .scrFor hs
  · exact .readBack hs
  · exact hs

protected theorem State.canonical.lateWrite {ps : List LatePart} (hs : s.canonical) :
    (lateWrite s x ps).canonical := .upd hs

protected theorem State.canonical.spot_write {v : Nat} {x1 : Spot} (hs : s.canonical) :
    (Spot.write s x v x1).canonical := by
  fun_cases Spot.write
  · exact .lateWrite hs
  · exact .lateWrite hs
  · exact .markOlds (.tileWrite (.stampEng hs))

protected theorem State.canonical.readSpots {x1 : List Spot} (hs : s.canonical) :
    (readSpots x s x1).1.canonical := by
  fun_induction readSpots
  · exact hs
  next ih => exact ih (.spot_read hs)

protected theorem State.canonical.writeSpots {x1 : List Spot} (hs : s.canonical) :
    (writeSpots x s n x1).canonical := by
  fun_induction writeSpots
  · exact hs
  next ih => exact ih (.spot_write hs)

protected theorem EngR.canonical.engBytes {at_ : Nat → EngAt} (hs : s.canonical) :
    (engBytes s x at_ n).canonical := by
  unfold Machine.engBytes
  refine .bind (.reachBytes hs) fun _ ht _ => ?_
  split
  · exact .ok (.readSpots ht)
  · exact .wait ht

protected theorem EngR.canonical.engPuts {dec : Bool} {at_ : Nat → EngAt} {v : Nat} (hs : s.canonical) :
    (engPuts s x dec at_ n v).canonical := by
  unfold Machine.engPuts
  refine .bind (.reachBytes hs) fun _ ht _ => ?_
  split
  · exact .ok (.writeSpots ht)
  · exact .wait ht

protected theorem EngR.canonical.engElement {base k fmt : Nat} (hs : s.canonical) :
    (engElement s x base k fmt).canonical := by
  unfold Machine.engElement
  refine .engGlob hs fun _ ht _ => ?_
  split
  · exact .illegal ht
  · split
    · exact .fail ht
    · exact .ok (.readBlock ht)

protected theorem EngR.canonical.engElements {base fmt n1 : Nat} (hs : s.canonical) :
    (engElements x base fmt s n n1).canonical := by
  fun_induction engElements
  · exact .ok hs
  next ih => exact .bind (.engElement hs) fun _ ht _ => .bind (ih _ ht) fun _ hu _ => .ok hu

protected theorem EngR.canonical.engDecoded {row k : Nat} (hs : s.canonical) :
    (engDecoded s x row k).canonical := by
  unfold Machine.engDecoded
  refine .engGlob hs fun _ ht _ => ?_
  split
  · exact .illegal ht
  · exact .engElement ht

protected theorem State.canonical.releaseCmd {scope : Nat} (hs : s.canonical) : (releaseCmd s x scope).canonical :=
  .publish (.landThose hs)

protected theorem State.canonical.lowerObject {tid : Option Nat} {obj : Word} (hs : s.canonical) :
    (lowerObject s tid obj n).canonical := by
  fun_cases lowerObject
  · exact hs
  · exact .setScr hs (wf_wrN (wf_scr hs) _ _ _)
  · exact hs

protected theorem State.canonical.storeBeside {tid : Option Nat} {obj : Word} {v : Nat} (hs : s.canonical) :
    (storeBeside s tid obj v).canonical := by
  fun_cases storeBeside
  · exact hs
  · exact .setScr hs (wf_wrN (wf_scr hs) _ _ _)
  · exact hs

protected theorem State.canonical.dropFlag (hs : s.canonical) : (dropFlag s x).canonical := .updGroup hs

protected theorem State.canonical.removeCmd (hs : s.canonical) : (removeCmd s id x).canonical :=
  .emit (.dropFlag (.boundLate (.upd hs)))

protected theorem State.canonical.advanceCmd {pos : Nat} (hs : s.canonical) : (advanceCmd s id x pos).canonical :=
  .putCmd (.ite (.ite (.storeBeside hs) hs) (.lowerObject (.ite (.storeBeside hs) hs)))

protected theorem State.canonical.runUnits {step : State → Cmd → Unit1}
    (hstep : ∀ t : State, t.canonical → ∀ x, (step t x).canonical) (hs : s.canonical) :
    (runUnits step id n s).canonical := by
  fun_induction runUnits
  · exact hs
  · exact hs
  · exact hs
  next e ih => exact ih (.advanceCmd (.of_unit_done e (hstep _ hs _)))
  next e => exact .of_unit_wait e (hstep _ hs _)
  next e => exact .cmdFail (.of_unit_fail e (hstep _ hs _))
  next e => exact .cmdFault (.of_unit_illegal e (hstep _ hs _))
  · exact hs

protected theorem Out.canonical.cmdEvent {k : CmdKind} {step : State → Cmd → Unit1}
    (hstep : ∀ t : State, t.canonical → ∀ x, (step t x).canonical) (hs : s.canonical) :
    (cmdEvent k step id n s).canonical := by
  fun_cases cmdEvent
  · exact .next (.runUnits hstep hs)
  · exact .next hs
  · exact .next hs

protected theorem Unit1.canonical.moveUnit {x : Cmd} {r : EngR Nat} {w : State → Nat → EngR Nat} (hr : r.canonical)
    (hw : ∀ t, t.canonical → ∀ v, (w t v).canonical) : (moveUnit x r w).canonical := by
  cases r with
  | ok t v =>
    unfold Machine.moveUnit
    dsimp only
    split
    next e => exact .done (.of_engR_ok e (hw t hr v))
    next e => exact .wait (.of_engR_wait e (hw t hr v))
    next e => exact .fail (.of_engR_fail e (hw t hr v))
    next e => exact .illegal (.of_engR_illegal e (hw t hr v))
  | wait t => exact hr
  | fail t f a => exact hr
  | illegal t => exact hr

protected theorem State.canonical.takeCharge (hs : s.canonical) : (takeCharge s x).canonical := .updGroup hs

protected theorem State.canonical.sendMsg (hs : s.canonical) : (sendMsg s id x).canonical :=
  .emit (.bump (.upd (.releaseCmd hs)))

protected theorem Out.canonical.execRequestEngineHandoff {queue unit : Nat} (hs : s.canonical) :
    (execRequestEngineHandoff core queue unit s).canonical := by
  fun_cases execRequestEngineHandoff
  · exact .next hs
  · exact .next hs
  · exact .next hs
  · exact .next (.sendMsg (.emit (.takeCharge hs)))
  · exact .next hs
  · exact .next (.putCmd hs)
  · exact .next (.emit (.ite (.chose (.storeBeside (.putCmd (.takeCharge hs)))) (.putCmd (.takeCharge hs))))

protected theorem Unit1.canonical.copyUnit (hs : s.canonical) : (copyUnit s x).canonical := by
  fun_cases copyUnit
  · exact .fail hs
  · exact .fail hs
  · exact .moveUnit (.engDecoded hs) fun _ ht _ => .engPuts ht
  · exact .illegal hs
  · exact .moveUnit (.engBytes hs) fun _ ht _ => .engPuts ht

protected theorem Out.canonical.execCopyCommand (hs : s.canonical) : (execCopyCommand cmd n s).canonical :=
  .cmdEvent (fun _ ht _ => .copyUnit ht) hs

protected theorem Unit1.canonical.tensorUnit (hs : s.canonical) : (tensorUnit s x).canonical := by
  fun_cases tensorUnit
  · exact .moveUnit (.engElement hs) fun _ ht _ => .engPuts ht
  · exact .illegal hs
  · exact .moveUnit (.engBytes hs) fun _ ht _ => .engPuts ht

protected theorem Out.canonical.execTensorCommand (hs : s.canonical) : (execTensorCommand cmd n s).canonical :=
  .cmdEvent (fun _ ht _ => .tensorUnit ht) hs

protected theorem EngR.canonical.gatherRow {table : Nat → EngAt} {len idx : Nat} (hs : s.canonical) :
    (gatherRow s x table len idx).canonical := by
  fun_cases gatherRow
  · exact .engBytes hs
  · exact .bind (.engElements hs) fun _ ht _ => .ok ht
  · exact .engBytes hs

protected theorem Unit1.canonical.gatherUnit {x : Cmd} (hs : s.canonical) : (gatherUnit s x).canonical := by
  unfold Machine.gatherUnit
  extract_lets w len i k rec1 ssp write
  have hwrite {t : State} (ht : t.canonical) (y : Cmd) : (write t y).canonical :=
    .moveUnit (.ok ht) fun _ hu _ => .engPuts hu
  clear_value write
  split
  · exact hwrite hs _
  · split
    · exact .fail hs
    · split
      · exact .wait hs
      · extract_lets _ _ _ _ h
        clear_value h
        split
        · exact hwrite (.scrFor hs) _
        · split
          next e => exact .wait (.of_engR_wait e (.gatherRow (.scrFor hs)))
          next e => exact .fail (.of_engR_fail e (.gatherRow (.scrFor hs)))
          next e => exact .illegal (.of_engR_illegal e (.gatherRow (.scrFor hs)))
          next e => exact hwrite (.of_engR_ok e (.gatherRow (.scrFor hs))) _

protected theorem Out.canonical.execGatherCommand (hs : s.canonical) : (execGatherCommand cmd n s).canonical :=
  .cmdEvent (fun _ ht _ => .gatherUnit ht) hs

protected theorem EngR.canonical.collBlock {need : Need} {k : State → Loc → EngR Nat} (hs : s.canonical)
    (hk : ∀ t : State, t.canonical → ∀ x, (k t x).canonical) : (collBlock s x va need k).canonical := by
  unfold Machine.collBlock
  refine .engGlob hs fun _ ht _ => ?_
  split
  · exact .illegal ht
  · split
    · exact .fail ht
    · exact hk _ ht _

protected theorem State.canonical.collMeet (hs : s.canonical) : (collMeet s x).canonical := by
  fun_cases collMeet
  · exact hs
  · refine .foldl (fun _ _ ht => ?_) hs
    split <;> exact .putCmd ht

protected theorem EngR.canonical.collWrite (hs : s.canonical) : (collWrite s x).canonical :=
  .collBlock hs fun _ ht _ => .ok (.lateWrite ht)

protected theorem State.canonical.collStep (hs : s.canonical) : (collStep s id x).canonical := by
  fun_cases collStep
  · exact .cmdFault hs
  · exact .putCmd hs
  next e => exact .of_engR_wait e (.collBlock hs fun _ ht _ => .ok (.readBlock ht))
  next e => exact .cmdFail (.of_engR_fail e (.collBlock hs fun _ ht _ => .ok (.readBlock ht)))
  next e => exact .cmdFault (.of_engR_illegal e (.collBlock hs fun _ ht _ => .ok (.readBlock ht)))
  next e _ => exact .collMeet (.putCmd (.of_engR_ok e (.collBlock hs fun _ ht _ => .ok (.readBlock ht))))
  next e => exact .of_engR_wait e (.collWrite hs)
  next e => exact .cmdFail (.of_engR_fail e (.collWrite hs))
  next e => exact .cmdFault (.of_engR_illegal e (.collWrite hs))
  next e => exact .advanceCmd (.of_engR_ok e (.collWrite hs))
  · exact .advanceCmd hs
  · exact hs

protected theorem State.canonical.collSteps (hs : s.canonical) : (collSteps id n s).canonical := by
  fun_induction collSteps
  · exact hs
  · exact hs
  next ih => exact ih (.collStep hs)
  · exact hs
  · exact hs

protected theorem Out.canonical.execCollCommand (hs : s.canonical) : (execCollCommand cmd n s).canonical := by
  fun_cases execCollCommand
  · exact .next (.collSteps hs)
  · exact .next hs
  · exact .next hs

protected theorem State.canonical.xferFail {f : Fail} {kind addr : Nat} (hs : s.canonical) :
    (xferFail s id x f kind addr).canonical := .upd (.cmdFail hs)

protected theorem State.canonical.runXfer {rd wr : State → Cmd → Nat → EngR Nat}
    (hrd : ∀ t : State, t.canonical → ∀ x y, (rd t x y).canonical)
    (hwr : ∀ t : State, t.canonical → ∀ x y, (wr t x y).canonical) (hs : s.canonical) :
    (runXfer rd wr id n s).canonical := by
  fun_induction runXfer
  · exact hs
  · exact hs
  · exact hs
  next e => exact .of_unit_wait e (.moveUnit (hrd _ hs _ _) fun _ ht _ => hwr _ ht _ _)
  next e => exact .xferFail (.of_unit_fail e (.moveUnit (hrd _ hs _ _) fun _ ht _ => hwr _ ht _ _))
  next e => exact .of_unit_illegal e (.moveUnit (hrd _ hs _ _) fun _ ht _ => hwr _ ht _ _)
  next e ih => exact ih (.putCmd (.of_unit_done e (.moveUnit (hrd _ hs _ _) fun _ ht _ => hwr _ ht _ _)))

protected theorem EngR.canonical.putAt {v : Nat} (hs : s.canonical) : (putAt s x va v).canonical :=
  .engGlob hs fun _ ht _ => .ok (.lateWrite ht)

protected theorem EngR.canonical.putWord {v : Nat} (hs : s.canonical) : (putWord s x v).canonical := .putAt hs

protected theorem EngR.canonical.payloadWord (hs : s.canonical) : (payloadWord s x n).canonical := .ok hs

protected theorem Out.canonical.execPutSigDelivery (hs : s.canonical) : (execPutSigDelivery cmd n s).canonical := by
  fun_cases execPutSigDelivery
  · exact .next (.runXfer (fun _ ht _ _ => .payloadWord ht) (fun _ ht _ _ => .putWord ht) hs)
  · exact .next hs
  · exact .next hs

protected theorem Out.canonical.execPutSigFlag (hs : s.canonical) : (execPutSigFlag cmd s).canonical := by
  fun_cases execPutSigFlag
  · exact .next hs
  · exact .next hs
  next e => exact .next (.removeCmd (.of_engR_ok e (.engGlob hs fun _ ht _ => .ok
    (.writeEng (.readSlice (.releaseCmd ht))))))
  next e => exact .next (.of_engR_wait e (.engGlob hs fun _ ht _ => .ok (.writeEng (.readSlice (.releaseCmd ht)))))
  next e => exact .next (.xferFail (.of_engR_fail e (.engGlob hs fun _ ht _ => .ok
    (.writeEng (.readSlice (.releaseCmd ht))))))
  next e => exact .next (.of_engR_illegal e (.engGlob hs fun _ ht _ => .ok
    (.writeEng (.readSlice (.releaseCmd ht)))))

protected theorem EngR.canonical.getWord (hs : s.canonical) : (getWord s x n).canonical :=
  .engGlob hs fun _ ht _ => .ok (.readFor ht)

protected theorem Out.canonical.execGetpTransfer (hs : s.canonical) : (execGetpTransfer cmd n s).canonical := by
  fun_cases execGetpTransfer
  · exact .next hs
  · exact .next hs
  · exact .next (.runXfer (fun _ ht _ _ => .getWord ht) (fun _ ht _ _ => .putWord ht) hs)
  · exact .next (.removeCmd (.lowerObject (.releaseCmd (.runXfer (fun _ ht _ _ => .getWord ht)
      (fun _ ht _ _ => .putWord ht) hs))))
  · exact .next (.runXfer (fun _ ht _ _ => .getWord ht) (fun _ ht _ _ => .putWord ht) hs)

protected theorem Out.canonical.execVlReplyTimeout {req : Nat} (hs : s.canonical) :
    (execVlReplyTimeout req s).canonical := by
  fun_cases execVlReplyTimeout
  · exact .next hs
  · exact .next hs
  · exact .next (.upd hs)
  · exact .next (.xferFail (.upd hs))
  · exact .next (.cmdFail (.upd hs))
  · exact .next (.upd hs)
  · exact .next (.raiseFault (.upd hs))
  · exact .next (.upd hs)

protected theorem State.canonical.readList (hs : s.canonical) : (readList s id x).canonical :=
  .putCmd (.takeCharge hs)

protected theorem State.canonical.enterEntry (hs : s.canonical) : (enterEntry s id x).canonical := by
  fun_cases enterEntry
  · exact .cmdFault hs
  · exact .cmdFault hs
  · exact .cmdFault hs
  · exact hs
  · exact .cmdFail hs
  · exact hs
  · exact .upd (.bump (.upd (.updGroup hs)))
  · exact .putCmd (.bump (.upd (.updGroup hs)))

protected theorem Out.canonical.execPushbListRead (hs : s.canonical) : (execPushbListRead core s).canonical := by
  fun_cases execPushbListRead
  · exact .next (.ite (.readList hs) hs)
  · exact .next (.ite (.enterEntry hs) hs)
  · exact .next hs

protected theorem Out.canonical.execMsgArrival {msg : Nat} (hs : s.canonical) :
    (execMsgArrival msg s).canonical := by
  fun_cases execMsgArrival
  · exact .next hs
  · exact .next hs
  · exact .next hs
  · exact .next (.upd hs)
  · exact .next hs
  · exact .next (.land (.upd hs))
  · exact .next (.bump (.upd hs))
  · exact .next (.unitFault (.upd hs))

/-! ### The Locus and its filter program -/

protected theorem State.canonical.putLocus {k : Nat} {l : Locus} (hs : s.canonical) : (putLocus s k l).canonical :=
  .upd hs

protected theorem State.canonical.bufferRecord {ws : List Word} (hs : s.canonical) :
    (bufferRecord s p ws).canonical := by
  fun_cases bufferRecord
  · exact hs
  · exact .regSet hs
  · exact .regSet (.foldl (fun _ _ ht => .writeSlice ht) hs)

protected theorem State.canonical.endRecord {k : Nat} {keep : Bool} (hs : s.canonical) :
    (endRecord s k keep).canonical := by
  fun_cases endRecord
  · exact hs
  · exact .putLocus (.ite (.regSet (.ite (.bufferRecord hs) hs)) (.ite (.bufferRecord hs) hs))

protected theorem Out.canonical.filterStep {f : Locus → Cells Word × Nat} (hs : s.canonical) :
    (filterStep s f).canonical := by
  fun_cases filterStep
  · exact .fault
  · exact .next (.putLocus hs)

protected theorem Out.canonical.filterAlu {d : BitVec 4} {f : Locus → Word} (hs : s.canonical) :
    (filterAlu s d f).canonical := .filterStep hs

protected theorem Out.canonical.filterBranch {imm : BitVec 14} {f : Locus → Bool} (hs : s.canonical) :
    (filterBranch s imm f).canonical := .filterStep hs

protected theorem Out.canonical.execFilterKeep (hs : s.canonical) : (execFilterKeep s).canonical := by
  fun_cases execFilterKeep
  · exact .fault
  · exact .next (.endRecord hs)

protected theorem Out.canonical.execFilterDrop (hs : s.canonical) : (execFilterDrop s).canonical := by
  fun_cases execFilterDrop
  · exact .fault
  · exact .next (.endRecord hs)

protected theorem Out.canonical.execFilterCount {a : BitVec 4} {byReg : Bool} {c : BitVec 4} (hs : s.canonical) :
    (execFilterCount a byReg c s).canonical := by
  fun_cases execFilterCount
  · exact .fault
  · exact .next (.putLocus (.regSet64 hs))

protected theorem Out.canonical.execFilterRdcnt {d c : BitVec 4} (hs : s.canonical) :
    (execFilterRdcnt d c s).canonical := by
  fun_cases execFilterRdcnt
  · exact .fault
  · exact .next (.putLocus hs)

protected theorem Out.canonical.execFilterTrig {t : BitVec 2} (hs : s.canonical) :
    (execFilterTrig t s).canonical := by
  fun_cases execFilterTrig
  · exact .fault
  · refine .next (.ite ?_ (.putLocus hs))
    split
    · exact .broadcast (.putLocus hs)
    · exact .putLocus hs

protected theorem Out.canonical.execLocusFilter {k : Nat} (hs : s.canonical) : (execLocusFilter k s).canonical := by
  fun_cases execLocusFilter
  · exact .next (.ite (.endRecord (.upd (.putLocus hs))) (.upd (.putLocus hs)))
  · exact .next hs

/-! ### Fences, prefetches and the management of surfaces -/

protected theorem Out.canonical.laterLong {phase : Nat} {vals : List Nat} (hs : s.canonical) :
    (laterLong s g phase vals).canonical := .later hs

protected theorem Out.canonical.fenceOp {scope : Nat} (hs : s.canonical) : (fenceOp s scope).canonical := by
  unfold Machine.fenceOp
  refine .begin_ hs fun _ => ?_
  split
  · exact .complete (.fenced hs)
  · exact .laterLong hs

protected theorem Out.canonical.execAck (hs : s.canonical) : (execAck s).canonical :=
  .begin_ hs fun _ => .complete (.dropCopies hs)

protected theorem State.canonical.mergeAll (hs : s.canonical) : (mergeAll s).canonical :=
  .foldl (fun _ _ ht => .mergeLine ht) hs

protected theorem Out.canonical.execTdisc {b : SReg} (hs : s.canonical) : (execTdisc b s).canonical :=
  .begin_ hs fun _ => .annHold hs (.complete (.ite (.loseIdem hs) (.discard (.mergeAll (.loseIdem hs)))))

protected theorem Out.canonical.prefetchOp {m : MemOp} {act : State → Group → Loc → State} (hs : s.canonical)
    (hact : ∀ t : State, t.canonical → ∀ x y, (act t x y).canonical) : (prefetchOp s m act).canonical :=
  .begin_ hs fun _ => .blocking hs (.complete (.foldl (fun _ _ ht => hact _ ht _ _)
    (.checkLanes (fun _ ht _ => .checkAccessIn ht) hs)))

protected theorem State.canonical.fillSlice {p : Loc} (hs : s.canonical) : (fillSlice s p).canonical :=
  .fillSector hs

protected theorem State.canonical.fillL1 {p : Loc} (hs : s.canonical) : (fillL1 s core p).canonical := by
  fun_cases fillL1
  · exact .fillSlice hs
  · exact .grantCopy (.readSlice hs)

protected theorem Out.canonical.execPrefetchL1 {bc : MemOp} (hs : s.canonical) : (execPrefetchL1 bc s).canonical :=
  .prefetchOp hs fun _ ht _ _ => .fillL1 ht

protected theorem Out.canonical.execPrefetchSlice {bc : MemOp} (hs : s.canonical) :
    (execPrefetchSlice bc s).canonical := .prefetchOp hs fun _ ht _ _ => .fillSlice ht

protected theorem Out.canonical.surfDone {a : SReg} {st : Nat} (hs : s.canonical) : (surfDone s g a st).canonical :=
  .complete hs

protected theorem Out.canonical.surfDefDone {a : SReg} {st : Nat} (hs : s.canonical) :
    (surfDefDone s g a st).canonical := .completeOp hs

protected theorem State.canonical.defEnd {oid st : Nat} {x : DefJob} (hs : s.canonical) :
    (defEnd s oid st x).canonical := .mapGroups (.upd hs)

protected theorem State.canonical.defStep {oid : Nat} (hs : s.canonical) : (defStep s oid).canonical := by
  unfold Machine.defStep
  split
  · exact hs
  · refine .ite (.defEnd hs) (.ite hs ?_)
    extract_lets t cores
    have ht : t.canonical := .upd hs
    split
    · split
      next e => exact .of_room_done e (.reserve ht)
      next e => exact .of_room_wait e (.reserve ht)
      next e => exact .defEnd (.upd (.of_room_full e (.reserve ht)))
    · exact .ite (.defEnd ht) (.defEnd (.entryWrite (.stampSurface ht)))

protected theorem Out.canonical.execSurfDef {a b c : SReg} (hs : s.canonical) :
    (execSurfDef a b c s).canonical := by
  unfold Machine.execSurfDef
  refine .begin_ hs fun _ => .annHold hs (.charged hs ?_)
  extract_lets
  split
  · exact .failLanes hs
  · exact .failLanes hs
  · extract_lets
    split
    · exact .surfDefDone (.loseIdem hs)
    · split
      · exact .surfDefDone (.loseIdem hs)
      · exact .completeOp (.upd (.loseIdem hs))

protected theorem Out.canonical.surfManage {a c : SReg} {k : State → Group → Nat → Surf → Out} (hs : s.canonical)
    (hk : ∀ t : State, t.canonical → ∀ x y z, (k t x y z).canonical) : (surfManage s a c k).canonical := by
  unfold Machine.surfManage
  refine .begin_ hs fun _ => .annHold hs ?_
  extract_lets
  split
  · exact .failLanes hs
  · exact .surfDone (.loseIdem hs)
  · split
    · exact .surfDone (.loseIdem hs)
    · split
      · exact .longStall hs
      · exact hk _ (.loseIdem hs) _ _ _

protected theorem Out.canonical.execSurfDrop {a c : SReg} (hs : s.canonical) : (execSurfDrop a c s).canonical :=
  .surfManage hs fun _ ht _ _ _ => .surfDone (.entryWrite (.upd
    (.forgetSpilled (.forgetSurface (.stampSurface ht)))))

protected theorem State.canonical.touchAll (hs : s.canonical) : (touchAll s c slot).canonical := .upd hs

protected theorem Out.canonical.homeFailed {u : Surf} {t : Nat} {f : Fail} {phase : Nat} {vals : List Nat}
    (hs : s.canonical) : (homeFailed s g slot u t f phase vals).canonical := .next (.spillFailed (.putGroup hs))

protected theorem Out.canonical.afterFailure {k : Out} (hs : s.canonical) (hk : k.canonical) :
    (afterFailure s g k).canonical := by
  fun_cases afterFailure
  · exact .longStall hs
  · exact hk

protected theorem OkCanonical.clearRaw {u : Surf} {t : Nat} (hs : s.canonical) :
    OkCanonical (clearRaw g slot u s t) := by
  fun_cases clearRaw
  · exact .ok (.putTile (.setArena hs (wf_layElems (wf_arena hs) _ _ _)))
  · exact .homeWrite hs

protected theorem State.canonical.eachTile {f : State → Nat → Except Fail State} {x : List Nat}
    (hf : ∀ t : State, t.canonical → ∀ x, OkCanonical (f t x)) (hs : s.canonical) :
    (eachTile f x s).1.canonical := by
  fun_induction eachTile
  · exact hs
  next e ih => exact ih (.of_okay e (hf _ hs _))
  · exact hs

protected theorem Out.canonical.execSurfClr {a c : SReg} (hs : s.canonical) :
    (execSurfClr a c s).canonical := by
  unfold Machine.execSurfClr
  refine .surfManage hs fun t ht g slot u => ?_
  extract_lets ctx v lo one w x first go
  have hv : v.canonical := .stampSurface (.touchAll ht)
  have hgo : go.canonical := by
    have heach : (eachTile (clearRaw g slot u) ((List.range u.tiles).drop first) v).1.canonical :=
      .eachTile (fun _ hu _ => .clearRaw hu) hv
    unfold go
    split
    next e => exact .surfDone (.of_pair e heach)
    next e => exact .homeFailed (.of_pair e heach)
  split
  · exact .surfDone (.foldl (fun _ _ hu => .setArena hu (wf_layElems (wf_arena hu) _ _ _)) (.upd hv))
  · split
    · exact .afterFailure hv hgo
    · exact hgo

protected theorem State.canonical.rawTile {u : Surf} {t : Nat} (hs : s.canonical) :
    (rawTile g slot u s t).canonical := .putTile (.setArena hs (wf_layElems (wf_arena hs) _ _ _))

protected theorem OkCanonical.homeRaw {u : Surf} {t : Nat} (hs : s.canonical) :
    OkCanonical (homeRaw g slot u s t) := by
  fun_cases homeRaw
  next e => exact .ok (.putTile (.of_okay e (.homeWrite hs)))
  · exact .error

protected theorem Out.canonical.execSurfDecomp {a c : SReg} (hs : s.canonical) :
    (execSurfDecomp a c s).canonical := by
  unfold Machine.execSurfDecomp
  refine .surfManage hs fun t ht g slot u => ?_
  extract_lets ctx n ts go
  have hgo : go.canonical := by
    have heach : (eachTile (homeRaw g slot u) ts
        (ts.foldl (rawTile g slot u) (touchAll t ctx slot))).1.canonical :=
      .eachTile (fun _ hu _ => .homeRaw hu) (.foldl (fun _ _ hu => .rawTile hu) (.touchAll ht))
    unfold go
    split
    next e => exact .surfDone (.entryWrite (.publishAll (.of_pair e heach)))
    next e => exact .homeFailed (.of_pair e heach)
  split
  · exact .longStall ht
  · split
    · split
      next e => exact .later (.of_ready_ok e (.ready ht))
      next e => exact .laterLong (.of_ready_wait e (.ready ht))
      next e => exact .failLanes (.putGroup (.of_ready_fail e (.ready ht)))
    · split
      · exact .afterFailure ht hgo
      · exact hgo

/-! ### Places on a core -/

protected theorem State.canonical.setBound {c : Option Nat} (hs : s.canonical) :
    (setBound s core bank c).canonical := .putBanks hs

protected theorem State.canonical.selectBank (hs : s.canonical) : (selectBank s core bank).canonical := by
  fun_cases selectBank
  · exact .putBanks hs
  · exact .emit (.putBanks hs)
  · exact .putBanks hs

protected theorem State.canonical.bindFor (hs : s.canonical) : (bindFor s core bank c).canonical := by
  fun_cases bindFor
  · exact hs
  · exact .setBound hs

protected theorem State.canonical.snapshot (hs : s.canonical) : (snapshot s).2.canonical :=
  .bump (.upd (.mergeAll hs))

protected theorem State.canonical.seatGroup (hs : s.canonical) : (seatGroup s gid g).canonical :=
  .bump (.putGroup hs)

/-! ### Immediate-mode rendering -/

protected theorem State.canonical.readDrawState (hs : s.canonical) : (readDrawState s x slot).1.canonical := by
  fun_cases readDrawState
  · exact hs
  next e => exact .of_pair e (.checkAccess hs)
  next e _ => exact .readFor (.of_pair e (.checkAccess hs))

protected theorem State.canonical.rastFault {cause : Nat} {frec : Option FaultRec} (hs : s.canonical) :
    (rastFault s x cause frec).canonical := .unitFault hs

protected theorem Out.canonical.execRastAccept (hs : s.canonical) : (execRastAccept cmd s).canonical := by
  fun_cases execRastAccept
  · exact .next hs
  · exact .next hs
  next e => exact .next (.rastFault (.of_pair e (.readDrawState hs)))
  next e _ => exact .next (.rastFault (.of_pair e (.readDrawState hs)))
  next e _ _ _ _ _ _ _ => exact .next (.removeCmd (.emit (.takeCharge (.putCtx (.of_pair e (.readDrawState hs))))))
  next e _ _ _ _ _ _ _ _ _ _ => exact .next (.bump (.upd (.putCmd
    (.snapshot (.emit (.takeCharge (.putCtx (.of_pair e (.readDrawState hs)))))))))

protected theorem Out.canonical.execTriangleSetup {quad : Nat} (hs : s.canonical) :
    (execTriangleSetup quad s).canonical := by
  fun_cases execTriangleSetup
  · exact .next hs
  · exact .next hs
  · exact .next hs
  · refine .next (.foldl (fun _ _ ht => ?_) (.upd hs))
    split
    · exact ht
    · split
      · exact ht
      · exact .foldl (fun _ _ hu => .bump (.upd hu)) ht
  · exact .next (.upd hs)

protected theorem Out.canonical.execFragmentGroupLaunch {quad wedge : Nat} (hs : s.canonical) :
    (execFragmentGroupLaunch quad core wedge bank s).canonical := by
  fun_cases execFragmentGroupLaunch
  · exact .next hs
  · exact .next hs
  · exact .next hs
  · exact .next (.upd (.seatGroup (.bump (.bindFor hs))))

protected theorem Out.canonical.submit {ex : List Nat} {what : Nat} {words : Nat → List Word} {mask : Nat → Nat}
    (hs : s.canonical) : (submit s g ex what words mask).canonical := by
  fun_cases submit
  · exact .faultWord hs
  · exact .faultWord hs
  · exact .completeOp hs
  · exact .completeOp (.upd hs)

protected theorem Out.canonical.execRopz {a c : VReg} (hs : s.canonical) : (execRopz a c s).canonical :=
  .laneMem hs fun _ _ => .submit hs

protected theorem Out.canonical.execRopc {a : VReg} {b : SReg} {c : VReg} (hs : s.canonical) :
    (execRopc a b c s).canonical := .laneMem hs fun _ _ => .submit hs

protected theorem State.canonical.applyDepth {d : Due} {u : Surf} (hs : s.canonical) :
    (applyDepth s d u).1.canonical := by
  unfold Machine.applyDepth
  refine .foldl_fst (fun _ _ ht => ?_) hs
  extract_lets
  split
  · exact .ite (.tileLay ht) ht
  · exact ht

protected theorem State.canonical.applyColour {d : Due} {t : Nat} {u : Surf} (hs : s.canonical) :
    (applyColour s d t u).canonical := .foldl (fun _ _ ht => .tileLay ht) hs

protected theorem State.canonical.closePlan {pid : Nat} (hs : s.canonical) : (closePlan s pid).canonical := by
  fun_cases closePlan
  · exact hs
  · exact hs
  · refine .upd (.foldl (fun _ _ ht => ?_) hs)
    split
    · exact ht
    · split
      · exact .recodeTile ht
      · exact ht

protected theorem State.canonical.subDone {d : Due} {pass : Option Nat} {wrote : Bool} (hs : s.canonical) :
    (subDone s d pass wrote).canonical := by
  fun_cases subDone
  · exact .closePlan (.upd hs)
  · exact .updGroup (.closePlan (.upd hs))
  · exact .closePlan (.upd hs)

protected theorem State.canonical.bankFault {d : Due} {f : Fail} (hs : s.canonical) :
    (bankFault s core d f).canonical := by
  fun_cases bankFault
  · exact .upd hs
  · exact .unitFault (.upd hs)

protected theorem State.canonical.applyDue {d : Due} (hs : s.canonical) : (applyDue s core d).canonical := by
  fun_cases applyDue
  · exact .subDone hs
  · exact .bankFault hs
  next e => exact .of_ready_wait e (.ready hs)
  next e => exact .bankFault (.of_ready_fail e (.ready hs))
  next e _ _ => exact .subDone (.applyDepth (.of_ready_ok e (.ready hs)))
  next e _ => exact .subDone (.applyColour (.of_ready_ok e (.ready hs)))

protected theorem Out.canonical.execBankUnitApply (hs : s.canonical) : (execBankUnitApply core s).canonical := by
  fun_cases execBankUnitApply
  · exact .next hs
  · exact .next hs
  · exact .next (.applyDue hs)
  · exact .next (.applyDue (.chose hs))

protected theorem Out.canonical.execEngineCompletion (hs : s.canonical) :
    (execEngineCompletion cmd s).canonical := by
  fun_cases execEngineCompletion
  case case2 => exact .next (.removeCmd (.upd hs))
  case case6 => exact .next (.removeCmd (.lowerObject (.releaseCmd hs)))
  case case7 => exact .next (.removeCmd (.lowerObject hs))
  all_goals exact .next hs

/-! ### Matrix instructions -/

protected theorem Out.canonical.matrixOp {sr : List Nat} {k : Group → Nat → Out} (hs : s.canonical)
    (hk : ∀ x y, (k x y).canonical) : (matrixOp s sr k).canonical := by
  unfold Machine.matrixOp
  refine .begin_ hs fun _ => ?_
  split
  · exact .faultWord hs
  · split
    · exact .longStall hs
    · exact .annHold hs (hk _ _)

protected theorem Out.canonical.enterMatrix {k : CmdKind} {ws extra : List Word} {cflag : Nat} {charge : Bool}
    (hs : s.canonical) : (enterMatrix s g tid k ws extra cflag charge).canonical :=
  .complete (.bump (.upd (.bump hs)))

protected theorem Out.canonical.execMbLd {b : SReg} (hs : s.canonical) : (execMbLd b s).canonical := by
  unfold Machine.execMbLd
  refine .matrixOp hs fun _ _ => .charged hs ?_
  extract_lets
  split
  · exact .failAll hs
  · refine .fated hs fun _ => ?_
    extract_lets
    split
    · exact .longStall hs
    · exact .enterMatrix hs

protected theorem Out.canonical.execMbZero {b : SReg} (hs : s.canonical) : (execMbZero b s).canonical :=
  .matrixOp hs fun _ _ => .charged hs (.ite (.faultWord hs) (.ite (.failAll hs) (.enterMatrix hs)))

protected theorem Out.canonical.mmxBlock {lut : Bool} {ws : List Word} (hs : s.canonical) :
    (mmxBlock s g tid lut ws).canonical := by
  fun_cases mmxBlock
  · exact .stall hs
  · refine .blockingAccess hs (.fated hs fun _ => .stall hs) (.fated hs fun _ => ?_)
    extract_lets
    split
    · exact .longStall hs
    · exact .enterMatrix (.ite (.loseIdem hs) hs)

protected theorem Out.canonical.mmxScratch {lut : Bool} {b : SReg} (hs : s.canonical) :
    (mmxScratch s lut b).canonical := by
  unfold Machine.mmxScratch
  refine .matrixOp hs fun _ _ => ?_
  extract_lets
  split
  · exact .failAll hs
  · exact .mmxBlock hs

protected theorem Out.canonical.mmxRegBlock {lut : Bool} {b : SReg} (hs : s.canonical) :
    (mmxRegBlock s lut b).canonical := .matrixOp hs fun _ _ => .mmxBlock hs

protected theorem State.canonical.chosenFirst {xs : List Nat} (hs : s.canonical) :
    (chosenFirst s xs).1.canonical := by
  fun_cases chosenFirst
  · exact hs
  · exact .chose hs

protected theorem State.canonical.withRows {rows : List Nat} (hs : s.canonical) :
    (withRows s x rows).1.canonical := by
  fun_cases withRows
  · exact .chosenFirst hs
  · exact .chosenFirst (.chosenFirst hs)

protected theorem State.canonical.nextElem (hs : s.canonical) : (nextElem s x).1.canonical := by
  fun_cases nextElem
  · exact .withRows hs
  · exact .chosenFirst hs

protected theorem EngR.canonical.startC {m : Nat} (hs : s.canonical) : (startC s x m n).canonical := by
  fun_cases startC
  · exact .bind (.engBytes hs) fun _ ht _ => .ok ht
  · exact .ok hs

protected theorem Out.canonical.execMatrixQueueAccept (hs : s.canonical) :
    (execMatrixQueueAccept core s).canonical := by
  fun_cases execMatrixQueueAccept
  · exact .next hs
  · exact .next (.emit (.putCmd (.withRows (.takeCharge hs))))

protected theorem State.canonical.runMatrix {k : CmdKind} {total : Cmd → Nat} {step : State → Cmd → Unit1}
    (hstep : ∀ t : State, t.canonical → ∀ x, (step t x).canonical) (hs : s.canonical) :
    (runMatrix k total step core n s).canonical := by
  fun_induction runMatrix
  · exact hs
  · exact hs
  · exact hs
  next e _ ih => exact ih (.putCmd (.of_unit_done e (hstep _ hs _)))
  next e => exact .of_unit_wait e (hstep _ hs _)
  next e => exact .cmdFail (.of_unit_fail e (hstep _ hs _))
  next e => exact .cmdFault (.of_unit_illegal e (hstep _ hs _))

protected theorem EngR.canonical.tbRecord {tb8 : Bool} (hs : s.canonical) : (tbRecord s x tb8 va).canonical := by
  unfold Machine.tbRecord
  refine .engGlob hs fun _ ht _ => ?_
  split
  · split
    · exact .illegal ht
    · split
      · exact .fail ht
      · exact .ok (.readBlock ht)
  · split
    · exact .illegal ht
    · split
      · exact .fail ht
      · exact .ok (.readBlock ht)

protected theorem EngR.canonical.plainBytes {n1 : Nat} (hs : s.canonical) : (plainBytes s x n n1).canonical := by
  fun_induction plainBytes
  · exact .ok hs
  next ih =>
    refine .bind (.engGlob hs fun _ ht _ => ?_) fun _ ht _ => .bind (ih _ ht) fun _ hu _ => .ok hu
    split
    · exact .illegal ht
    · exact .ok (.readFor ht)

protected theorem EngR.canonical.rowFmt {row : Nat} {k : State → Nat → EngR Nat} (hs : s.canonical)
    (hk : ∀ t : State, t.canonical → ∀ x, (k t x).canonical) : (rowFmt s x row k).canonical :=
  .engGlob hs fun _ ht _ => hk _ ht _

protected theorem EngR.canonical.mbUnit {j u : Nat} (hs : s.canonical) : (mbUnit s x j u).canonical := by
  fun_cases mbUnit
  · exact .engBytes hs
  · exact .engBytes hs
  · refine .rowFmt hs fun _ ht _ => ?_
    extract_lets
    split
    · exact .plainBytes ht
    · split
      · exact .illegal ht
      · exact .bind (.tbRecord ht) fun _ hu _ => .ok hu

protected theorem Unit1.canonical.mbStep {x : Cmd} (hs : s.canonical) : (mbStep s x).canonical := by
  unfold Machine.mbStep
  extract_lets kb j u size key
  have hunit : (moveUnit x (mbUnit s x j u) fun s v => .ok { s with bst := wrN s.bst key size v } 0).canonical :=
    .moveUnit (.mbUnit hs) fun _ ht _ => .ok (.setBst ht (wf_wrN (wf_bst ht) _ _ _))
  split
  next e =>
    split
    · exact .done (.of_unit_done e hunit)
    · exact .done (.withRows (.of_unit_done e hunit))
  · exact hunit

protected theorem Out.canonical.execMbLdCommand (hs : s.canonical) : (execMbLdCommand core n s).canonical :=
  .next (.runMatrix (fun _ ht _ => .mbStep ht) hs)

protected theorem Out.canonical.execMbZeroCommand (hs : s.canonical) : (execMbZeroCommand core s).canonical :=
  .next (.runMatrix (fun _ ht _ => .done (.setBst ht (wf_foldl _ (fun _ _ hu => wf_zeroRange hu _ _) _
    (wf_bst ht)))) hs)

protected theorem EngR.canonical.readRow {m : Nat} (hs : s.canonical) : (readRow s x m).canonical := .engBytes hs

protected theorem Unit1.canonical.mmxStep {x : Cmd} (hs : s.canonical) : (mmxStep s x).canonical := by
  unfold Machine.mmxStep
  extract_lets st m n df held row
  have hrow : row.canonical := by
    unfold row
    split
    · exact .ok hs
    · exact .readRow hs
  clear_value row
  split
  · exact .wait hrow
  · exact .fail hrow
  · exact .illegal hrow
  next t v =>
    have ht : t.canonical := hrow
    extract_lets y
    have hacc : (if st = 0 then startC t y m n else .ok t y.acc : EngR Nat).canonical := by
      split
      · exact .startC ht
      · exact .ok ht
    split
    next e => exact .wait (.of_engR_wait e hacc)
    next e => exact .fail (.of_engR_fail e hacc)
    next e => exact .illegal (.of_engR_illegal e hacc)
    next u c e =>
      have hu : u.canonical := .of_engR_ok e hacc
      extract_lets c2
      split
      · exact .done hu
      · split
        next e => exact .done (.nextElem (.of_unit_done e (.moveUnit (.ok hu) fun _ hv _ => .engPuts hv)))
        · exact .moveUnit (.ok hu) fun _ hv _ => .engPuts hv

protected theorem Out.canonical.execDenseComputation (hs : s.canonical) :
    (execDenseComputation core n s).canonical := .next (.runMatrix (fun _ ht _ => .mmxStep ht) hs)

protected theorem Out.canonical.execTableLookup (hs : s.canonical) : (execTableLookup core n s).canonical :=
  .next (.runMatrix (fun _ ht _ => .mmxStep ht) hs)

protected theorem Out.canonical.execMatrixCompletion (hs : s.canonical) :
    (execMatrixCompletion core s).canonical := by
  fun_cases execMatrixCompletion
  · exact .next hs
  · exact .next hs
  · exact .next (.removeCmd (.lowerObject (.ite (.releaseCmd hs) hs)))

/-! ### Events of the wedges -/

protected theorem Out.canonical.execStarvationFloor {g : Nat} (hs : s.canonical) :
    (execStarvationFloor g s).canonical := by
  fun_cases execStarvationFloor
  · exact .next hs
  · exact .next (.putGroup hs)
  · exact .next hs

protected theorem Out.canonical.execGroupSwap {g : Nat} (hs : s.canonical) : (execGroupSwap g s).canonical := by
  fun_cases execGroupSwap
  · exact .next hs
  · exact .next (.activate (.deactivate hs))
  · exact .next hs
  · exact .next hs

protected theorem Out.canonical.execForcedSwap {wedge : Nat} (hs : s.canonical) :
    (execForcedSwap core wedge s).canonical := by
  fun_cases execForcedSwap
  · exact .next hs
  · exact .next hs
  · exact .next hs
  · exact .next (.activate (.deactivate hs))
  · exact .next hs

protected theorem Out.canonical.execWaitRelease {g w : Nat} (hs : s.canonical) :
    (execWaitRelease g w s).canonical := by
  fun_cases execWaitRelease
  · exact .next hs
  · exact .next hs
  · exact .next (.releaseWait hs)
  · exact .next hs

protected theorem Out.canonical.execSleepRelease {g lane : Nat} (hs : s.canonical) :
    (execSleepRelease g lane s).canonical := by
  fun_cases execSleepRelease
  case case3 => exact .next (.putGroup hs)
  case case7 => exact .next (.putGroup hs)
  case case8 => exact .next (.promiseMiss (.putGroup hs))
  all_goals exact .next hs

protected theorem State.canonical.arriveBar {g : Nat} {gr : Group} (hs : s.canonical) :
    (arriveBar s g gr).canonical := by
  fun_cases arriveBar
  · exact hs
  · exact .putGroup (.ite (.fenced (.fenced hs)) (.fenced hs))
  · exact .testTeamBars (.putGroup (.ite (.fenced (.fenced hs)) (.fenced hs)))
  · exact hs

protected theorem Out.canonical.execBarrierArrival {g : Nat} (hs : s.canonical) :
    (execBarrierArrival g s).canonical := by
  fun_cases execBarrierArrival
  · exact .next hs
  · exact .next (.ite hs (.arriveBar hs))

protected theorem State.canonical.arriveRouter {t : Team} (hs : s.canonical) :
    (arriveRouter s tid t).canonical := by
  fun_cases arriveRouter
  · exact .testClusterBars hs
  · exact .testClusterBars (.upd hs)
  · exact hs
  · exact hs

protected theorem Out.canonical.execBarrierRouterArrival (hs : s.canonical) :
    (execBarrierRouterArrival tid s).canonical := by
  fun_cases execBarrierRouterArrival
  · exact .next hs
  · exact .next (.arriveRouter hs)

protected theorem Out.canonical.execSymbolDelivery {g k : Nat} (hs : s.canonical) :
    (execSymbolDelivery g k s).canonical := by
  fun_cases execSymbolDelivery
  · exact .next hs
  · exact .next (.putGroup hs)
  · exact .next hs
  · exact .next hs

protected theorem Out.canonical.execAccessPerformed {g op : Nat} (hs : s.canonical) :
    (execAccessPerformed g op s).canonical := by
  fun_cases execAccessPerformed
  · exact .next hs
  · exact .next hs
  · exact .next (.putGroup hs)
  · exact .next hs

/-! ### The launch sequencer -/

protected theorem State.canonical.levelDone {l : Launch} {level : Nat} (hs : s.canonical) :
    (levelDone s l level).canonical := by
  fun_cases levelDone
  · exact .upd (.ite (.chose (.signalEvent (.ite (.publishAll (.mergeAll hs)) hs)))
      (.signalEvent (.ite (.publishAll (.mergeAll hs)) hs)))
  · exact .signalEvent (.ite (.publishAll (.mergeAll hs)) hs)

protected theorem State.canonical.writeStatus {l : Launch} {code : Nat} (hs : s.canonical) :
    (writeStatus s l code).canonical := by
  fun_cases writeStatus
  · exact hs
  next e => exact .writeSlice (.of_pair e (.checkAccess hs))
  next e _ => exact .unitFault (.of_pair e (.checkAccess hs))

protected theorem State.canonical.finishLaunch {x : Launch} {n1 : Nat} (hs : s.canonical) :
    (finishLaunch n s x n1).canonical := by
  fun_induction finishLaunch
  · exact hs
  · exact .levelDone (.writeStatus hs)
  · exact .levelDone (.writeStatus hs)
  next ih => exact ih (.upd (.levelDone (.writeStatus hs)))
  · exact .upd (.levelDone (.writeStatus hs))

protected theorem State.canonical.clusterDone {lid : Nat} (hs : s.canonical) : (clusterDone s lid).canonical := by
  fun_cases clusterDone
  · exact hs
  · exact .upd (.levelDone hs)
  · exact .finishLaunch (.upd (.levelDone (.levelDone hs)))
  · exact .upd (.levelDone (.levelDone hs))

protected theorem State.canonical.freeScratch {t : Team} {keep : Bool} (hs : s.canonical) :
    (freeScratch s t keep).canonical := by
  unfold Machine.freeScratch
  refine .foldl (fun _ _ ht => ?_) hs
  split
  · exact .upd ht
  · exact .put (wf_mem ht) (wf_zeroRange (wf_scr ht) _ _) (wf_arena ht) (wf_bst ht) (wf_ring ht)

protected theorem State.canonical.releaseSlot {t : Team} (hs : s.canonical) : (releaseSlot s t).canonical :=
  .upd (.putCtx (.setBound hs))

protected theorem State.canonical.retireTeam {tid : Nat} {t : Team} (hs : s.canonical) :
    (retireTeam s tid t).canonical := by
  unfold Machine.retireTeam
  extract_lets _ s1 s2 s3 s4 s5
  have hs3 : s3.canonical := .upd (.freeB (.freeScratch (.emit (.landAll hs))))
  have hs4 : s4.canonical := .ite (.releaseSlot hs3) hs3
  have hs5 : s5.canonical := by
    unfold s5
    split
    · exact .levelDone hs4
    · exact hs4
  split
  · exact hs5
  · exact .ite (.upd hs5) (.clusterDone (.upd hs5))

protected theorem Out.canonical.execTeamRetire (hs : s.canonical) : (execTeamRetire tid s).canonical := by
  fun_cases execTeamRetire
  · exact .next hs
  · exact .next hs
  · exact .next (.retireTeam hs)
  · exact .next hs
  · exact .next (.unitFault (.updTeam hs))

protected theorem Out.canonical.execQtailDoorbell {q tail : Nat} (hs : s.canonical) :
    (execQtailDoorbell p q tail s).canonical := .next (.ite (.putQueue hs) hs)

protected theorem Out.canonical.execRingEntryMove {q : Nat} (hs : s.canonical) :
    (execRingEntryMove p q s).canonical := by
  fun_cases execRingEntryMove
  · exact .next hs
  · exact .next (.putQueue (.upd (.readSpan hs)))

protected theorem State.canonical.startLaunch {part queue ctx ident : Nat} {desc : List Word} {parent : Option Nat}
    {handler : Bool} (hs : s.canonical) : (startLaunch s part queue ctx ident desc parent handler).2.canonical := by
  unfold Machine.startLaunch
  refine .upd (.snapshot ?_)
  split
  · exact .nextIdent hs
  · exact hs

protected theorem State.canonical.armHead {q : Nat} {l : Launch} (hs : s.canonical) :
    (armHead s p q l).canonical := by
  fun_cases armHead
  next e => exact .putQueue (.of_some e (.evArm hs))
  · exact hs
  · exact hs

protected theorem Out.canonical.execQueueHead {q : Nat} (hs : s.canonical) : (execQueueHead p q s).canonical := by
  fun_cases execQueueHead
  · exact .next hs
  · exact .next (.armHead hs)
  · exact .next hs
  · exact .next hs
  · exact .next hs
  · exact .next hs
  next e _ _ => exact .next (.finishLaunch (.putQueue (.of_pair_snd e (.startLaunch hs))))
  next e _ _ _ _ => exact .next (.armHead (.putQueue (.bump (.upd (.of_pair_snd e (.startLaunch hs))))))

protected theorem State.canonical.takeGranules {ctx : Nat} {zero : Bool} (hs : s.canonical) :
    (takeGranules s core tid ctx n zero).2.canonical :=
  .foldl (fun _ _ ht => .put (wf_mem ht) (wf_ite (wf_scr ht) (wf_zeroRange (wf_scr ht) _ _)) (wf_arena ht)
    (wf_bst ht) (wf_ring ht)) (.upd hs)

protected theorem State.canonical.seatTeam {l : Launch} {c : Cluster} {tx ty : Nat} (hs : s.canonical) :
    (seatTeam s l c tid core bank tx ty).canonical := .foldl (fun _ _ ht => .seatGroup (.bump ht)) hs

protected theorem State.canonical.noteBank (hs : s.canonical) : (noteBank s core bank p).canonical := by
  fun_cases noteBank
  · exact .selectBank hs
  · exact hs

protected theorem State.canonical.placeTeam {l : Launch} {lid cid : Nat} {c : Cluster} {tx ty : Nat} {zero : Bool}
    (hs : s.canonical) : (placeTeam s l lid cid c tid core bank tx ty zero).canonical :=
  .noteBank (.emit (.seatTeam (.upd (.takeGranules (.bindFor hs)))))

protected theorem State.canonical.restoreTeam {l : Launch} {x : SavedTeam} {core bank : Nat} (hs : s.canonical) :
    (restoreTeam s l x core bank).canonical := by
  unfold Machine.restoreTeam
  extract_lets _ _ g _ _ _ _ t
  have hg : g.2.canonical := .takeGranules (.bindFor hs)
  have hbst : Memory.wf t.bst = true := by
    dsimp only [t]
    split
    · exact wf_foldl _ (fun _ _ hm => wf_wrByte hm _ _) _ (wf_bst hg)
    · exact wf_bst hg
  have ht : t.canonical :=
    .put (wf_mem hg) (wf_foldl _ (fun _ _ hm => wf_wrByte hm _ _) _ (wf_scr hg)) (wf_arena hg) hbst (wf_ring hg)
  exact .noteBank (.emit (.foldl (fun _ _ ht => .reenter ht) (.acquire (.foldl (fun _ _ ht => .seatGroup ht) ht))))

protected theorem State.canonical.placeCluster {d : Due1} {quad x y : Nat} (hs : s.canonical) :
    (placeCluster s d quad x y).canonical := by
  fun_cases placeCluster
  · refine .foldl (fun _ _ ht => ?_) (.upd hs)
    split
    · split
      · exact .placeTeam ht
      · exact .restoreTeam ht
    · exact ht
  · refine .foldl (fun _ _ ht => ?_) (.upd hs)
    extract_lets
    split
    · exact .placeTeam ht
    · exact ht
  · refine .putQueue (.foldl (fun _ _ ht => ?_) (.upd hs))
    extract_lets
    split
    · exact .placeTeam ht
    · exact ht

protected theorem State.canonical.refill (hs : s.canonical) : (refill s core bank).canonical :=
  .foldl (fun _ _ ht => .fillActive ht) hs

protected theorem State.canonical.flushTeam {t : Team} (hs : s.canonical) : (flushTeam s tid t).1.canonical :=
  .freeB (.freeScratch (.upd (.foldl (fun _ _ ht => .dropGroup ht) (.landAll hs))))

protected theorem State.canonical.saveTeam {t : Team} (hs : s.canonical) : (saveTeam s tid t).1.canonical :=
  .freeB (.freeScratch (.cancelCaps (.upd (.emit (.passDue (.landAll hs))))))

protected theorem State.canonical.vacateCluster {cid : Nat} (hs : s.canonical) :
    (vacateCluster s cid).canonical := by
  fun_cases vacateCluster
  · exact hs
  · refine .foldl (fun _ _ ht => .refill ht) (.upd (.foldl_fst (fun _ _ ht => ?_) hs))
    split
    · exact .flushTeam ht
    · exact .saveTeam ht

protected theorem State.canonical.markLeavers {cids : List Nat} (hs : s.canonical) :
    (markLeavers s p cids).canonical := .upd hs

protected theorem Out.canonical.execClusterPlacement {q quad x y : Nat} (hs : s.canonical) :
    (execClusterPlacement p q quad x y s).canonical := by
  fun_cases execClusterPlacement
  · exact .next hs
  · exact .next (.markLeavers hs)
  · exact .next hs
  · exact .next hs
  · exact .next (.placeCluster (.upd (.markLeavers hs)))
  · exact .next (.markLeavers hs)
  · exact .next (.placeCluster (.foldl (fun _ _ ht => .vacateCluster ht) (.upd (.markLeavers hs))))
  · exact .next (.markLeavers hs)
  · exact .next hs
  · exact .next hs

protected theorem Out.canonical.execBankRotation (hs : s.canonical) : (execBankRotation core bank s).canonical := by
  fun_cases execBankRotation
  · exact .next hs
  · exact .next hs
  · exact .next (.selectBank hs)
  · exact .next (.selectBank hs)
  · exact .next hs
  · exact .next (.selectBank hs)

protected theorem Out.canonical.execPreemptRequest (hs : s.canonical) : (execPreemptRequest p s).canonical := by
  fun_cases execPreemptRequest
  · exact .next (.upd hs)
  · exact .next (.upd hs)
  · exact .next (.upd hs)
  · exact .next hs

protected theorem Out.canonical.execVacateComplete (hs : s.canonical) : (execVacateComplete p s).canonical := by
  fun_cases execVacateComplete
  · exact .next hs
  · exact .next (.upd (.foldl (fun _ _ ht => .vacateCluster ht) hs))
  · exact .next hs

protected theorem Out.canonical.execExtensionMoveBack (hs : s.canonical) :
    (execExtensionMoveBack p s).canonical := by
  fun_cases execExtensionMoveBack
  · exact .next (.upd hs)
  · exact .next hs

/-! ### Halts and the stop area -/

protected theorem State.canonical.updHalt {f : Halt → Halt} (hs : s.canonical) : (updHalt s c f).canonical :=
  .putCtx hs

protected theorem State.canonical.markStopped {u : Nat} (hs : s.canonical) : (markStopped s c u).canonical :=
  .updHalt hs

protected theorem State.canonical.stopStation (hs : s.canonical) : (stopStation s c core).canonical :=
  .foldl (fun _ _ ht => .updHalt ht) (.cancelCaps (.passDue hs))

protected theorem Out.canonical.execHaltLineArrival {u : Nat} (hs : s.canonical) :
    (execHaltLineArrival c u s).canonical := by
  fun_cases execHaltLineArrival
  · exact .next hs
  · exact .next hs
  · exact .next (.markStopped (.stopStation (.updHalt hs)))
  · exact .next (.updHalt hs)

protected theorem State.canonical.stopWedge {u : Nat} (hs : s.canonical) : (stopWedge s c u).canonical := by
  unfold Machine.stopWedge
  refine .foldl (fun _ _ ht => ?_) (.stopStation hs)
  extract_lets
  split
  · exact .updHalt ht
  · split
    · exact .addRec ht
    · exact ht

protected theorem State.canonical.stopEngine {c u : Nat} (hs : s.canonical) :
    (stopEngine s c u).canonical := by
  refine .foldl (fun t id ht => ?_) hs
  split
  · exact ht
  · rename_i x _
    extract_lets step u
    have hstep : ∀ t : State, t.canonical → ∀ x, (step t x).canonical := fun t ht x => by
      unfold step
      split
      · exact .copyUnit ht
      · split
        · exact .tensorUnit ht
        · exact .gatherUnit ht
    have hu : u.canonical := .ite (.collSteps ht) (.runUnits hstep ht)
    split
    · exact hu
    · split
      · exact .addRec (.stopCmd hu)
      · exact hu

protected theorem State.canonical.stopMatrix (hs : s.canonical) : (stopMatrix s c core).canonical := by
  fun_cases stopMatrix
  · exact hs
  · exact .addRec (.stopCmd hs)
  · exact hs

protected theorem State.canonical.stopRequest (hs : s.canonical) : (stopRequest s c core).canonical :=
  .foldl (fun _ _ ht => .addRec ht) hs

protected theorem State.canonical.stopRaster {quad : Nat} (hs : s.canonical) : (stopRaster s c quad).canonical := by
  fun_cases stopRaster
  · exact hs
  · exact .addRec hs

protected theorem Out.canonical.execSkidStop {u : Nat} (hs : s.canonical) : (execSkidStop c u s).canonical := by
  fun_cases execSkidStop
  · exact .next hs
  · exact .next hs
  · exact .next (.ite hs (.markStopped (.stopWedge hs)))
  · exact .next (.markStopped (.stopMatrix hs))
  · exact .next (.markStopped (.stopEngine hs))
  · exact .next hs
  · exact .next (.markStopped (.stopRaster hs))
  · exact .next (.markStopped (.stopRequest hs))
  · exact .next (.markStopped hs)

protected theorem State.canonical.putPieces {n1 n2 : Nat} (hs : s.canonical) :
    (putPieces core c n n1 n2 s).1.canonical := by
  fun_induction putPieces
  · exact hs
  next e => exact .of_pair e (.checkAccess hs)
  next e ih => exact ih (.writeSlice (.of_pair e (.checkAccess hs)))

protected theorem State.canonical.putSlots {x : List StopRec} (hs : s.canonical) :
    (putSlots core c x n s).1.canonical := by
  fun_induction putSlots
  · exact hs
  next e ih => exact ih (.of_pair e (.putPieces hs))
  next e => exact .of_pair e (.putPieces hs)

protected theorem State.canonical.putStopArea {h : Halt} (hs : s.canonical) : (putStopArea s c h).1.canonical := by
  fun_cases putStopArea
  · exact hs
  next e => exact .of_pair e (.checkAccess hs)
  next e _ _ e1 => exact .of_pair e1 (.putPieces (.readSlice (.of_pair e (.checkAccess hs))))
  next e _ _ e1 => exact .putSlots (.of_pair e1 (.putPieces (.readSlice (.of_pair e (.checkAccess hs)))))

protected theorem State.canonical.noHandlerFor (hs : s.canonical) : (noHandlerFor s c).canonical :=
  .upd (.updHalt hs)

protected theorem State.canonical.storeStopArea {h : Halt} (hs : s.canonical) : (storeStopArea s c h).1.canonical :=
  .publishAll (.mergeAll (.updHalt (.putStopArea hs)))

protected theorem Out.canonical.execStopAreaWrite (hs : s.canonical) : (execStopAreaWrite c s).canonical := by
  fun_cases execStopAreaWrite
  · exact .next hs
  · exact .next (.ite (.storeStopArea hs) hs)
  · exact .next hs
  · exact .next (.noHandlerFor (.storeStopArea hs))
  · exact .next (.upd (.storeStopArea hs))
  · exact .next (.storeStopArea hs)

protected theorem State.canonical.launchHandler {ws : List Word} (hs : s.canonical) :
    (launchHandler s p c core ws).canonical := by
  unfold Machine.launchHandler
  refine .placeTeam (.putCtx (.upd (.upd (.snapshot ?_))))
  split
  · exact .nextIdent (.selectBank (.setBound hs))
  · exact .selectBank (.setBound hs)

protected theorem Out.canonical.execHandlerStart (hs : s.canonical) : (execHandlerStart p s).canonical := by
  fun_cases execHandlerStart
  · exact .next hs
  · exact .next hs
  · exact .next hs
  · exact .next (.launchHandler (.upd hs))
  · exact .next (.noHandlerFor hs)
  · exact .next (.noHandlerFor hs)

protected theorem Out.canonical.execHandlerCoreMove (hs : s.canonical) : (execHandlerCoreMove p s).canonical := by
  fun_cases execHandlerCoreMove
  · exact .next hs
  · exact .next hs
  · exact .next (.regSet hs)

protected theorem State.canonical.lowerLine (hs : s.canonical) : (lowerLine s c).canonical :=
  .foldl (fun _ _ ht => .testClusterBars ht) (.foldl (fun _ _ ht => .testTeamBars ht)
    (.reenterCtx (.upd (.mapGroups (.putCtx hs)))))

/-! ### System and special registers -/

protected theorem State.canonical.regField {k : Nat} {m : Word} (hs : s.canonical) : (regField s k w m).canonical :=
  .regSet hs

protected theorem State.canonical.regClear {k : Nat} {m : Word} (hs : s.canonical) : (regClear s k w m).canonical :=
  .regSet hs

protected theorem State.canonical.pairWrite {k : Nat} {high : Bool} {cur : Word} {f : State → Nat → State}
    (hs : s.canonical) (hf : ∀ t : State, t.canonical → ∀ x, (f t x).canonical) :
    (pairWrite s k high cur w f).canonical := by
  fun_cases pairWrite
  · exact hf _ (.upd hs) _
  · exact .upd hs

protected theorem State.canonical.pairField {k : Nat} {high : Bool} {m : Nat} (hs : s.canonical) :
    (pairField s k high w m).canonical := .pairWrite hs fun _ ht _ => .regSet64 ht

protected theorem State.canonical.cancelWindow (hs : s.canonical) : (cancelWindow s c).canonical :=
  .foldl (fun _ _ ht => .unitFault ht) (.cancelCaps (.foldl
    (fun _ _ ht => .passed (.ite (.fireWatch ht) (.capture ht))) hs))

protected theorem State.canonical.closeWindow (hs : s.canonical) : (closeWindow s c w).canonical :=
  .regSet (.foldl (fun _ _ ht => .alight ht) (.cancelWindow hs))

protected theorem State.canonical.windowWrite {v : Word} (hs : s.canonical) : (windowWrite s c v).canonical := by
  fun_cases windowWrite
  · exact hs
  · exact hs
  · exact hs
  · exact .regSet (.setRing hs (wf_zeroRange (wf_ring hs) _ _))
  · exact .closeWindow hs
  · exact .regSet hs

protected theorem State.canonical.partqSet (hs : s.canonical) : (partqSet s p w).canonical := by
  fun_cases partqSet
  · exact hs
  · exact .regSet (.regSet hs)

protected theorem State.canonical.hcoreSet (hs : s.canonical) : (hcoreSet s p w).canonical := by
  fun_cases hcoreSet
  · exact hs
  · exact .regSet hs

protected theorem State.canonical.createCtx (hs : s.canonical) : (createCtx s c).canonical :=
  .putCtx (.put (wf_mem hs) (wf_scr hs) (wf_filter (wf_arena hs) _) (wf_bst hs) (wf_ring hs))

protected theorem State.canonical.dropCtx (hs : s.canonical) : (dropCtx s c).canonical := by
  fun_cases dropCtx
  · refine .closeWindow (.upd (.foldl (fun _ _ ht => .foldl (fun _ _ hu => ?_) ht) hs))
    split
    · exact .setBound hu
    · exact hu
  · refine .upd (.foldl (fun _ _ ht => .foldl (fun _ _ hu => ?_) ht) hs)
    split
    · exact .setBound hu
    · exact hu

protected theorem State.canonical.ctxcfgSet {v : Word} (hs : s.canonical) : (ctxcfgSet s c v).canonical := by
  fun_cases ctxcfgSet
  · exact hs
  · exact hs
  · exact hs
  · exact hs
  · exact .regSet (.ite (.createCtx (.ite (.dropCtx hs) hs)) (.ite (.dropCtx hs) hs))

protected theorem State.canonical.zeroSram (hs : s.canonical) : (zeroSram s).canonical :=
  .put (wf_mem hs) wf_nil wf_nil wf_nil (wf_ring hs)

protected theorem State.canonical.subnetsOff (hs : s.canonical) : (subnetsOff s).canonical := .regSet hs

protected theorem State.canonical.trained (hs : s.canonical) : (trained s).canonical := .upd (.chose hs)

protected theorem State.canonical.pstateSet (hs : s.canonical) : (pstateSet s w).canonical := by
  fun_cases pstateSet
  · exact .upd (.ite (.zeroSram (.trained hs)) hs)
  · exact .subnetsOff (.upd (.ite (.zeroSram (.trained hs)) hs))
  · exact hs
  · exact hs
  · exact .upd hs
  · exact hs

protected theorem State.canonical.loadFilter (hs : s.canonical) : (loadFilter s p).canonical := by
  fun_cases loadFilter
  · exact .regSet hs
  · exact .upd (.regSet hs)

protected theorem State.canonical.sendStop (hs : s.canonical) : (sendStop s p).canonical := by
  fun_cases sendStop
  · exact .broadcast hs
  · exact hs

protected theorem State.canonical.stepStat {st : Nat} {clear : Bool} (hs : s.canonical) :
    (stepStat s p st clear).canonical := .regSet hs

protected theorem State.canonical.startStep (hs : s.canonical) : (startStep s p).canonical := by
  fun_cases startStep
  · exact .upd (.stepStat (.putGroup hs))
  · exact .stepStat hs
  · exact .stepStat hs

protected theorem State.canonical.armStep (hs : s.canonical) : (armStep s p).canonical := by
  fun_cases armStep
  · exact .stepStat hs
  · exact .upd (.stepStat (.putGroup hs))
  · exact .stepStat hs

protected theorem State.canonical.goStep (hs : s.canonical) : (goStep s p).canonical := by
  fun_cases goStep
  · exact hs
  · exact .armStep hs
  · exact .startStep hs

protected theorem State.canonical.goPtm (hs : s.canonical) : (goPtm s).canonical := by
  fun_cases goPtm
  · exact .upd (.regSet hs)
  · exact hs

protected theorem State.canonical.stepTime {v : Nat} (hs : s.canonical) : (stepTime s v).canonical := by
  fun_cases stepTime
  · exact hs
  · exact .upd hs

protected theorem State.canonical.goRetire {bus : Nat} (hs : s.canonical) : (goRetire s core bus).canonical := by
  fun_cases goRetire
  · exact hs
  · exact .upd hs
  · exact .upd hs

protected theorem State.canonical.goReport (hs : s.canonical) : (goReport s).canonical := by
  fun_cases goReport
  · exact hs
  · exact .upd (.regSet hs)

protected theorem State.canonical.partAfterRead (hs : s.canonical) : (partAfterRead s p n).canonical := by
  fun_cases partAfterRead
  · exact .regSet hs
  · exact hs

protected theorem State.canonical.packAfterRead (hs : s.canonical) : (packAfterRead s n).canonical := by
  fun_cases packAfterRead
  · exact .regSet hs
  · exact .regSet hs
  · exact hs

protected theorem State.canonical.packWrite {host : Bool} (hs : s.canonical) :
    (packWrite s host n w).canonical := by
  fun_cases packWrite
  · exact .regField hs
  · exact .regClear hs
  · exact hs
  · exact .partqSet hs
  · exact .regSet hs
  · exact hs
  · exact .regField hs
  · exact .goRetire hs
  · exact .goPtm (.regField hs)
  · exact .regField hs
  · exact .regSet hs
  · exact hs
  · exact .pairWrite hs fun _ ht _ => .stepTime ht
  · exact .regSet hs
  · exact .regSet hs
  · exact .pairField hs
  · exact .goReport hs
  · exact hs
  · exact .regClear hs
  · exact .regField hs
  · exact .regField hs
  · exact .regField (.regField hs)
  · exact .regField hs
  · exact hs
  · exact .regField hs
  · exact hs
  · exact .regField hs
  · exact hs
  · exact .pairField hs
  · exact hs
  · exact .regField hs
  · exact .regField hs
  · exact .regClear hs
  · exact .regSet hs
  · exact .regSet hs
  · exact hs
  · exact .pstateSet hs
  · exact hs

protected theorem State.canonical.selQueue {f : Queue → Queue} (hs : s.canonical) : (selQueue s p f).canonical :=
  .putQueue hs

protected theorem State.canonical.ringSet {v : Nat} (hs : s.canonical) : (ringSet p s v).canonical := .selQueue hs

protected theorem State.canonical.goPreempt (hs : s.canonical) : (goPreempt s p w).canonical := by
  fun_cases goPreempt
  · exact hs
  · exact .upd (.regSet hs)

protected theorem State.canonical.tbufSet {v : Nat} (hs : s.canonical) : (tbufSet p s v).canonical := by
  fun_cases tbufSet
  · exact .regField (.regSet64 hs)
  · exact .regSet64 hs

protected theorem State.canonical.partWrite {host : Bool} (hs : s.canonical) :
    (partWrite s host p n w).canonical := by
  fun_cases partWrite
  · exact .hcoreSet hs
  · exact .regField hs
  · exact .regField hs
  · exact .selQueue hs
  · exact .selQueue hs
  · exact .pairWrite hs fun _ ht _ => .ringSet ht
  · exact hs
  · exact .selQueue hs
  · exact hs
  · exact hs
  · exact .pairField hs
  · exact .pairField hs
  · exact hs
  · exact .goPreempt hs
  · exact .regField hs
  · exact .packWrite hs
  · exact .pairWrite hs fun _ ht _ => .tbufSet ht
  · exact .regField hs
  · exact .regField hs
  · exact .regSet hs
  · exact .pairField hs
  · exact .loadFilter (.regField hs)
  · exact .regField hs
  · exact .pairField hs
  · exact .regClear (.regField hs)
  · exact .regField hs
  · exact .regSet hs
  · exact .sendStop (.regField hs)
  · exact .regField hs
  · exact hs
  · exact .goStep (.regField hs)
  · exact .regField hs
  · exact hs

protected theorem State.canonical.stbaseSet {v : Nat} (hs : s.canonical) : (stbaseSet c s v).canonical := by
  fun_cases stbaseSet
  · exact .putCtx (.zeroHome (.mergeAll (.regSet64 hs)))
  · exact .regSet64 hs

protected theorem State.canonical.ctxWrite {host : Bool} (hs : s.canonical) :
    (ctxWrite s host c n w).canonical := by
  fun_cases ctxWrite
  · exact .regField hs
  · exact .pairField hs
  · exact .ctxcfgSet hs
  · exact hs
  · exact .pairField hs
  · exact .pairWrite hs fun _ ht _ => .stbaseSet ht
  · exact .pairField hs
  · exact .windowWrite hs
  · exact hs

protected theorem State.canonical.supRead (hs : s.canonical) : (supRead s g n).1.canonical := by
  fun_cases supRead
  case case4 => exact .partAfterRead hs
  all_goals exact hs

protected theorem State.canonical.supWrite (hs : s.canonical) : (supWrite s gid g n w).canonical := by
  fun_cases supWrite
  · exact .updGroup hs
  · exact hs
  · exact .ctxWrite hs
  · exact hs
  · exact .partWrite hs
  · exact .windowWrite hs
  · exact hs
  · exact .packWrite hs

protected theorem State.canonical.hostReadReg {off : Nat} (hs : s.canonical) : (hostReadReg s off).1.canonical := by
  fun_cases hostReadReg
  case case1 => exact .packAfterRead hs
  case case3 => exact .partAfterRead hs
  all_goals exact hs

protected theorem State.canonical.hostWriteReg {off : Nat} (hs : s.canonical) :
    (hostWriteReg s off w).canonical := by
  fun_cases hostWriteReg
  · exact .packWrite hs
  · exact hs
  · exact .partWrite hs
  · exact hs
  · exact .ctxWrite hs
  · exact hs
  · exact hs

protected theorem Out.canonical.specialOp {known : Group → Bool} {u : Use} {k : Group → Out} (hs : s.canonical)
    (hk : ∀ x, (k x).canonical) : (specialOp s n known u k).canonical := by
  fun_cases specialOp
  · exact .fault
  · exact .faultWord hs
  · refine .begin_ hs fun _ => ?_
    split
    · exact .faultWord hs
    · exact hk _

protected theorem Out.canonical.execRdsrS {a : SReg} {n : BitVec 14} (hs : s.canonical) :
    (execRdsrS a n s).canonical := by
  unfold Machine.execRdsrS
  refine .specialOp hs fun _ => ?_
  split
  · exact .complete hs
  · exact .complete (.supRead hs)

protected theorem Out.canonical.execRdsrV {a : VReg} {n : BitVec 14} (hs : s.canonical) :
    (execRdsrV a n s).canonical := by
  unfold Machine.execRdsrV
  refine .specialOp hs fun _ => ?_
  split
  · exact .complete hs
  · exact .complete (.supRead hs)

protected theorem Out.canonical.execWrsr {a : SReg} {n : BitVec 14} (hs : s.canonical) :
    (execWrsr a n s).canonical := by
  unfold Machine.execWrsr
  refine .specialOp hs fun _ => ?_
  extract_lets
  split
  · exact .complete hs
  · exact .next (.supWrite (.upd hs))

/-! ### Events of the memory system and the fabric -/

protected theorem Out.canonical.execPageWalk {ctx : Nat} (hs : s.canonical) :
    (execPageWalk core ctx va s).canonical := by
  fun_cases execPageWalk
  · exact .next (.translate hs)
  · exact .next hs

protected theorem Out.canonical.execL1CopyLapse {line : Nat} (hs : s.canonical) :
    (execL1CopyLapse core line s).canonical := by
  fun_cases execL1CopyLapse
  · exact .next (.upd hs)
  · exact .next hs
  · exact .next hs

protected theorem Out.canonical.execTlbEntryDrop {ix : Nat} (hs : s.canonical) :
    (execTlbEntryDrop ix s).canonical := .next (.upd hs)

protected theorem Out.canonical.execSpillWriteCompletion {req : Nat} (hs : s.canonical) :
    (execSpillWriteCompletion req s).canonical := .next (.spillDone hs)

protected theorem State.canonical.extHit (hs : s.canonical) : (extHit s slot).canonical := .regSet hs

protected theorem State.canonical.outRead {who a : Nat} (hs : s.canonical) : (outRead s who a n).1.canonical := by
  unfold Machine.outRead
  refine .readAgent ?_
  split
  · exact .extHit hs
  · exact hs

protected theorem State.canonical.outWrite {who a : Nat} {bs : List Byte} (hs : s.canonical) :
    (outWrite s who a bs).canonical := by
  fun_cases outWrite
  · exact .extHit hs
  · exact .writeCore hs

protected theorem State.canonical.outReads {who a : Nat} (hs : s.canonical) : (outReads s who a n).1.canonical :=
  .foldl_fst (fun _ _ ht => .outRead ht) hs

protected theorem State.canonical.outWrites {who a : Nat} {bs : List Byte} (hs : s.canonical) :
    (outWrites s who a bs).canonical := .foldl (fun _ _ ht => .outWrite ht) hs

protected theorem State.canonical.answer {v : Nat} (hs : s.canonical) : (answer s v).canonical := .upd hs

protected theorem Out.canonical.execHostAccess {target : HostTarget} {addr len : Nat} {data : Option (List Byte)}
    (hs : s.canonical) : (execHostAccess target addr len data s).canonical := by
  fun_cases execHostAccess
  · exact .next hs
  · exact .linked hs fun _ ht => .next (.answer (.outReads ht))
  · exact .next hs
  · exact .linked hs fun _ ht => .next (.outWrites ht)
  · exact .next hs
  · exact .next (.answer (.outReads hs))
  · exact .next hs
  · exact .next (.outWrites hs)

protected theorem Out.canonical.execPeerAccess {dev : Nat} {kind : PeerOp} {addr : Nat} {data : List Byte}
    (hs : s.canonical) : (execPeerAccess dev kind addr data s).canonical := by
  fun_cases execPeerAccess
  · exact .next hs
  · refine .linked hs fun _ ht => ?_
    split
    · exact .next (.answer (.outReads ht))
    · exact .next (.outWrites ht)
    · extract_lets
      split
      · exact .next ht
      · exact .next (.answer (.outWrites (.outReads ht)))

protected theorem Out.canonical.execVlFlitReceive {port flit : Nat} (hs : s.canonical) :
    (execVlFlitReceive port flit s).canonical := by
  fun_cases execVlFlitReceive
  · exact .next hs
  · exact .next (.regSet hs)
  · refine .linked hs fun _ ht => ?_
    split
    · exact .next ht
    · exact .next (.regSet ht)

protected theorem Out.canonical.execRatioChange (hs : s.canonical) : (execRatioChange s).canonical := by
  fun_cases execRatioChange
  · exact .next hs
  · exact .next (.upd hs)

protected theorem Out.canonical.execRatioStallEnd (hs : s.canonical) : (execRatioStallEnd s).canonical := by
  fun_cases execRatioStallEnd
  · exact .next hs
  · exact .next hs
  · exact .next (.foldl (fun _ _ ht => .emit ht) (.upd hs))

protected theorem State.canonical.retireClusters {cs : List Nat} (hs : s.canonical) :
    (retireClusters s cs).canonical := by
  fun_cases retireClusters
  · exact .vacateCluster hs
  · exact .markLeavers hs

protected theorem State.canonical.retireDrain {j : RetireJob} (hs : s.canonical) :
    (retireDrain s j).1.canonical := by
  fun_cases retireDrain
  · exact hs
  · exact hs
  · exact .retireClusters hs
  · exact hs
  · refine .foldl (fun _ _ ht => ?_) hs
    split
    · exact ht
    · split
      · exact .startEvict (.upd ht)
      · exact .dropResv ht

protected theorem State.canonical.nextRetire (hs : s.canonical) : (nextRetire s).canonical := by
  fun_cases nextRetire <;> exact .upd hs

protected theorem State.canonical.retireEmpty {j : RetireJob} (hs : s.canonical) : (retireEmpty s j).canonical := by
  fun_cases retireEmpty
  · exact .nextRetire (.upd hs)
  · exact .retireClusters hs

protected theorem State.canonical.retireFinish {j : RetireJob} (hs : s.canonical) :
    (retireFinish s j).canonical := by
  unfold Machine.retireFinish
  refine .retireEmpty ?_
  split
  · split
    · exact .setBound (.upd hs)
    · exact .upd hs
  · exact .upd hs

protected theorem Out.canonical.execBusRetire (hs : s.canonical) : (execBusRetire s).canonical := by
  fun_cases execBusRetire
  · exact .next hs
  · exact .next (.nextRetire hs)
  · exact .next hs
  · exact .next (.retireEmpty hs)
  · exact .next (.retireDrain hs)
  · exact .next (.upd (.retireDrain hs))
  · exact .next (.retireFinish (.retireDrain hs))

protected theorem Out.canonical.execRetireCopyDone (hs : s.canonical) : (execRetireCopyDone s).canonical := by
  fun_cases execRetireCopyDone
  · exact .next (.retireFinish hs)
  · exact .next hs
  · exact .next hs

protected theorem State.canonical.setSubnet {v : Nat} (hs : s.canonical) : (setSubnet s n v).canonical := .regSet hs

protected theorem State.canonical.subnetReport {occ : Nat} (hs : s.canonical) : (subnetReport s n occ).canonical :=
  .upd hs

protected theorem Out.canonical.execSubnetWake {occ : Nat} (hs : s.canonical) :
    (execSubnetWake n occ s).canonical := by
  fun_cases execSubnetWake
  · exact .next hs
  · exact .next (.setSubnet (.subnetReport hs))
  · exact .next (.subnetReport hs)
  · exact .next (.subnetReport hs)

protected theorem Out.canonical.execSubnetOn (hs : s.canonical) : (execSubnetOn n s).canonical := by
  fun_cases execSubnetOn
  · exact .next (.setSubnet hs)
  · exact .next hs

protected theorem Out.canonical.execSubnetOff (hs : s.canonical) : (execSubnetOff n s).canonical := by
  fun_cases execSubnetOff
  · exact .next (.setSubnet hs)
  · exact .next hs
  · exact .next hs

protected theorem Out.canonical.execVimenLinkPortTraining {port lanes : Nat} (hs : s.canonical) :
    (execVimenLinkPortTraining port lanes s).canonical := by
  fun_cases execVimenLinkPortTraining
  · exact .next hs
  · exact .next (.regSet hs)

protected theorem Out.canonical.execUcieLaneLoss {lanes : Nat} (hs : s.canonical) :
    (execUcieLaneLoss lanes s).canonical := by
  fun_cases execUcieLaneLoss
  · exact .next hs
  · exact .next (.upd hs)

protected theorem Out.canonical.execRegisterWrite {off val : Nat} (hs : s.canonical) :
    (execRegisterWrite off val s).canonical := .linked hs fun _ ht => .next (.hostWriteReg ht)

protected theorem Out.canonical.execRcRegisterRead {off : Nat} (hs : s.canonical) :
    (execRcRegisterRead off s).canonical := .linked hs fun _ ht => .next (.answer (.hostReadReg ht))

/-! ### Hypervectors -/

protected theorem Out.canonical.execHxor {a b c : HReg} (hs : s.canonical) : (execHxor a b c s).canonical :=
  .begin_ hs fun _ => .complete hs

protected theorem Out.canonical.execHrot {a b : HReg} {c : XOp} (hs : s.canonical) : (execHrot a b c s).canonical :=
  .begin_ hs fun _ => .complete hs

protected theorem Out.canonical.execHbun {a : KReg} {b : HReg} (hs : s.canonical) : (execHbun a b s).canonical :=
  .begin_ hs fun _ => .complete hs

protected theorem Out.canonical.execHclrH {a : HReg} (hs : s.canonical) : (execHclrH a s).canonical :=
  .begin_ hs fun _ => .complete hs

protected theorem Out.canonical.execHclrC {a : KReg} (hs : s.canonical) : (execHclrC a s).canonical :=
  .begin_ hs fun _ => .complete hs

protected theorem Out.canonical.execHmaj {a : HReg} {b : KReg} (hs : s.canonical) : (execHmaj a b s).canonical := by
  unfold Machine.execHmaj
  refine .begin_ hs fun _ => ?_
  split
  · exact .faultWord hs
  · split
    · exact .stall hs
    · exact .complete hs

protected theorem Out.canonical.execHpop {a : SReg} {b : HReg} (hs : s.canonical) : (execHpop a b s).canonical :=
  .begin_ hs fun _ => .charged hs (.completeOp hs)

protected theorem Out.canonical.execHdist {a : SReg} {b c : HReg} (hs : s.canonical) :
    (execHdist a b c s).canonical := .begin_ hs fun _ => .charged hs (.completeOp hs)

protected theorem Out.canonical.kibFail {kind : Nat} {fs : List (Nat × Fail × Nat)} (hs : s.canonical) :
    (kibFail s g kind fs).canonical := by
  fun_cases kibFail
  · exact .failAll hs
  · exact .stall hs

protected theorem State.canonical.kibGlobal {need : Need} {base : Nat} (hs : s.canonical) :
    (kibGlobal s g need base).1.canonical := .checkLanes (fun _ ht _ => .checkAccessIn ht) hs

protected theorem Out.canonical.hldDone {a : HReg} {vals : List Nat} {xs : List Seen} (hs : s.canonical) :
    (hldDone s g a vals xs).canonical := .watched (.completeOp hs)

protected theorem Out.canonical.execHldS {a : HReg} {b : SReg} (hs : s.canonical) : (execHldS a b s).canonical := by
  unfold Machine.execHldS
  refine .begin_ hs fun _ => .annHold hs (.charged hs ?_)
  extract_lets
  split
  · exact .failAll hs
  · exact .hldDone (.performLanes (fun _ ht _ => .scrRead ht) hs)

protected theorem Out.canonical.execHldG {a : HReg} {b : SReg} (hs : s.canonical) : (execHldG a b s).canonical :=
  .begin_ hs fun _ => .annHold hs (.charged hs (.ite (.kibFail (.kibGlobal hs))
    (.peerHold (.kibGlobal hs) (.hldDone (.performLanes (fun _ ht _ => .readCore ht) (.kibGlobal hs))))))

protected theorem Out.canonical.execHstS {a : HReg} {b : SReg} (hs : s.canonical) : (execHstS a b s).canonical := by
  unfold Machine.execHstS
  refine .begin_ hs fun _ => .annHold hs (.charged hs ?_)
  extract_lets
  split
  · exact .failAll hs
  · exact .watched (.completeOp (.foldl (fun _ _ ht => .scrWrite ht) hs))

protected theorem Out.canonical.execHstG {a : HReg} {b : SReg} (hs : s.canonical) : (execHstG a b s).canonical :=
  .begin_ hs fun _ => .annHold hs (.charged hs (.ite (.kibFail (.kibGlobal hs))
    (.peerHold (.kibGlobal hs) (.watched (.completeOp (.foldl (fun _ _ ht => .writeCore ht)
    (.loseIdem (.kibGlobal hs))))))))

protected theorem Out.canonical.execHfrom {a : HReg} {b : VReg} (hs : s.canonical) : (execHfrom a b s).canonical :=
  .begin_ hs fun _ => .blocking hs (.complete hs)

protected theorem Out.canonical.execHto {a : VReg} {b : HReg} (hs : s.canonical) : (execHto a b s).canonical :=
  .begin_ hs fun _ => .charged hs (.completeOp hs)

protected theorem Out.canonical.execHmatch {a : SReg} {b : HReg} {c : SReg} (hs : s.canonical) :
    (execHmatch a b c s).canonical := by
  unfold Machine.execHmatch
  refine .begin_ hs fun _ => .annHold hs (.charged hs (.ite (.faultWord hs) ?_))
  split
  · exact .failAll hs
  · exact .completeOp hs

protected theorem Out.canonical.execHtie {a : HReg} (hs : s.canonical) : (execHtie a s).canonical :=
  .begin_ hs fun _ => .complete hs

protected theorem Out.canonical.execHtieSeed {b : SReg} (hs : s.canonical) : (execHtieSeed b s).canonical :=
  .begin_ hs fun _ => .complete hs

/-! ### Lane comparisons -/

protected theorem Out.canonical.cmpOp {a : MReg} {b : VReg} {c : Src} {f : Word → Word → Bool} (hs : s.canonical) :
    (cmpOp s a b c f).canonical := .begin_ hs fun _ => .blocking hs (.complete hs)

protected theorem Out.canonical.fcmpOp {a : MReg} {b : VReg} {c : Src} {k : Nat} (hs : s.canonical) :
    (fcmpOp s a b c k).canonical := .begin_ hs fun _ => .blocking hs (.complete hs)

protected theorem Out.canonical.selOp {a : VReg} {k : MReg} {b : VReg} {c : Src} (hs : s.canonical) :
    (selOp s a k b c).canonical := .laneOp hs

/-! ### Lane integer instructions -/

protected theorem Out.canonical.intXform {t : Xform} {a b : VReg} {c : Src} (hs : s.canonical) :
    (intXform s t a b c).canonical := .laneXform hs

protected theorem Out.canonical.madOp {a b : VReg} {c : Src} (hs : s.canonical) : (madOp s a b c).canonical :=
  .laneXform hs

protected theorem Out.canonical.shlOp {a b : VReg} {c : Src} (hs : s.canonical) : (shlOp s a b c).canonical := by
  fun_cases shlOp
  · exact .intXform hs
  · exact .intXform hs
  · exact .laneOp2 hs

protected theorem Out.canonical.movOp {a : VReg} {c : Src} (hs : s.canonical) : (movOp s a c).canonical :=
  .laneXform hs

protected theorem Out.canonical.bfiOp {a b : VReg} {c : Src} (hs : s.canonical) : (bfiOp s a b c).canonical :=
  .laneOp hs

protected theorem Out.canonical.pairOp {a b : VReg} {c : Src} {f : Dword → Word → Dword} (hs : s.canonical) :
    (pairOp s a b c f).canonical := .laneOp hs

protected theorem Out.canonical.wideOp {a b : VReg} {c : Src} {f : Word → Word → Dword} (hs : s.canonical) :
    (wideOp s a b c f).canonical := .laneOp hs

protected theorem Out.canonical.execNopHalf (hs : s.canonical) : (execNopHalf s).canonical :=
  .begin_ hs fun _ => .complete hs

/-! ### Lane floating instructions -/

protected theorem Out.canonical.floatXform {t : Nat → Bool → Xform} {a b : VReg} {c : Src} (hs : s.canonical) :
    (floatXform s t a b c).canonical := .laneXform hs

protected theorem Out.canonical.ffmaOp {a b : VReg} {c : Src} (hs : s.canonical) : (ffmaOp s a b c).canonical :=
  .laneXform hs

protected theorem Out.canonical.minMaxOp {isMax : Bool} {a b : VReg} {c : Src} (hs : s.canonical) :
    (minMaxOp s isMax a b c).canonical := .laneOp hs

/-! ### Packed instructions -/

protected theorem Out.canonical.packedOp {f : Fmt} {op : Nat} {a b : VReg} {c : Src} (hs : s.canonical) :
    (packedOp s f op a b c).canonical := .laneOp hs

protected theorem Out.canonical.pfmaOp {f : Fmt} {a b : VReg} {c : Src} (hs : s.canonical) :
    (pfmaOp s f a b c).canonical := .laneOp hs

protected theorem Out.canonical.packedMinMax {f : Fmt} {isMax : Bool} {a b : VReg} {c : Src} (hs : s.canonical) :
    (packedMinMax s f isMax a b c).canonical := .laneOp hs

protected theorem Out.canonical.fdot4Op {f : Fmt} {a b : VReg} {c : Src} (hs : s.canonical) :
    (fdot4Op s f a b c).canonical := .laneOp hs

protected theorem Out.canonical.tbpackOp {tb8 sat : Bool} {a b : VReg} {c : SReg} (hs : s.canonical) :
    (tbpackOp s tb8 sat a b c).canonical := .begin_ hs fun _ => .blocking hs (.complete hs)

protected theorem Out.canonical.tbunpOp {tb8 : Bool} {a b : VReg} {c : SReg} (hs : s.canonical) :
    (tbunpOp s tb8 a b c).canonical := .laneOp hs

/-! ### Scalar instructions -/

protected theorem Out.canonical.scalarOp {a b : SReg} {c : XOp} {f : Word → Word → Word} (hs : s.canonical) :
    (scalarOp s a b c f).canonical := .begin_ hs fun _ => .complete hs

protected theorem Out.canonical.scalarSet {a b : SReg} {c : XOp} {f : Word → Word → Bool} (hs : s.canonical) :
    (scalarSet s a b c f).canonical := .scalarOp hs

protected theorem Out.canonical.execScalarMov {a : SReg} {c : XOp} (hs : s.canonical) :
    (execScalarMov a c s).canonical := .begin_ hs fun _ => .complete hs

protected theorem Out.canonical.execScalarSel {a b : SReg} {c : XOp} (hs : s.canonical) :
    (execScalarSel a b c s).canonical := .begin_ hs fun _ => .complete hs

/-! ### The long form -/

protected theorem Out.canonical.execClauseHeader {x : BitVec 5} {x1 x2 : BitVec 4} {wait : BitVec 12}
    (hs : s.canonical) : (execClauseHeader x x1 x2 wait s).canonical := by
  fun_cases execClauseHeader
  · exact .fault
  · exact .stall hs
  · exact .next (.putGroup hs)

protected theorem Out.canonical.execPrefixWord {d : VReg} {dv ftz zero : Bool} {rnd : BitVec 3} {mask : BitVec 4}
    (hs : s.canonical) : (execPrefixWord d dv ftz zero rnd mask s).canonical := by
  fun_cases execPrefixWord
  · exact .fault
  · exact .next (.putGroup hs)

protected theorem Out.canonical.longS {k : SReg → Out} (hs : s.canonical) (hk : ∀ x, (k x).canonical) :
    (longS s n k).canonical := by
  fun_cases longS
  · exact hk _
  · exact .faultWord hs

protected theorem Out.canonical.longM {k : MReg → Out} (hs : s.canonical) (hk : ∀ x, (k x).canonical) :
    (longM s n k).canonical := by
  fun_cases longM
  · exact hk _
  · exact .faultWord hs

protected theorem Out.canonical.longIf {c : Bool} {k : Out} (hs : s.canonical) (hk : k.canonical) :
    (longIf s c k).canonical := by
  fun_cases longIf
  · exact hk
  · exact .faultWord hs

protected theorem State.canonical.zField (hs : s.canonical) : (zField s n).canonical := .upd hs

protected theorem Out.canonical.longMem {glob : Bool} {b : Nat} {lit : Word} {k : MemOp → Out} (hs : s.canonical)
    (hk : ∀ x, (k x).canonical) : (longMem s glob b lit k).canonical := by
  fun_cases longMem
  · exact .faultWord hs
  · exact hk _
  · exact hk _
  · exact .faultWord hs
  · exact hk _

protected theorem Out.canonical.longTy {m : Nat} {ok : AccTy → Bool} {k : AccTy → Out} (hs : s.canonical)
    (hk : ∀ x, (k x).canonical) : (longTy s m ok k).canonical := by
  fun_cases longTy
  · exact hk _
  · exact .faultWord hs
  · exact .faultWord hs

protected theorem Out.canonical.longOp {m : Nat} {ok : AtomOp → Bool} {k : AtomOp → Out} (hs : s.canonical)
    (hk : ∀ x, (k x).canonical) : (longOp s m ok k).canonical := by
  fun_cases longOp
  · exact hk _
  · exact .faultWord hs
  · exact .faultWord hs

protected theorem Out.canonical.long01 {m a b : Nat} {x : XOp} (hs : s.canonical) :
    (long01 m a b x s).canonical := by
  fun_cases long01
  case case16 => exact .faultWord hs
  all_goals exact .longS hs fun _ => .longS hs fun _ => .scalarOp hs

protected theorem Out.canonical.long02 {m a b : Nat} {x : XOp} (hs : s.canonical) :
    (long02 m a b x s).canonical := by
  fun_cases long02
  case case1 => exact .longS hs fun _ => .execScalarMov (.zField hs)
  case case8 => exact .longS hs fun _ => .longS hs fun _ => .execScalarSel hs
  case case9 => exact .faultWord hs
  all_goals exact .longS hs fun _ => .longS hs fun _ => .scalarSet hs

protected theorem Out.canonical.long09 {m a b : Nat} {x : XOp} (hs : s.canonical) :
    (long09 m a b x s).canonical := by
  fun_cases long09
  · exact .intXform hs
  · exact .intXform hs
  · exact .intXform hs
  · exact .laneOp2 hs
  · exact .laneOp2 hs
  · exact .madOp hs
  · exact .laneOp2 hs
  · exact .laneOp2 hs
  · exact .laneOp2 hs
  · exact .laneOp2 hs
  · exact .laneOp2 hs
  · exact .laneOp2 hs
  · exact .laneOp2 hs
  · exact .shlOp hs
  · exact .laneOp2 hs
  · exact .laneOp2 hs

protected theorem Out.canonical.long0B {m a b : Nat} {x : XOp} (hs : s.canonical) :
    (long0B m a b x s).canonical := by
  fun_cases long0B
  · exact .laneOp2 hs
  · exact .laneOp2 hs
  · exact .bfiOp hs
  · exact .movOp (.zField hs)
  · exact .longIf hs (.pairOp hs)
  · exact .longIf hs (.pairOp hs)
  · exact .longIf hs (.pairOp hs)
  · exact .longIf hs (.pairOp hs)
  · exact .longIf hs (.pairOp hs)
  · exact .longIf hs (.wideOp hs)
  · exact .longIf hs (.wideOp hs)
  · exact .faultWord hs

protected theorem Out.canonical.long0D {m a b : Nat} {x : XOp} (hs : s.canonical) :
    (long0D m a b x s).canonical := by
  fun_cases long0D
  · exact .longM hs fun _ => .longIf hs (.cmpOp hs)
  · exact .longM hs fun _ => .longIf hs (.cmpOp hs)
  · exact .longM hs fun _ => .longIf hs (.cmpOp hs)
  · exact .longM hs fun _ => .longIf hs (.cmpOp hs)
  · exact .longM hs fun _ => .longIf hs (.cmpOp hs)
  · exact .longM hs fun _ => .longIf hs (.cmpOp hs)
  · exact .longM hs fun _ => .longIf hs (.cmpOp hs)
  · exact .longM hs fun _ => .longIf hs (.cmpOp hs)
  · exact .longM hs fun _ => .longIf hs (.cmpOp hs)
  · exact .longM hs fun _ => .longIf hs (.cmpOp hs)
  · exact .longM hs fun _ => .longIf hs (.fcmpOp hs)
  · exact .longM hs fun _ => .longIf hs (.fcmpOp hs)
  · exact .longM hs fun _ => .longIf hs (.fcmpOp hs)
  · exact .longM hs fun _ => .longIf hs (.fcmpOp hs)
  · exact .longM hs fun _ => .longIf hs (.fcmpOp hs)
  · exact .faultWord hs

protected theorem Out.canonical.long0F {m a b : Nat} {x : XOp} (hs : s.canonical) :
    (long0F m a b x s).canonical := by
  fun_cases long0F
  · exact .floatXform hs
  · exact .floatXform hs
  · exact .floatXform hs
  · exact .ffmaOp hs
  · exact .minMaxOp hs
  · exact .minMaxOp hs
  · exact .faultWord hs

protected theorem Out.canonical.long13 {m a b : Nat} {x : XOp} (hs : s.canonical) :
    (long13 m a b x s).canonical := by
  fun_cases long13
  · exact .packedOp hs
  · exact .packedOp hs
  · exact .packedOp hs
  · exact .pfmaOp hs
  · exact .packedMinMax hs
  · exact .packedMinMax hs
  · exact .packedOp hs
  · exact .packedOp hs
  · exact .packedOp hs
  · exact .pfmaOp hs
  · exact .packedMinMax hs
  · exact .packedMinMax hs
  · exact .fdot4Op hs
  · exact .fdot4Op hs
  · exact .faultWord hs

protected theorem Out.canonical.long03 {m a b : Nat} {lit : Word} (hs : s.canonical) :
    (long03 m a b lit s).canonical := by
  fun_cases long03
  · exact .faultWord hs
  · exact .execBra (.zField hs)
  · exact .branchOn (.zField hs)
  · exact .branchOn (.zField hs)
  · exact .execCall (.zField hs)
  · exact .faultWord hs

protected theorem Out.canonical.longAcc {cls m a b : Nat} {lit : Word} (hs : s.canonical) :
    (longAcc cls m a b lit s).canonical := by
  fun_cases longAcc
  · exact .longTy hs fun _ => .longMem hs fun _ => .globalLoad hs
  · exact .longTy hs fun _ => .longMem hs fun _ => .globalLoad hs
  · exact .longTy hs fun _ => .longMem hs fun _ => .globalStore hs
  · exact .longTy hs fun _ => .longMem hs fun _ => .scratchLoad hs
  · exact .longTy hs fun _ => .longMem hs fun _ => .scratchLoad hs
  · exact .longTy hs fun _ => .longMem hs fun _ => .scratchStore hs
  · exact .longOp hs fun _ => .longMem hs fun _ => .globalAtomic hs
  · exact .longOp hs fun _ => .longMem hs fun _ => .globalAtomic hs
  · exact .longOp hs fun _ => .longMem hs fun _ => .scratchAtomic hs
  · exact .longOp hs fun _ => .longMem hs fun _ => .scratchAtomic hs
  · exact .longOp hs fun _ => .longMem hs fun _ => .reduction hs
  · exact .longOp hs fun _ => .longMem hs fun _ => .reduction hs
  · exact .longMem (.upd hs) fun _ => .execPrefetchL1 (.upd hs)
  · exact .longMem (.upd hs) fun _ => .execPrefetchSlice (.upd hs)
  · exact .faultWord hs
  · exact .faultWord hs

protected theorem Out.canonical.execLongForm {minor : BitVec 4} {b a : BitVec 7} {icls : BitVec 6} {lit : Word}
    (hs : s.canonical) : (execLongForm minor b a icls lit s).canonical := by
  fun_cases execLongForm
  · exact .long01 hs
  · exact .long02 hs
  · exact .long03 hs
  · exact .long09 hs
  · exact .long0B hs
  · exact .long0D hs
  · exact .long0F hs
  · exact .long13 hs
  · exact .longM hs fun _ => .longIf hs (.selOp hs)
  · exact .longAcc hs

/-! ### Privileged events -/

protected theorem Out.canonical.execGrd {a b c : SReg} (hs : s.canonical) : (execGrd a b c s).canonical :=
  .begin_ hs fun _ => .complete hs

protected theorem State.canonical.withdraw (hs : s.canonical) : (withdraw s g).canonical := by
  fun_cases withdraw
  · exact .upd hs
  · exact hs

protected theorem State.canonical.editPcv {gid : Nat} {g : Group} {l : Nat} {w : Word} (hs : s.canonical) :
    (editPcv s gid g l w).canonical := by
  unfold Machine.editPcv
  cases (g.lane l).st with
  | bar => exact .putGroup (.withdraw hs)
  | wait => exact .ite (.putGroup hs) (.evLeave (.putGroup hs))
  | _ => exact .putGroup hs

protected theorem State.canonical.writeSel {gid : Nat} {g : Group} {x : Sel} {w : Word} (hs : s.canonical) :
    (writeSel s gid g x w).1.canonical := by
  fun_cases writeSel
  case case5 => exact .editPcv hs
  case case6 | case8 | case17 => exact hs
  case case12 form _ | case13 form _ | case14 form _ =>
    unfold form
    beta_reduce
    split
    · exact .putGroup hs
    · exact hs
  all_goals exact .putGroup hs

protected theorem Out.canonical.execGwr {a b c : SReg} (hs : s.canonical) : (execGwr a b c s).canonical := by
  unfold Machine.execGwr
  refine .begin_ hs fun _ => .complete ?_
  split
  · exact hs
  · exact .writeSel hs

protected theorem Out.canonical.statusDone {a : SReg} {st : Nat} (hs : s.canonical) :
    (statusDone s g a st).canonical := .complete hs

protected theorem Out.canonical.execResume {a b : SReg} (hs : s.canonical) : (execResume a b s).canonical := by
  unfold Machine.execResume
  refine .begin_ hs fun _ => ?_
  extract_lets
  split
  · exact .statusDone hs
  · split
    · split
      · exact .statusDone hs
      · split
        · exact .statusDone hs
        · split
          · exact .longStall hs
          · exact .statusDone (.lowerLine (.releaseAll hs))
    · split
      · exact .statusDone hs
      · split
        · exact .statusDone hs
        · split
          · exact .longStall hs
          · exact .statusDone (.lowerLine (.releaseAll hs))

protected theorem Out.canonical.execHalt {a b : SReg} (hs : s.canonical) : (execHalt a b s).canonical := by
  unfold Machine.execHalt
  refine .begin_ hs fun _ => ?_
  split
  · extract_lets
    split
    · exact .statusDone hs
    · split
      · exact .statusDone hs
      · split
        · exact .statusDone hs
        · exact .later (.raiseLine hs)
  · split
    · split
      · exact .statusDone hs
      · exact .longStall hs
    · exact .statusDone hs

protected theorem Out.canonical.execBankset {a b c : SReg} (hs : s.canonical) :
    (execBankset a b c s).canonical := by
  unfold Machine.execBankset
  refine .begin_ hs fun _ => ?_
  extract_lets
  split
  · exact .statusDone hs
  · split
    · exact .statusDone hs
    · split
      · split
        · exact .statusDone hs
        · split
          · exact .statusDone hs
          · exact .statusDone (.setBound hs)
      · split
        · exact .statusDone hs
        · split
          · split
            · exact .statusDone hs
            · exact .statusDone (.setBound hs)
          · split
            · exact .statusDone hs
            · exact .statusDone (.selectBank hs)

protected theorem Out.canonical.execTlbinv {a b c : SReg} (hs : s.canonical) : (execTlbinv a b c s).canonical := by
  unfold Machine.execTlbinv
  refine .begin_ hs fun _ => ?_
  extract_lets
  split
  · exact .statusDone hs
  · split
    · exact .longStall hs
    · exact .statusDone (.upd (.fenced hs))

/-! ### Events of the whole device -/

protected theorem Out.canonical.execPtmDialogue (hs : s.canonical) : (execPtmDialogue s).canonical := by
  fun_cases execPtmDialogue
  · exact .next (.goPtm hs)
  · exact .next hs

protected theorem Out.canonical.execPtmResponse {master delay : Nat} (hs : s.canonical) :
    (execPtmResponse master delay s).canonical := by
  fun_cases execPtmResponse
  · exact .next hs
  · exact .next (.upd (.regSet (.regSet (.regSet64 (.regSet64 (.regSet64 hs))))))

protected theorem Out.canonical.execTimeStep {off : Nat} (hs : s.canonical) : (execTimeStep off s).canonical := by
  fun_cases execTimeStep
  · exact .next (.stepTime hs)
  · exact .next hs

protected theorem Out.canonical.execFilterLoad (hs : s.canonical) : (execFilterLoad p s).canonical :=
  .next (.ite (.loadFilter hs) hs)

protected theorem Out.canonical.execSampleTag {wedge : Nat} (hs : s.canonical) :
    (execSampleTag core wedge s).canonical := by
  fun_cases execSampleTag
  · exact .next hs
  · exact .next hs
  · exact .next (.upd hs)
  · exact .next (.upd hs)
  · exact .next (.upd (.chose hs))
  · exact .next (.upd (.chose hs))

protected theorem State.canonical.tagLevel {i : Instr} (hs : s.canonical) : (tagLevel s i).canonical := by
  fun_cases tagLevel
  · exact hs
  · exact .upd hs

protected theorem Out.canonical.execSamplingRecord {wedge level : Nat} {lats : List Nat} (hs : s.canonical) :
    (execSamplingRecord core wedge level lats s).canonical := by
  fun_cases execSamplingRecord
  · exact .next hs
  · exact .next hs
  · exact .next hs
  · exact .next (.queueRecord (.upd hs))
  · exact .next (.upd hs)

protected theorem Out.canonical.execStopcGo (hs : s.canonical) : (execStopcGo p s).canonical :=
  .next (.ite (.sendStop hs) hs)

protected theorem Out.canonical.execStepWithinHalt (hs : s.canonical) : (execStepWithinHalt p s).canonical := by
  fun_cases execStepWithinHalt
  · exact .next hs
  · exact .next (.startStep hs)

protected theorem Out.canonical.execStepNotify (hs : s.canonical) : (execStepNotify p s).canonical := by
  fun_cases execStepNotify
  · exact .next hs
  · exact .next (.armStep hs)

protected theorem State.canonical.endStep {g : Nat} (hs : s.canonical) : (endStep s p g).canonical := by
  fun_cases endStep
  · exact .upd (.stepStat hs)
  · exact .putGroup (.regSet (.upd (.stepStat hs)))

protected theorem Out.canonical.execStepCompletion {p : Nat} (hs : s.canonical) :
    (execStepCompletion p s).canonical := by
  fun_cases execStepCompletion
  · exact .next hs
  · exact .next (.endStep hs)
  · exact .next hs
  next t =>
    refine .next (.endStep ?_)
    unfold t
    split
    · split
      · exact .arriveRouter (.arriveBar hs)
      · exact .arriveBar hs
    · exact .arriveBar hs
  · exact .next (.endStep hs)
  · exact .next hs

protected theorem Out.canonical.execAnnWindowEnable {ctx val : Nat} (hs : s.canonical) :
    (execAnnWindowEnable ctx val s).canonical := by
  fun_cases execAnnWindowEnable
  · exact .next (.windowWrite hs)
  · exact .next hs

protected theorem Out.canonical.execAnnWindowDisable {ctx val : Nat} (hs : s.canonical) :
    (execAnnWindowDisable ctx val s).canonical := by
  fun_cases execAnnWindowDisable
  · exact .next (.windowWrite hs)
  · exact .next hs

protected theorem Out.canonical.execPartqWrite {mask : Nat} (hs : s.canonical) :
    (execPartqWrite p mask s).canonical := by
  fun_cases execPartqWrite
  · exact .next (.partqSet hs)
  · exact .next hs

protected theorem Out.canonical.execHcoreWrite (hs : s.canonical) : (execHcoreWrite p core s).canonical := by
  fun_cases execHcoreWrite
  · exact .next (.hcoreSet hs)
  · exact .next hs

protected theorem Out.canonical.execContextCreate {ctx val : Nat} (hs : s.canonical) :
    (execContextCreate ctx val s).canonical := by
  fun_cases execContextCreate
  · exact .next (.ctxcfgSet hs)
  · exact .next hs

protected theorem Out.canonical.execContextInvalidate {ctx val : Nat} (hs : s.canonical) :
    (execContextInvalidate ctx val s).canonical := by
  fun_cases execContextInvalidate
  · exact .next (.ctxcfgSet hs)
  · exact .next hs

protected theorem Out.canonical.pstateEvent {p : Word} (hs : s.canonical) : (pstateEvent s p).canonical := by
  fun_cases pstateEvent
  · exact .next (.pstateSet hs)
  · exact .next hs

protected theorem State.canonical.setCause {k : Nat} {on : Bool} (hs : s.canonical) : (setCause s k on).canonical :=
  .upd hs

protected theorem Out.canonical.execThermalOrPowerCause {cause : Nat} {on : Bool} (hs : s.canonical) :
    (execThermalOrPowerCause cause on s).canonical := by
  fun_cases execThermalOrPowerCause
  · exact .next (.setCause hs)
  · exact .next (.upd (.setCause hs))
  · exact .next hs

protected theorem Out.canonical.execFloorRaise (hs : s.canonical) : (execFloorRaise s).canonical := by
  fun_cases execFloorRaise
  · exact .next hs
  · exact .next (.upd hs)
  · exact .next hs

protected theorem Out.canonical.execFloorFall (hs : s.canonical) : (execFloorFall s).canonical := by
  fun_cases execFloorFall
  · exact .next (.upd hs)
  · exact .next hs

protected theorem State.canonical.haltAll {src : Nat} (hs : s.canonical) : (haltAll s src).canonical :=
  .foldl (fun _ _ ht => .raiseLine ht) hs

protected theorem Out.canonical.execWearStateChange {sel state eolh used : Nat} (hs : s.canonical) :
    (execWearStateChange sel state eolh used s).canonical := by
  fun_cases execWearStateChange
  · exact .next hs
  · exact .next (.ite (.upd hs) (.setCause (.upd hs)))
  · exact .next (.ite (.upd hs) (.setCause (.upd hs)))
  · exact .next (.upd (.ite (.upd hs) (.setCause (.upd hs))))
  · exact .next (.haltAll (.upd (.ite (.upd hs) (.setCause (.upd hs)))))
  · exact .next (.ite (.upd hs) (.setCause (.upd hs)))

protected theorem Out.canonical.execAlarm {level src : Nat} (hs : s.canonical) :
    (execAlarm level src s).canonical := by
  fun_cases execAlarm
  · exact .next hs
  · exact .next (.regSet (.regSet hs))
  · exact .next (.ite (.regSet (.ite (.upd (.haltAll (.regSet (.regSet hs))))
      (.upd (.regSet (.upd (.haltAll (.regSet (.regSet hs))))))))
      (.ite (.upd (.haltAll (.regSet (.regSet hs)))) (.upd (.regSet (.upd (.haltAll (.regSet (.regSet hs))))))))

protected theorem Out.canonical.execAttestationReport (hs : s.canonical) : (execAttestationReport s).canonical :=
  .next (.goReport hs)

protected theorem Out.canonical.execReportPublish (hs : s.canonical) : (execReportPublish s).canonical := by
  fun_cases execReportPublish
  · exact .next hs
  · exact .next (.upd (.regSet hs))
  · exact .next (.upd (.regSet (.publishAll (.writeSlice hs))))

protected theorem State.canonical.powered (hs : s.canonical) : s.powered.canonical := by
  fun_cases State.powered
  · exact .put (wf_filter (wf_mem hs) _) (wf_scr .reset) (wf_arena .reset) (wf_bst .reset) (wf_ring .reset)
  · exact .regSet (.put (wf_filter (wf_mem hs) _) (wf_scr .reset) (wf_arena .reset) (wf_bst .reset)
      (wf_ring .reset))

protected theorem Out.canonical.execBringUp (hs : s.canonical) : (execBringUp s).canonical := by
  fun_cases execBringUp
  · exact .next (.upd (.regSet (.trained (.powered hs))))
  · exact .next (.trained (.powered hs))

/-! ### What a group tries next -/

protected theorem State.canonical.pruneOlds (hs : s.canonical) : (pruneOlds s).canonical := .upd hs

protected theorem State.canonical.advance {ns mclk lclk : Nat} (hs : s.canonical) :
    (advance s ns mclk lclk).canonical := .pruneOlds (.landDue (.upd hs))

/-! ### One instruction or event -/

protected theorem Out.canonical.exec {i : Instr} (hs : s.canonical) : Out.canonical (exec i s) := by
  unfold Machine.exec
  cases i with
  | clauseHeader => exact .execClauseHeader hs
  | prefixWord => exact .execPrefixWord hs
  | longForm => exact .execLongForm hs
  | nopHalf => exact .execNopHalf hs
  | addI32Half | subI32Half | mulI32Half | addV | addX | subV | subX | mulV
  | mulX => exact .intXform hs
  | andB32Half | orB32Half | xorB32Half | shrN32Half | minI32Half | mulhiI32V
  | mulhiI32X | mulhiN32V | mulhiN32X | minI32V | minI32X | maxI32V | maxI32X
  | minN32V | minN32X | maxN32V | maxN32X | andV | andX | orV | orX
  | xorV | xorX | shrV | shrX | sraV | sraX | bfeN32V | bfeN32X | bfeI32V
  | bfeI32X => exact .laneOp2 hs
  | shlB32Half | shlV | shlX => exact .shlOp hs
  | faddF32Half | fsubF32Half | fmulF32Half | faddF32V | faddF32X | fsubF32V
  | fsubF32X | fmulF32V | fmulF32X => exact .floatXform hs
  | fminF32Half | fmaxF32Half | fminF32V | fminF32X | fmaxF32V | fmaxF32X => exact .minMaxOp hs
  | movB32Half | movB32V | movB32X => exact .movOp hs
  | scalarAdd | scalarSub | scalarMul | scalarMulhiI32 | scalarMulhiN32 | scalarAnd
  | scalarOr | scalarXor | scalarShl | scalarShr | scalarSra | scalarMinI32
  | scalarMaxI32 | scalarMinN32 | scalarMaxN32 => exact .scalarOp hs
  | scalarMov => exact .execScalarMov hs
  | seteq | setne | setltI32 | setleI32 | setltN32 | setleN32 => exact .scalarSet hs
  | scalarSel => exact .execScalarSel hs
  | bra => exact .execBra hs
  | brcNz | brcZ => exact .branchOn hs
  | bri | ret => exact .indirect hs
  | call => exact .execCall hs
  | exit => exact .execExit hs
  | elect => exact .execElect hs
  | yield => exact .execYield hs
  | trap => exact .execTrap hs
  | brk => exact .execBrk hs
  | settile => exact .execSettile hs
  | mjoin => exact .execMjoin hs
  | mleave => exact .execMleave hs
  | mwait => exact .execMwait hs
  | mrd => exact .execMrd hs
  | mwr => exact .execMwr hs
  | waitAny | waitAll => exact .waitOp hs
  | sleepAt => exact .execSleepAt hs
  | sleepAtProm => exact .execSleepAtProm hs
  | rdtime => exact .execRdtime hs
  | barTeam | barCluster => exact .barOp hs
  | evsig => exact .execEvsig hs
  | launch => exact .execLaunch hs
  | symWait => exact .execSymWait hs
  | rdsrS => exact .execRdsrS hs
  | rdsrV => exact .execRdsrV hs
  | wrsr => exact .execWrsr hs
  | madV | madX => exact .madOp hs
  | absI32 | popcB32 | clzB32 | brevB32 | fabsF32 | fclassF32 | frndF32
  | frcpF32 | frsqF32 | fsqrtF32 | fex2F32 | flg2F32 | fsinF32 | fcosF32
  | cvt => exact .laneOp1 hs
  | bfiB32V | bfiB32X => exact .bfiOp hs
  | addI64V | addI64X | subI64V | subI64X | shlB64V | shlB64X | shrN64V
  | shrN64X | sraI64V | sraI64X => exact .pairOp hs
  | mulWideI32V | mulWideI32X | mulWideN32V | mulWideN32X => exact .wideOp hs
  | cmpEqB32V | cmpEqB32X | cmpNeB32V | cmpNeB32X | cmpLtI32V | cmpLtI32X
  | cmpLeI32V | cmpLeI32X | cmpGtI32V | cmpGtI32X | cmpGeI32V | cmpGeI32X
  | cmpLtN32V | cmpLtN32X | cmpLeN32V | cmpLeN32X | cmpGtN32V | cmpGtN32X
  | cmpGeN32V | cmpGeN32X => exact .cmpOp hs
  | fcmpEqF32V | fcmpEqF32X | fcmpLtF32V | fcmpLtF32X | fcmpLeF32V | fcmpLeF32X
  | fcmpNeF32V | fcmpNeF32X | fcmpUnF32V | fcmpUnF32X => exact .fcmpOp hs
  | ffmaF32V | ffmaF32X => exact .ffmaOp hs
  | fnegF32 => exact .laneXform hs
  | paddF16V | paddF16X | psubF16V | psubF16X | pmulF16V | pmulF16X | paddBf16V
  | paddBf16X | psubBf16V | psubBf16X | pmulBf16V | pmulBf16X => exact .packedOp hs
  | pfmaF16V | pfmaF16X | pfmaBf16V | pfmaBf16X => exact .pfmaOp hs
  | pminF16V | pminF16X | pmaxF16V | pmaxF16X | pminBf16V | pminBf16X | pmaxBf16V
  | pmaxBf16X => exact .packedMinMax hs
  | fdot4E4m3V | fdot4E4m3X | fdot4E5m2V | fdot4E5m2X => exact .fdot4Op hs
  | tbpackTb8 | tbpackTb4 | tbpackSatTb8 | tbpackSatTb4 => exact .tbpackOp hs
  | tbunpTb8 | tbunpTb4 => exact .tbunpOp hs
  | xlaneGetV | xlaneGetX | xlaneBackV | xlaneBackX | xlaneFwdV | xlaneFwdX
  | xlaneMixV | xlaneMixX => exact .xlaneOp hs
  | pollSome | pollEvery | pollBits | foldAddI32 | foldMinI32 | foldMaxI32
  | foldAddF32 | prefixAddI32 | prefixAddF32 | sameB32 | sameF32 => exact .tileOp hs
  | selV | selX => exact .selOp hs
  | ldg | ldgSym => exact .globalLoad hs
  | stg => exact .globalStore hs
  | lds | ldsSym => exact .scratchLoad hs
  | sts => exact .scratchStore hs
  | ldt | ldtSym => exact .surfaceLoad hs
  | stt => exact .surfaceStore hs
  | ropz => exact .execRopz hs
  | ropc => exact .execRopc hs
  | atg32 | atg64 => exact .globalAtomic hs
  | ats32 | ats64 => exact .scratchAtomic hs
  | red32 | red64 => exact .reduction hs
  | fenceGroup | fenceTeam | fenceFacet | fenceCluster | fencePackage | fenceSystem => exact .fenceOp hs
  | ack => exact .execAck hs
  | tdisc => exact .execTdisc hs
  | prefetchL1 => exact .execPrefetchL1 hs
  | prefetchSlice => exact .execPrefetchSlice hs
  | surfDef => exact .execSurfDef hs
  | surfDrop => exact .execSurfDrop hs
  | surfClr => exact .execSurfClr hs
  | surfDecomp => exact .execSurfDecomp hs
  | annBoard => exact .execAnnBoard hs
  | annAlight => exact .execAnnAlight hs
  | annLdB32 => exact .execAnnLdB32 hs
  | annLdB64 => exact .execAnnLdB64 hs
  | annLdSymI32 | annLdSymF32 => exact .annSymOp hs
  | annWait => exact .execAnnWait hs
  | annOp32 | annOp64 => exact .annOp hs
  | putSigSet | putSigAdd => exact .putSig hs
  | getpGroup | getpTeam | getpFacet | getpCluster | getpPackage | getpSystem => exact .getpOp hs
  | pushCopy | pushTensor | pushGather | pushColl | pushRast | pushMsg => exact .pushOp hs
  | pushb => exact .execPushb hs
  | msgSend => exact .execMsgSend hs
  | msgRecv => exact .execMsgRecv hs
  | msgProbe => exact .execMsgProbe hs
  | mbLd => exact .execMbLd hs
  | mbZero => exact .execMbZero hs
  | mmx | mmxLut => exact .mmxScratch hs
  | mmxR | mmxLutR => exact .mmxRegBlock hs
  | hxor => exact .execHxor hs
  | hrot => exact .execHrot hs
  | hbun => exact .execHbun hs
  | hclrH => exact .execHclrH hs
  | hclrC => exact .execHclrC hs
  | hmaj => exact .execHmaj hs
  | hpop => exact .execHpop hs
  | hdist => exact .execHdist hs
  | hldS => exact .execHldS hs
  | hldG => exact .execHldG hs
  | hstS => exact .execHstS hs
  | hstG => exact .execHstG hs
  | hfrom => exact .execHfrom hs
  | hto => exact .execHto hs
  | hmatch => exact .execHmatch hs
  | htie => exact .execHtie hs
  | htieSeed => exact .execHtieSeed hs
  | grd => exact .execGrd hs
  | gwr => exact .execGwr hs
  | resume => exact .execResume hs
  | bankset => exact .execBankset hs
  | tlbinv => exact .execTlbinv hs
  | halt => exact .execHalt hs
  | filterAdd | filterSub | filterAnd | filterOr | filterXor | filterShl
  | filterShr | filterAddi | filterAndi | filterShli | filterShri | filterLdlo
  | filterLdhi => exact .filterAlu hs
  | filterBeq | filterBne | filterBltu | filterBgeu => exact .filterBranch hs
  | filterKeep => exact .execFilterKeep hs
  | filterDrop => exact .execFilterDrop hs
  | filterCount => exact .execFilterCount hs
  | filterTrig => exact .execFilterTrig hs
  | filterRdcnt => exact .execFilterRdcnt hs
  | starvationFloor => exact .execStarvationFloor hs
  | groupSwap => exact .execGroupSwap hs
  | forcedSwap => exact .execForcedSwap hs
  | waitRelease => exact .execWaitRelease hs
  | sleepRelease => exact .execSleepRelease hs
  | barrierArrival => exact .execBarrierArrival hs
  | barrierRouterArrival => exact .execBarrierRouterArrival hs
  | symbolDelivery => exact .execSymbolDelivery hs
  | teamRetire => exact .execTeamRetire hs
  | qtailDoorbell => exact .execQtailDoorbell hs
  | ringEntryMove => exact .execRingEntryMove hs
  | queueHead => exact .execQueueHead hs
  | clusterPlacement => exact .execClusterPlacement hs
  | bankRotation => exact .execBankRotation hs
  | preemptRequest => exact .execPreemptRequest hs
  | vacateComplete => exact .execVacateComplete hs
  | extensionMoveBack => exact .execExtensionMoveBack hs
  | haltLineArrival => exact .execHaltLineArrival hs
  | skidStop => exact .execSkidStop hs
  | stopAreaWrite => exact .execStopAreaWrite hs
  | handlerStart => exact .execHandlerStart hs
  | handlerCoreMove => exact .execHandlerCoreMove hs
  | pageWalk => exact .execPageWalk hs
  | l1CopyLapse => exact .execL1CopyLapse hs
  | stationEntry => exact .execStationEntry hs
  | annulusCapture => exact .execAnnulusCapture hs
  | watchPassage => exact .execWatchPassage hs
  | hostAccess => exact .execHostAccess hs
  | peerAccess => exact .execPeerAccess hs
  | vlReplyTimeout => exact .execVlReplyTimeout hs
  | vlFlitReceive => exact .execVlFlitReceive hs
  | putSigDelivery => exact .execPutSigDelivery hs
  | putSigFlag => exact .execPutSigFlag hs
  | getpTransfer => exact .execGetpTransfer hs
  | requestEngineHandoff => exact .execRequestEngineHandoff hs
  | copyCommand => exact .execCopyCommand hs
  | tensorCommand => exact .execTensorCommand hs
  | gatherCommand => exact .execGatherCommand hs
  | collCommand => exact .execCollCommand hs
  | engineCompletion => exact .execEngineCompletion hs
  | pushbListRead => exact .execPushbListRead hs
  | msgArrival => exact .execMsgArrival hs
  | matrixQueueAccept => exact .execMatrixQueueAccept hs
  | mbLdCommand => exact .execMbLdCommand hs
  | mbZeroCommand => exact .execMbZeroCommand hs
  | denseComputation => exact .execDenseComputation hs
  | tableLookup => exact .execTableLookup hs
  | matrixCompletion => exact .execMatrixCompletion hs
  | rastAccept => exact .execRastAccept hs
  | triangleSetup => exact .execTriangleSetup hs
  | fragmentGroupLaunch => exact .execFragmentGroupLaunch hs
  | bankUnitApply => exact .execBankUnitApply hs
  | ratioChange => exact .execRatioChange hs
  | ratioStallEnd => exact .execRatioStallEnd hs
  | busRetire => exact .execBusRetire hs
  | retireCopyDone => exact .execRetireCopyDone hs
  | wearStateChange => exact .execWearStateChange hs
  | subnetWake => exact .execSubnetWake hs
  | subnetOn => exact .execSubnetOn hs
  | subnetOff => exact .execSubnetOff hs
  | ptmDialogue => exact .execPtmDialogue hs
  | ptmResponse => exact .execPtmResponse hs
  | timeStep => exact .execTimeStep hs
  | locusFilter => exact .execLocusFilter hs
  | filterLoad => exact .execFilterLoad hs
  | sampleTag => exact .execSampleTag hs
  | samplingRecord => exact .execSamplingRecord hs
  | stopcGo => exact .execStopcGo hs
  | stepWithinHalt => exact .execStepWithinHalt hs
  | stepNotify => exact .execStepNotify hs
  | stepCompletion => exact .execStepCompletion hs
  | annWindowEnable => exact .execAnnWindowEnable hs
  | annWindowDisable => exact .execAnnWindowDisable hs
  | partqWrite => exact .execPartqWrite hs
  | hcoreWrite => exact .execHcoreWrite hs
  | contextCreate => exact .execContextCreate hs
  | contextInvalidate => exact .execContextInvalidate hs
  | pstateRun | pstateIdle | pstateSleep => exact .pstateEvent hs
  | floorRaise => exact .execFloorRaise hs
  | floorFall => exact .execFloorFall hs
  | alarm => exact .execAlarm hs
  | attestationReport => exact .execAttestationReport hs
  | reportPublish => exact .execReportPublish hs
  | bringUp => exact .execBringUp hs
  | registerWrite => exact .execRegisterWrite hs
  | accessPerformed => exact .execAccessPerformed hs
  | spillWriteCompletion => exact .execSpillWriteCompletion hs
  | tlbEntryDrop => exact .execTlbEntryDrop hs
  | vimenLinkPortTraining => exact .execVimenLinkPortTraining hs
  | ucieLaneLoss => exact .execUcieLaneLoss hs
  | thermalOrPowerCause => exact .execThermalOrPowerCause hs
  | rcRegisterRead => exact .execRcRegisterRead hs

/-! ### One step -/

protected theorem Out.canonical.stepIssue {g cut : Nat} (hs : s.canonical) : Out.canonical (stepIssue s g cut) := by
  unfold Machine.stepIssue
  extract_lets up old
  split
  next e => exact .next (.of_fetched_wait e (.fetch hs))
  next e => exact .next (.countSkid (.tagCause (Out.canonical.of_fetched_cause e (.fetch hs))))
  next e => exact .of_fetched_cause e (.fetch hs)
  next u i e =>
    extract_lets _ v
    have hexec : Out.canonical (exec i v) := .exec (.tagLevel (.tagIssue (.upd (.of_fetched_run e (.fetch hs)))))
    split
    next e => exact .next (.countSkid (.afterIssue (.of_next e hexec)))
    · exact hexec

protected theorem Out.canonical.stepLocus (hs : s.canonical) : Out.canonical (stepLocus s k) := by
  fun_cases stepLocus
  · exact .next (.endRecord hs)
  · exact .exec (.upd hs)
  · exact .next (.endRecord hs)

protected theorem Out.canonical.runTurn {t : Turn} (hs : s.canonical) : Out.canonical (runTurn s t) := by
  cases t with
  | issue | issueCut => exact .stepIssue hs
  | locus => exact .stepLocus hs
  | event => exact .exec hs
  | tick => exact .next (.advance hs)
  | writeBack => exact .next (.writeBackSector hs)
  | land => exact .next (.landNth hs)
  | define => exact .next (.defStep hs)
  | loadImage | keyLinks => exact .next (.upd hs)

protected theorem Out.canonical.step (hs : s.canonical) : Out.canonical (step s) := by
  fun_cases step
  · exact .runTurn hs
  · exact .runTurn (.upd hs)

end

/-- Settles O60: every step is built of operations that keep the byte memories in canonical form. -/
theorem stepKeepsCanonical : Obligations.StepKeepsCanonical := by
  unfold Obligations.StepKeepsCanonical
  intro s t hs hstep
  exact .of_next hstep (.step hs)

end Sys2Proof.Machine

namespace Sys2Proof.Machine

/-! O5, O43: the least pcv above an address, to which the floor of a group moves (R27, R28, R39). -/

/-- The library's least element of a list. -/
theorem leastOf_eq_min? (ps : List Nat) : leastOf ps = ps.min? := by cases ps <;> rfl

theorem leastOf_eq_some_iff {ps : List Nat} {a : Nat} : leastOf ps = some a ↔ a ∈ ps ∧ ∀ p ∈ ps, a ≤ p := by
  rw [leastOf_eq_min?, List.min?_eq_some_iff]

/-- Where lanes are looked for and none is found, the floor falls to 0. -/
theorem leastOf_getD_cases (ps : List Nat) :
    ((leastOf ps).getD 0 ∈ ps ∧ ∀ p ∈ ps, (leastOf ps).getD 0 ≤ p) ∨ ((leastOf ps).getD 0 = 0 ∧ ps = []) := by
  cases h : leastOf ps with
  | some a => exact .inl (leastOf_eq_some_iff.mp h)
  | none => exact .inr ⟨rfl, by simpa [leastOf_eq_min?] using h⟩

theorem Group.mem_above {g : Group} {lanes : Word} {a p : Nat} :
    p ∈ g.above lanes a ↔ ∃ l, (l, p) ∈ g.eligible ∧ bit lanes l = false ∧ a < p := by
  simp only [Group.above, List.mem_map, List.mem_filter, Bool.and_eq_true, decide_eq_true_eq, Bool.not_eq_true',
    Prod.exists, exists_eq_right]
  exact exists_congr fun l => and_congr_right fun _ => and_comm

/-- `yield` sets the floor to the least pcv above the issue address of an eligible lane that did not yield (R28). -/
theorem exec_yield_of_issues {s : State} {g : Group} (h : Issues s g {}) :
    exec .yield s = .next (s.after { g with floor := (leastOf (g.above s.iss.lanes s.iss.a)).getD 0, starve := 0 }) := by
  rw [exec_yield, execYield, begin_of_issues h, complete_eq]

/-- Settles O5: the floor of a `yield` is the least of the pcvs above it, and each mask instruction completes with its
result once its checks pass. -/
theorem yieldAndMasks : Obligations.YieldAndMasks := by
  unfold Obligations.YieldAndMasks
  refine ⟨fun s g h => ⟨_, exec_yield_of_issues h, ?_⟩, fun s g a b c => ⟨fun h => ⟨?_, ?_, ?_, ?_⟩, fun h => ?_⟩⟩
  · simp only [← Group.mem_above]
    exact (leastOf_getD_cases _).imp id fun ⟨h0, hnil⟩ => ⟨h0, by simp [hnil]⟩
  · rw [exec_mjoin, execMjoin, begin_of_issues h, complete_eq]
  · rw [exec_mleave, execMleave, begin_of_issues h, complete_eq]
  · rw [exec_mwait, execMwait, begin_of_issues h, completeMoved_eq, Group.park]
  · rw [exec_mrd, execMrd, begin_of_issues h, complete_eq, State.wroteS]
  · rw [exec_mwr, execMwr, begin_of_issues h, complete_eq]

end Sys2Proof.Machine

namespace Sys2Proof.Machine

/-! O58: what a step takes from its turn, and what a fetch gives where no cause takes the place of the issue. -/

/-- The instruction of a word depends on no halfword beyond the word (R151). -/
theorem decodeHalves_fst_congr {h0 h1 h2 h3 k1 k2 k3 : Nat} (e1 : 2 ≤ wordHalves h0 → k1 = h1)
    (e2 : wordHalves h0 = 4 → k2 = h2) (e3 : wordHalves h0 = 4 → k3 = h3) :
    (decodeHalves [h0, k1, k2, k3]).1 = (decodeHalves [h0, h1, h2, h3]).1 := by
  unfold decodeHalves
  unfold wordHalves at e1 e2 e3
  by_cases even : h0 % 2 = 0
  · simp [even]
  · by_cases long : bitsAt h0 1 6 = 0x3D
    · simp [even, long, e1, e2, e3]
    · simp [even, long, e1]

theorem wordHalves_cases (h0 : Nat) : wordHalves h0 = 1 ∨ wordHalves h0 = 2 ∨ wordHalves h0 = 4 := by
  unfold wordHalves
  split
  · exact .inl rfl
  · split
    · exact .inr (.inr rfl)
    · exact .inr (.inl rfl)

/-- The word at a code offset is fetched whole: its halfwords, as many as the first says (R151, R152). -/
structure WordAt (s : State) (g : Group) (o h0 h1 h2 h3 : Nat) : Prop where
  half0 : codeHalf s g o = .ok h0
  half1 : 2 ≤ wordHalves h0 → codeHalf s g (o + 2) = .ok h1
  half2 : wordHalves h0 = 4 → codeHalf s g (o + 4) = .ok h2
  half3 : wordHalves h0 = 4 → codeHalf s g (o + 6) = .ok h3

/-- None of its halfwords fails. -/
theorem WordAt.half_ok {s : State} {g : Group} {o h0 h1 h2 h3 : Nat} (w : WordAt s g o h0 h1 h2 h3) {k : Nat}
    (hk : k < wordHalves h0) : ∃ h, codeHalf s g (o + 2 * k) = .ok h := by
  match k, wordHalves_cases h0 with
  | 0, _ => exact ⟨h0, w.half0⟩
  | 1, _ => exact ⟨h1, w.half1 (by omega)⟩
  | 2, _ => exact ⟨h2, w.half2 (by omega)⟩
  | 3, _ => exact ⟨h3, w.half3 (by omega)⟩
  | k + 4, _ => omega

/-- A clause takes a word of `n` halfwords at offset `o`: it lies within the clause, whose flags are none of the reserved
ones; a branch is the last instruction, but for a `nop` of one halfword; and a word of options neither follows another
nor ends the clause (R153, R155, R163). -/
structure Clause.Takes (s : State) (g : Group) (c : Clause) (l : Latch) (o n w0 : Nat) : Prop where
  within : o + 2 * n ≤ c.stop
  branch : 2 ≤ n → isLast w0 = true →
    o + 2 * n = c.stop ∨ (o + 2 * n + 2 = c.stop ∧ ∃ h, codeHalf s g (o + 2 * n) = .ok h ∧ h % 32 = 0)
  flagA : c.flagA ∉ [12, 13, 14]
  flagB : c.flagB ∉ [12, 13, 14]
  word : n = 2 → w0 / 2 % 64 ≠ 0x3E ∧ (w0 / 2 % 64 = 0x3F → l.pfx = none ∧ o + 4 < c.stop)

/-- The state in which the word at offset `o` of a clause is issued (R26, R155, R163). -/
def State.issuing (s : State) (c : Clause) (l : Latch) (o n w0 : Nat) (w1 : Word) : State :=
  { s with iss := { s.iss with ia := o, next := o + 2 * n, hdr := c.hdr, len := c.len, flagA := c.flagA, flagB := c.flagB,
                               pfx := l.pfx, rsv := l.pfxBad, w0 := word w0, w1 := w1, done := false } }

/-- A word that its clause takes and that decodes to an instruction is issued. -/
theorem fetchWord_of_takes {s : State} {g : Group} {c : Clause} {l : Latch} {o h0 h1 h2 h3 w0 : Nat} {i : Instr}
    (w : WordAt s g o h0 h1 h2 h3) (hw0 : w0 = if wordHalves h0 = 1 then h0 else h0 + 65536 * h1)
    (ht : c.Takes s g l o (wordHalves h0) w0) (hi : (decodeHalves [h0, h1, h2, h3]).1 = .ok i) :
    ∃ w1 : Word, (wordHalves h0 = 4 → w1 = word (h2 + 65536 * h3))
      ∧ fetchWord s g c l o = .run (s.issuing c l o (wordHalves h0) w0 w1) i := by
  have hn := wordHalves_cases h0
  unfold fetchWord
  rw [w.half0]
  simp -zeta only []
  extract_lets n half bad v0 v1 next iss t flags cls isPfx last tiss
  have half1 (h : 2 ≤ n) : half 1 = h1 := by simp [half, w.half1 h]
  have half2 (h : n = 4) : half 2 = h2 := by simp [half, w.half2 h]
  have half3 (h : n = 4) : half 3 = h3 := by simp [half, w.half3 h]
  have hv0 : v0 = w0 := by
    rw [hw0]
    exact ite_congr rfl (fun _ => rfl) fun h => by rw [half1 (by omega)]
  have hcls : cls = w0 / 2 % 64 := by rw [← hv0]; rfl
  have hfits : ¬(decide (c.stop < next) || flags c.flagA || flags c.flagB) = true := by
    have hw := ht.within
    have hA := ht.flagA
    have hB := ht.flagB
    simp only [List.mem_cons, List.not_mem_nil, or_false] at hA hB
    simp only [flags, Bool.or_eq_true, Bool.and_eq_true, decide_eq_true_eq]
    omega
  have hbad : bad = none := by
    rw [List.findSome?_eq_none_iff]
    intro k hk
    obtain ⟨h, e⟩ := w.half_ok (List.mem_range.mp hk)
    simp only [e]
  have hlast : ¬(n != 1 && isLast v0 && !last) = true := by
    simp only [Bool.and_eq_true, bne_iff_ne, Bool.not_eq_true', hv0]
    rintro ⟨⟨h1, hl⟩, hnot⟩
    rcases ht.branch (by omega) hl with e | ⟨e, h, eh, hz⟩
    · simp [last, next, n, e] at hnot
    · simp [last, next, n, e, half, eh, hz] at hnot
  have hlong : ¬(n == 2 && cls == 0x3E) = true := by
    simp only [Bool.and_eq_true, beq_iff_eq, hcls]
    exact fun ⟨h, hc⟩ => (ht.word h).1 hc
  have hpfx : ¬(isPfx && (l.pfx.isSome || decide (c.stop ≤ next))) = true := by
    simp only [isPfx, Bool.and_eq_true, beq_iff_eq, hcls, Bool.or_eq_true, decide_eq_true_eq]
    rintro ⟨⟨h, hc⟩, hend⟩
    obtain ⟨hnone, hmore⟩ := (ht.word h).2 hc
    simp only [hnone, Option.isSome_none, Bool.false_eq_true, false_or] at hend
    omega
  have hdec : (decodeHalves [h0, half 1, half 2, half 3]).1 = .ok i := (decodeHalves_fst_congr half1 half2 half3).trans hi
  refine ⟨word v1, fun h => by simp [v1, n, h, half2 h, half3 h], ?_⟩
  rw [if_neg hfits, hbad]
  simp only [if_neg hlast, if_neg hlong, if_neg hpfx, hdec]
  simp only [t, hv0]
  rfl

/-- The state in which the lanes of a group that stand at A issue, the floor at `f` (R26). -/
def State.fetching (s : State) (k : Nat) (g : Group) (f a : Nat) : State :=
  { putGroup s k { g with floor := f } with iss := { Issue.none with g := k, lanes := g.lanesAt a, a := a, ia := a } }

/-- The lanes at A of a group that may issue stand where the clause has its header, which they have passed, or one of its
instructions; none of them is in a single step (R26, R153, R154, R156, R421). -/
structure Clause.Holds (s : State) (k : Nat) (g : Group) (f a : Nat) (c : Clause) : Prop where
  group : s.group k = some g
  may : mayIssue s k g = true
  fresh : g.phase = 0
  addr : g.issueAddr = some (f, a)
  unstepped : g.stepLanes &&& g.lanesAt a = 0
  clause : clauseOf (s.fetching k g f a) { g with floor := f } a (a / 8 + 2) g.id.entry = some c
  entered : a = c.hdr → (g.latchAt a).entered = true
  starts : a ≠ c.hdr → startsAt (s.fetching k g f a) { g with floor := f } a 65 (c.hdr + 4) false = .ok true
    ∧ ∀ x ∈ lanesOf (g.lanesAt a), (g.lane x).hop ≠ .header

/-- The offset of the word that lanes at A issue: past the header, and past a word of options that they have
taken in (R163). -/
def Clause.wordOffset (c : Clause) (l : Latch) (a : Nat) : Nat :=
  if a = c.hdr then c.hdr + 4 + (if l.pfx.isSome then 4 else 0) else a + (if l.pfx.isSome then 4 else 0)

/-- Such a group fetches the word there. -/
theorem fetch_of_holds {s : State} {k f a : Nat} {g : Group} {c : Clause} (h : c.Holds s k g f a) :
    fetch s k = fetchWord (s.fetching k g f a) { g with floor := f } c (g.latchAt a) (c.wordOffset (g.latchAt a) a) := by
  unfold fetch
  rw [h.group]
  simp -zeta only [h.may, Bool.not_true, Bool.false_eq_true, if_false]
  rw [if_pos h.fresh, h.addr]
  simp -zeta only []
  extract_lets lanes g1 l placed blank u iss stepped trapped pre hop
  have hlanes : lanes = g.lanesAt a := if_pos h.fresh
  have hu : u = s.fetching k g f a := by simp only [u, hlanes]; rfl
  have hc : clauseOf u g1 a (a / 8 + 2) g1.id.entry = some c := by rw [hu]; exact h.clause
  have hstep : ¬(g1.phase == 0 && g1.stepLanes &&& lanes != 0) = true := by simp [g1, hlanes, h.unstepped]
  rw [if_neg hstep, hc, Clause.wordOffset, ← hu]
  by_cases ha : a = c.hdr
  · simp only [if_pos ha]
    have hentered : l.entered = true := h.entered ha
    rw [if_pos hentered]
    rfl
  · obtain ⟨hs, hhop⟩ := h.starts ha
    have hhop : hop = false := by
      simp only [hop, hlanes, List.any_eq_false, beq_iff_eq]
      exact hhop
    rw [← hu] at hs
    simp only [if_neg ha]
    rw [hs, hhop]
    rfl

/-- The turn of an issue runs the instruction that its fetch gives, and what follows an issue. -/
theorem stepIssue_of_run {s t : State} {k cut : Nat} {i : Instr} (h : fetch s k = .run t i) :
    stepIssue s k cut = (match exec i (tagLevel (tagIssue { t with iss := { t.iss with cut := cut } }) i) with
      | .next u => .next (countSkid (afterIssue u (decide (i = .yield))) (skidding s k) (s.group k))
      | r => r) := by
  rewrite [stepIssue, h]
  rfl

/-- A step takes the first of the turns that wait. -/
theorem step_of_turn {s : State} {t : Turn} {ts : List Turn} (h : s.turns = t :: ts) :
    step s = runTurn { s with turns := ts } t := by
  rw [step, h]

/-- A filter word of a Locus that decodes runs (R413). -/
theorem stepLocus_of_decoded {s : State} {k : Nat} {w : Word} {i : Instr} (hw : filterWord s k = some w)
    (hi : decodeFilter w.toNat = some i) :
    stepLocus s k = exec i { s with iss := { Issue.none with g := k, w0 := w } } := by
  simp only [stepLocus, hw, hi]

/-- Settles O58: the fetch of a group that stands in a clause gives the decoded instruction, and the step of its turn runs
that; a filter word and an event run as their turns say. The readings of log 102 (a halfword of OP 0 is a `nop` to R153)
and of logs 3 and 4 (turns, and a latch between them) are in the hypotheses. -/
theorem stepRunsDecoded : Obligations.StepRunsDecoded := by
  unfold Obligations.StepRunsDecoded
  intro s ts k i
  refine ⟨?_, fun w ht hw hi => ?_, fun ht => step_of_turn ht⟩
  · intro g f a cut c h0 h1 h2 h3 hturn s0 g1 u l o n w0 hg hmay hphase haddr hstep hclause hentered hstarts e0 e1 e2 e3
      hwithin hbranch hA hB hword hi
    have hturn : step s = stepIssue s0 k cut := by
      rcases hturn with ⟨ht, rfl⟩ | ht
      · exact step_of_turn ht
      · exact step_of_turn ht
    have hfetch := fetch_of_holds (s := s0) ⟨hg, hmay, hphase, haddr, hstep, hclause, hentered, hstarts⟩
    obtain ⟨w1, hw1, hrun⟩ := fetchWord_of_takes (s := u) (g := g1) (c := c) (l := l) (o := o) ⟨e0, e1, e2, e3⟩ rfl
      ⟨hwithin, hbranch, hA, hB, hword⟩ hi
    refine ⟨w1, hw1, ?_⟩
    rw [hturn, stepIssue_of_run (hfetch.trans hrun)]
    rfl
  · rw [step_of_turn ht]
    exact stepLocus_of_decoded hw hi

end Sys2Proof.Machine

namespace Sys2Proof.Machine

/-! O44: the ends of waits and sleeps (R40, R41, R192, R193). -/

/-- The deadline of an armed wait has passed (R192). -/
def ArmedWait.late (a : ArmedWait) (s : State) : Bool := a.deadline.any fun d => decide (d ≤ s.time)

/-- The bits of a word that is made of four flags and a fifth. -/
theorem bit_flags (p : Nat → Bool) (e : Bool) {r : Word}
    (hr : r = word ((List.range 4).foldl (fun n i => if p i then n + 2 ^ i else n) 0 + if e then 16 else 0)) :
    (∀ k, k < 4 → bit r k = p k) ∧ bit r 4 = e := by
  have h : ∀ b0 b1 b2 b3 b4 : Bool,
      let n0 := if b0 then 0 + 2 ^ 0 else 0
      let n1 := if b1 then n0 + 2 ^ 1 else n0
      let n2 := if b2 then n1 + 2 ^ 2 else n1
      let r := word ((if b3 then n2 + 2 ^ 3 else n2) + if b4 then 16 else 0)
      bit r 0 = b0 ∧ bit r 1 = b1 ∧ bit r 2 = b2 ∧ bit r 3 = b3 ∧ bit r 4 = b4 := by decide
  obtain ⟨h0, h1, h2, h3, h4⟩ := h (p 0) (p 1) (p 2) (p 3) e
  subst hr
  refine ⟨fun k hk => ?_, h4⟩
  match k with
  | 0 => exact h0
  | 1 => exact h1
  | 2 => exact h2
  | 3 => exact h3
  | k + 4 => omega

theorem waitResult_eq (s : State) (g : Group) (a : ArmedWait) :
    waitResult s g a = word ((List.range 4).foldl
      (fun n i => if condMet s g (a.conds.getD i .none) then n + 2 ^ i else n) 0
        + if a.late s && !joined s g a.any a.conds then 16 else 0) := by
  unfold waitResult ArmedWait.late
  cases a.deadline <;> rfl

/-- Bits [3:0] of the result of a wait say which of its conditions hold, bit 4 that it was the deadline that ended it. -/
theorem bit_waitResult (s : State) (g : Group) (a : ArmedWait) :
    (∀ k, k < 4 → bit (waitResult s g a) k = condMet s g (a.conds.getD k .none))
      ∧ bit (waitResult s g a) 4 = (a.late s && !joined s g a.any a.conds) :=
  bit_flags (fun k => condMet s g (a.conds.getD k .none)) _ (waitResult_eq s g a)

/-- A wait of a group that is not stopped ends where its condition holds or its deadline has passed. -/
theorem exec_waitRelease_of_due {s : State} {id w : Nat} {g : Group} {a : ArmedWait} (hg : s.group id = some g)
    (hs : asleep s g = false) (ha : tget g.waits w = some a)
    (hdue : a.late s = true ∨ joined s g a.any a.conds = true) :
    exec (.waitRelease id w) s = .next (releaseWait s id w) := by
  have hdue : (a.late s || joined s g a.any a.conds) = true := by simpa using hdue
  rw [exec_waitRelease]
  simp only [execWaitRelease, hg, ha, hs, Bool.not_false, Bool.true_and]
  unfold ArmedWait.late at hdue
  cases hd : a.deadline <;> rw [hd] at hdue <;> exact if_pos hdue

/-- The end of a wait writes its result and lets its lanes go on. -/
theorem releaseWait_of_armed {s : State} {id w : Nat} {g : Group} {a : ArmedWait} (hg : s.group id = some g)
    (ha : tget g.waits w = some a) :
    releaseWait s id w = evLeave (putGroup s id
      { ((g.setS a.dst (waitResult s g a)).release ((List.range 32).filter fun l => (g.lane l).st == .wait w)) with
        waits := cdel g.waits w }) fun x => x == .group id w := by
  have hwaits (r : Word) (ls : List Nat) : ((g.setS a.dst r).release ls).waits = g.waits := setS_waits g a.dst r
  simp only [releaseWait, hg, ha, hwaits]

/-- The lanes that parked with a lane, at its instruction. -/
def Group.parkedWith (g : Group) (l : Nat) : List Nat :=
  (List.range 32).filter fun k => (g.lane k).st == (g.lane l).st && (g.lane k).pcv == (g.lane l).pcv

/-- Lanes asleep go on at their instant (R193). -/
theorem exec_sleepRelease_of_sleep {s : State} {id l t : Nat} {g : Group} (hg : s.group id = some g)
    (hs : asleep s g = false) (hl : (g.lane l).st = .sleep t) (ht : t ≤ s.time) :
    exec (.sleepRelease id l) s = .next (putGroup s id (g.release (g.parkedWith l))) := by
  rw [exec_sleepRelease, Group.parkedWith]
  simp only [execSleepRelease, hg, hs, hl, Bool.false_eq_true, if_false, if_pos ht]

section
variable {s : State} {id l k : Nat} {g : Group} {a : Word} {p : Option Nat} (hg : s.group id = some g)
  (hs : asleep s g = false) (hl : (g.lane l).st = .promise a p) (hk : scrAccess s g.id.tid a.toNat 8 = some k)
  (hb : busHeld s (k / 2 ^ 22) 0 = false)
include hg hs hl hk hb

/-- Lanes that wait on a promise go on once its object is 0 (R193). -/
theorem exec_sleepRelease_of_kept (h0 : rdN s.scr k 8 = 0) :
    exec (.sleepRelease id l) s = .next (putGroup s id (g.release (g.parkedWith l))) := by
  rw [exec_sleepRelease, Group.parkedWith]
  simp only [execSleepRelease, hg, hs, hl, hk, hb, Bool.false_eq_true, if_false, if_pos h0]

/-- Its instant come with the object not at 0 is a PROMISE_MISS of the lanes (R193). -/
theorem exec_sleepRelease_of_missed {t : Nat} (h0 : rdN s.scr k 8 ≠ 0) (hp : p = some t) (ht : t ≤ s.time) :
    exec (.sleepRelease id l) s = .next (promiseMiss (putGroup s id (g.release (g.parkedWith l))) id
      (maskOf (g.parkedWith l)) ((g.lane l).pcv.toNat + (g.lane l).adv) a.toNat t) := by
  subst hp
  rw [exec_sleepRelease, Group.parkedWith]
  simp only [execSleepRelease, hg, hs, hl, hk, hb, Bool.false_eq_true, if_false, if_neg h0, if_pos ht]

end

/-! O44: the delivery of a symbol (R57, R60). -/

/-- A change that keeps the default, made to every cell of a list, changes what each cell reads. -/
theorem cget_foldr_cset {α : Type} [DecidableEq α] {d : α} {f : Nat → α → α} {es c : Cells α} {j : Nat}
    (hd : f j d = d) (hc : tget es j = none → cget d c j = d) :
    cget d (es.foldr (fun e c => cset d c e.1 (f e.1 e.2)) c) j = f j (cget d es j) := by
  induction es with
  | nil => rw [cget_nil, hd]; exact hc rfl
  | cons e t ih =>
    obtain ⟨i, x⟩ := e
    rw [List.foldr_cons, cget_cons]
    by_cases h : i = j
    · subst h; rw [cget_cset_self, if_pos rfl]
    · rw [cget_cset_ne _ _ _ (Ne.symm h), if_neg h]
      exact ih fun ht => hc (by rw [tget_cons, if_neg h, ht])

/-- A collapse changes the elements over its symbol alone, each as its form says. -/
theorem elem_collapseAll {g : Group} {k : Nat} {y : Sym} (hy : tget g.syms k = some y) (r : Nat) {l : Nat} (hl : l < 32) :
    (g.collapseAll k).elem r l = collapseElem k y l (g.elem r l) := by
  have hlane : vkey r l % 32 = l := by unfold vkey; omega
  simp only [Group.collapseAll, hy, Group.elem]
  rw [cget_foldr_cset (f := fun j e => collapseElem k y (j % 32) e) rfl fun h => by rw [cget_eq_tget, h]; rfl, hlane]

/-- An integer form collapses to aX + b, and to its value with X = 0 where the lane's check failed (R54, R60). -/
theorem collapseElem_of_int (k : Nat) (y : Sym) (l : Nat) (a b : Word) : collapseElem k y l (.form k a b false false)
    = if bit y.pois l then .pois b k false else .val (a * cget 0 y.xs l + b) := by
  simp [collapseElem, formValue]

/-- A symbol collapses alike once it counts as delivered. -/
theorem collapseElem_delivered (k : Nat) (y : Sym) (l : Nat) (e : Elem) :
    collapseElem k { y with delivered := true } l e = collapseElem k y l e := by
  cases e <;> rfl

/-- The group once X of a symbol has been delivered. -/
def Group.heard (g : Group) (k : Nat) (y : Sym) : Group := { g with syms := tput g.syms k { y with delivered := true } }

section
variable {g : Group} {k : Nat} {y : Sym}

/-- A delivery marks the symbol, collapses it in opportunistic mode, and releases what has no element left (R57). -/
theorem deliver_eq (hy : tget g.syms k = some y) :
    g.deliver k = (if y.always then g.heard k y else (g.heard k y).collapseAll k).releaseSyms := by
  simp only [Group.deliver, hy, Group.heard]

/-- In always mode every element keeps its form. -/
theorem deliver_v_of_always (hy : tget g.syms k = some y) (ha : y.always = true) : (g.deliver k).v = g.v := by
  rw [deliver_eq hy, if_pos ha]
  rfl

/-- In opportunistic mode every element over the symbol collapses. -/
theorem elem_deliver (hy : tget g.syms k = some y) (ha : y.always = false) (r : Nat) {l : Nat} (hl : l < 32) :
    (g.deliver k).elem r l = collapseElem k y l (g.elem r l) := by
  rw [deliver_eq hy, if_neg (by simp [ha])]
  exact (elem_collapseAll (g := g.heard k y) (tget_tput_self _ _ _) r hl).trans (collapseElem_delivered k y l _)

/-- A collapse changes v elements alone. -/
theorem collapseAll_cases (g : Group) (k : Nat) : ∃ v, g.collapseAll k = { g with v := v } := by
  unfold Group.collapseAll
  split
  · exact ⟨g.v, rfl⟩
  · exact ⟨_, rfl⟩

/-- A delivery changes the symbols and v elements alone. -/
theorem deliver_cases (hy : tget g.syms k = some y) : ∃ v ys, g.deliver k = { g with v := v, syms := ys } := by
  rw [deliver_eq hy]
  split
  · exact ⟨_, _, rfl⟩
  · obtain ⟨v, hv⟩ := collapseAll_cases (g.heard k y) k
    rw [hv]
    exact ⟨_, _, rfl⟩

end

/-- A symbol that is known and due is delivered, unless the bank of its group is held (R57, R149). -/
theorem exec_symbolDelivery_of_due {s : State} {id k : Nat} {g : Group} {y : Sym} (hg : s.group id = some g)
    (hb : busHeld s g.core (4 + g.bank) = false) (hy : tget g.syms k = some y) (hk : y.known = true)
    (hd : y.delivered = false) (hdue : ∀ d, y.due = some d → d ≤ s.mclk) :
    exec (.symbolDelivery id k) s = .next (putGroup s id (g.deliver k)) := by
  have hall : y.due.all (· ≤ s.mclk) = true := by
    rw [Option.all_eq_true]
    simpa using hdue
  rw [exec_symbolDelivery]
  simp only [execSymbolDelivery, hg, hy, hk, hd, hall, hb, Bool.not_false, Bool.and_self, if_true]

/-! O44: an access is performed (R157, R158). -/

/-- The results of an operation that a group still awaits, as `finishOp` writes them to its v elements. -/
def Group.results (g : Group) (op : Nat) (o : Op) : List (Nat × Elem) :=
  (o.vw.filter fun w => (cget (Elem.val 0) g.v w.1).awaits op).map fun w => (w.1, Elem.val w.2)

theorem mem_results {g : Group} {op : Nat} {o : Op} {k : Nat} {e : Elem} :
    (k, e) ∈ g.results op o ↔ (cget (Elem.val 0) g.v k).awaits op = true ∧ ∃ w, (k, w) ∈ o.vw ∧ e = .val w := by
  simp only [Group.results, List.mem_map, List.mem_filter, Prod.exists, Prod.mk.injEq]
  constructor
  · rintro ⟨j, w, ⟨hw, ha⟩, rfl, rfl⟩
    exact ⟨ha, w, hw, rfl⟩
  · rintro ⟨ha, w, hw, rfl⟩
    exact ⟨k, w, ⟨hw, ha⟩, rfl, rfl⟩

/-- The end of an operation takes it from the outstanding ones, writes results still awaited, and discharges its flag. -/
theorem finishOp_cases {g : Group} {op : Nat} {o : Op} (ho : tget g.ops op = some o) :
    ∃ h s, g.finishOp op = ({ g with ops := cdel g.ops op, h := h, v := csets (Elem.val 0) g.v (g.results op o),
                                     s := s } : Group).discharge o.flag := by
  unfold Group.finishOp
  rewrite [ho]
  exact ⟨_, _, rfl⟩

/-! A discharge changes the flags alone. -/

@[simp] theorem discharge_lanes (g : Group) (k : Option Nat) : (g.discharge k).lanes = g.lanes := by cases k <;> rfl
@[simp] theorem discharge_v (g : Group) (k : Option Nat) : (g.discharge k).v = g.v := by cases k <;> rfl
@[simp] theorem discharge_m (g : Group) (k : Option Nat) : (g.discharge k).m = g.m := by cases k <;> rfl
@[simp] theorem discharge_ops (g : Group) (k : Option Nat) : (g.discharge k).ops = g.ops := by cases k <;> rfl

/-- A discharge lowers its flag by one (R157). -/
@[simp] theorem flag_discharge_self (g : Group) (f : Nat) : (g.discharge (some f)).flag f = g.flag f - 1 :=
  cget_cset_self _ _ _ _

/-- A discharge leaves every other flag alone. -/
theorem flag_discharge_ne (g : Group) {k : Option Nat} {j : Nat} (h : k ≠ some j) : (g.discharge k).flag j = g.flag j := by
  cases k with
  | none => rfl
  | some f => exact cget_cset_ne _ _ _ fun e => h (e ▸ rfl)

section
variable {g : Group} {op : Nat} {o : Op} (ho : tget g.ops op = some o)
include ho

@[simp] theorem finishOp_lanes : (g.finishOp op).lanes = g.lanes := by
  obtain ⟨h, s, e⟩ := finishOp_cases ho
  rw [e, discharge_lanes]

@[simp] theorem finishOp_m : (g.finishOp op).m = g.m := by
  obtain ⟨h, s, e⟩ := finishOp_cases ho
  rw [e, discharge_m]

/-- The operation is outstanding no longer. -/
theorem tget_finishOp_self : tget (g.finishOp op).ops op = none := by
  obtain ⟨h, s, e⟩ := finishOp_cases ho
  rw [e, discharge_ops]
  exact tget_cdel_self _ _

theorem flag_finishOp_self {f : Nat} (hf : o.flag = some f) : (g.finishOp op).flag f = g.flag f - 1 := by
  obtain ⟨h, s, e⟩ := finishOp_cases ho
  rw [e, hf, flag_discharge_self]
  rfl

theorem flag_finishOp_ne {k : Nat} (hk : o.flag ≠ some k) : (g.finishOp op).flag k = g.flag k := by
  obtain ⟨h, s, e⟩ := finishOp_cases ho
  rw [e, flag_discharge_ne _ hk]
  rfl

theorem elem_finishOp (r l : Nat) :
    (g.finishOp op).elem r l = cget (Elem.val 0) (csets (Elem.val 0) g.v (g.results op o)) (vkey r l) := by
  obtain ⟨h, s, e⟩ := finishOp_cases ho
  rw [e, Group.elem, discharge_v]

/-- An element that awaits the operation takes its result. -/
theorem elem_finishOp_of_awaits {r l : Nat} {w : Word} (ha : (g.elem r l).awaits op = true) (hw : (vkey r l, w) ∈ o.vw)
    (hu : ∀ u, (vkey r l, u) ∈ o.vw → u = w) : (g.finishOp op).elem r l = .val w := by
  rw [elem_finishOp ho]
  refine cget_csets_of_mem _ _ (mem_results.mpr ⟨ha, w, hw, rfl⟩) fun e he => ?_
  obtain ⟨-, u, hm, rfl⟩ := mem_results.mp he
  rw [hu u hm]

/-- An element that awaits something else, or nothing, keeps what it holds (R158). -/
theorem elem_finishOp_of_not_awaits {r l : Nat} (ha : (g.elem r l).awaits op = false) :
    (g.finishOp op).elem r l = g.elem r l := by
  rw [elem_finishOp ho]
  refine cget_csets_of_not_mem _ _ _ _ ?_
  rintro ⟨k, e⟩ he rfl
  obtain ⟨hawaits, -⟩ := mem_results.mp he
  exact Bool.false_ne_true (ha.symm.trans hawaits)

end

/-- An operation that no other unit completes is performed, unless the bank of its group is held (R157). -/
theorem exec_accessPerformed_of_inner {s : State} {id op : Nat} {g : Group} {o : Op} (hg : s.group id = some g)
    (hb : busHeld s g.core (4 + g.bank) = false) (ho : tget g.ops op = some o) (hx : o.ext = false) :
    exec (.accessPerformed id op) s = .next (putGroup s id (g.finishOp op)) := by
  rw [exec_accessPerformed]
  simp only [execAccessPerformed, hg, ho, hx, hb, Bool.or_self, Bool.false_eq_true, if_false]

/-- Settles O44: the end of an armed wait, the end of a sleep and the two of a promise, the delivery of a symbol with the
collapse of its elements, and the end of an access. -/
theorem wakesAndResults : Obligations.WakesAndResults := by
  unfold Obligations.WakesAndResults
  intro s g id hg
  refine ⟨fun hs => ⟨?wait, fun l => ⟨?sleep, ?promise⟩⟩, fun hb => ⟨?symbol, collapseElem_of_int, ?access⟩⟩
  case wait =>
    intro w a ha hend
    have hdue : a.late s = true ∨ joined s g a.any a.conds = true := by
      refine hend.symm.imp_left fun ⟨d, hd, ht⟩ => ?_
      simp [ArmedWait.late, hd, ht]
    obtain ⟨hlow, hhigh⟩ := bit_waitResult s g a
    refine ⟨waitResult s g a, releaseWait s id w, exec_waitRelease_of_due hg hs ha hdue, hlow, ?_, ?_, ?_⟩
    · rw [hhigh]
      rcases hdue with h | h <;> simp [h]
    · rw [releaseWait_of_armed hg ha]
      exact group_putGroup_self _ _ _
    · rw [releaseWait_of_armed hg ha]
      exact fun _ => ⟨rfl, rfl, rfl, rfl, rfl⟩
  case sleep => exact fun t hl ht => exec_sleepRelease_of_sleep hg hs hl ht
  case promise =>
    intro a p k hl hk hb
    exact ⟨exec_sleepRelease_of_kept hg hs hl hk hb, fun t => exec_sleepRelease_of_missed hg hs hl hk hb⟩
  case symbol =>
    intro k y hy hk hd hdue
    obtain ⟨v, ys, e⟩ := deliver_cases hy
    refine ⟨g.deliver k, exec_symbolDelivery_of_due hg hb hy hk hd hdue, deliver_v_of_always hy,
      fun ha r l hl => elem_deliver hy ha r hl, ?_⟩
    rw [e]
    exact ⟨rfl, rfl, rfl, rfl⟩
  case access =>
    intro op o ho hx
    exact ⟨g.finishOp op, exec_accessPerformed_of_inner hg hb ho hx, tget_finishOp_self ho, finishOp_lanes ho,
      finishOp_m ho, fun _ => flag_finishOp_self ho, fun _ => flag_finishOp_ne ho, fun _ _ _ => elem_finishOp_of_awaits ho,
      fun _ _ => elem_finishOp_of_not_awaits ho⟩

end Sys2Proof.Machine

namespace Sys2Proof.Machine

/-! O43: the starvation floor (R27). -/

theorem exec_starvationFloor_of_count {s : State} {id : Nat} {g : Group} (hg : s.group id = some g) (h : 64 ≤ g.starve) :
    exec (.starvationFloor id) s
      = .next (putGroup s id { g with floor := (leastOf (g.above g.lastLanes g.lastA)).getD 0, starve := 0 }) := by
  rw [exec_starvationFloor]
  simp only [execStarvationFloor, hg, if_pos h, Group.starved]

/-! O43: the first of those that rank least. -/

section
variable {α : Type} {rank : α → Nat}

/-- A fold that keeps the first of those that rank least. -/
theorem foldl_eq_leastBy {f : Option α → α → Option α} (hnone : ∀ x, f none x = some x)
    (hsome : ∀ x y, f (some y) x = if rank x < rank y then some x else some y) (xs : List α) :
    xs.foldl f none = leastBy rank xs := by
  unfold leastBy
  congr 1
  funext b x
  cases b with
  | none => exact hnone x
  | some y => exact hsome x y

theorem leastBy_cons_cons (a b : α) (xs : List α) :
    leastBy rank (a :: b :: xs) = leastBy rank ((if rank b < rank a then b else a) :: xs) := by
  simp only [leastBy, List.foldl_cons]
  split <;> rfl

/-- What ranks least of a list is of the list, and nothing of the list ranks below it. -/
theorem leastBy_cons (a : α) (xs : List α) :
    ∃ x, leastBy rank (a :: xs) = some x ∧ x ∈ a :: xs ∧ ∀ y ∈ a :: xs, rank x ≤ rank y := by
  induction xs generalizing a with
  | nil => exact ⟨a, rfl, by simp, by simp⟩
  | cons b xs ih =>
    obtain ⟨x, hx, hm, hl⟩ := ih (if rank b < rank a then b else a)
    rw [leastBy_cons_cons]
    refine ⟨x, hx, ?_, fun y hy => ?_⟩
    · revert hm
      split <;> simp +contextual [or_imp]
    · have hab := hl _ List.mem_cons_self
      rcases List.mem_cons.mp hy with rfl | hy
      · split at hab <;> omega
      · rcases List.mem_cons.mp hy with rfl | hy
        · split at hab <;> omega
        · exact hl y (List.mem_cons_of_mem _ hy)

theorem leastBy_eq_some {xs : List α} {x : α} (h : leastBy rank xs = some x) : x ∈ xs ∧ ∀ y ∈ xs, rank x ≤ rank y := by
  cases xs with
  | nil => exact absurd h (by simp [leastBy])
  | cons a xs =>
    obtain ⟨z, hz, hm⟩ := leastBy_cons (rank := rank) a xs
    obtain rfl : z = x := Option.some.inj (hz.symm.trans h)
    exact hm

theorem exists_leastBy {xs : List α} {y : α} (h : y ∈ xs) : ∃ x, leastBy rank xs = some x := by
  cases xs with
  | nil => exact absurd h List.not_mem_nil
  | cons a xs =>
    obtain ⟨z, hz, -⟩ := leastBy_cons (rank := rank) a xs
    exact ⟨z, hz⟩

end

/-! O43: swaps (R34, R37, R38). -/

/-- The pending groups that are ready. -/
def readyPending (gs : List (Nat × Group)) : List (Nat × Group) := gs.filter fun p => !p.2.active && p.2.readySince.isSome

theorem longestReady_eq (gs : List (Nat × Group)) :
    longestReady gs = leastBy (fun p => p.2.readySince.getD 0) (readyPending gs) :=
  foldl_eq_leastBy (fun _ => rfl) (fun _ _ => rfl) _

/-- The pending group ready for longest is pending and ready, and no other has been ready since before it. -/
theorem longestReady_eq_some {gs : List (Nat × Group)} {n : Nat} {y : Group} (h : longestReady gs = some (n, y)) :
    (n, y) ∈ gs ∧ y.active = false ∧ ∃ r, y.readySince = some r
      ∧ ∀ p ∈ gs, p.2.active = false → ∀ q, p.2.readySince = some q → r ≤ q := by
  rw [longestReady_eq] at h
  obtain ⟨hm, hl⟩ := leastBy_eq_some h
  simp only [readyPending, List.mem_filter, Bool.and_eq_true, Bool.not_eq_true', Option.isSome_iff_exists] at hm
  obtain ⟨hg, hi, r, hr⟩ := hm
  refine ⟨hg, hi, r, hr, fun p hp hpi q hq => ?_⟩
  have := hl p (by simp [readyPending, hp, hpi, hq])
  simpa [hr, hq] using this

theorem tget_tupd {α : Type} (c : Tab α) (j k : Nat) (f : α → α) :
    tget (tupd c k f) j = if j = k then (tget c k).map f else tget c j := by
  cases h : tget c k with
  | none =>
    simp only [tupd, h, Option.map_none]
    split
    · rename_i e; rw [e, h]
    · rfl
  | some x =>
    simp only [tupd, h, Option.map_some]
    exact tget_tput c j k (f x)

/-- A group as it moves into the active set. -/
def Group.activated (g : Group) (order now : Nat) (forced : Bool) : Group :=
  { g with active := true, order := order, entered := now, readySince := none, forced := forced, waitSince := none,
           blocked := false }

/-- A group as it goes to the back of the pending set. -/
def Group.deactivated (g : Group) (order : Nat) : Group :=
  { g with active := false, order := order, readySince := none, forced := false, waitSince := none, blocked := false }

theorem group_activate (s : State) (n : Nat) (b : Bool) (k : Nat) : (activate s n b).group k
    = if k = n then (s.group n).map (·.activated s.fresh s.lclk b) else s.group k := tget_tupd _ _ _ _

theorem group_deactivate (s : State) (n : Nat) (k : Nat) : (deactivate s n).group k
    = if k = n then (s.group n).map (·.deactivated s.fresh) else s.group k := tget_tupd _ _ _ _

/-- An active group of a selected bank with a long-latency dependence changes places with the pending group ready for
longest (R37). -/
theorem exec_groupSwap_of_longWait {s : State} {id n : Nat} {g y : Group} (hg : s.group id = some g) (ha : g.active = true)
    (hb : (banksOf s g.core).selected = some g.bank) (hw : longWait s g = true)
    (hr : longestReady (wedgeGroups s g.core g.bank g.wedge) = some (n, y)) :
    exec (.groupSwap id) s = .next (activate (deactivate s id) n false) := by
  rw [exec_groupSwap]
  simp only [execGroupSwap, hg, ha, hb, hw, hr, beq_self_eq_true, Bool.and_self, if_true]

/-- Two groups change places in the active set, and nothing else changes. -/
theorem group_swap {s : State} {id n : Nat} {g y : Group} (hg : s.group id = some g) (hy : s.group n = some y)
    (hne : n ≠ id) :
    let t := activate (deactivate s id) n false
    (∃ x, t.group id = some x ∧ x.active = false ∧ x.lanes = g.lanes ∧ x.v = g.v)
      ∧ (∃ x, t.group n = some x ∧ x.active = true ∧ x.lanes = y.lanes ∧ x.v = y.v)
      ∧ (∀ k, k ≠ id → k ≠ n → t.group k = s.group k) ∧ sameBytes s t ∧ sameRegisters s t := by
  refine ⟨⟨g.deactivated s.fresh, ?_, rfl, rfl, rfl⟩,
    ⟨y.activated (deactivate s id).fresh (deactivate s id).lclk false, ?_, rfl, rfl, rfl⟩, fun k hk hkn => ?_,
    fun _ => ⟨rfl, rfl, rfl, rfl, rfl⟩, rfl, rfl, rfl⟩
  · rw [group_activate, if_neg (Ne.symm hne), group_deactivate, if_pos rfl, hg]
    rfl
  · rw [group_activate, if_pos rfl, group_deactivate, if_neg hne, hy]
    rfl
  · rw [group_activate, if_neg hkn, group_deactivate, if_neg hk]

/-- The active groups of a wedge that may be forced out (R38). -/
def mayLeave (s : State) (gs : List (Nat × Group)) : List (Nat × Group) :=
  gs.filter fun q => q.2.active && (!q.2.forced || decide (q.2.entered + 64 ≤ s.lclk))

theorem mem_mayLeave {s : State} {gs : List (Nat × Group)} {p : Nat × Group} : p ∈ mayLeave s gs
    ↔ p ∈ gs ∧ p.2.active = true ∧ (p.2.forced = false ∨ p.2.entered + 64 ≤ s.lclk) := by
  simp [mayLeave]

/-- A pending group ready for 48 logic clocks takes the place of the longest active one that may be forced out (R38). -/
theorem exec_forcedSwap_of_ready {s : State} {core wedge bank n r : Nat} {y : Group} {p : Nat × Group}
    (hb : (banksOf s core).selected = some bank) (hr : y.readySince = some r)
    (hn : longestReady (wedgeGroups s core bank wedge) = some (n, y)) (h48 : r + 48 ≤ s.lclk)
    (hp : leastBy (fun q => q.2.order) (mayLeave s (wedgeGroups s core bank wedge)) = some p) :
    exec (.forcedSwap core wedge) s = .next (activate (deactivate s p.1) n true) := by
  have hlate : ¬ s.lclk < y.readySince.getD 0 + 48 := by rw [hr, Option.getD_some]; omega
  rw [exec_forcedSwap, execForcedSwap]
  simp only [hb, hn, if_neg hlate]
  rewrite [foldl_eq_leastBy (rank := fun q => q.2.order) (fun _ => rfl) (fun _ _ => rfl), ← mayLeave, hp]
  rfl

/-! O43: barriers (R195, R196, R395). -/

/-- A fold of an operation that leaves a part of the state alone leaves it alone. -/
theorem foldl_keeps {β γ : Type} {f : State → β → State} (part : State → γ) (h : ∀ s b, part (f s b) = part s)
    (bs : List β) (s : State) : part (bs.foldl f s) = part s := by
  induction bs generalizing s with
  | nil => rfl
  | cons b bs ih => rw [List.foldl_cons, ih, h]

@[simp] theorem raiseTime_groups (s : State) (a t : Nat) : (raiseTime s a t).groups = s.groups := rfl

@[simp] theorem publish_groups (s : State) (core cid scope t : Nat) : (publish s core cid scope t).groups = s.groups := by
  unfold publish
  split
  · exact foldl_keeps State.groups (fun u c => by simp only [raiseTime_groups]) _ s
  · rfl

@[simp] theorem fenced_groups (s : State) (id : Nat) (g : Group) (scope : Nat) : (fenced s id g scope).groups = s.groups :=
  publish_groups _ _ _ _ _

/-- A group that stands at a barrier has live lanes, and all of them stand there. -/
theorem barOf_eq_some {g : Group} {cl : Bool} {n : Nat} (h : g.barOf = some (cl, n)) :
    g.live ≠ 0 ∧ ∀ l ∈ lanesOf g.live, (g.lane l).st = .bar cl n := by
  unfold Group.barOf at h
  split at h
  · exact absurd h nofun
  · split at h
    · split at h
      · rename_i hat
        simp only [Option.some.injEq, Prod.mk.injEq] at h
        obtain ⟨rfl, rfl⟩ := h
        simpa [Group.atBar] using hat
      · exact absurd h nofun
    · exact absurd h nofun

/-- A lane in any state but the empty slot's is one of the group's. -/
theorem lt_length_of_st_ne_never {g : Group} {l : Nat} (h : (g.lane l).st ≠ .never) : l < g.lanes.length := by
  by_contra hl
  exact h (by rw [Group.lane, List.getD_eq_default _ _ (by omega)]; rfl)

/-- A lane that is released goes on past the instruction that parked it (R40). -/
theorem lane_release {g : Group} {ls : List Nat} {l : Nat} (hm : l ∈ ls) (h32 : l < 32) (hl : l < g.lanes.length) :
    (g.release ls).lane l = { g.lane l with st := .running, pcv := (g.lane l).pcv + word (g.lane l).adv, adv := 0 } := by
  rw [Group.release, lane_setLanes, if_pos ⟨by rw [bit_maskOf ls h32, decide_eq_true hm], hl⟩]

/-- The group once a barrier has released it (R195). -/
def Group.freed (g : Group) (cl : Bool) (n : Nat) : Group :=
  { g.release ((List.range 32).filter fun l => (g.lane l).st == .bar cl n) with arrived := none }

/-- The lanes that stood at the barrier go on past it. -/
theorem lane_freed {g : Group} {cl : Bool} {n l : Nat} (h : (g.lane l).st = .bar cl n) (h32 : l < 32) :
    ((g.freed cl n).lane l).st = .running ∧ ((g.freed cl n).lane l).pcv = (g.lane l).pcv + word (g.lane l).adv := by
  have e : (g.freed cl n).lane l = _ := lane_release (g := g)
    (ls := (List.range 32).filter fun l => (g.lane l).st == .bar cl n) (l := l) (by simp [h, h32]) h32
    (lt_length_of_st_ne_never (by rw [h]; exact nofun))
  rw [e]
  exact ⟨rfl, rfl⟩

/-- One group is released, its later accesses after a stamp. -/
def freeOne (t : Nat) (cl : Bool) (n : Nat) (s : State) (k : Nat) : State :=
  match s.group k with
  | none => s
  | some g => raiseTime (putGroup s k (g.freed cl n)) g.core t

theorem releaseBar_eq (s : State) (gs : List Nat) (cl : Bool) (n : Nat) :
    releaseBar s gs cl n = gs.foldl (freeOne (latestOf s gs) cl n) s := rfl

theorem group_freeOne (t : Nat) (cl : Bool) (n : Nat) (s : State) (k j : Nat) :
    (freeOne t cl n s k).group j = if j = k then (s.group k).map (·.freed cl n) else s.group j := by
  cases h : s.group k with
  | none =>
    simp only [freeOne, h, Option.map_none]
    by_cases e : j = k
    · rw [if_pos e, e, h]
    · rw [if_neg e]
  | some g =>
    simp only [freeOne, h, Option.map_some]
    exact tget_tput _ _ _ _

/-- Each of several groups, and no other, is released. -/
theorem group_foldl_freeOne (t : Nat) (cl : Bool) (n : Nat) {gs : List Nat} (hn : gs.Nodup) (s : State) (j : Nat) :
    (gs.foldl (freeOne t cl n) s).group j = if j ∈ gs then (s.group j).map (·.freed cl n) else s.group j := by
  induction gs generalizing s with
  | nil => rfl
  | cons k gs ih =>
    obtain ⟨hk, hn⟩ := List.nodup_cons.mp hn
    rw [List.foldl_cons, ih hn, group_freeOne]
    by_cases hj : j = k
    · subst hj; simp [hk]
    · simp [hj]

/-! Records of a table in key order. -/

theorem tget_of_mem {α : Type} {c : Tab α} (h : sorted c = true) {k : Nat} {x : α} (hm : (k, x) ∈ c) :
    tget c k = some x := by
  induction c with
  | nil => exact absurd hm List.not_mem_nil
  | cons p t ih =>
    obtain ⟨j, y⟩ := p
    obtain ⟨ha, ht⟩ := (sorted_cons _ _).mp h
    rcases List.mem_cons.mp hm with e | hm
    · obtain ⟨rfl, rfl⟩ := Prod.mk.inj e
      exact if_pos rfl
    · have : j < k := ha _ hm
      rw [tget_cons, if_neg (by omega), ih ht hm]

theorem mem_of_tget {α : Type} {c : Tab α} {k : Nat} {x : α} (h : tget c k = some x) : (k, x) ∈ c := by
  induction c with
  | nil => exact absurd h nofun
  | cons p t ih =>
    obtain ⟨j, y⟩ := p
    rw [tget_cons] at h
    split at h
    · rename_i e; subst e; cases h; exact List.mem_cons_self
    · exact List.mem_cons_of_mem _ (ih h)

theorem nodup_keys {α : Type} {c : Tab α} (h : sorted c = true) : (c.map (·.1)).Nodup := by
  induction c with
  | nil => exact List.nodup_nil
  | cons p t ih =>
    obtain ⟨ha, ht⟩ := (sorted_cons _ _).mp h
    refine List.nodup_cons.mpr ⟨fun hm => ?_, ih ht⟩
    obtain ⟨q, hq, e⟩ := List.mem_map.mp hm
    exact absurd (ha q hq) (Nat.not_lt.mpr (Nat.le_of_eq e))

theorem nodup_liveGroups {s : State} (h : sorted s.groups = true) (tid : Nat) : ((liveGroups s tid).map (·.1)).Nodup :=
  (List.filter_sublist.map _).nodup (nodup_keys h)

theorem mem_liveGroups {s : State} {tid : Nat} {p : Nat × Group} :
    p ∈ liveGroups s tid ↔ p ∈ s.groups ∧ p.2.id.tid = some tid ∧ p.2.live ≠ 0 := by
  simp [liveGroups]

/-- Once every group of a team with live lanes has arrived at a barrier of the team, it releases them (R195). -/
theorem testTeamBars_groups_of_all {s : State} {tid n : Nat} (hne : liveGroups s tid ≠ [])
    (hall : ∀ p ∈ liveGroups s tid, p.2.arrived = some (false, n)) :
    (testTeamBars s tid).groups = (releaseBar s ((liveGroups s tid).map (·.1)) false n).groups := by
  unfold testTeamBars
  cases hgs : liveGroups s tid with
  | nil => exact absurd hgs hne
  | cons p gs =>
    rw [hgs] at hall
    have h0 := hall p List.mem_cons_self
    have hall : ((p :: gs).all fun p => p.2.arrived == some (false, n)) = true := by
      simpa only [List.all_eq_true, beq_iff_eq] using hall
    simp only [h0, hall, if_true, emit_groups]

/-- The state in which a group counts as arrived at the barrier where its live lanes stand. -/
def arrivedAt (s : State) (id : Nat) (g : Group) (cl : Bool) (n : Nat) : State :=
  let v := fenced s id g (if cl then 3 else 1)
  putGroup (if cl then fenced v id g 2 else v) id { g with arrived := some (cl, n) }

section
variable {s : State} {id n t : Nat} {g : Group} {cl : Bool} (hg : s.group id = some g) (hs : asleep s g = false)
  (hbar : g.barOf = some (cl, n)) (ht : g.id.tid = some t) (ha : g.arrived = none)
include hg hs hbar ht ha

/-- A group whose live lanes all stand at a barrier arrives, once the hold of its fence has ended (R195, R196). -/
theorem exec_barrierArrival_of_clear (hcaps : capsBusy s id = false) (hcmds : cmdsBusy s id = false)
    (hlate : lateOf s id = false) (hops : cl = true → opsBusy g = false) :
    exec (.barrierArrival id) s
      = .next (if cl then arrivedAt s id g cl n else testTeamBars (arrivedAt s id g cl n) t) := by
  have hclear (scope : Nat) (h : scope = 2 → opsBusy g = false) : fenceClear s id g scope = true := by
    by_cases h2 : scope = 2
    · simp [fenceClear, hcmds, hlate, h h2]
    · simp [fenceClear, hcmds, hlate, h2]
  have hclear1 : fenceClear s id g (if cl then 3 else 1) = true := hclear _ (by cases cl <;> simp)
  have hclear2 : (cl && !fenceClear s id g 2) = false := by
    cases cl with
    | false => rfl
    | true => rw [hclear 2 fun _ => hops rfl]; rfl
  rw [exec_barrierArrival]
  simp only [execBarrierArrival, hg, hs, arriveBar, hbar, ht, ha, hcaps, hclear1, hclear2, Option.isSome_none, Bool.not_true,
    Bool.or_self, Bool.false_eq_true, if_false, arrivedAt]

end

/-- The last group of a team to arrive releases every lane that stands at the barrier (R195). -/
theorem group_testTeamBars_of_last {s : State} {id n t : Nat} {g : Group} (hg : s.group id = some g)
    (hbar : g.barOf = some (false, n)) (ht : g.id.tid = some t) (hsort : sorted s.groups = true)
    (hall : ∀ p ∈ s.groups, p.1 ≠ id → p.2.id.tid = some t → p.2.live ≠ 0 → p.2.arrived = some (false, n)) :
    (testTeamBars (arrivedAt s id g false n) t).group id
      = some (({ g with arrived := some (false, n) } : Group).freed false n) := by
  have hgroups : (arrivedAt s id g false n).groups = tput s.groups id { g with arrived := some (false, n) } := by
    rw [arrivedAt, putGroup, if_neg Bool.false_ne_true, fenced_groups]
  have hsort' : sorted (arrivedAt s id g false n).groups = true := hgroups ▸ sorted_tput hsort _ _
  have hself : (arrivedAt s id g false n).group id = some { g with arrived := some (false, n) } := by
    rw [State.group, hgroups, tget_tput_self]
  obtain ⟨hlive, -⟩ := barOf_eq_some hbar
  have hmem : (id, ({ g with arrived := some (false, n) } : Group)) ∈ liveGroups (arrivedAt s id g false n) t :=
    mem_liveGroups.mpr ⟨mem_of_tget hself, ht, hlive⟩
  have harrived : ∀ p ∈ liveGroups (arrivedAt s id g false n) t, p.2.arrived = some (false, n) := by
    rintro ⟨k, x⟩ hp
    obtain ⟨hp, hteam, hx⟩ := mem_liveGroups.mp hp
    by_cases hk : k = id
    · subst hk
      obtain rfl := Option.some.inj (hself.symm.trans (tget_of_mem hsort' hp))
      rfl
    · rw [hgroups] at hp
      rcases mem_tput hp with e | hp
      · exact absurd (Prod.mk.inj e).1 hk
      · exact hall _ hp hk hteam hx
  rw [State.group, testTeamBars_groups_of_all (List.ne_nil_of_mem hmem) harrived, releaseBar_eq]
  refine (group_foldl_freeOne _ _ _ (nodup_liveGroups hsort' t) _ id).trans ?_
  rw [if_pos (List.mem_map.mpr ⟨_, hmem, rfl⟩), hself]
  rfl

/-- A team that the barrier router counts in does not release a barrier of its cluster while another team of the cluster with
live lanes has arrived nowhere (R395). -/
theorem testClusterBars_of_waiting {s : State} {cid k : Nat} {c : Cluster} (hc : tget s.clusters cid = some c)
    (hk : k ∈ c.teams) (hlive : liveGroups s k ≠ []) (hnot : ∀ m, (k, m) ∉ c.arrivals) : testClusterBars s cid = s := by
  unfold testClusterBars
  rewrite [hc]
  refine List.foldl_fixed' (fun n => if_neg ?_) _
  have hmem : k ∈ c.teams.filter fun t => !(liveGroups s t).isEmpty := by simp [hk, hlive]
  intro h
  rw [Bool.and_eq_true, List.all_eq_true] at h
  exact hnot n (by simpa using h.2 k hmem)

section
variable {s : State} {tid n : Nat} {t : Team} {c : Cluster} (ht : tget s.teams tid = some t)
  (hc : tget s.clusters t.cid = some c) (hne : liveGroups s tid ≠ [])
  (hall : ∀ p ∈ liveGroups s tid, p.2.arrived = some (true, n)) (hnew : (tid, n) ∉ c.arrivals)
include hc hne hall hnew

/-- The router records a team all of whose groups have arrived at a barrier of the cluster (R395). -/
theorem arriveRouter_of_all : arriveRouter s tid t
    = testClusterBars { s with clusters := tput s.clusters t.cid { c with arrivals := c.arrivals ++ [(tid, n)] } } t.cid := by
  unfold arriveRouter
  cases hgs : liveGroups s tid with
  | nil => exact absurd hgs hne
  | cons p gs =>
    rw [hgs] at hall
    have h0 := hall p List.mem_cons_self
    have hall : (gs.all fun p => p.2.arrived == some (true, n)) = true := by
      simpa only [List.all_eq_true, beq_iff_eq] using fun q hq => hall q (List.mem_cons_of_mem _ hq)
    have hnew : c.arrivals.contains (tid, n) = false := by simpa using hnew
    simp only [h0, hall, if_true, tupd, hc, hnew, Bool.false_eq_true, if_false]

include ht

theorem exec_barrierRouterArrival_of_waiting {k : Nat} (hk : k ∈ c.teams) (hkt : k ≠ tid) (hlive : liveGroups s k ≠ [])
    (hnot : ∀ m, (k, m) ∉ c.arrivals) : exec (.barrierRouterArrival tid) s
      = .next { s with clusters := tput s.clusters t.cid { c with arrivals := c.arrivals ++ [(tid, n)] } } := by
  rw [exec_barrierRouterArrival]
  simp only [execBarrierRouterArrival, ht]
  rw [arriveRouter_of_all hc hne hall hnew]
  refine congrArg _ (testClusterBars_of_waiting (tget_tput_self _ _ _) hk hlive fun m hm => ?_)
  rcases List.mem_append.mp hm with h | h
  · exact hnot m h
  · exact hkt (Prod.mk.inj (List.mem_singleton.mp h)).1

end

/-! O43: the retirement of a team (R43, R137). What the completion of its level does to memory, to events and to the trace
leaves alone the teams, the granules and B stores that they hold, and the messages to them. -/

/-- The teams, the granules and B stores that they hold, and the messages to them. -/
def State.tenure (s : State) : Tab Team × Tab Granule × Tab Nat × Tab Msg := (s.teams, s.granules, s.bowner, s.msgs)

@[simp] theorem emit_tenure (s : State) (ty k p src pl : Nat) (n : Names) : (emit s ty k p src pl n).tenure = s.tenure := by
  rcases emit_cases s ty k p src pl n with h | ⟨_, h⟩ | ⟨_, h⟩ <;> rw [h] <;> rfl
@[simp] theorem chose_tenure (s : State) : (chose s).tenure = s.tenure := rfl
@[simp] theorem raiseTime_tenure (s : State) (a t : Nat) : (raiseTime s a t).tenure = s.tenure := rfl
@[simp] theorem storeAt_tenure (s : State) (key n v t : Nat) : (storeAt s key n v t).tenure = s.tenure := rfl
@[simp] theorem markOlds_tenure (s : State) (n cmd : Nat) (due : Option Nat) : (markOlds s n cmd due).tenure = s.tenure := rfl
@[simp] theorem scrEng_tenure (s : State) (g cmd : Nat) (due : Option Nat) (key n v : Nat) :
    (scrEng s g cmd due key n v).tenure = s.tenure := rfl
@[simp] theorem dirtyLine_tenure (s : State) (key n : Nat) : (dirtyLine s key n).tenure = s.tenure := by
  unfold dirtyLine; split <;> rfl
@[simp] theorem fillSector_tenure (s : State) (sec tid : Nat) : (fillSector s sec tid).tenure = s.tenure := by
  fun_cases fillSector s sec tid <;> rfl
@[simp] theorem applyPartials_tenure (n : Nat) (s : State) (ps : List Partial) :
    (applyPartials n s ps).tenure = s.tenure := by
  fun_induction applyPartials n s ps with
  | case1 => rfl
  | case2 => rfl
  | case3 n s ps ks k p e w u v x ih =>
    have hu : u.tenure = s.tenure := by simp only [u, apply_ite State.tenure, chose_tenure, ite_self]
    have hv : v.tenure = s.tenure := by simp only [v, apply_ite State.tenure, dirtyLine_tenure, hu, ite_self]
    rw [ih, storeAt_tenure, hv]
@[simp] theorem mergeLine_tenure (s : State) (line : Nat) : (mergeLine s line).tenure = s.tenure := by
  unfold mergeLine
  split
  · rfl
  · exact applyPartials_tenure _ _ _
@[simp] theorem mergeAll_tenure (s : State) : (mergeAll s).tenure = s.tenure :=
  foldl_keeps State.tenure mergeLine_tenure _ s
@[simp] theorem readSlice_tenure (s : State) (key n tid : Nat) : (readSlice s key n tid).1.tenure = s.tenure := by
  simp only [readSlice, apply_ite State.tenure, fillSector_tenure, mergeLine_tenure, ite_self]
@[simp] theorem writeSector_tenure (s : State) (key n v tid t : Nat) : (writeSector s key n v tid t).tenure = s.tenure := by
  simp only [writeSector, storeAt_tenure, apply_ite State.tenure, dirtyLine_tenure, fillSector_tenure, mergeLine_tenure,
    ite_self]
@[simp] theorem writeSectors_tenure (k : Nat) (s : State) (key n v tid : Nat) :
    (writeSectors k s key n v tid).tenure = s.tenure := by
  induction k generalizing s key n v with
  | zero => rfl
  | succ k ih => simp only [writeSectors, apply_ite State.tenure, ih, writeSector_tenure, ite_self]
@[simp] theorem writeSlice_tenure (s : State) (key n v tid : Nat) : (writeSlice s key n v tid).tenure = s.tenure :=
  writeSectors_tenure _ _ _ _ _ _
@[simp] theorem writeEng_tenure (s : State) (g cmd : Nat) (due : Option Nat) (key n v tid : Nat) :
    (writeEng s g cmd due key n v tid).tenure = s.tenure := by
  simp only [writeEng, raiseTime_tenure, markOlds_tenure, writeSector_tenure]
@[simp] theorem landPart_tenure (w : LateWrite) (s : State) (p : LatePart) : (landPart w s p).tenure = s.tenure := by
  simp only [landPart, apply_ite State.tenure, writeEng_tenure, scrEng_tenure, ite_self]
@[simp] theorem landWrite_tenure (s : State) (w : LateWrite) : (landWrite s w).tenure = s.tenure :=
  foldl_keeps State.tenure (landPart_tenure w) _ s
@[simp] theorem landAll_tenure (s : State) : (landAll s).tenure = s.tenure :=
  foldl_keeps State.tenure landWrite_tenure _ _
@[simp] theorem publish_tenure (s : State) (core cid scope t : Nat) : (publish s core cid scope t).tenure = s.tenure := by
  unfold publish
  split
  · exact foldl_keeps State.tenure (fun _ _ => by simp only [raiseTime_tenure]) _ s
  · rfl
@[simp] theorem publishAll_tenure (s : State) : (publishAll s).tenure = s.tenure := publish_tenure _ _ _ _ _
@[simp] theorem signalEvent_tenure (s : State) (p ev : Nat) : (signalEvent s p ev).tenure = s.tenure := by
  unfold signalEvent
  split
  · rfl
  · exact emit_tenure _ _ _ _ _ _ _

/-! A walk and the checks of an access. -/

@[simp] theorem walkEntry_tenure (s : State) (stack a : Nat) : (walkEntry s stack a).1.tenure = s.tenure := by
  fun_cases walkEntry s stack a
  · exact readSlice_tenure s a 16 0
  · rfl
  · rfl
  · exact readSlice_tenure s a 16 0
@[simp] theorem walkFrom_tenure (s : State) (stack p va lvl base : Nat) :
    (walkFrom s stack p va lvl base).1.tenure = s.tenure := by
  fun_induction walkFrom s stack p va lvl base
  · exact walkEntry_tenure _ _ _
  · exact walkEntry_tenure _ _ _
  · exact walkEntry_tenure _ _ _
  next ih => exact ih.trans (walkEntry_tenure _ _ _)
@[simp] theorem walk_tenure (s : State) (stack c va : Nat) : (walk s stack c va).1.tenure = s.tenure := by
  fun_cases walk s stack c va
  · rfl
  · rfl
  · exact walkFrom_tenure _ _ _ _ _ _
/-- The state of an answer holds what the state asked for holds. -/
theorem tenure_of_pair {α : Type} {p : State × α} {s t : State} {a : α} (e : p = (t, a)) (h : p.1.tenure = s.tenure) :
    t.tenure = s.tenure := by subst e; exact h
@[simp] theorem translate_tenure (s : State) (core c va : Nat) : (translate s core c va).1.tenure = s.tenure := by
  fun_cases translate s core c va
  · rfl
  · rfl
  · rfl
  next e => exact tenure_of_pair e (walk_tenure _ _ _ _)
  next e _ =>
    have h := tenure_of_pair e (walk_tenure s (stackOf core) c va)
    exact h
@[simp] theorem checkAccess_tenure (s : State) (core c va n : Nat) (need : Need) (bad : Nat → Bool) (align : Nat → Nat) :
    (checkAccess s core c va n need bad align).1.tenure = s.tenure := by
  unfold checkAccess
  fun_cases checkAccessIn s.tlb s core c va n need bad align
  · rfl
  all_goals
    rename translate s core c va = _ => e
    exact tenure_of_pair e (translate_tenure s core c va)

/-! The completion of a level (R42 to R44). -/

@[simp] theorem raiseLine_tenure (s : State) (c src base : Nat) : (raiseLine s c src base).tenure = s.tenure := by
  unfold raiseLine
  dsimp only
  split
  · split <;> rfl
  · rfl
@[simp] theorem addRec_tenure (s : State) (c : Nat) (r : StopRec) : (addRec s c r).tenure = s.tenure := by
  unfold addRec
  dsimp only
  split <;> rfl
theorem unitFault_of_no_team (s : State) (c stack : Nat) (r : StopRec) : unitFault s c stack none r
    = addRec (raiseLine (emit s 0x05 stack (ctxPart s c) r.source (r.cause + 2 ^ 32 * r.pc)
        { launch := r.launch, team := r.team, group := r.group, lane := 0xFF }) c r.source cHalt) c r := rfl
@[simp] theorem levelDone_tenure (s : State) (l : Launch) (level : Nat) : (levelDone s l level).tenure = s.tenure := by
  have hvisible (b : Prop) [Decidable b] (ev : Nat) :
      (signalEvent (if b then publishAll (mergeAll s) else s) l.part ev).tenure = s.tenure := by
    rw [signalEvent_tenure, apply_ite State.tenure, publishAll_tenure, mergeAll_tenure, ite_self]
  fun_cases levelDone s l level
  · exact (apply_ite State.tenure _ _ _).trans ((ite_self _).trans (hvisible _ _))
  · exact hvisible _ _
@[simp] theorem writeStatus_tenure (s : State) (l : Launch) (code : Nat) : (writeStatus s l code).tenure = s.tenure := by
  fun_cases writeStatus s l code
  · rfl
  next e => exact (writeSlice_tenure _ _ _ _ _).trans (tenure_of_pair e (checkAccess_tenure _ _ _ _ _ _ _ _))
  next e _ =>
    rw [unitFault_of_no_team, addRec_tenure, raiseLine_tenure, emit_tenure]
    exact tenure_of_pair e (checkAccess_tenure _ _ _ _ _ _ _ _)
@[simp] theorem finishLaunch_tenure (n : Nat) (s : State) (l : Launch) (code : Nat) :
    (finishLaunch n s l code).tenure = s.tenure := by
  have h (s : State) (l : Launch) (code : Nat) : (levelDone (writeStatus s l code) l 3).tenure = s.tenure := by
    rw [levelDone_tenure, writeStatus_tenure]
  fun_induction finishLaunch n s l code
  · rfl
  · exact h _ _ _
  · exact h _ _ _
  next ih => exact ih.trans (h _ _ _)
  · exact h _ _ _
@[simp] theorem clusterDone_tenure (s : State) (lid : Nat) : (clusterDone s lid).tenure = s.tenure := by
  fun_cases clusterDone s lid
  · rfl
  · exact levelDone_tenure _ _ _
  · exact (finishLaunch_tenure _ _ _ _).trans ((levelDone_tenure _ _ _).trans (levelDone_tenure _ _ _))
  · exact (levelDone_tenure _ _ _).trans (levelDone_tenure _ _ _)
@[simp] theorem releaseSlot_tenure (s : State) (t : Team) : (releaseSlot s t).tenure = s.tenure := rfl

/-! What a team leaves when it retires. -/

theorem granOf_congr {s t : State} (h : t.granules = s.granules) (core i : Nat) : granOf t core i = granOf s core i := by
  simp only [granOf, h]

/-- One granule is freed, its bytes left to a context (R88). -/
def freeGranule (core ctx : Nat) (s : State) (i : Nat) : State :=
  { s with granules := tput s.granules (granKey core i) { owner := none, lastCtx := some ctx } }

theorem granOf_freeGranule (core ctx : Nat) (s : State) (i j : Nat) : granOf (freeGranule core ctx s j) core i
    = if i = j then { owner := none, lastCtx := some ctx } else granOf s core i := by
  have hkey : granKey core i = granKey core j ↔ i = j := by unfold granKey; omega
  simp only [granOf, freeGranule, tget_tput, hkey]
  split <;> rfl

theorem freeScratch_keep (s : State) (t : Team) : freeScratch s t true = t.grans.foldl (freeGranule t.core t.ctx) s := rfl

/-- Each of several granules is freed. -/
theorem granOf_foldl_freeGranule {core ctx i : Nat} {is : List Nat} {s : State}
    (h : i ∈ is ∨ granOf s core i = { owner := none, lastCtx := some ctx }) :
    granOf (is.foldl (freeGranule core ctx) s) core i = { owner := none, lastCtx := some ctx } := by
  induction is generalizing s with
  | nil => exact h.resolve_left List.not_mem_nil
  | cons j is ih =>
    refine ih ?_
    rw [granOf_freeGranule]
    by_cases e : i = j
    · exact .inr (if_pos e)
    · rw [if_neg e]
      exact h.imp_left fun hm => (List.mem_cons.mp hm).resolve_left e

theorem granOf_freeScratch_keep {t : Team} {i : Nat} (hi : i ∈ t.grans) (s : State) :
    granOf (freeScratch s t true) t.core i = { owner := none, lastCtx := some t.ctx } := by
  rw [freeScratch_keep]
  exact granOf_foldl_freeGranule (.inl hi)

/-- A B store that its team gives up has no owner (R245). -/
theorem tget_bowner_freeB {s : State} {core tid : Nat} (h : tget s.bowner core = some tid) :
    tget (freeB s core tid).bowner core = none := by
  rw [freeB, if_pos h]
  exact tget_cdel_self _ _

@[simp] theorem freeB_granules (s : State) (core tid : Nat) : (freeB s core tid).granules = s.granules := by
  unfold freeB; split <;> rfl

@[simp] theorem freeScratch_keep_bowner (s : State) (t : Team) : (freeScratch s t true).bowner = s.bowner := by
  rw [freeScratch_keep]
  exact foldl_keeps (f := freeGranule t.core t.ctx) State.bowner (fun _ _ => rfl) t.grans s

/-- The state in which a team is no longer resident, its scratch and B store freed and the messages to it dropped (R43). -/
def vacated (s : State) (tid : Nat) (t : Team) : State :=
  let s := emit (landAll s) 0x02 (stackOf t.core) t.part srcSequencer t.core
    { Names.none with launch := t.launch, team := t.teamNo }
  let s := freeB (freeScratch s t true) t.core tid
  { s with
    teams := cdel s.teams tid
    caps := s.caps.filter fun p => p.2.team != some tid
    msgs := s.msgs.filter fun p => !(p.2.ctx == t.ctx && p.2.launch == t.launch && p.2.team == t.teamNo) }

theorem vacated_facts (s : State) (tid : Nat) (t : Team) : tget (vacated s tid t).teams tid = none
    ∧ (∀ i ∈ t.grans, granOf (vacated s tid t) t.core i = { owner := none, lastCtx := some t.ctx })
    ∧ (tget s.bowner t.core = some tid → tget (vacated s tid t).bowner t.core = none)
    ∧ ∀ p ∈ (vacated s tid t).msgs, ¬ (p.2.ctx = t.ctx ∧ p.2.launch = t.launch ∧ p.2.team = t.teamNo) := by
  have hb : (emit (landAll s) 0x02 (stackOf t.core) t.part srcSequencer t.core
      { Names.none with launch := t.launch, team := t.teamNo }).bowner = s.bowner :=
    congrArg (fun x => x.2.2.1) ((emit_tenure _ _ _ _ _ _ _).trans (landAll_tenure s))
  refine ⟨tget_cdel_self _ _, fun i hi => ?_, fun h => ?_, fun p hp hmine => ?_⟩
  · exact (granOf_congr (freeB_granules _ _ _) _ _).trans (granOf_freeScratch_keep hi _)
  · exact tget_bowner_freeB (by rw [freeScratch_keep_bowner, hb, h])
  · obtain ⟨-, hp⟩ := List.mem_filter.mp hp
    simp [hmine] at hp

/-- The completion of a team's level leaves what the team has left as it is. -/
theorem retireTeam_tenure (s : State) (tid : Nat) (t : Team) : (retireTeam s tid t).tenure = (vacated s tid t).tenure := by
  have hslot : (if t.handler then releaseSlot (vacated s tid t) t else vacated s tid t).tenure = (vacated s tid t).tenure := by
    rw [apply_ite State.tenure, releaseSlot_tenure, ite_self]
  unfold retireTeam
  extract_lets names s1 s2 s3 s4 s5
  have h4 : s4.tenure = (vacated s tid t).tenure := hslot
  have h5 : s5.tenure = (vacated s tid t).tenure := by
    simp only [s5]
    split
    · exact (levelDone_tenure _ _ _).trans h4
    · exact h4
  split
  · exact h5
  · split
    · exact h5
    · exact (clusterDone_tenure _ _).trans h5

/-- A group, a command or a capture of a team has still to end. -/
def teamBusy (s : State) (tid : Nat) (t : Team) : Bool :=
  t.left ≠ 0 || s.cmds.any (fun p => p.2.tid == some tid)
    || s.caps.any (fun p => p.2.team == some tid && (!p.2.cancelled || p.2.failed))

theorem teamBusy_eq_false {s : State} {tid : Nat} {t : Team} (hleft : t.left = 0) (hcmds : ∀ p ∈ s.cmds, p.2.tid ≠ some tid)
    (hcaps : ∀ p ∈ s.caps, p.2.team = some tid → p.2.cancelled = true ∧ p.2.failed = false) :
    teamBusy s tid t = false := by
  simp only [teamBusy, hleft, ne_eq, not_true_eq_false, decide_false, Bool.false_or, Bool.or_eq_false_iff,
    List.any_eq_false, beq_iff_eq, Bool.and_eq_true, Bool.or_eq_true, Bool.not_eq_true']
  refine ⟨hcmds, fun p hp ⟨hteam, h⟩ => ?_⟩
  obtain ⟨hc, hf⟩ := hcaps p hp hteam
  simp [hc, hf] at h

/-- A team of which nothing is left to end retires where no line that it boarded is aboard (R43). -/
theorem exec_teamRetire_of_idle {s : State} {tid : Nat} {t : Team} (ht : tget s.teams tid = some t)
    (hidle : teamBusy s tid t = false) (haboard : ∀ p ∈ s.aboard, p.2.team ≠ some tid) :
    exec (.teamRetire tid) s = .next (retireTeam s tid t) := by
  have hfind : s.aboard.find? (fun p => p.2.team == some tid) = none := by
    simpa [List.find?_eq_none] using haboard
  rw [exec_teamRetire, execTeamRetire, ht]
  dsimp only
  rw [← teamBusy, hidle, hfind]
  rfl

theorem emit_teams (s : State) (ty k p src pl : Nat) (n : Names) : (emit s ty k p src pl n).teams = s.teams :=
  congrArg (·.1) (emit_tenure s ty k p src pl n)

/-- A fault that a unit meets for a team that is no handler's, while the halt line of its context is down, raises the line
with that one stop record (R442). -/
theorem unitFault_of_down {s : State} {c stack tid : Nat} {t : Team} {r : StopRec} (ht : tget s.teams tid = some t)
    (hn : t.handler = false) (hh : haltedCtx s c = false) : (unitFault s c stack (some tid) r).teams = s.teams
      ∧ ∃ h, (ctxOf (unitFault s c stack (some tid) r) c).halt = some h ∧ h.recs = [r] := by
  have hdown (ty k p src pl : Nat) (n : Names) : (ctxOf (emit s ty k p src pl n) c).halt = none := by
    rw [ctxOf_congr (emit_ctxs s ty k p src pl n)]
    simpa [haltedCtx] using hh
  simp only [unitFault, Option.bind_some, emit_teams, ht, Option.map_some, hn, raiseLine_down (hdown _ _ _ _ _ _), addRec,
    ctxOf_putCtx_self]
  exact ⟨emit_teams _ _ _ _ _ _ _, _, rfl, rfl⟩

/-- The line of a team that would retire is still aboard: ANN_ALIAS, once (R137). -/
theorem exec_teamRetire_of_aboard {s : State} {tid : Nat} {t : Team} {p : Nat × Aboard} (ht : tget s.teams tid = some t)
    (hidle : teamBusy s tid t = false) (hp : p ∈ s.aboard) (hteam : p.2.team = some tid) (ha : t.aliased = false) :
    ∃ r, r.cause = cAlias ∧ exec (.teamRetire tid) s
      = .next (unitFault (updTeam s tid fun t => { t with aliased := true }) t.ctx (stackOf t.core) (some tid) r) := by
  cases hfind : s.aboard.find? (fun p => p.2.team == some tid) with
  | none => exact absurd hteam (by simpa using List.find?_eq_none.mp hfind p hp)
  | some q =>
    rw [exec_teamRetire, execTeamRetire, ht]
    dsimp only
    rw [← teamBusy, hidle, hfind]
    dsimp only
    rw [ha]
    exact ⟨_, rfl, rfl⟩

/-- The line stays with its team, which is marked so that the fault is raised once (R137). -/
theorem unitFault_aliased_facts {s : State} {tid stack : Nat} {t : Team} (r : StopRec) (ht : tget s.teams tid = some t)
    (hn : t.handler = false) (hh : haltedCtx s t.ctx = false) :
    let u := unitFault (updTeam s tid fun t => { t with aliased := true }) t.ctx stack (some tid) r
    (∃ h, (ctxOf u t.ctx).halt = some h ∧ h.recs = [r]) ∧ (tget u.teams tid).map Team.aliased = some true := by
  have hmark : tget (updTeam s tid fun t => { t with aliased := true }).teams tid = some { t with aliased := true } := by
    simp only [updTeam, tget_tupd, ht, if_true, Option.map_some]
  obtain ⟨hteams, hhalt⟩ := unitFault_of_down (stack := stack) (r := r) hmark hn hh
  refine ⟨hhalt, ?_⟩
  rw [hteams, hmark]
  rfl

/-- A team that has retired leaves its scratch and its B store free, and no message to it (R43). -/
theorem retireTeam_facts (s : State) (tid : Nat) (t : Team) : tget (retireTeam s tid t).teams tid = none
    ∧ (∀ i ∈ t.grans, granOf (retireTeam s tid t) t.core i = { owner := none, lastCtx := some t.ctx })
    ∧ (tget s.bowner t.core = some tid → tget (retireTeam s tid t).bowner t.core = none)
    ∧ ∀ p ∈ (retireTeam s tid t).msgs, ¬ (p.2.ctx = t.ctx ∧ p.2.launch = t.launch ∧ p.2.team = t.teamNo) := by
  have h := retireTeam_tenure s tid t
  simp only [State.tenure, Prod.mk.injEq] at h
  obtain ⟨hteams, hgrans, hbowner, hmsgs⟩ := h
  simp only [hteams, granOf_congr hgrans, hbowner, hmsgs]
  exact vacated_facts s tid t

/-- Settles O43: the floor at the count of 64, the two swaps, the arrival at a barrier and its release, the router's record,
and the retirement of a team. -/
theorem swapsBarriersTeams : Obligations.SwapsBarriersTeams := by
  unfold Obligations.SwapsBarriersTeams
  refine ⟨fun s g y id n hg => ⟨?floor, fun gs => longestReady_eq_some, ?swap, ?forced⟩, fun s => ⟨?arrival, ?router, ?retire⟩⟩
  case floor =>
    intro h64
    refine ⟨fun hnil => ?_, fun p hp hleast => ?_⟩ <;> rw [exec_starvationFloor_of_count hg h64]
    · rw [hnil]; rfl
    · rw [leastOf_eq_some_iff.mpr ⟨hp, hleast⟩]; rfl
  case swap =>
    intro ha hb hw hne hy hr
    exact ⟨_, exec_groupSwap_of_longWait hg ha hb hw hr, group_swap hg hy hne⟩
  case forced =>
    intro core wedge bank r hb hy gs out hn h48 ⟨q, hq⟩
    obtain ⟨p, hp⟩ := exists_leastBy (rank := fun q => q.2.order) (mem_mayLeave.mpr hq)
    obtain ⟨hm, hl⟩ := leastBy_eq_some hp
    exact ⟨p, mem_mayLeave.mp hm, fun q hq => hl q (mem_mayLeave.mpr hq), exec_forcedSwap_of_ready hb hy hn h48 hp⟩
  case arrival =>
    intro g id n t cl hg hs hbar ht ha hcaps hcmds hlate hops
    refine ⟨exec_barrierArrival_of_clear hg hs hbar ht ha hcaps hcmds hlate hops, ?_⟩
    rintro rfl hsort hall
    refine ⟨_, group_testTeamBars_of_last hg hbar ht hsort hall, rfl, fun l hl => ?_⟩
    exact lane_freed ((barOf_eq_some hbar).2 l hl) ((mem_lanesOf _ _).mp hl).1
  case router =>
    rintro tid t c n ht hc hne hall hnew ⟨k, hk, hkt, hlive, hnot⟩
    exact exec_barrierRouterArrival_of_waiting ht hc hne hall hnew hk hkt hlive hnot
  case retire =>
    intro tid t ht hleft hcmds hcaps
    have hidle := teamBusy_eq_false (t := t) hleft hcmds hcaps
    refine ⟨fun haboard => ⟨_, exec_teamRetire_of_idle ht hidle haboard, retireTeam_facts s tid t⟩, ?_⟩
    intro p hp hteam ha hn hh
    obtain ⟨r, hcause, e⟩ := exec_teamRetire_of_aboard ht hidle hp hteam ha
    obtain ⟨⟨h, hhalt, hrecs⟩, hmarked⟩ := unitFault_aliased_facts (stack := stackOf t.core) r ht hn hh
    exact ⟨_, h, r, e, hhalt, hrecs, hcause, hmarked⟩

end Sys2Proof.Machine

namespace Sys2Proof.Machine

/-! O52: what the writes of v and s registers leave (R46, R164). -/

/-- The executing lanes are among those of the issue (R164). -/
theorem bit_lanes_of_execMask {s : State} {g : Group} {l : Nat} (h : bit (execMask s g) l = true) :
    bit s.iss.lanes l = true := by
  unfold execMask at h
  split at h
  · split at h
    · rw [bit_and, Bool.and_eq_true] at h
      exact h.1
    · exact h
  · exact h

/-- What each element reads after words are written to lanes (R164, R201). -/
theorem elem_writeLanes (s : State) (g : Group) (a n : Nat) (f : Nat → Nat → Word) (r : Nat) {l : Nat} (hl : l < 32) :
    (writeLanes s g a n f).elem r l
      = if a ≤ r ∧ r < a + n ∧ bit s.iss.lanes l = true then
          (if bit (execMask s g) l then .val (f l (r - a)) else if zeroing s then .val 0 else g.elem r l)
        else g.elem r l :=
  elem_writeElems s g a n _ r hl

/-- A lane of the issue that runs stands past the instruction once it has completed. -/
theorem getElem?_lanes_passed {s : State} {g : Group} {l : Nat} {x : Lane} (hb : bit s.iss.lanes l = true)
    (hx : g.lanes[l]? = some x) (hr : x.running = true) :
    (g.setLanes s.iss.lanes fun l => if l.running then { l with pcv := word s.iss.next, hop := .along } else l).lanes[l]?
      = some { x with pcv := word s.iss.next, hop := .along } := by
  simp only [Group.setLanes, List.getElem?_mapIdx, hx, Option.map_some, hb, hr, if_true]

/-- Settles O52: the group after the issue holds the words written, and what each write names is all that it changes. -/
theorem registerWrites : Obligations.RegisterWrites := by
  unfold Obligations.RegisterWrites
  intro s g a n f r w
  refine ⟨⟨_, group_after s _, ?executing, ?masked, ?others, ?lanes⟩, _, group_after s _, ?written, rfl, ?kept⟩
  case executing =>
    intro i l hi hl hb
    refine (elem_writeLanes s g a.toNat n f _ hl).trans ?_
    rw [if_pos ⟨by omega, by omega, bit_lanes_of_execMask hb⟩, if_pos hb, Nat.add_sub_cancel_left]
  case masked =>
    intro i l hi hl hlane hb
    refine (elem_writeLanes s g a.toNat n f _ hl).trans ?_
    rw [if_pos ⟨by omega, by omega, hlane⟩, hb, if_neg Bool.false_ne_true]
  case others =>
    intro k l hl hout
    refine (elem_writeLanes s g a.toNat n f k hl).trans (if_neg ?_)
    rintro ⟨hlow, hhigh, hlane⟩
    rcases hout with h | h | h
    · omega
    · omega
    · rw [hlane] at h; cases h
  case lanes =>
    intro l x hb hx hr
    exact getElem?_lanes_passed hb hx hr
  case written =>
    intro hr
    exact sreg_setS_self g (by simpa [BitVec.toNat_eq] using hr) w
  case kept =>
    intro k hk
    exact sreg_setS_ne g w hk

end Sys2Proof.Machine

namespace Sys2Proof.Machine

/-! O14: what a transform-capable instruction makes of forms and poisoned elements (R53 to R55, R60). -/

/-- Writing one register makes at most that one hold a form that held none (R53). -/
theorem formRegs_writeElems_one (s : State) (g : Group) (a : Nat) (f : Nat → Nat → Elem) :
    (writeElems s g a 1 f).formRegs ≤ g.formRegs + 1 := by
  unfold Group.formRegs
  refine (List.Nodup.subperm (List.nodup_range.filter _) (l₂ := a :: _) ?_).length_le
  intro r hr
  rw [List.mem_filter, List.any_eq_true] at hr
  obtain ⟨hrange, ⟨k, e⟩, hm, hform⟩ := hr
  rcases mem_csets hm with hw | hc
  · obtain ⟨l, i, hl, hi, rfl, -⟩ := mem_writes.mp hw
    have hl := bit_lt hl
    have hr : r = a := by
      simp only [Bool.and_eq_true, beq_iff_eq, vkey] at hform
      omega
    rw [hr]
    exact List.mem_cons_self
  · exact List.mem_cons_of_mem _ (List.mem_filter.mpr ⟨hrange, List.any_eq_true.mpr ⟨_, hc, hform⟩⟩)

/-- The instruction's outcome is its completion, with the elements `e` in register `a` of the executing lanes. -/
def Makes (s : State) (g : Group) (a : VReg) (o : Out) (e : Nat → Elem) : Prop :=
  ∃ g', o = .next (s.after g') ∧ ∀ l ∈ lanesOf (execMask s g), g'.elem a.toNat l = e l

section
variable {s : State} {g : Group} {rule : PfxRule} {a : VReg} {t : Group → Xform} {b : Option Nat} {x : Option Src}
  {asFlt : Bool} {addend : Option Nat} {p q v w : Nat → Word} {k : Nat} {flt : Bool} {fresh : Nat → Bool}
  {e : Nat → Elem}
  (hi : Issues s g { rule := rule, v := a.toNat :: xformReads b x addend, vr := xformReads b x addend,
                     sr := x.toList.flatMap Src.sregs })
  (hf : g.formRegs < 16)
include hi hf

/-- Where it has a result in every executing lane, a transform-capable instruction completes without waiting. -/
theorem laneXform_makes (he : ∀ l ∈ lanesOf (execMask s g), xformAt g (t g) b x asFlt addend l = some (e l)) :
    Makes s g a (laneXform s rule a t b x asFlt addend) e := by
  have hbad : ((lanesOf (execMask s g)).filter fun l => (xformAt g (t g) b x asFlt addend l).isNone) = [] := by
    rw [List.filter_eq_nil_iff]
    intro l hl
    rw [he l hl]
    simp
  have hroom := formRegs_writeElems_one s g a.toNat fun l _ => (xformAt g (t g) b x asFlt addend l).getD (.val 0)
  have hroom : (g.syms.isEmpty || decide ((writeElems s g a.toNat 1 fun l _ =>
      (xformAt g (t g) b x asFlt addend l).getD (.val 0)).formRegs ≤ 16)) = true := by
    rw [Bool.or_eq_true, decide_eq_true_eq]
    omega
  refine ⟨_, by simp only [laneXform, begin_of_issues hi, hbad, List.isEmpty_nil, if_true, hroom]; rfl, ?_⟩
  intro l hl
  have hb : bit (execMask s g) l = true := (mem_lanesOf_iff _ _).mp hl
  rw [elem_writeElems s g a.toNat 1 _ _ (bit_lt hb), if_pos ⟨le_rfl, by omega, bit_lanes_of_execMask hb⟩, if_pos hb,
    he l hl]
  rfl

variable (hw : ∀ l ∈ lanesOf (execMask s g), g.optElem addend l = .val (w l)) (htakes : (t g).takes flt = true)
  (hmov : t g ≠ .mov)
include hw htakes hmov

/-- A form in vB is changed (R54, R55). -/
theorem laneXform_first (hb : ∀ l ∈ lanesOf (execMask s g), g.optElem b l = .form k (p l) (q l) flt (fresh l))
    (hv : ∀ l ∈ lanesOf (execMask s g), g.srcElem x asFlt l = .val (v l)) :
    Makes s g a (laneXform s rule a t b x asFlt addend) fun l =>
      .form k ((t g).apply true (p l) (q l) (v l) (w l)).1 ((t g).apply true (p l) (q l) (v l) (w l)).2 flt false :=
  laneXform_makes hi hf fun l hl => by
    simp only [xformAt, hb l hl, hv l hl, hw l hl, Xform.result, htakes, if_true, beq_eq_false_iff_ne.mpr hmov,
      Bool.and_false]

/-- A form in the second operand is changed, but by `shl` (R54, R55, log 110). -/
theorem laneXform_second (hshl : t g ≠ .shl) (hb : ∀ l ∈ lanesOf (execMask s g), g.optElem b l = .val (v l))
    (hx : ∀ l ∈ lanesOf (execMask s g), g.srcElem x asFlt l = .form k (p l) (q l) flt (fresh l)) :
    Makes s g a (laneXform s rule a t b x asFlt addend) fun l =>
      .form k ((t g).apply false (p l) (q l) (v l) (w l)).1 ((t g).apply false (p l) (q l) (v l) (w l)).2 flt false :=
  laneXform_makes hi hf fun l hl => by
    simp only [xformAt, hb l hl, hx l hl, hw l hl, Xform.result, htakes, bne_iff_ne.mpr hshl, Bool.and_self, if_true,
      beq_eq_false_iff_ne.mpr hmov, Bool.and_false]

omit hmov in
/-- A poisoned element of vB gives a marked result (R60). -/
theorem laneXform_poisoned (hb : ∀ l ∈ lanesOf (execMask s g), g.optElem b l = .pois (p l) k flt)
    (hv : ∀ l ∈ lanesOf (execMask s g), g.srcElem x asFlt l = .val (v l)) :
    Makes s g a (laneXform s rule a t b x asFlt addend) fun l => .pois ((t g).value (p l) (v l) (w l)) k flt :=
  laneXform_makes hi hf fun l hl => by
    simp only [xformAt, hb l hl, hv l hl, hw l hl, Xform.result, htakes, if_true]

end

theorem Makes.congr {o : Out} {s : State} {g : Group} {a : VReg} {e e' : Nat → Elem} (h : Makes s g a o e)
    (he : ∀ l, e l = e' l) : Makes s g a o e' := funext he ▸ h

/-- What an instruction makes is what the operation makes that it stands for. -/
theorem Makes.of_exec {i : Instr} {o : Out} {s : State} {g : Group} {a : VReg} {e : Nat → Elem} (hi : exec i s = o)
    (h : Makes s g a o e) : Makes s g a (exec i s) e := hi ▸ h

/-! O14: the V and X form of each instruction of the tables is one operation on its second source. -/

/-- An instruction's V form and X form that are one operation on their second source are that operation. -/
theorem exec_formOf {v : VReg → VReg → VReg → Instr} {x : VReg → VReg → XOp → Instr} {a b : VReg} {s : State}
    {op : Src → Out} (hv : ∀ r, exec (v a b r) s = op (.v r)) (hx : ∀ o, exec (x a b o) s = op (.x o)) (c : Src) :
    exec (formOf v x a b c) s = op c := by
  cases c with
  | v r => exact hv r
  | x o => exact hx o

section
variable (a b : VReg) (c : Src) (s : State)

theorem exec_formOf_add : exec (formOf .addV .addX a b c) s = intXform s .add a b c :=
  exec_formOf (op := intXform s .add a b) (exec_addV a b · s) (exec_addX a b · s) c
theorem exec_formOf_sub : exec (formOf .subV .subX a b c) s = intXform s .sub a b c :=
  exec_formOf (op := intXform s .sub a b) (exec_subV a b · s) (exec_subX a b · s) c
theorem exec_formOf_mul : exec (formOf .mulV .mulX a b c) s = intXform s .mul a b c :=
  exec_formOf (op := intXform s .mul a b) (exec_mulV a b · s) (exec_mulX a b · s) c
theorem exec_formOf_mad : exec (formOf .madV .madX a b c) s = madOp s a b c :=
  exec_formOf (op := madOp s a b) (exec_madV a b · s) (exec_madX a b · s) c
theorem exec_formOf_fadd : exec (formOf .faddF32V .faddF32X a b c) s = floatXform s .fadd a b c :=
  exec_formOf (op := floatXform s .fadd a b) (exec_faddF32V a b · s) (exec_faddF32X a b · s) c
theorem exec_formOf_fsub : exec (formOf .fsubF32V .fsubF32X a b c) s = floatXform s .fsub a b c :=
  exec_formOf (op := floatXform s .fsub a b) (exec_fsubF32V a b · s) (exec_fsubF32X a b · s) c
theorem exec_formOf_fmul : exec (formOf .fmulF32V .fmulF32X a b c) s = floatXform s .fmul a b c :=
  exec_formOf (op := floatXform s .fmul a b) (exec_fmulF32V a b · s) (exec_fmulF32X a b · s) c
theorem exec_formOf_ffma : exec (formOf .ffmaF32V .ffmaF32X a b c) s = ffmaOp s a b c :=
  exec_formOf (op := ffmaOp s a b) (exec_ffmaF32V a b · s) (exec_ffmaF32X a b · s) c

end

/-! O14: the operands of the tables, and their transforms as the spec writes them. -/

/-- An imm6 in a lane is sign-extended (R161). -/
theorem opX_imm (g : Group) (n : BitVec 6) : g.opX (.imm n) = n.signExtend 32 := by simp [Group.opX, word]

/-- A second source that is no form is known, read as a float where the instruction is floating (R161). -/
theorem srcElem_of_known {g : Group} {c : Src} {ls : List Nat} (hk : Known g c.vregs ls) (asFlt : Bool) {l : Nat}
    (hl : l ∈ ls) : g.srcElem (some c) asFlt l = .val (if asFlt then g.srcF fp32 1 c l else g.src c l) := by
  cases c with
  | v r => rw [Group.srcElem, hk r.toNat List.mem_cons_self l hl]; simp only [Group.srcF, Group.src, ite_self]
  | x o => rfl

theorem isNan_scaled (neg : Bool) (m k r : Nat) : (scaled neg m k r).isNan = false := by
  by_cases h : r ≤ k <;> simp only [scaled, h, if_true, if_false, Fl.isNan]

/-- A pattern of FP32 is a NaN where its magnitude is beyond that of infinity (R62). -/
theorem isNan_decode_fp32 (n : Nat) : (fp32.decode n).isNan = true ↔ 0x7F800000 < n % 2 ^ 31 := by
  have hsign : fp32.sign = 2 ^ 31 := rfl
  have hmax : fp32.maxPat = 0x7F7FFFFF := rfl
  have hinf : fp32.inf = some 0x7F800000 := rfl
  simp only [Fmt.decode, hsign, hmax, hinf, Option.some.injEq]
  split
  · split
    · simp only [Fl.isNan, Bool.false_eq_true, false_iff]; omega
    · simp only [Fl.isNan, true_iff]; omega
  · simp only [apply_ite Fl.isNan, isNan_scaled, ite_self, Bool.false_eq_true, false_iff]; omega

/-- The negative of a coefficient (R55, R63). -/
theorem negW_eq (v : Word) : negW v = if 0x7F800000 < v.toNat % 2 ^ 31 then 0x7FC00000 else v ^^^ 0x80000000 := by
  simp only [negW, isNan_decode_fp32]
  rfl

/-- Of a subnormal coefficient the flush leaves the sign (R55, R67). -/
theorem flushW_eq (z : Bool) (v : Word) :
    flushW z v = if z = true ∧ v.toNat % 2 ^ 31 < 2 ^ 23 then v &&& 0x80000000 else v := by
  have hsign : word (v.toNat / 2 ^ 31 * 2 ^ 31) = v &&& 0x80000000 := by
    refine BitVec.eq_of_toNat_eq ?_
    have hlt := v.isLt
    rw [BitVec.toNat_and, show (0x80000000 : Word).toNat = 2 ^ 31 from rfl, Nat.and_two_pow,
      Nat.testBit_eq_decide_div_mod_eq, word, BitVec.toNat_ofNat]
    rcases (by omega : v.toNat / 2 ^ 31 = 0 ∨ v.toNat / 2 ^ 31 = 1) with h | h <;> rw [h] <;> rfl
  simp only [flushW, flushOut, Bool.and_eq_true, decide_eq_true_eq]
  split
  · exact hsign
  · exact BitVec.ofNat_toNat 32 v

theorem optElem_of_known {g : Group} {r : Option Nat} {ls : List Nat} (hk : Known g r.toList ls) {l : Nat} (hl : l ∈ ls) :
    g.optElem r l = .val (wordOr g r l) := by
  cases r with
  | none => rfl
  | some r => exact hk r List.mem_cons_self l hl

/-- A register that an instruction reads awaits no result once it issues (R158). -/
theorem Issues.isPend_eq_false {s : State} {g : Group} {u : Use} (h : Issues s g u) {r l : Nat} (hr : r ∈ u.vr)
    (hl : l < 32) : (g.elem r l).isPend = false := by
  obtain ⟨-, -, -, -, -, -, -, -, hwait, -⟩ := h
  exact hwait r (List.mem_append_left _ hr) l (List.mem_range.mpr hl)

theorem Known.mono {g : Group} {rs qs ls : List Nat} (h : Known g rs ls) (hsub : qs ⊆ rs) : Known g qs ls :=
  fun r hr => h r (hsub hr)

section
variable {s : State} {g : Group} {rule : PfxRule} {a b : VReg} {c : Src} {t : Group → Xform} {addend : Option Nat}
  {p q : Nat → Word} {k : Nat} {flt : Bool} {fresh : Nat → Bool} (asFlt : Bool)
  (hi : Issues s g { rule := rule, v := a.toNat :: (b.toNat :: c.vregs ++ addend.toList),
                     vr := b.toNat :: c.vregs ++ addend.toList, sr := c.sregs })
  (hf : g.formRegs < 16) (hk : Known g (c.vregs ++ addend.toList) (lanesOf (execMask s g)))
  (htakes : (t g).takes flt = true)
include hi hf hk htakes

/-- A form in vB with a known second source and addend. -/
theorem laneXform_vB_form (hmov : t g ≠ .mov)
    (hform : ∀ l ∈ lanesOf (execMask s g), g.elem b.toNat l = .form k (p l) (q l) flt (fresh l)) :
    Makes s g a (laneXform s rule a t (some b.toNat) (some c) asFlt addend) fun l =>
      let n := (t g).apply true (p l) (q l) (if asFlt then g.srcF fp32 1 c l else g.src c l) (wordOr g addend l)
      .form k n.1 n.2 flt false :=
  laneXform_first (by simpa [xformReads] using hi) hf
    (fun _ => optElem_of_known (hk.mono (List.subset_append_right _ _))) htakes hmov hform
    fun _ => srcElem_of_known (hk.mono (List.subset_append_left _ _)) asFlt

/-- A poisoned vB with a known second source and addend. -/
theorem laneXform_vB_pois (hpois : ∀ l ∈ lanesOf (execMask s g), g.elem b.toNat l = .pois (p l) k flt) :
    Makes s g a (laneXform s rule a t (some b.toNat) (some c) asFlt addend) fun l =>
      .pois ((t g).value (p l) (if asFlt then g.srcF fp32 1 c l else g.src c l) (wordOr g addend l)) k flt :=
  laneXform_poisoned (by simpa [xformReads] using hi) hf
    (fun _ => optElem_of_known (hk.mono (List.subset_append_right _ _))) htakes hpois
    fun _ => srcElem_of_known (hk.mono (List.subset_append_left _ _)) asFlt

end

/-- A form in vC with a known vB and addend. -/
theorem laneXform_vC_form {s : State} {g : Group} {rule : PfxRule} {a b d : VReg} {t : Group → Xform} {addend : Option Nat}
    {p q : Nat → Word} {k : Nat} {flt : Bool} {fresh : Nat → Bool} (asFlt : Bool)
    (hi : Issues s g { rule := rule, v := a.toNat :: b.toNat :: d.toNat :: addend.toList,
                       vr := b.toNat :: d.toNat :: addend.toList, sr := [] })
    (hf : g.formRegs < 16) (hk : Known g (b.toNat :: addend.toList) (lanesOf (execMask s g)))
    (htakes : (t g).takes flt = true) (hmov : t g ≠ .mov) (hshl : t g ≠ .shl)
    (hform : ∀ l ∈ lanesOf (execMask s g), g.elem d.toNat l = .form k (p l) (q l) flt (fresh l)) :
    Makes s g a (laneXform s rule a t (some b.toNat) (some (.v d)) asFlt addend) fun l =>
      let n := (t g).apply false (p l) (q l) (g.vword b.toNat l) (wordOr g addend l)
      .form k n.1 n.2 flt false :=
  laneXform_second hi hf (fun _ => optElem_of_known (hk.mono (List.subset_cons_self _ _))) htakes hmov hshl
    (hk b.toNat List.mem_cons_self) hform

/-- A move takes any element that is not awaited as it is (R54). -/
theorem mov_makes {s : State} {g : Group} {a d : VReg}
    (hi : Issues s g { rule := .plain, v := [a.toNat, d.toNat], vr := [d.toNat] })
    (hf : g.formRegs < 16) : Makes s g a (exec (.movB32V a d) s) (g.elem d.toNat) := by
  refine Makes.of_exec (exec_movB32V a d s) (laneXform_makes (t := fun _ => .mov) (x := some (.v d)) hi hf fun l hl => ?_)
  have hpend : (g.elem d.toNat l).isPend = false := hi.isPend_eq_false List.mem_cons_self ((mem_lanesOf _ _).mp hl).1
  simp only [xformAt, Group.optElem, Group.srcElem]
  cases hd : g.elem d.toNat l with
  | val w => rfl
  | form k p q flt fresh => simp [Xform.result, Xform.takes, Xform.apply]
  | pois w k flt => rfl
  | pend op old => rw [hd] at hpend; cases hpend

/-- `fneg` negates both coefficients of a form (R55). -/
theorem fneg_makes {s : State} {g : Group} {a b : VReg} {k : Nat} {p q : Nat → Word} {fresh : Nat → Bool}
    (hi : Issues s g { rule := .plain, v := [a.toNat, b.toNat], vr := [b.toNat] })
    (hf : g.formRegs < 16) (hform : ∀ l ∈ lanesOf (execMask s g), g.elem b.toNat l = .form k (p l) (q l) true (fresh l)) :
    Makes s g a (exec (.fnegF32 a b) s) fun l => .form k (negW (p l)) (negW (q l)) true false :=
  Makes.of_exec (exec_fnegF32 a b s)
    (laneXform_first (t := fun _ => .fneg) (x := none) (addend := none) (v := 0) (w := 0) hi hf (fun _ _ => rfl) rfl nofun
      hform fun _ _ => rfl)

end Sys2Proof.Machine

namespace Sys2Proof.Machine

/-! O14: the trap of a poisoned element at a blocking use (R60, R370, R372). -/

section
variable (a b : VReg) (c : Src) (s : State)

theorem exec_formOf_xor : exec (formOf .xorV .xorX a b c) s = laneOp2 s .plain a b c (· ^^^ ·) :=
  exec_formOf (op := (laneOp2 s .plain a b · (· ^^^ ·))) (exec_xorV a b · s) (exec_xorX a b · s) c
theorem exec_formOf_minI32 : exec (formOf .minI32V .minI32X a b c) s = laneOp2 s .plain a b c minI :=
  exec_formOf (op := (laneOp2 s .plain a b · minI)) (exec_minI32V a b · s) (exec_minI32X a b · s) c
theorem exec_formOf_shr : exec (formOf .shrV .shrX a b c) s = laneOp2 s .plain a b c shrW :=
  exec_formOf (op := (laneOp2 s .plain a b · shrW)) (exec_shrV a b · s) (exec_shrX a b · s) c

end

/-- A local trap with a handler, while the halt line is down, leaves the group trapped, in a single step too. -/
theorem group_takeTrap_of_entry {s : State} {gid : Nat} {g : Group} {h : Nat} (hg : s.group gid = some g)
    (he : g.id.trapEntry = some h) (hh : haltedCtx s g.id.ctx = false) (lanes : Word) (code link : Nat)
    (info : Nat → Nat) (d : Detail) :
    (takeTrap s gid lanes code link info d).group gid = some (g.trapped lanes code link h info) := by
  simp only [takeTrap, hg, he, hh, Bool.false_and, Bool.false_eq_true, if_false]
  exact group_putGroup_self _ _ _

/-- Where each lane of a list gives a register its own element and no other, the element of a lane is what it gave. -/
theorem elem_foldl_of_own {f : Group → Nat → Group} {r j : Nat} {e : Elem} {ls : List Nat} {g : Group}
    (hf : ∀ x, ∀ l ∈ ls, (f x l).elem r j = if l = j then e else x.elem r j) :
    (ls.foldl f g).elem r j = if j ∈ ls then e else g.elem r j := by
  induction ls generalizing g with
  | nil => rfl
  | cons i ls ih =>
    rw [List.foldl_cons, ih fun x l hl => hf x l (List.mem_cons_of_mem _ hl), hf g i List.mem_cons_self]
    by_cases hj : j ∈ ls <;> simp [hj, eq_comm]

theorem lanes_foldl_of_kept {f : Group → Nat → Group} (hf : ∀ x l, (f x l).lanes = x.lanes) (ls : List Nat) (g : Group) :
    (ls.foldl f g).lanes = g.lanes := by
  induction ls generalizing g with
  | nil => rfl
  | cons l ls ih => rw [List.foldl_cons, ih, hf]

section
variable (g : Group) (lanes : Word) (code link h : Nat) (info : Nat → Nat)

/-- A trapped lane runs on at the handler (R372). -/
theorem lane_trapped {j : Nat} (hj : bit lanes j = true) (hlen : j < g.lanes.length) :
    (g.trapped lanes code link h info).lane j = { g.lane j with pcv := word h, st := .running, hop := .along } := by
  refine (lane_setLanes _ _ _ j).trans ?_
  rw [if_pos ⟨hj, by rwa [lanes_foldl_of_kept]; exact fun _ _ => rfl⟩, Group.lane, lanes_foldl_of_kept]
  · rfl
  · exact fun _ _ => rfl

/-- The last v register of a trapped lane holds the link (R372). -/
theorem elem_trapped_link {j : Nat} (hj : bit lanes j = true) (hn : 2 ≤ g.id.nv) :
    (g.trapped lanes code link h info).elem (g.id.nv - 1) j = .val (word link) := by
  refine (elem_foldl_of_own (e := .val (word link)) fun x l hl => ?_).trans (if_pos ((mem_lanesOf_iff _ _).mpr hj))
  have hl : l < 32 := ((mem_lanesOf _ _).mp hl).1
  rw [elem_setElem_ne _ _ fun hk => by have := (vkey_inj (bit_lt hj) hl hk).1; omega]
  split
  · next e => rw [e, elem_setElem_self]
  · next e => exact elem_setElem_ne _ _ fun hk => e (vkey_inj (bit_lt hj) hl hk).2.symm

/-- The register before it holds the information of the lane (R372). -/
theorem elem_trapped_info {j : Nat} (hj : bit lanes j = true) :
    (g.trapped lanes code link h info).elem (g.id.nv - 2) j = .val (word (info j + code)) := by
  refine (elem_foldl_of_own (e := .val (word (info j + code))) fun x l hl => ?_).trans
    (if_pos ((mem_lanesOf_iff _ _).mpr hj))
  have hl : l < 32 := ((mem_lanesOf _ _).mp hl).1
  split
  · next e => rw [e, elem_setElem_self]
  · next e =>
    have hkey (r : Nat) : vkey (g.id.nv - 2) j ≠ vkey r l := fun hk => e (vkey_inj (bit_lt hj) hl hk).2.symm
    rw [elem_setElem_ne _ _ (hkey _), elem_setElem_ne _ _ (hkey _)]

end

theorem formsIn_eq_nil {g : Group} {rs ls : List Nat} (h : ∀ r ∈ rs, ∀ j ∈ ls, (g.elem r j).isForm = false) :
    formsIn g rs ls = [] := by
  rw [formsIn, List.flatMap_eq_nil_iff]
  intro r hr
  rw [List.filterMap_eq_nil_iff]
  intro l hl
  have := h r hr l hl
  cases he : g.elem r l with
  | form => rw [he] at this; cases this
  | _ => rfl

theorem exists_firstPoison {g : Group} {rs ls : List Nat} {r l k : Nat} (hr : r ∈ rs) (hl : l ∈ ls)
    (hp : (g.elem r l).poison = some k) : ∃ y, firstPoison g rs ls = some y := by
  have hmem : k ∈ ls.flatMap fun l => rs.filterMap fun r => (g.elem r l).poison :=
    List.mem_flatMap.mpr ⟨l, hl, List.mem_filterMap.mpr ⟨r, hr, hp⟩⟩
  exact ⟨_, List.head?_eq_some_head (List.ne_nil_of_mem hmem)⟩

/-- The DETAIL and SUBJ bits that a lane of a SYM_POISON trap is told (R372, log 98). -/
def Group.poisonInfo (g : Group) (rs : List Nat) (y l : Nat) : Nat :=
  match rs.findSome? fun r => (g.elem r l).poison with
  | some own => own * 2 ^ 16 + 2 ^ 8
  | none => y * 2 ^ 16

/-- A lane whose first source is poisoned is told its own symbol. -/
theorem poisonInfo_of_first {g : Group} {r l k : Nat} (hp : (g.elem r l).poison = some k) (rs : List Nat) (y : Nat) :
    g.poisonInfo (r :: rs) y l = k * 2 ^ 16 + 2 ^ 8 := by
  simp only [Group.poisonInfo, List.findSome?_cons, hp]

/-- SYM_POISON with a handler takes the place of the instruction, its link the instruction itself (R60, R372). -/
theorem poisonTrap_of_entry {s : State} {g : Group} {h : Nat} (hg : s.group s.iss.g = some g)
    (he : g.id.trapEntry = some h) (hh : haltedCtx s g.id.ctx = false) (rs : List Nat) (y : Nat) :
    ∃ t, poisonTrap s g rs y = .next t ∧ t.iss.done = true
      ∧ t.group s.iss.g = some (g.trapped s.iss.lanes cSymPoison s.iss.a h (g.poisonInfo rs y)) :=
  ⟨_, rfl, rfl, group_takeTrap_of_entry hg he hh _ _ _ _ _⟩

/-- A lane instruction that blocks, with no form and a poisoned element among its sources, takes the trap (R60). -/
theorem laneOp2_of_poisoned {s : State} {g : Group} {rule : PfxRule} {a b : VReg} {c : Src} {r l k : Nat}
    (hi : Issues s g { rule := rule, v := a.toNat :: b.toNat :: c.vregs, vr := b.toNat :: c.vregs, sr := c.sregs })
    (hforms : ∀ r ∈ b.toNat :: c.vregs, ∀ j ∈ lanesOf (execMask s g), (g.elem r j).isForm = false)
    (hr : r ∈ b.toNat :: c.vregs) (hl : l ∈ lanesOf (execMask s g)) (hp : (g.elem r l).poison = some k)
    (f : Word → Word → Word) : ∃ y, laneOp2 s rule a b c f = poisonTrap s g (b.toNat :: c.vregs) y := by
  obtain ⟨y, hy⟩ := exists_firstPoison hr hl hp
  refine ⟨y, (begin_of_issues hi _).trans ?_⟩
  simp only [blocking, formsIn_eq_nil hforms, hy]

end Sys2Proof.Machine

namespace Sys2Proof.Machine

/-! O14: symbolic loads (R52, R59, R60, R228). -/

/-- A type that has a form is a 32-bit one (R52). -/
theorem AccTy.bytes_of_form {t : AccTy} {flt : Bool} (h : AccTy.form t = some flt) : AccTy.bytes t = 4 := by
  cases t <;> simp [AccTy.form, AccTy.bytes] at h ⊢

theorem formKind_sym {g : Group} {t : AccTy} (hm : g.mode ≠ 0) : formKind g true t = AccTy.form t := by
  simp [formKind, hm]

/-- A symbolic load that makes forms is charged to no flag (R58). -/
theorem loadFlag_of_form {s : State} {g : Group} {t : AccTy} {flt : Bool} (hm : g.mode ≠ 0) (ht : AccTy.form t = some flt) :
    loadFlag s true t g = 15 := by
  rw [loadFlag, formKind_sym hm, ht]
  rfl

/-- The lanes that pass their checks are among those checked, in order. -/
theorem checkLanes_lanes_sublist {α : Type} (chk : State → Nat → State × Except Fail α) (addr : Nat → Nat) (s : State)
    (ls : List Nat) : ((checkLanes chk addr s ls).2.2.map (·.1)).Sublist ls := by
  induction ls generalizing s with
  | nil => exact List.Sublist.slnil
  | cons l ls ih =>
    rw [checkLanes]
    split
    · exact (ih _).cons _
    · exact (ih _).cons_cons _

theorem nodup_lanesOf (m : Word) : (lanesOf m).Nodup := List.nodup_range.filter _

/-- The state with other times of its agents and other stamps of places (R115). -/
def State.restamped (s : State) (lts wts : Cells Nat) (stamp : Nat) : State :=
  { s with lts := lts, wts := wts, stamp := stamp }

/-- Reads of scratch move the core's time and the stamps alone, and find the bytes as they stand. -/
theorem makePoints_scrRead (s : State) (core : Nat) (ps : List Point) : ∃ lts wts stamp,
    makePoints (fun s p => scrRead s core p.key p.n) s ps
      = (s.restamped lts wts stamp, ps.map fun p => { p with got := rdN s.scr p.key p.n }) := by
  induction ps generalizing s with
  | nil => exact ⟨s.lts, s.wts, s.stamp, rfl⟩
  | cons p ps ih =>
    obtain ⟨lts, wts, stamp, h⟩ := ih (scrRead s core p.key p.n).1
    refine ⟨lts, wts, stamp, ?_⟩
    rw [makePoints, h]
    rfl

/-- In a list whose keys are distinct, one entry has each key. -/
theorem filter_key_eq {α : Type} {ps : List (Nat × α)} {p : Nat × α} (hn : (ps.map (·.1)).Nodup) (hp : p ∈ ps) :
    ps.filter (fun q => q.1 == p.1) = [p] := by
  induction ps with
  | nil => cases hp
  | cons q ps ih =>
    rw [List.map_cons, List.nodup_cons] at hn
    obtain ⟨hq, hn⟩ := hn
    rcases List.mem_cons.mp hp with rfl | hp
    · rw [List.filter_cons_of_pos (by simp), List.filter_eq_nil_iff.mpr]
      intro x hx hk
      exact hq (beq_iff_eq.mp hk ▸ List.mem_map_of_mem hx)
    · rw [List.filter_cons_of_neg, ih hn hp]
      intro hk
      exact hq (beq_iff_eq.mp hk ▸ List.mem_map_of_mem hp)

/-- The point of a word access of scratch. -/
def wordPoint (p : Nat × Nat) : Point := { lane := p.1, key := p.2, pte := 0, n := 4, off := 0, got := 0 }

theorem scratchPoints_four (ps : List (Nat × Nat)) : scratchPoints 4 ps = ps.map wordPoint :=
  List.flatMap_pure_eq_map wordPoint ps

/-- Word accesses of scratch find one value for each lane. -/
theorem laneValues_words {ps : List (Nat × Nat)} (hn : (ps.map (·.1)).Nodup) (m : List Host.Cell) :
    laneValues ((ps.map wordPoint).map fun p => { p with got := rdN m p.key p.n }) = ps.map fun p => (p.1, rdN m p.2 4) := by
  have hoff : ∀ q ∈ (ps.map wordPoint).map fun p => { p with got := rdN m p.key p.n }, (q.off == 0) = true := by
    simp only [List.mem_map]
    rintro _ ⟨_, ⟨p, -, rfl⟩, rfl⟩
    rfl
  rw [laneValues, List.filter_eq_self.mpr hoff, List.map_map, List.map_map]
  refine List.map_congr_left fun p hp => ?_
  simp only [List.filter_map, Function.comp_def]
  simp only [wordPoint, filter_key_eq hn hp, List.map_cons, List.map_nil, List.sum_singleton, Nat.mul_zero, Nat.pow_zero,
    Nat.mul_one]

/-- A symbolic load that finds room completes at once with its forms (R52). -/
theorem symbolicLoad_of_made {s u : State} {g h : Group} {a k : Nat} {flt : Bool} {ex bad : List Nat}
    {vals : List (Nat × Word)}
    (hmade : (zeroOff u g a 1).newForms a flt ex (csets 0 [] vals) (maskOf bad) true u.fresh = some (k, h)) :
    symbolicLoad s u g a flt ex vals bad = .next ((bump u).after h) := by
  simp only [symbolicLoad, hmade, complete_eq]

/-- A symbolic load whose failed lanes fail for good, and which no watchpoint sees, ends as its accesses leave it (R60). -/
theorem symbolicEnd_of_made {s u : State} {g h : Group} {a k : Nat} {flt : Bool} {ex : List Nat}
    {bad : List (Nat × Fail × Nat)} {perform : State → State × List Point} {ps : List Point}
    (hbad : ∀ f ∈ bad, f.2.1.cause ≠ 0) (hperform : perform s = (u, ps)) (hu : Unwatched u g)
    (hmade : (zeroOff u g a 1).newForms a flt ex (csets 0 [] ((laneValues ps).map fun p => (p.1, word p.2)))
      (maskOf (bad.map (·.1))) true u.fresh = some (k, h)) (xs : List Seen) :
    symbolicEnd s g flt a ex bad perform xs = .next ((bump u).after h) := by
  have hfails : (bad.any fun b => b.2.1.cause == 0) = false := by simpa using hbad
  simp only [symbolicEnd, hfails, Bool.false_eq_true, if_false, hperform, symbolicLoad_of_made hmade]
  exact watched_of_none (strike_of_unwatched (hu.congr (t := (bump u).after h) rfl) _ _ _)

theorem partwise_of_start {s : State} {g : Group} (h : g.midst = false) (gather : Bool) (f : State → Point → State × Nat)
    (k : State → List Point → Out) (start : (State → List Point → Out) → Out) :
    partwise s g gather f k start = start fun u ps => inParts u g gather f [] ps k := by
  simp [partwise, h]

theorem peerHold_of_answers {s : State} {g : Group} {ptes : List (BitVec 128)} (h : ∀ e ∈ ptes, peerSilent s e = false)
    (k : Out) : peerHold s g ptes k = k := by
  rw [peerHold, List.find?_eq_none.mpr (by simpa using h)]

section
variable {s s' : State} {g h : Group} {t : AccTy} {flt : Bool} {a : VReg} {k : Nat} {bad : List (Nat × Fail × Nat)}
  (hmode : g.mode ≠ 0) (ht : AccTy.form t = some flt) (hmidst : g.midst = false) (hbad : ∀ f ∈ bad, f.2.1.cause ≠ 0)
include hmode ht hmidst hbad

/-- A symbolic load of scratch completes at once (R52, R60). -/
theorem exec_ldsSym_of_made {m : MemOp} {ps : List (Nat × Nat)} (hu : Unwatched s g)
    (hr : AccessReady s g .plain (regsFrom a (AccTy.regs t)) [] (MemOp.vregs m) (MemOp.sregs false m) 15)
    (hc : checkScratchLanes s g (g.memAddr false (AccTy.bytes t) m) (AccTy.bytes t) (lanesOf (execMask s g)) = (s, bad, ps))
    (hmade : (zeroOff s g a.toNat 1).newForms a.toNat flt (lanesOf (execMask s g))
      (csets 0 [] (ps.map fun p => (p.1, word (rdN s.scr p.2 (AccTy.bytes t))))) (maskOf (bad.map (·.1))) true s.fresh
        = some (k, h)) :
    ∃ lts wts stamp, exec (.ldsSym t a m) s = .next ((bump (s.restamped lts wts stamp)).after h) := by
  have hn : (ps.map (·.1)).Nodup := by
    have hsub := checkLanes_lanes_sublist (fun s l => (s, checkScratch s g.id.tid (g.memAddr false (AccTy.bytes t) m l)
      (AccTy.bytes t) (AccTy.bytes t))) (g.memAddr false (AccTy.bytes t) m) s (lanesOf (execMask s g))
    rw [checkScratchLanes] at hc
    rw [hc] at hsub
    exact hsub.nodup (nodup_lanesOf _)
  obtain ⟨lts, wts, stamp, hread⟩ := makePoints_scrRead s g.core (ps.map wordPoint)
  have hbytes : AccTy.bytes t = 4 := AccTy.bytes_of_form ht
  rw [← scratchPoints_four, ← hbytes] at hread
  refine ⟨lts, wts, stamp, ?_⟩
  rw [exec_ldsSym, execLdsSym, scratchLoad, laneMem_of_ready hr (loadFlag_of_form hmode ht), partwise_of_start hmidst]
  simp only [hc, formKind_sym hmode, ht]
  refine symbolicEnd_of_made (u := s.restamped lts wts stamp) (k := k) hbad hread (hu.congr rfl) ?_ _
  rw [hbytes] at hmade ⊢
  rw [scratchPoints_four, laneValues_words hn, List.map_map]
  exact hmade

/-- A symbolic load of global memory completes at once (R52, R60). -/
theorem exec_ldgSym_of_made {m : MemOp} {ps : List (Nat × Loc)}
    (hr : AccessReady s g .plain (regsFrom a (AccTy.regs t)) [] (MemOp.vregs m) (MemOp.sregs true m) 15)
    (hc : checkLanes (fun u l => checkLoad s.tlb u g.core g.id.ctx (g.memAddr true (AccTy.bytes t) m l) t)
      (g.memAddr true (AccTy.bytes t) m) s (lanesOf (execMask s g)) = (s', bad, ps))
    (hpeers : ∀ p ∈ ps, peerSilent s' p.2.pte = false) {u : State} {qs : List Point}
    (hp : makePoints (fun u p => loadPoint u g.core t p) s' (loadPoints t ps) = (u, qs)) (hu : Unwatched u g)
    (hmade : (zeroOff u g a.toNat 1).newForms a.toNat flt (lanesOf (execMask s g))
      (csets 0 [] ((laneValues qs).map fun p => (p.1, word p.2))) (maskOf (bad.map (·.1))) true u.fresh = some (k, h)) :
    exec (.ldgSym t a m) s = .next ((bump u).after h) := by
  rw [exec_ldgSym, execLdgSym, globalLoad, laneMem_of_ready hr (loadFlag_of_form hmode ht), partwise_of_start hmidst]
  simp only [hc, formKind_sym hmode, ht, Option.isNone_some, Bool.and_false, Bool.false_eq_true, if_false]
  rw [peerHold_of_answers (List.forall_mem_map.mpr hpeers)]
  exact symbolicEnd_of_made hbad hp hu hmade _

end

/-- A symbolic load of a surface completes at once (R52). -/
theorem exec_ldtSym_of_made {s s' : State} {g h : Group} {t : AccTy} {flt : Bool} {a c : VReg} {b : SReg} {k : Nat}
    (hmode : g.mode ≠ 0) (ht : AccTy.form t = some flt) {ps : List (Nat × Samp)}
    (hr : AccessReady s g .plain (regsFrom a (AccTy.regs t)) [] [c.toNat] [b.toNat] 15)
    (hc : checkLanes (fun s l => (s, checkSample s g.id.ctx (g.sreg b.toNat).toNat (g.vword c.toNat l).toNat (AccTy.bytes t)))
      (fun l => sampleAddr (g.sreg b.toNat).toNat (g.vword c.toNat l).toNat) s (lanesOf (execMask s g)) = (s, [], ps))
    (hready : readyLanes s g.id.ctx ps = (s', false, [])) {u : State} {vs : List (Nat × Nat)}
    (hp : performLanes (fun u p => (visitSample u g.core g.id.ctx p, tileRead u g.id.ctx p (AccTy.bytes t))) s' ps = (u, vs))
    (hmade : (zeroOff u g a.toNat 1).newForms a.toNat flt (lanesOf (execMask s g))
      (csets 0 [] (vs.map fun p => (p.1, word p.2))) (maskOf []) true u.fresh = some (k, h)) :
    exec (.ldtSym t a b c) s = .next ((bump u).after h) := by
  rw [exec_ldtSym, execLdtSym, surfaceLoad, laneMem_of_ready hr (loadFlag_of_form hmode ht), surfaceLanes]
  simp only [hc, hready, formKind_sym hmode, ht, List.isEmpty_nil, Bool.not_true, Bool.false_and, Bool.false_eq_true,
    if_false, List.map_nil, List.append_nil, List.any_nil, Bool.not_false, List.filter_true, hp]
  exact symbolicLoad_of_made hmade

/-- The form that a symbolic load makes: X itself (R52, R55). -/
def madeForm (flt : Bool) (k : Nat) : Elem :=
  if flt then .form k 0x3F800000 0x80000000 true true else .form k 1 0 false false

section
variable {g h : Group} {a : Nat} {flt : Bool} {ex : List Nat} {xs : Cells Word} {bad : Word} {stamp k : Nat}

theorem newForms_eq_some (hmade : g.newForms a flt ex xs bad true stamp = some (k, h)) : g.freeSym = some k
    ∧ h = { g with
      v := csets (.val 0) g.v (ex.map fun l => (vkey a l, madeForm flt k))
      syms := tput g.syms k { always := g.mode == 2, flt := flt, xs := xs, pois := bad, delivered := false,
                              known := true, stamp := stamp, due := none } } := by
  unfold Group.newForms at hmade
  split at hmade
  · cases hmade
  · next j hj =>
    simp only [Option.ite_none_right_eq_some, Option.some.injEq, Prod.mk.injEq] at hmade
    obtain ⟨-, rfl, rfl⟩ := hmade
    exact ⟨hj, rfl⟩

/-- The lowest free symbol (R52). -/
theorem freeSym_eq_some (hk : g.freeSym = some k) :
    k < 8 ∧ tget g.syms k = none ∧ ∀ j, j < k → tget g.syms j ≠ none := by
  obtain ⟨hfree, hmem, hlow⟩ := List.find?_range_eq_some.mp hk
  exact ⟨List.mem_range.mp hmem, by simpa using hfree, fun j hj => by simpa [Option.isSome_iff_ne_none] using hlow j hj⟩

end

theorem zeroOff_syms (s : State) (g : Group) (a n : Nat) : (zeroOff s g a n).syms = g.syms := by
  unfold zeroOff
  split <;> rfl
theorem zeroOff_mode (s : State) (g : Group) (a n : Nat) : (zeroOff s g a n).mode = g.mode := by
  unfold zeroOff
  split <;> rfl

/-- What a symbolic load leaves: the lowest free symbol, its form in the executing lanes, and the symbol with X and poison
of each lane (R52, R60). -/
theorem newForms_facts {s : State} {g h : Group} {a k stamp : Nat} {flt : Bool} {ex ls : List Nat} {xs : List (Nat × Word)}
    (hmade : (zeroOff s g a 1).newForms a flt ex (csets 0 [] xs) (maskOf ls) true stamp = some (k, h)) :
    k < 8 ∧ tget g.syms k = none ∧ (∀ j, j < k → tget g.syms j ≠ none)
      ∧ (∀ l ∈ ex, h.elem a l = madeForm flt k)
      ∧ ∃ y, tget h.syms k = some y ∧ y.flt = flt ∧ y.delivered = false ∧ y.always = (g.mode == 2)
        ∧ (∀ l w, (l, w) ∈ xs → (∀ v, (l, v) ∈ xs → v = w) → cget 0 y.xs l = w)
        ∧ ∀ l, l < 32 → (bit y.pois l = true ↔ l ∈ ls) := by
  obtain ⟨hfree, hh⟩ := newForms_eq_some hmade
  obtain ⟨hk, hnone, hlow⟩ := freeSym_eq_some hfree
  rw [zeroOff_syms] at hnone
  simp only [zeroOff_syms] at hlow
  rw [hh]
  refine ⟨hk, hnone, hlow, fun l hl => ?_, _, tget_tput_self _ _ _, rfl, rfl, ?_, fun l w => cget_csets_of_mem 0 [], ?_⟩
  · refine cget_csets_of_mem _ _ (List.mem_map_of_mem hl) fun e he => ?_
    obtain ⟨j, -, he⟩ := List.mem_map.mp he
    exact (Prod.mk.inj he).2.symm
  · rw [zeroOff_mode]
  · intro l hl
    rw [bit_maskOf ls hl, decide_eq_true_eq]

/-- Settles O14: the transforms of forms and marked values by the tables, the trap of a blocking use of a poisoned element,
and symbolic loads of scratch, of global memory and of a surface. -/
theorem formsAndSymbolicLoads : Obligations.FormsAndSymbolicLoads := by
  unfold Obligations.FormsAndSymbolicLoads
  refine ⟨?transforms, ?poison, ?loads⟩
  case transforms =>
    intro s g a b d c k p q w n fresh ex form pois known ready gives marks x y e z m ftz val rnd flush minus fk hf
    have hflush : flushW ftz = flush := funext (flushW_eq ftz)
    have hminus : negW = minus := funext negW_eq
    rw [← hflush, ← hminus]
    refine ⟨?intB, ?intC, ?madB, ?madC, fun hr => mov_makes hr hf, ?fltB, ?fltC, ?fmaB,
      fun hr hform => fneg_makes hr hf hform, ?intPois, ?fltPois⟩
    case intB =>
      intro hr hform hk
      have make {t : Xform} (ht : t.takes false = true) (hm : t ≠ .mov) :=
        laneXform_vB_form (rule := .plain) (t := fun _ => t) (addend := none) false (by simpa using hr) hf
          (by simpa using hk) ht hm hform
      refine ⟨Makes.of_exec (exec_formOf_add a b c s) (make rfl nofun),
        Makes.of_exec (exec_formOf_sub a b c s) (make rfl nofun),
        Makes.of_exec (exec_formOf_mul a b c s) (make rfl nofun), ?_⟩
      rintro rfl
      refine Makes.of_exec (exec_shlX a b (.imm n) s) ((make (t := .shl) rfl nofun).congr fun l => ?_)
      simp only [Xform.apply, Group.src, opX_imm, Bool.false_eq_true, if_false]
    case intC =>
      intro hr hform hk
      have make {t : Xform} (ht : t.takes false = true) (hm : t ≠ .mov) (hs : t ≠ .shl) :=
        laneXform_vC_form (rule := .plain) (t := fun _ => t) (addend := none) false hr hf hk ht hm hs hform
      exact ⟨Makes.of_exec (exec_addV a b d s) (make rfl nofun nofun),
        Makes.of_exec (exec_subV a b d s) (make rfl nofun nofun),
        Makes.of_exec (exec_mulV a b d s) (make rfl nofun nofun)⟩
    case madB =>
      intro hr hform hk
      exact Makes.of_exec (exec_formOf_mad a b c s)
        (laneXform_vB_form (t := fun _ => .mad) (addend := some e) false hr hf hk rfl nofun hform)
    case madC =>
      intro hr hform hk
      exact Makes.of_exec (exec_madV a b d s)
        (laneXform_vC_form (t := fun _ => .mad) (addend := some e) false hr hf hk rfl nofun nofun hform)
    case fltB =>
      intro hr hform hk
      have make {t : Nat → Bool → Xform} (ht : (t m ftz).takes true = true) (hm : t m ftz ≠ .mov) :=
        laneXform_vB_form (rule := .round) (t := fun g => t (modeOf s g) (ftzOf s)) (addend := none) true
          (by simpa using hr) hf (by simpa using hk) ht hm hform
      exact ⟨Makes.of_exec (exec_formOf_fadd a b c s) (make rfl nofun),
        Makes.of_exec (exec_formOf_fsub a b c s) (make rfl nofun),
        Makes.of_exec (exec_formOf_fmul a b c s) (make rfl nofun)⟩
    case fltC =>
      intro hr hform hk
      have make {t : Nat → Bool → Xform} (ht : (t m ftz).takes true = true) (hm : t m ftz ≠ .mov)
          (hs : t m ftz ≠ .shl) :=
        laneXform_vC_form (rule := .round) (t := fun g => t (modeOf s g) (ftzOf s)) (addend := none) true hr hf hk ht hm
          hs hform
      exact ⟨Makes.of_exec (exec_faddF32V a b d s) (make rfl nofun nofun),
        Makes.of_exec (exec_fsubF32V a b d s) (make rfl nofun nofun),
        Makes.of_exec (exec_fmulF32V a b d s) (make rfl nofun nofun)⟩
    case fmaB =>
      intro hr hform hk
      exact Makes.of_exec (exec_formOf_ffma a b c s)
        (laneXform_vB_form (t := fun g => .ffma (modeOf s g) (ftzOf s)) (addend := some e) true hr hf hk rfl nofun hform)
    case intPois =>
      intro hr hpois hk
      have make {t : Xform} (ht : t.takes false = true) :=
        laneXform_vB_pois (rule := .plain) (t := fun _ => t) (addend := none) false (by simpa using hr) hf
          (by simpa using hk) ht hpois
      exact ⟨Makes.of_exec (exec_formOf_add a b c s) (make rfl), Makes.of_exec (exec_formOf_mul a b c s) (make rfl)⟩
    case fltPois =>
      intro hr hpois hk
      exact Makes.of_exec (exec_formOf_fadd a b c s)
        (laneXform_vB_pois (rule := .round) (t := fun g => .fadd (modeOf s g) (ftzOf s)) (addend := none) true
          (by simpa using hr) hf (by simpa using hk) rfl hpois)
  case poison =>
    intro s g a b c h k l w flt hi hforms hl hpois hentry hhalt i hmem
    have hown : (g.elem b.toNat l).poison = some k := by rw [hpois]; rfl
    obtain ⟨f, hexec⟩ : ∃ f, exec i s = laneOp2 s .plain a b c f := by
      simp only [List.mem_cons, List.not_mem_nil, or_false] at hmem
      rcases hmem with rfl | rfl | rfl
      · exact ⟨_, exec_formOf_xor a b c s⟩
      · exact ⟨_, exec_formOf_minI32 a b c s⟩
      · exact ⟨_, exec_formOf_shr a b c s⟩
    obtain ⟨y, htrap⟩ := laneOp2_of_poisoned hi hforms List.mem_cons_self hl hown f
    obtain ⟨t, ht, hdone, hgroup⟩ := poisonTrap_of_entry hi.1 hentry hhalt (b.toNat :: c.vregs) y
    refine ⟨t, _, (hexec.trans htrap).trans ht, hgroup, hdone, rfl, fun j hj hlen => ?_, fun j hj hn => ?_, fun _ => ?_⟩
    · rw [lane_trapped _ _ _ _ _ _ ((mem_lanesOf_iff _ _).mp hj) hlen]
      exact ⟨rfl, rfl⟩
    · exact elem_trapped_link _ _ _ _ _ _ ((mem_lanesOf_iff _ _).mp hj) hn
    · rw [elem_trapped_info _ _ _ _ _ _ (bit_lanes_of_execMask ((mem_lanesOf_iff _ _).mp hl)), poisonInfo_of_first hown]
      rfl
  case loads =>
    intro s s' g h t flt a c b m k bad ex n ready made hmode ht hmidst hbad
    refine ⟨?scratch, ?global, ?surface, ?made⟩
    case scratch =>
      intro ps hu hr hc hmade
      obtain ⟨lts, wts, stamp, hexec⟩ := exec_ldsSym_of_made hmode ht hmidst hbad hu hr hc hmade
      exact ⟨_, hexec, rfl, rfl, rfl⟩
    case global =>
      intro ps hr hc hpeers r hu hmade
      exact exec_ldgSym_of_made hmode ht hmidst hbad hr hc hpeers rfl hu hmade
    case surface =>
      rintro ps hr rfl hc hready r hmade
      exact exec_ldtSym_of_made hmode ht hr hc hready rfl hmade
    case made =>
      intro u xs hmade
      simpa only [madeForm, List.mem_map] using newForms_facts hmade

end Sys2Proof.Machine

namespace Sys2Proof.Machine

/-! O17: the rounding step of R66. -/

section
variable {mode : Mode} {neg : Bool} {num den : Nat}

theorem roundQuot_of_exact (h : num % den = 0) : roundQuot mode neg num den = num / den := by
  rw [roundQuot, if_pos h]

/-- Every mode chooses between the two neighbours of the quotient. -/
theorem roundQuot_eq_or (mode : Mode) (neg : Bool) (num den : Nat) :
    roundQuot mode neg num den = num / den ∨ roundQuot mode neg num den = num / den + 1 := by
  simp only [roundQuot]
  split_ifs <;> simp

theorem roundQuot_rz (h : num % den ≠ 0) : roundQuot 1 neg num den = num / den := by
  simp [roundQuot, h]

theorem roundQuot_ru (h : num % den ≠ 0) : roundQuot 2 neg num den = if neg then num / den else num / den + 1 := by
  simp [roundQuot, h]

theorem roundQuot_rd (h : num % den ≠ 0) : roundQuot 3 neg num den = if neg then num / den + 1 else num / den := by
  simp [roundQuot, h]

/-- Between two multiples, the two modes of the nearest compare the rest with half a unit. -/
theorem roundQuot_nearest (hm : mode = 0 ∨ mode = 4) (h : num % den ≠ 0) :
    roundQuot mode neg num den =
      if 2 * (num % den) < den then num / den
      else if den < 2 * (num % den) then num / den + 1
      else if mode = 4 then num / den + 1
      else if num / den % 2 = 0 then num / den else num / den + 1 := by
  rcases hm with rfl | rfl <;> simp [roundQuot, h]

theorem roundQuot_of_below_half (hm : mode = 0 ∨ mode = 4) (h : num % den ≠ 0) (hlt : 2 * (num % den) < den) :
    roundQuot mode neg num den = num / den := by
  rw [roundQuot_nearest hm h, if_pos hlt]

theorem roundQuot_of_above_half (hm : mode = 0 ∨ mode = 4) (h : num % den ≠ 0) (hlt : den < 2 * (num % den)) :
    roundQuot mode neg num den = num / den + 1 := by
  rw [roundQuot_nearest hm h, if_neg hlt.asymm, if_pos hlt]

theorem roundQuot_rna_of_tie (h : num % den ≠ 0) (htie : 2 * (num % den) = den) :
    roundQuot 4 neg num den = num / den + 1 := by
  rw [roundQuot_nearest (.inr rfl) h, if_neg htie.not_lt, if_neg htie.not_gt, if_pos rfl]

theorem roundQuot_rne_of_tie (h : num % den ≠ 0) (htie : 2 * (num % den) = den) :
    roundQuot 0 neg num den % 2 = 0 := by
  rw [roundQuot_nearest (.inl rfl) h, if_neg htie.not_lt, if_neg htie.not_gt, if_neg nofun]
  split_ifs with heven
  · exact heven
  · omega

end

/-! O17: conversions (R68, R70, R214, R215), one equation for each pair of kinds. -/

section
variable {dt st : NumTy} {sat ftz : Bool} {mode : Mode} {fd fs : Fmt} {w : Word}

theorem convert_int_int (hd : NumTy.fmt dt = none) (hs : NumTy.fmt st = none) :
    convert dt st sat mode ftz w = NumTy.writeInt dt
      (if sat then clampI (NumTy.lo dt) (NumTy.hi dt) (NumTy.readInt st w.toNat) else NumTy.readInt st w.toNat) := by
  simp only [convert, hd, hs]

theorem convert_int_float (hd : NumTy.fmt dt = some fd) (hs : NumTy.fmt st = none) :
    convert dt st sat mode ftz w = word (fd.write mode sat ftz (.fin false (NumTy.readInt st w.toNat) 1)) := by
  simp only [convert, hd, hs]

theorem convert_float_float (hd : NumTy.fmt dt = some fd) (hs : NumTy.fmt st = some fs) :
    convert dt st sat mode ftz w
      = word (fd.write mode sat ftz (fs.decode (fs.flushIn ftz (w.toNat % 2 ^ NumTy.width st)))) := by
  simp only [convert, hd, hs]

theorem convert_nan_int (hd : NumTy.fmt dt = none) (hs : NumTy.fmt st = some fs)
    (hv : fs.decode (fs.flushIn ftz (w.toNat % 2 ^ NumTy.width st)) = .nan) : convert dt st sat mode ftz w = 0 := by
  simp only [convert, hd, hs, hv]

theorem convert_inf_int {neg : Bool} (hd : NumTy.fmt dt = none) (hs : NumTy.fmt st = some fs)
    (hv : fs.decode (fs.flushIn ftz (w.toNat % 2 ^ NumTy.width st)) = .inf neg) :
    convert dt st sat mode ftz w = NumTy.writeInt dt (if neg then NumTy.lo dt else NumTy.hi dt) := by
  simp only [convert, hd, hs, hv]

theorem convert_fin_int {sg : Bool} {n : Int} {d : Nat} (hd : NumTy.fmt dt = none) (hs : NumTy.fmt st = some fs)
    (hv : fs.decode (fs.flushIn ftz (w.toNat % 2 ^ NumTy.width st)) = .fin sg n d) :
    convert dt st sat mode ftz w
      = NumTy.writeInt dt (clampI (NumTy.lo dt) (NumTy.hi dt) (roundInt mode n d)) := by
  simp only [convert, hd, hs, hv]

end

/-- A one-source lane instruction on known operands writes its function of the source in each lane. -/
theorem laneOp1_of_ready {s : State} {g : Group} {rule : PfxRule} {a b : VReg}
    (h : LaneReady s g rule a.toNat 1 [b.toNat] []) (f : Group → Word → Word) :
    laneOp1 s rule a b f = .next (s.wroteV g a 1 fun l _ => f g (g.vword b.toNat l)) :=
  laneOp_of_ready h

/-- `cvt` on a known operand writes the converted value of each lane. -/
theorem exec_cvt_of_ready {s : State} {g : Group} {a b : VReg} {dt st : NumTy} (sat : Bool)
    (h : LaneReady s g (if (NumTy.fmt dt).isNone ∧ (NumTy.fmt st).isNone then .plain else .round) a.toNat 1 [b.toNat] []) :
    exec (.cvt dt sat st b a) s
      = .next (s.wroteV g a 1 fun l _ => convert dt st sat (modeOf s g) (ftzOf s) (g.vword b.toNat l)) := by
  rw [exec_cvt, execCvt]
  exact laneOp1_of_ready (by simpa only [Bool.and_eq_true] using h) _

/-- Settles O17: the unit multiple that each mode rounds to, and `cvt` as the conversion of each lane's source, by the kinds
of its two types. -/
theorem roundingAndConversions : Obligations.RoundingAndConversions := by
  unfold Obligations.RoundingAndConversions
  refine ⟨?rounding, ?conversions⟩
  case rounding =>
    intro mode neg num den _ q
    refine ⟨fun hr => ?exact, ?between, fun hr => ⟨?rz, ?ru, ?rd, ?rneTie, ?rnaTie, ?below, ?above⟩⟩
    case exact =>
      rw [show q = num / den from roundQuot_of_exact hr]
      exact Nat.div_mul_cancel (Nat.dvd_of_mod_eq_zero hr)
    case between =>
      rcases roundQuot_eq_or mode neg num den with hq | hq <;> omega
    case rz => rintro rfl; exact roundQuot_rz hr
    case ru => rintro rfl; exact roundQuot_ru hr
    case rd => rintro rfl; exact roundQuot_rd hr
    case rneTie => rintro rfl; exact roundQuot_rne_of_tie hr
    case rnaTie => rintro rfl; exact roundQuot_rna_of_tie hr
    case below => exact fun hm => roundQuot_of_below_half hm hr
    case above => exact fun hm => roundQuot_of_above_half hm hr
  case conversions =>
    intro s g a b dt st sat h
    refine ⟨convert dt st sat (modeOf s g) (ftzOf s), exec_cvt_of_ready sat h, ?intInt, ?floatInt, ?intFloat, ?floatFloat⟩
    case intInt => exact fun hd hs w => convert_int_int hd hs
    case floatInt =>
      exact fun fs hs hd w => ⟨convert_nan_int hd hs, fun _ => convert_inf_int hd hs, fun _ _ _ => convert_fin_int hd hs⟩
    case intFloat => exact fun fd hs hd w => convert_int_float hd hs
    case floatFloat => exact fun fs fd hs hd w => convert_float_float hd hs

end Sys2Proof.Machine

namespace Sys2Proof.Machine

/-! O24, O54: bytes of a memory, read and written in parts. -/

theorem rdN_add (m : List Host.Cell) (a j k : Nat) :
    rdN m a (j + k) = rdN m a j + rdN m (a + j) k * 2 ^ (8 * j) := by
  induction j generalizing a with
  | zero => simp [rdN]
  | succ j ih => rw [Nat.succ_add, rdN, ih, rdN, Nat.add_assoc, Nat.add_comm 1 j, Nat.mul_succ, Nat.pow_add]; ring

theorem wrN_add (m : List Host.Cell) (a j k v : Nat) :
    wrN m a (j + k) v = wrN (wrN m a j v) (a + j) k (v / 2 ^ (8 * j)) := by
  induction j generalizing m a v with
  | zero => simp [wrN]
  | succ j ih =>
    rw [Nat.succ_add, wrN, ih, wrN, Nat.add_assoc, Nat.add_comm 1 j, Nat.div_div_eq_div_mul, Nat.mul_succ, Nat.pow_add,
      Nat.mul_comm (2 ^ (8 * j))]

/-- A write of `n` bytes takes the low `n` bytes of its value. -/
theorem wrN_mod (m : List Host.Cell) (a n v : Nat) : wrN m a n (v % 2 ^ (8 * n)) = wrN m a n v := by
  rw [Nat.pow_mul]
  induction n generalizing m a v with
  | zero => rfl
  | succ n ih =>
    have hlow : (BitVec.ofNat 8 (v % 256 ^ (n + 1)) : Byte) = BitVec.ofNat 8 v :=
      BitVec.eq_of_toNat_eq (Nat.mod_mod_of_dvd v (Dvd.intro_left (256 ^ n) rfl))
    have hrest : v % 256 ^ (n + 1) / 256 = v / 256 % 256 ^ n := by rw [pow_succ', Nat.mod_mul_right_div_self]
    rw [show (2 : Nat) ^ 8 = 256 from rfl] at ih ⊢
    rw [wrN, wrN, hlow, hrest, ih]

end Sys2Proof.Machine

namespace Sys2Proof.Machine

/-! O24, O54: the points of scratch accesses (R117). -/

/-- The point of an access that has one. -/
def onePoint (n : Nat) (p : Nat × Nat) : Point := { lane := p.1, key := p.2, pte := 0, n := n, off := 0, got := 0 }

/-- The points of one lane's scratch access. -/
def scratchLane (n : Nat) (p : Nat × Nat) : List Point := lanePoints n p.1 { key := p.2, pte := 0, level := 0, va := 0 }

theorem scratchLane_of_ne {n : Nat} (h : n ≠ 16) (p : Nat × Nat) : scratchLane n p = [onePoint n p] := if_neg h

theorem scratchLane_sixteen (p : Nat × Nat) :
    scratchLane 16 p = [onePoint 8 p, { onePoint 8 (p.1, p.2 + 8) with off := 8 }] := rfl

theorem scratchPoints_cons (n : Nat) (p : Nat × Nat) (ps : List (Nat × Nat)) :
    scratchPoints n (p :: ps) = scratchLane n p ++ scratchPoints n ps := rfl

theorem scratchPoints_of_ne {n : Nat} (h : n ≠ 16) (ps : List (Nat × Nat)) : scratchPoints n ps = ps.map (onePoint n) :=
  (congrArg (ps.flatMap ·) (funext (scratchLane_of_ne h))).trans (List.flatMap_pure_eq_map _ ps)

/-- The points of a lane's access are of that lane, and their bytes among the access's. -/
theorem mem_scratchLane {n : Nat} {p : Nat × Nat} {q : Point} (h : q ∈ scratchLane n p) :
    q.lane = p.1 ∧ p.2 ≤ q.key ∧ q.key + q.n ≤ p.2 + n := by
  by_cases hn : n = 16
  · subst hn
    rw [scratchLane_sixteen, List.mem_pair] at h
    rcases h with rfl | rfl <;> simp [onePoint]
  · rw [scratchLane_of_ne hn, List.mem_singleton] at h
    subst h
    simp [onePoint]

/-- Of the points of several lanes, those of one lane are its access's. -/
theorem filter_lane_scratchPoints (n l : Nat) (ps : List (Nat × Nat)) :
    (scratchPoints n ps).filter (·.lane == l) = scratchPoints n (ps.filter (·.1 == l)) := by
  induction ps with
  | nil => rfl
  | cons p ps ih =>
    rw [scratchPoints_cons, List.filter_append, ih, List.filter_cons]
    split
    · next h =>
      rw [scratchPoints_cons, List.filter_eq_self.mpr fun q hq => by rwa [(mem_scratchLane hq).1]]
    · next h =>
      rw [List.filter_eq_nil_iff.mpr fun q hq => by rwa [(mem_scratchLane hq).1], List.nil_append]

/-- The accesses are of their lanes, in order. -/
theorem pointLanes_scratchPoints (n : Nat) (ps : List (Nat × Nat)) : pointLanes (scratchPoints n ps) = ps.map (·.1) := by
  induction ps with
  | nil => rfl
  | cons p ps ih =>
    have hp : pointLanes (scratchLane n p) = [p.1] := by
      by_cases hn : n = 16
      · subst hn; rfl
      · rw [scratchLane_of_ne hn]; rfl
    rw [scratchPoints_cons, List.map_cons, ← ih, pointLanes, List.filter_append, List.map_append, ← pointLanes, hp]
    rfl

/-- A point that has found its bytes of a memory. -/
def Point.found (m : List Host.Cell) (p : Point) : Point := { p with got := rdN m p.key p.n }

/-- Two adjoining points together find the value of their bytes. -/
theorem sum_found_adjoining (m : List Host.Cell) (l a j k : Nat) :
    ([onePoint j (l, a), { onePoint k (l, a + j) with off := j }].map fun q => rdN m q.key q.n * 2 ^ (8 * q.off)).sum
      = rdN m a (j + k) := by
  simp [onePoint, rdN_add]

/-- The points of a lane's access together find the value of its bytes. -/
theorem sum_found_scratchLane (m : List Host.Cell) (n : Nat) (p : Nat × Nat) :
    ((scratchLane n p).map fun q => rdN m q.key q.n * 2 ^ (8 * q.off)).sum = rdN m p.2 n := by
  by_cases hn : n = 16
  · subst hn
    exact sum_found_adjoining m p.1 p.2 8 8
  · simp [scratchLane_of_ne hn, onePoint]

/-- What each lane's points found, lane by lane. -/
theorem laneValues_eq (qs : List Point) : laneValues qs
    = (pointLanes qs).map fun l => (l, ((qs.filter (·.lane == l)).map fun q => q.got * 2 ^ (8 * q.off)).sum) := by
  rw [laneValues, pointLanes, List.map_map]
  rfl

/-- Scratch accesses find one value for each lane. -/
theorem laneValues_found {n : Nat} {ps : List (Nat × Nat)} (hn : (ps.map (·.1)).Nodup) (m : List Host.Cell) :
    laneValues ((scratchPoints n ps).map (Point.found m)) = ps.map fun p => (p.1, rdN m p.2 n) := by
  have hlanes : pointLanes ((scratchPoints n ps).map (Point.found m)) = ps.map (·.1) := by
    rw [← pointLanes_scratchPoints n ps, pointLanes, pointLanes, List.filter_map, List.map_map]
    rfl
  rw [laneValues_eq, hlanes, List.map_map]
  refine List.map_congr_left fun p hp => Prod.ext rfl ?_
  have hp : (scratchPoints n ps).filter (·.lane == p.1) = scratchLane n p := by
    rw [filter_lane_scratchPoints, filter_key_eq hn hp, scratchPoints_cons]
    exact List.append_nil _
  rw [← sum_found_scratchLane m n p, ← hp]
  simp only [Function.comp_apply, List.filter_map, List.map_map]
  rfl

end Sys2Proof.Machine

namespace Sys2Proof.Machine

/-! O24, O54: the state that scratch accesses leave (R115, R117). -/

/-- All that a scratch access changes: bytes of scratch and what they were, and the times and stamps of the memory order. -/
def Scratched (s u : State) : Prop :=
  ∃ scr olds lts wts stamp, u = { s with scr := scr, olds := olds, lts := lts, wts := wts, stamp := stamp }

theorem Scratched.refl (s : State) : Scratched s s := ⟨s.scr, s.olds, s.lts, s.wts, s.stamp, rfl⟩

theorem Scratched.trans {s t u : State} (hst : Scratched s t) (htu : Scratched t u) : Scratched s u := by
  obtain ⟨_, _, _, _, _, rfl⟩ := hst
  obtain ⟨scr, olds, lts, wts, stamp, rfl⟩ := htu
  exact ⟨scr, olds, lts, wts, stamp, rfl⟩

theorem scratched_scrRead (s : State) (a key n : Nat) : Scratched s (scrRead s a key n).1 :=
  ⟨s.scr, s.olds, _, _, _, rfl⟩

theorem scratched_scrWrite (s : State) (a key n v : Nat) : Scratched s (scrWrite s a key n v) := ⟨_, _, _, _, _, rfl⟩

section
variable {s u : State} (h : Scratched s u)
include h

theorem Scratched.mem : u.mem = s.mem := by obtain ⟨_, _, _, _, _, rfl⟩ := h; rfl
theorem Scratched.groups : u.groups = s.groups := by obtain ⟨_, _, _, _, _, rfl⟩ := h; rfl
theorem Scratched.teams : u.teams = s.teams := by obtain ⟨_, _, _, _, _, rfl⟩ := h; rfl
theorem Scratched.regs : u.regs = s.regs := by obtain ⟨_, _, _, _, _, rfl⟩ := h; rfl
theorem Scratched.iss : u.iss = s.iss := by obtain ⟨_, _, _, _, _, rfl⟩ := h; rfl

end

theorem scratched_makePoints {f : State → Point → State × Nat} (hf : ∀ s p, Scratched s (f s p).1) (s : State)
    (ps : List Point) : Scratched s (makePoints f s ps).1 := by
  induction ps generalizing s with
  | nil => exact .refl s
  | cons p ps ih => exact (hf s p).trans (ih _)

/-! O24, O54: what loads of scratch find. -/

/-- A point of a scratch load, made. -/
def scratchGet (core : Nat) (s : State) (p : Point) : State × Nat := scrRead s core p.key p.n

theorem scratched_scratchGet (core : Nat) (s : State) (p : Point) : Scratched s (scratchGet core s p).1 :=
  scratched_scrRead _ _ _ _

theorem scr_makePoints_scratchGet (core : Nat) (s : State) (ps : List Point) :
    (makePoints (scratchGet core) s ps).1.scr = s.scr := by
  obtain ⟨_, _, _, h⟩ := makePoints_scrRead s core ps
  rw [show makePoints (scratchGet core) s ps = _ from h]
  rfl

theorem found_makePoints_scratchGet (core : Nat) (s : State) (ps : List Point) :
    (makePoints (scratchGet core) s ps).2 = ps.map (Point.found s.scr) := by
  obtain ⟨_, _, _, h⟩ := makePoints_scrRead s core ps
  rw [show makePoints (scratchGet core) s ps = _ from h]
  rfl

/-! O24, O54: what stores of scratch write. -/

/-- A point of a scratch store, made. -/
def scratchPut (g : Group) (t : AccTy) (a : Nat) (s : State) (p : Point) : State × Nat :=
  (scrWrite s g.core p.key p.n (g.pointValue t a p), 0)

theorem scratched_scratchPut (g : Group) (t : AccTy) (a : Nat) (s : State) (p : Point) :
    Scratched s (scratchPut g t a s p).1 := scratched_scrWrite _ _ _ _ _

/-- A store's point, as it writes its part of the value `v` of its lane. -/
def writePart (v : Nat → Nat) (m : List Host.Cell) (q : Point) : List Host.Cell :=
  wrN m q.key q.n (v q.lane / 2 ^ (8 * q.off) % 2 ^ (8 * q.n))

theorem scr_makePoints_scratchPut (g : Group) (t : AccTy) (a : Nat) (s : State) (ps : List Point) :
    (makePoints (scratchPut g t a) s ps).1.scr = ps.foldl (writePart (g.storeValue t a)) s.scr := by
  induction ps generalizing s with
  | nil => rfl
  | cons p ps ih =>
    rw [makePoints, ih, List.foldl_cons]
    rfl

/-- Two adjoining points together write the value of their bytes. -/
theorem writePart_adjoining (v : Nat → Nat) (m : List Host.Cell) (l a j k : Nat) :
    [onePoint j (l, a), { onePoint k (l, a + j) with off := j }].foldl (writePart v) m = wrN m a (j + k) (v l) := by
  simp [writePart, onePoint, wrN_mod, wrN_add]

/-- The points of a lane's access together write its value. -/
theorem foldl_scratchLane (v : Nat → Nat) (m : List Host.Cell) (n : Nat) (p : Nat × Nat) :
    (scratchLane n p).foldl (writePart v) m = wrN m p.2 n (v p.1) := by
  by_cases hn : n = 16
  · subst hn
    exact writePart_adjoining v m p.1 p.2 8 8
  · simp [scratchLane_of_ne hn, writePart, onePoint, wrN_mod]

/-- Stores of scratch write each lane's value, in lane order. -/
theorem foldl_scratchPoints (v : Nat → Nat) (m : List Host.Cell) (n : Nat) (ps : List (Nat × Nat)) :
    (scratchPoints n ps).foldl (writePart v) m = ps.foldl (fun m p => wrN m p.2 n (v p.1)) m := by
  induction ps generalizing m with
  | nil => rfl
  | cons p ps ih => rw [scratchPoints_cons, List.foldl_append, foldl_scratchLane, ih, List.foldl_cons]

/-- A byte outside the bytes of all points stays. -/
theorem rdByte_foldl_writePart (v : Nat → Nat) {ps : List Point} {z : Nat} (h : ∀ q ∈ ps, z < q.key ∨ q.key + q.n ≤ z)
    (m : List Host.Cell) : rdByte (ps.foldl (writePart v) m) z = rdByte m z := by
  induction ps generalizing m with
  | nil => rfl
  | cons q ps ih =>
    rw [List.foldl_cons, ih fun r hr => h r (List.mem_cons_of_mem _ hr), writePart,
      rdByte_wrN_ne _ _ _ _ _ (h q List.mem_cons_self)]

/-! O24: atomics of scratch (R127, R233). -/

/-- A lane's atomic on the bytes that its predecessor left. -/
def Group.atomWrite (g : Group) (o : AtomOp) (wide : Bool) (a : Nat) (key : Nat → Nat) (m : List Host.Cell) (l : Nat) :
    List Host.Cell :=
  wrN m (key l) (wideBytes wide) (g.atomNew o wide a l (rdN m (key l) (wideBytes wide)))

/-- A point of a scratch atomic, made. -/
def scratchAtom (g : Group) (o : AtomOp) (wide : Bool) (a : Nat) : State → Point → State × Nat :=
  atomPoint g o wide a (fun s p => scrRead s g.core p.key (wideBytes wide))
    (fun s p v => scrWrite s g.core p.key (wideBytes wide) v)

theorem scratched_scratchAtom (g : Group) (o : AtomOp) (wide : Bool) (a : Nat) (s : State) (p : Point) :
    Scratched s (scratchAtom g o wide a s p).1 :=
  (scratched_scrRead s g.core p.key (wideBytes wide)).trans (scratched_scrWrite _ _ _ _ _)

section
variable (g : Group) (o : AtomOp) (wide : Bool) (a : Nat) (key : Nat → Nat)

/-- The bytes that a lane's atomic finds: those that the lanes before it have left. -/
def Group.atomBytes (m : List Host.Cell) (ls : List Nat) (i : Nat) : List Host.Cell :=
  (ls.take i).foldl (g.atomWrite o wide a key) m

/-- The old value that a lane's atomic finds. -/
def Group.atomOld (m : List Host.Cell) (ls : List Nat) (l : Nat) : Nat :=
  rdN (g.atomBytes o wide a key m ls (ls.idxOf l)) (key l) (wideBytes wide)

theorem atomBytes_succ (m : List Host.Cell) {ls : List Nat} {i : Nat} (h : i < ls.length) :
    g.atomBytes o wide a key m ls (i + 1) = g.atomWrite o wide a key (g.atomBytes o wide a key m ls i) ls[i] := by
  rw [Group.atomBytes, ← List.take_append_getElem h, List.foldl_append]
  rfl

/-- The points of a scratch atomic, one for each lane. -/
def atomPoints (ls : List Nat) : List Point := ls.map fun l => onePoint (wideBytes wide) (l, key l)

theorem scr_scratchAtom (s : State) (l : Nat) :
    (scratchAtom g o wide a s (onePoint (wideBytes wide) (l, key l))).1.scr = g.atomWrite o wide a key s.scr l := by
  simp only [scratchAtom, atomPoint, scrRead, scrWrite, visit, Group.atomWrite, onePoint]

theorem scratchAtom_snd (s : State) (p : Point) :
    (scratchAtom g o wide a s p).2 = rdN s.scr p.key (wideBytes wide) := rfl

/-- Atomics of scratch are made in lane order. -/
theorem scr_makePoints_scratchAtom (s : State) (ls : List Nat) :
    (makePoints (scratchAtom g o wide a) s (atomPoints wide key ls)).1.scr = ls.foldl (g.atomWrite o wide a key) s.scr := by
  induction ls generalizing s with
  | nil => rfl
  | cons l ls ih => rw [atomPoints, List.map_cons, makePoints, ← atomPoints, ih, scr_scratchAtom, List.foldl_cons]

/-- Each lane of them finds the value that the lanes before it have left. -/
theorem found_makePoints_scratchAtom (s : State) {ls : List Nat} (hn : ls.Nodup) :
    (makePoints (scratchAtom g o wide a) s (atomPoints wide key ls)).2.map (fun p => (p.lane, p.got))
      = ls.map fun l => (l, g.atomOld o wide a key s.scr ls l) := by
  induction ls generalizing s with
  | nil => rfl
  | cons l ls ih =>
    obtain ⟨hl, hn⟩ := List.nodup_cons.mp hn
    have hfirst : g.atomOld o wide a key s.scr (l :: ls) l = rdN s.scr (key l) (wideBytes wide) := by
      rw [Group.atomOld, List.idxOf_cons_self]
      rfl
    have hrest : ∀ x ∈ ls, g.atomOld o wide a key s.scr (l :: ls) x
        = g.atomOld o wide a key (g.atomWrite o wide a key s.scr l) ls x := by
      intro x hx
      have hne : l ≠ x := by rintro rfl; exact hl hx
      rw [Group.atomOld, List.idxOf_cons_ne _ hne]
      rfl
    rw [atomPoints, List.map_cons, makePoints, ← atomPoints, List.map_cons, ih _ hn, scr_scratchAtom, scratchAtom_snd,
      List.map_cons, hfirst]
    refine congrArg _ (List.map_congr_left fun x hx => ?_)
    rw [hrest x hx]

end

end Sys2Proof.Machine

namespace Sys2Proof.Machine

/-! O24, O54: scratch accesses whose checks pass make their points, and end with an operation outstanding. -/

/-- Loss of idempotent status changes the teams alone. -/
theorem loseIfRemote_cases (s : State) (g : Group) (ks : List Nat) : ∃ ts, loseIfRemote s g ks = { s with teams := ts } := by
  unfold loseIfRemote loseIdem
  split
  · split
    · exact ⟨_, rfl⟩
    · exact ⟨s.teams, rfl⟩
  · exact ⟨s.teams, rfl⟩

theorem zeroOff_congr {s u : State} (h : u.iss = s.iss) (g : Group) (a n : Nat) : zeroOff u g a n = zeroOff s g a n := by
  have hzero : zeroing u = zeroing s := by rw [zeroing, zeroing, h]
  have hmask : execMask u g = execMask s g := by rw [execMask, execMask, h]
  rw [zeroOff, zeroOff, hzero, hmask, h]

/-- The scratch accesses of `n` bytes pass their checks, at these keys (R97). -/
def InScratch (s : State) (g : Group) (m : MemOp) (n : Nat) (key : Nat → Nat) : Prop :=
  ∀ l ∈ lanesOf (execMask s g), checkScratch s g.id.tid (g.memAddr false n m l) n n = .ok (key l)

/-- The executing lanes of a scratch access, with their keys. -/
def keyed (s : State) (g : Group) (key : Nat → Nat) : List (Nat × Nat) := (lanesOf (execMask s g)).map fun l => (l, key l)

theorem nodup_keyed (s : State) (g : Group) (key : Nat → Nat) : ((keyed s g key).map (·.1)).Nodup := by
  have hlanes : (keyed s g key).map (·.1) = lanesOf (execMask s g) := by simp [keyed, Function.comp_def]
  rw [hlanes]
  exact nodup_lanesOf _

/-- What watchpoints see of scratch accesses. -/
def scratchSeen (s : State) (g : Group) (n : Nat) (m : MemOp) (ps : List Point) : List Seen :=
  (pointLanes ps).map fun l => seenScratch s g l (g.memAddr false n m l) n

/-- An instruction that makes its points one by one makes all of them and ends, or some of them, and is left in their midst
(R117). -/
theorem inParts_cases (s : State) (g : Group) (f : State → Point → State × Nat) (ps : List Point)
    (k : State → List Point → Out) :
    inParts s g false f [] ps k = k (makePoints f s ps).1 (makePoints f s ps).2
      ∨ ∃ c vals, inParts s g false f [] ps k = later (makePoints f s (ps.take c)).1 g 20 vals := by
  have htake (c : Nat) : ((requestsOf false ps).take c).flatten = ps.take c := by
    rw [requestsOf, if_neg Bool.false_ne_true, ← List.map_take, ← List.flatMap_def, List.flatMap_singleton']
  unfold inParts
  dsimp only
  rw [htake]
  split
  · exact .inl rfl
  · exact .inr ⟨_, _, rfl⟩

section
variable {s u : State} {g : Group} {t : AccTy} {m : MemOp} {key : Nat → Nat}

/-- The results of a scratch load: the words of each lane's bytes. -/
def scratchResults (s : State) (g : Group) (t : AccTy) (a : Nat) (key : Nat → Nat) : List (Nat × Word) :=
  loadWrites a (AccTy.regs t) (lanesOf (execMask s g)) fun l i => nthW (AccTy.words t (rdN s.scr (key l) (AccTy.bytes t))) i

/-- A load that no watchpoint sees leaves its values awaited. -/
theorem loadEnd_of_unwatched (hu : Unwatched u g) (a : Nat) (ps : List Point) (xs : List Seen) :
    loadEnd u g t a ps xs = .next (u.awaits (zeroOff u g.settled a (AccTy.regs t)) u.iss.flagA
      ((laneValues ps).flatMap fun p => (List.range (AccTy.regs t)).map fun i =>
        (vkey (a + i) p.1, nthW (AccTy.words t p.2) i)) []) := by
  rw [loadEnd, deliverLanes, watched_awaits hu rfl, List.flatMap_map]

/-- The end of a scratch load of which every point has been made. -/
theorem loadEnd_scratch (hu : Unwatched s g) (a : Nat) (xs : List Seen) :
    let r := makePoints (scratchGet g.core) s (scratchPoints (AccTy.bytes t) (keyed s g key))
    loadEnd r.1 g t a r.2 xs
      = .next (r.1.awaits (zeroOff s g.settled a (AccTy.regs t)) s.iss.flagA (scratchResults s g t a key) []) := by
  intro r
  have hs : Scratched s r.1 := scratched_makePoints (scratched_scratchGet _) s _
  rw [loadEnd_of_unwatched (hu.congr hs.regs), zeroOff_congr hs.iss, hs.iss, found_makePoints_scratchGet,
    laneValues_found (nodup_keyed s g key), keyed, List.map_map, List.flatMap_map]
  rfl

/-- A scratch load that makes no forms. -/
theorem scratchLoad_of_ok {sym : Bool} {a : VReg} (hform : formKind g sym t = none)
    (hr : AccessReady s g .plain (regsFrom a (AccTy.regs t)) [] (MemOp.vregs m) (MemOp.sregs false m) s.iss.flagA)
    (hmidst : g.midst = false) (hk : InScratch s g m (AccTy.bytes t) key) :
    scratchLoad s sym t a m = inParts s g false (scratchGet g.core) []
      (scratchPoints (AccTy.bytes t) (keyed s g key)) fun u ps =>
        loadEnd u g t a.toNat ps (scratchSeen s g (AccTy.bytes t) m ps) := by
  rw [scratchLoad, laneMem_of_ready hr (by simp [loadFlag, hform]), partwise_of_start hmidst]
  simp only [checkScratchLanes_of_ok hk, hform, List.isEmpty_nil, Bool.not_true, Bool.false_eq_true, if_false]
  rfl

/-- A scratch store. -/
theorem scratchStore_of_ok {a : VReg}
    (hr : AccessReady s g .noZero [] (regsFrom a (AccTy.regs t)) (MemOp.vregs m) (MemOp.sregs false m) s.iss.flagB)
    (hmidst : g.midst = false) (hk : InScratch s g m (AccTy.bytes t) key) :
    scratchStore s t a m = inParts (loseIfRemote s g ((lanesOf (execMask s g)).map key)) g false
      (scratchPut g t a.toNat) []
      (scratchPoints (AccTy.bytes t) (keyed s g key)) fun u ps =>
        watched g false true (scratchSeen u g (AccTy.bytes t) m ps)
          (completeOp u g.settled u.iss.flagB [] [] none false) := by
  rw [scratchStore, laneMem_of_ready hr rfl, partwise_of_start hmidst]
  simp only [checkScratchLanes_of_ok hk, List.isEmpty_nil, Bool.not_true, Bool.false_eq_true, if_false, List.map_map,
    Function.comp_def]
  rfl

/-- A scratch atomic. -/
theorem scratchAtomic_of_ok {o : AtomOp} {wide : Bool} {a : VReg}
    (hr : AccessReady s g .plain [] (regsFrom a (atomRegs o wide)) (MemOp.vregs m) (MemOp.sregs false m) s.iss.flagA)
    (hmidst : g.midst = false) (hk : InScratch s g m (wideBytes wide) key) :
    scratchAtomic s o wide a m = inParts (loseIfRemote s g ((lanesOf (execMask s g)).map key)) g true
      (scratchAtom g o wide a.toNat) [] (atomPoints wide key (lanesOf (execMask s g))) fun u ps =>
        atomEnd u g wide a.toNat ps (scratchSeen u g (wideBytes wide) m ps) := by
  have hwide : wideBytes wide ≠ 16 := by cases wide <;> nofun
  rw [scratchAtomic, laneMem_of_ready hr rfl, partwise_of_start hmidst]
  simp only [checkScratchLanes_of_ok hk, List.isEmpty_nil, Bool.not_true, Bool.false_eq_true, if_false, List.map_map,
    Function.comp_def, scratchPoints_of_ne hwide]
  rfl

theorem nthW_oldWords {wide : Bool} {i : Nat} (h : i < wideRegs wide) (v : Nat) :
    nthW (oldWords wide v) i = word (v / 2 ^ (32 * i)) := by
  simp [nthW, oldWords, h]

/-- Old values, awaited in the destination of an atomic that no watchpoint sees. -/
theorem atomEnd_of_unwatched (hu : Unwatched u g) {wide : Bool} {a : Nat} {ps : List Point} {ls : List Nat}
    {old : Nat → Nat} (hold : ps.map (fun p => (p.lane, p.got)) = ls.map fun l => (l, old l)) (xs : List Seen) :
    atomEnd u g wide a ps xs = .next (u.awaits (zeroOff u g.settled a (wideRegs wide)) u.iss.flagA
      (loadWrites a (wideRegs wide) ls fun l i => word (old l / 2 ^ (32 * i))) []) := by
  have hwords : ps.map (fun p => (p.lane, oldWords wide p.got)) = ls.map fun l => (l, oldWords wide (old l)) := by
    simpa only [List.map_map, Function.comp_def] using congrArg (List.map fun p => (p.1, oldWords wide p.2)) hold
  rw [atomEnd, deliverLanes, watched_awaits hu rfl, hwords, List.flatMap_map]
  congr 2
  refine List.flatMap_congr fun l _ => List.map_congr_left fun i hi => ?_
  rw [nthW_oldWords (List.mem_range.mp hi)]

end

end Sys2Proof.Machine

namespace Sys2Proof.Machine

/-! O24: scratch accesses of an issue that makes all its accesses. -/

section
variable {s : State} {g : Group} {m : MemOp} {a : VReg} {key : Nat → Nat} (hu : Unwatched s g) (hw : AtOnce s g)
include hu hw

/-- A scratch load that makes no forms leaves its values awaited (R229). -/
theorem scratchLoad_of_atOnce {t : AccTy} {sym : Bool} (hform : formKind g sym t = none)
    (hr : AccessReady s g .plain (regsFrom a (AccTy.regs t)) [] (MemOp.vregs m) (MemOp.sregs false m) s.iss.flagA)
    (hk : InScratch s g m (AccTy.bytes t) key) :
    scratchLoad s sym t a m
      = .next ((makePoints (scratchGet g.core) s (scratchPoints (AccTy.bytes t) (keyed s g key))).1.awaits
          (zeroOff s g a.toNat (AccTy.regs t)) s.iss.flagA (scratchResults s g t a.toNat key) []) := by
  rw [scratchLoad_of_ok hform hr hw.midst hk, inParts_of_whole hw.1, loadEnd_scratch hu, hw.2]

/-- A scratch store writes its bytes (R229). -/
theorem scratchStore_of_atOnce {t : AccTy}
    (hr : AccessReady s g .noZero [] (regsFrom a (AccTy.regs t)) (MemOp.vregs m) (MemOp.sregs false m) s.iss.flagB)
    (hk : InScratch s g m (AccTy.bytes t) key) :
    scratchStore s t a m = .next ((makePoints (scratchPut g t a.toNat)
      (loseIfRemote s g ((lanesOf (execMask s g)).map key)) (scratchPoints (AccTy.bytes t) (keyed s g key))).1.awaits g
        s.iss.flagB [] []) := by
  have hs := scratched_makePoints (scratched_scratchPut g t a.toNat)
    (loseIfRemote s g ((lanesOf (execMask s g)).map key)) (scratchPoints (AccTy.bytes t) (keyed s g key))
  rw [scratchStore_of_ok hr hw.midst hk, inParts_of_whole (by rw [loseIfRemote_iss, hw.1]),
    watched_awaits hu (hs.regs.trans (loseIfRemote_regs _ _ _)), hs.iss, loseIfRemote_iss, hw.2]

/-- A scratch atomic leaves the old values awaited (R233). -/
theorem scratchAtomic_of_atOnce {o : AtomOp} {wide : Bool}
    (hr : AccessReady s g .plain [] (regsFrom a (atomRegs o wide)) (MemOp.vregs m) (MemOp.sregs false m) s.iss.flagA)
    (hk : InScratch s g m (wideBytes wide) key) :
    scratchAtomic s o wide a m = .next ((makePoints (scratchAtom g o wide a.toNat)
      (loseIfRemote s g ((lanesOf (execMask s g)).map key)) (atomPoints wide key (lanesOf (execMask s g)))).1.awaits
        (zeroOff s g a.toNat (wideRegs wide)) s.iss.flagA
        (loadWrites a.toNat (wideRegs wide) (lanesOf (execMask s g)) fun l i =>
          word (g.atomOld o wide a.toNat key s.scr (lanesOf (execMask s g)) l / 2 ^ (32 * i))) []) := by
  have hs := scratched_makePoints (scratched_scratchAtom g o wide a.toNat)
    (loseIfRemote s g ((lanesOf (execMask s g)).map key)) (atomPoints wide key (lanesOf (execMask s g)))
  have hiss := hs.iss.trans (loseIfRemote_iss _ _ _)
  rw [scratchAtomic_of_ok hr hw.midst hk, inParts_of_whole (by rw [loseIfRemote_iss, hw.1]),
    atomEnd_of_unwatched (hu.congr (hs.regs.trans (loseIfRemote_regs _ _ _)))
      (found_makePoints_scratchAtom g o wide a.toNat key _ (nodup_lanesOf _)),
    zeroOff_congr hiss, hiss, hw.2, loseIfRemote_scr]

end

theorem exec_ats (s : State) (o : AtomOp) (wide : Bool) (a : VReg) (m : MemOp) :
    exec (if wide then .ats64 o a m else .ats32 o a m) s = scratchAtomic s o wide a m := by
  cases wide
  · exact exec_ats32 o a m s
  · exact exec_ats64 o a m s

/-- A load makes no forms in mode 0, nor of a type that has none (R52). -/
theorem formKind_of_none {g : Group} {t : AccTy} (h : g.mode = 0 ∨ AccTy.form t = none) (sym : Bool) :
    formKind g sym t = none := by
  rcases h with h | h <;> simp [formKind, h]

/-- Settles O24: each access makes its points one after another, which leave the values, write the bytes, or do both in lane
order. Scratch of another column is reached at the issue (log 12). -/
theorem scratchAccesses : Obligations.ScratchAccesses := by
  unfold Obligations.ScratchAccesses
  intro s g t o wide a m key hu hw ex at_ n w
  refine ⟨?load, ?store, ?atomic⟩
  case load =>
    intro hr hk
    have hs := scratched_makePoints (scratched_scratchGet g.core) s (scratchPoints n (keyed s g key))
    refine ⟨_, scr_makePoints_scratchGet g.core s (scratchPoints n (keyed s g key)), hs.mem, hs.groups, ?_, fun hform => ?_⟩
    · rw [exec_lds]
      exact scratchLoad_of_atOnce hu hw rfl hr hk
    · rw [exec_ldsSym]
      exact scratchLoad_of_atOnce hu hw (formKind_of_none hform true) hr hk
  case store =>
    intro hr hk
    have hs := scratched_makePoints (scratched_scratchPut g t a.toNat) (loseIfRemote s g (ex.map key))
      (scratchPoints n (keyed s g key))
    refine ⟨_, (exec_sts t a m s).trans (scratchStore_of_atOnce hu hw hr hk), ?_, hs.teams,
      hs.mem.trans (loseIfRemote_mem _ _ _), hs.groups.trans (loseIfRemote_groups _ _ _)⟩
    rw [scr_makePoints_scratchPut, foldl_scratchPoints, loseIfRemote_scr, keyed, List.foldl_map]
  case atomic =>
    intro hr hk
    have hs := scratched_makePoints (scratched_scratchAtom g o wide a.toNat) (loseIfRemote s g (ex.map key))
      (atomPoints wide key ex)
    refine ⟨_, g.atomOld o wide a.toNat key s.scr ex, (exec_ats s o wide a m).trans (scratchAtomic_of_atOnce hu hw hr hk),
      hs.teams, hs.mem.trans (loseIfRemote_mem _ _ _), hs.groups.trans (loseIfRemote_groups _ _ _),
      g.atomBytes o wide a.toNat key s.scr ex, rfl, ?_, fun i hi => ?_⟩
    · rw [scr_makePoints_scratchAtom, loseIfRemote_scr, Group.atomBytes, List.take_length]
    · have hold : g.atomOld o wide a.toNat key s.scr ex ex[i]
          = rdN (g.atomBytes o wide a.toNat key s.scr ex i) (key ex[i]) (wideBytes wide) := by
        rw [Group.atomOld, (nodup_lanesOf _).idxOf_getElem]
      rw [List.getD_eq_getElem _ _ hi]
      exact ⟨hold, by rw [atomBytes_succ _ _ _ _ _ _ hi, hold]; rfl⟩

end Sys2Proof.Machine

namespace Sys2Proof.Machine

/-! O54: the frame of a scratch access. -/

section
variable {g h k : Group} {v : Nat → Nat → Prop} {r m : Nat → Prop}

theorem Group.keeps.trans (hgh : g.keeps h v r m) (hhk : h.keeps k v r m) : g.keeps k v r m := by
  obtain ⟨id₁, elem₁, sreg₁, mreg₁, h₁, c₁, tile₁, cause₁, rmode₁, mode₁, lfsr₁, tieSrc₁, tieReg₁, syms₁⟩ := hgh
  obtain ⟨id₂, elem₂, sreg₂, mreg₂, h₂, c₂, tile₂, cause₂, rmode₂, mode₂, lfsr₂, tieSrc₂, tieReg₂, syms₂⟩ := hhk
  exact ⟨id₂.trans id₁, fun k l hl hv => (elem₂ k l hl hv).trans (elem₁ k l hl hv),
    fun k hk => (sreg₂ k hk).trans (sreg₁ k hk), fun k hk => (mreg₂ k hk).trans (mreg₁ k hk), h₂.trans h₁, c₂.trans c₁,
    tile₂.trans tile₁, cause₂.trans cause₁, rmode₂.trans rmode₁, mode₂.trans mode₁, lfsr₂.trans lfsr₁,
    tieSrc₂.trans tieSrc₁, tieReg₂.trans tieReg₁, syms₂.trans syms₁⟩

/-- Writes of elements keep the others. -/
theorem keeps_csets_v (g : Group) {ws : List (Nat × Elem)} (hw : ∀ w ∈ ws, ∀ k l, l < 32 → ¬ v k l → w.1 ≠ vkey k l) :
    g.keeps { g with v := csets (.val 0) g.v ws } v r m :=
  ⟨rfl, fun k l hl hv => cget_csets_of_not_mem _ _ _ _ fun w hm => hw w hm k l hl hv, fun _ _ => rfl, fun _ _ => rfl, rfl,
    rfl, rfl, rfl, rfl, rfl, rfl, rfl, rfl, rfl⟩

theorem keeps_refl (g : Group) : g.keeps g v r m := keeps_csets_v g (ws := []) nofun

/-- The place of an instruction in progress is none of the group's registers. -/
theorem keeps_phase (g : Group) (phase addr : Nat) (vals : List Nat) (lanes : Word) :
    g.keeps { g with phase := phase, phaseVals := vals, phaseAt := addr, phaseLanes := lanes } v r m := keeps_refl g

theorem keeps_settled (g : Group) : g.keeps g.settled v r m := keeps_phase g _ _ _ _

theorem keeps_setLanes (g : Group) (lanes : Word) (f : Lane → Lane) : g.keeps (g.setLanes lanes f) v r m := keeps_refl g

theorem charge_cases (g : Group) (k : Nat) : ∃ f, g.charge k = { g with f := f } := by
  unfold Group.charge
  split
  · exact ⟨_, rfl⟩
  · exact ⟨g.f, rfl⟩

/-- An operation that is left outstanding changes the elements that await it. -/
theorem keeps_addOp (g : Group) (op flag : Nat) {vw : List (Nat × Word)}
    (hw : ∀ w ∈ vw, ∀ k l, l < 32 → ¬ v k l → w.1 ≠ vkey k l) : g.keeps (g.addOp op flag vw [] none false) v r m := by
  obtain ⟨f, hf⟩ := charge_cases g flag
  have h := keeps_csets_v (v := v) (r := r) (m := m) g
    (ws := vw.map fun w => (w.1, Elem.pend op (cget (Elem.val 0) g.v w.1).word)) (List.forall_mem_map.mpr hw)
  rw [Group.addOp, hf]
  exact h

end

/-- The elements of `n` registers from `a` in the lanes of an issue. -/
def destOf (s : State) (a n : Nat) (k l : Nat) : Prop := a ≤ k ∧ k < a + n ∧ bit s.iss.lanes l = true

/-- The key of such an element is that of no other. -/
theorem vkey_ne_of_not_destOf {s : State} {a n i l : Nat} (hl : bit s.iss.lanes l = true) (hi : i < n) {k j : Nat}
    (hj : j < 32) (h : ¬ destOf s a n k j) : vkey (a + i) l ≠ vkey k j := by
  intro e
  obtain ⟨rfl, rfl⟩ := vkey_inj (bit_lt hl) hj e
  exact h ⟨by omega, by omega, hl⟩

section
variable (s : State) (g : Group) (a n : Nat) {r m : Nat → Prop}

theorem keeps_zeroOff : g.keeps (zeroOff s g a n) (destOf s a n) r m := by
  unfold zeroOff
  split
  · refine keeps_csets_v g fun w hw k j hj hv => ?_
    simp only [List.mem_flatMap, List.mem_map, List.mem_range, mem_lanesOf_iff, bit_and, Bool.and_eq_true] at hw
    obtain ⟨l, ⟨hl, -⟩, i, hi, rfl⟩ := hw
    exact vkey_ne_of_not_destOf hl hi hj hv
  · exact keeps_refl g

/-- The results of a load are of its destination. -/
theorem ne_of_mem_loadWrites {f : Nat → Nat → Word} {w : Nat × Word}
    (hw : w ∈ loadWrites a n (lanesOf (execMask s g)) f) {k j : Nat} (hj : j < 32) (h : ¬ destOf s a n k j) :
    w.1 ≠ vkey k j := by
  simp only [loadWrites, List.mem_flatMap, List.mem_map, List.mem_range, mem_lanesOf_iff] at hw
  obtain ⟨l, hl, i, hi, rfl⟩ := hw
  exact vkey_ne_of_not_destOf (bit_lanes_of_execMask hl) hi hj h

end

/-- A step leaves alone every byte but those of scratch, every system register, every other group, and the issuing group's
registers but for the elements named. -/
def framedButScratch (s t : State) (g : Group) (v : Nat → Nat → Prop) : Prop :=
  t.mem = s.mem ∧ t.arena = s.arena ∧ t.bst = s.bst ∧ t.ring = s.ring ∧ sameRegisters s t ∧ sameOthers s t
    ∧ ∃ h, t.group s.iss.g = some h ∧ g.keeps h v (fun _ => False) (fun _ => False)

theorem framedButScratch.framed {s t : State} {g : Group} {v : Nat → Nat → Prop} (h : framedButScratch s t g v)
    (hscr : t.scr = s.scr) : framed s t g v (fun _ => False) (fun _ => False) := by
  obtain ⟨hmem, harena, hbst, hring, hregs, hothers, hgroup⟩ := h
  refine ⟨fun a => ?_, hregs, hothers, hgroup⟩
  rw [hmem, hscr, harena, hbst, hring]
  exact ⟨rfl, rfl, rfl, rfl, rfl⟩

section
variable {s w u : State} {ts : Tab Team} {g h : Group} {v : Nat → Nat → Prop} (hw : w = { s with teams := ts })
  (hs : Scratched w u)
include hw hs

/-- Scratch accesses and a change to the issuing group. -/
theorem framedButScratch_of_put (hk : g.keeps h v (fun _ => False) (fun _ => False)) (n : Nat) (i : Issue) :
    framedButScratch s { u with groups := tput u.groups u.iss.g h, fresh := n, iss := i } g v := by
  subst hw
  obtain ⟨_, _, _, _, _, rfl⟩ := hs
  exact ⟨rfl, rfl, rfl, rfl, ⟨rfl, rfl, rfl⟩, fun k hne => tget_tput_ne _ _ hne, h, tget_tput_self _ _ _, hk⟩

/-- Scratch accesses that complete. -/
theorem framedButScratch_awaits (flag : Nat) {vw : List (Nat × Word)}
    (hk : g.keeps h v (fun _ => False) (fun _ => False)) (hv : ∀ w ∈ vw, ∀ k l, l < 32 → ¬ v k l → w.1 ≠ vkey k l) :
    framedButScratch s (u.awaits h flag vw []) g v :=
  framedButScratch_of_put hw hs ((hk.trans (keeps_addOp h u.fresh flag hv)).trans (keeps_setLanes _ _ _)) _ _

/-- Scratch accesses that leave the group in the midst of its instruction. -/
theorem framedButScratch_later {t : State} {phase : Nat} {vals : List Nat} (ht : later u g phase vals = .next t) :
    framedButScratch s t g v := by
  cases ht
  exact framedButScratch_of_put hw hs (keeps_phase g _ _ _ _) _ _

end

section
variable {s t : State} {g : Group} {y : AccTy} {a : VReg} {m : MemOp} {key : Nat → Nat} (hu : Unwatched s g)
  (hmidst : g.midst = false) (hk : InScratch s g m (AccTy.bytes y) key)
include hu hmidst hk

/-- A scratch load, made whole or in part, changes no byte, and no element outside its destination (R229). -/
theorem framed_of_lds
    (hr : AccessReady s g .plain (regsFrom a (AccTy.regs y)) [] (MemOp.vregs m) (MemOp.sregs false m) s.iss.flagA)
    (ht : exec (.lds y a m) s = .next t) :
    framed s t g (destOf s a.toNat (AccTy.regs y)) (fun _ => False) (fun _ => False) := by
  have hs (qs : List Point) := scratched_makePoints (scratched_scratchGet g.core) s qs
  have hload : scratchLoad s false y a m = .next t := (exec_lds y a m s).symm.trans ht
  rw [scratchLoad_of_ok rfl hr hmidst hk] at hload
  rcases inParts_cases s g (scratchGet g.core) (scratchPoints (AccTy.bytes y) (keyed s g key)) _ with e | ⟨c, vals, e⟩
  · rw [e, loadEnd_scratch hu] at hload
    cases hload
    exact (framedButScratch_awaits (ts := s.teams) rfl (hs _) _ ((keeps_settled g).trans (keeps_zeroOff s _ _ _))
      fun w hw k j => ne_of_mem_loadWrites s g _ _ hw).framed (scr_makePoints_scratchGet _ _ _)
  · have hlater := e.symm.trans hload
    refine (framedButScratch_later (ts := s.teams) rfl (hs _) hlater).framed ?_
    cases hlater
    exact scr_makePoints_scratchGet _ _ _

/-- A scratch store, made whole or in part, changes bytes of scratch and no register; the bytes are those of the points it
has made (R229). -/
theorem framed_of_sts
    (hr : AccessReady s g .noZero [] (regsFrom a (AccTy.regs y)) (MemOp.vregs m) (MemOp.sregs false m) s.iss.flagB)
    (ht : exec (.sts y a m) s = .next t) :
    framedButScratch s t g (fun _ _ => False)
      ∧ ∃ qs ⊆ scratchPoints (AccTy.bytes y) (keyed s g key), t.scr = qs.foldl (writePart (g.storeValue y a.toNat)) s.scr := by
  obtain ⟨ts, hw⟩ := loseIfRemote_cases s g ((lanesOf (execMask s g)).map key)
  have hs (qs : List Point) := scratched_makePoints (scratched_scratchPut g y a.toNat)
    (loseIfRemote s g ((lanesOf (execMask s g)).map key)) qs
  have hscr (qs : List Point) := scr_makePoints_scratchPut g y a.toNat
    (loseIfRemote s g ((lanesOf (execMask s g)).map key)) qs
  simp only [loseIfRemote_scr] at hscr
  have hstore : scratchStore s y a m = .next t := (exec_sts y a m s).symm.trans ht
  rw [scratchStore_of_ok hr hmidst hk] at hstore
  rcases inParts_cases (loseIfRemote s g ((lanesOf (execMask s g)).map key)) g (scratchPut g y a.toNat)
    (scratchPoints (AccTy.bytes y) (keyed s g key)) _ with e | ⟨c, vals, e⟩
  · rw [e, watched_awaits hu ((hs _).regs.trans (loseIfRemote_regs _ _ _))] at hstore
    cases hstore
    exact ⟨framedButScratch_awaits hw (hs _) _ (keeps_settled g) nofun, _, List.Subset.refl _, hscr _⟩
  · have hlater := e.symm.trans hstore
    refine ⟨framedButScratch_later hw (hs _) hlater, _, List.take_subset c _, ?_⟩
    cases hlater
    exact hscr _

end

/-- The bytes of a scratch access's points are among those at its lanes' keys. -/
theorem outside_scratchPoints {s : State} {g : Group} {key : Nat → Nat} {n z : Nat}
    (hz : ∀ l ∈ lanesOf (execMask s g), z < key l ∨ key l + n ≤ z) {q : Point} (hq : q ∈ scratchPoints n (keyed s g key)) :
    z < q.key ∨ q.key + q.n ≤ z := by
  obtain ⟨p, hp, hq⟩ := List.mem_flatMap.mp hq
  obtain ⟨l, hl, rfl⟩ := List.mem_map.mp hp
  obtain ⟨-, hlow, hhigh⟩ := mem_scratchLane hq
  have := hz l hl
  dsimp only at hlow hhigh
  omega

/-- Settles O54: a load's points move no byte, and its results are awaited in its destination alone; a store's points lie
within the bytes at its lanes' keys. -/
theorem frameOfScratchAccesses : Obligations.FrameOfScratchAccesses := by
  unfold Obligations.FrameOfScratchAccesses
  intro s t g y a m key n ex hu hmidst hk
  refine ⟨fun hr ht => framed_of_lds hu hmidst hk hr ht, fun hr ht => ?_⟩
  obtain ⟨hframe, qs, hqs, hscr⟩ := framed_of_sts hu hmidst hk hr ht
  refine ⟨fun z hz => ?_, hframe⟩
  rw [hscr, rdByte_foldl_writePart _ fun q hq => outside_scratchPoints hz (hqs hq)]

end Sys2Proof.Machine

namespace Sys2Proof.Machine

/-! O28: accesses to the samples of resident tiles (R98, R231, R232). -/

/-- A visit of a sample moves the core's time and the stamps alone. -/
theorem visitSample_cases (s : State) (core c : Nat) (p : Samp) :
    ∃ lts wts stamp, visitSample s core c p = s.restamped lts wts stamp := by
  simp only [visitSample, visit, raiseTime, State.restamped]
  exact ⟨_, _, _, rfl⟩

theorem tileRead_restamped (s : State) (lts wts : Cells Nat) (stamp c : Nat) (p : Samp) (n : Nat) :
    tileRead (s.restamped lts wts stamp) c p n = tileRead s c p n := rfl

theorem restamped_restamped (s : State) (lts wts lts' wts' : Cells Nat) (stamp stamp' : Nat) :
    (s.restamped lts wts stamp).restamped lts' wts' stamp' = s.restamped lts' wts' stamp' := rfl

/-- Loads of samples move the core's time and the stamps alone, and each finds the bytes of its tile as they stand. -/
theorem performLanes_tileRead (s : State) (core c n : Nat) (ps : List (Nat × Samp)) : ∃ lts wts stamp,
    performLanes (fun s p => (visitSample s core c p, tileRead s c p n)) s ps
      = (s.restamped lts wts stamp, ps.map fun p => (p.1, tileRead s c p.2 n)) := by
  induction ps generalizing s with
  | nil => exact ⟨s.lts, s.wts, s.stamp, rfl⟩
  | cons p ps ih =>
    obtain ⟨lts, wts, stamp, hvisit⟩ := visitSample_cases s core c p.2
    obtain ⟨lts', wts', stamp', hrest⟩ := ih (s.restamped lts wts stamp)
    refine ⟨lts', wts', stamp', ?_⟩
    simp only [performLanes, hvisit, hrest, restamped_restamped, tileRead_restamped, List.map_cons]

@[simp] theorem visitSample_iss (s : State) (core c : Nat) (p : Samp) : (visitSample s core c p).iss = s.iss := by
  obtain ⟨_, _, _, h⟩ := visitSample_cases s core c p
  rw [h]
  rfl

@[simp] theorem tileWrite_iss (s : State) (c : Nat) (p : Samp) (n v : Nat) : (tileWrite s c p n v).iss = s.iss := rfl

/-- A surface access whose checks pass and whose tiles are resident goes on with all its lanes. -/
theorem surfaceLanes_of_ready {s s' : State} {g : Group} {b : SReg} {c : VReg} {n : Nat} {ex : List Nat}
    {ps : List (Nat × Samp)}
    (hc : checkLanes (fun s l => (s, checkSample s g.id.ctx (g.sreg b.toNat).toNat (g.vword c.toNat l).toNat n))
      (fun l => sampleAddr (g.sreg b.toNat).toNat (g.vword c.toNat l).toNat) s ex = (s, [], ps))
    (hready : readyLanes s g.id.ctx ps = (s', false, [])) (mayFail : Bool) (kind : Nat)
    (k : State → List (Nat × Fail × Nat) → List (Nat × Samp) → Out) :
    surfaceLanes s g b c n ex mayFail kind k = k s' [] ps := by
  rw [surfaceLanes]
  simp only [hc, hready, List.isEmpty_nil, Bool.not_true, Bool.false_and, Bool.false_eq_true, if_false, List.map_nil,
    List.append_nil, List.any_nil, Bool.not_false, List.filter_true]

section
variable {s s' : State} {g : Group} {t : AccTy} {a c : VReg} {b : SReg} {ps : List (Nat × Samp)}
  (hc : checkLanes (fun s l => (s, checkSample s g.id.ctx (g.sreg b.toNat).toNat (g.vword c.toNat l).toNat
      (AccTy.bytes t))) (fun l => sampleAddr (g.sreg b.toNat).toNat (g.vword c.toNat l).toNat) s (lanesOf (execMask s g))
        = (s, [], ps))
  (hready : readyLanes s g.id.ctx ps = (s', false, []))
include hc hready

/-- A surface load that makes no forms leaves its values awaited (R232). -/
theorem surfaceLoad_of_ready
    (hr : AccessReady s g .plain (regsFrom a (AccTy.regs t)) [] [c.toNat] [b.toNat] s.iss.flagA) :
    ∃ lts wts stamp, ∀ sym, formKind g sym t = none → surfaceLoad s sym t a b c
      = .next ((s'.restamped lts wts stamp).awaits (zeroOff s' g a.toNat (AccTy.regs t)) s'.iss.flagA
          (ps.flatMap fun p => loadWrites a.toNat (AccTy.regs t) [p.1] fun _ i =>
            nthW (AccTy.words t (tileRead s' g.id.ctx p.2 (AccTy.bytes t))) i) []) := by
  obtain ⟨lts, wts, stamp, hread⟩ := performLanes_tileRead s' g.core g.id.ctx (AccTy.bytes t) ps
  refine ⟨lts, wts, stamp, fun sym hform => ?_⟩
  rw [surfaceLoad, laneMem_of_ready hr (by simp [loadFlag, hform])]
  dsimp only
  rw [surfaceLanes_of_ready hc hready, hread, hform]
  simp only [deliverLanes, completeOp_eq, List.map_map, List.flatMap_map, loadWrites, List.flatMap_singleton]
  rfl

/-- A surface store writes its values, lane by lane (R232). -/
theorem surfaceStore_of_ready
    (hr : AccessReady s g .noZero [] (regsFrom a (AccTy.regs t)) [c.toNat] [b.toNat] s.iss.flagB) :
    surfaceStore s t a b c = .next ((ps.foldl (fun s p =>
      tileWrite (visitSample s g.core g.id.ctx p.2) g.id.ctx p.2 (AccTy.bytes t) (g.storeValue t a.toNat p.1))
      (loseIdem s' g)).awaits g s'.iss.flagB [] []) := by
  rw [surfaceStore, laneMem_of_ready hr rfl]
  dsimp only
  rw [surfaceLanes_of_ready hc hready, completeOp_eq,
    foldl_keeps State.iss (fun s p => by rw [tileWrite_iss, visitSample_iss]), loseIdem_iss]

end

/-- Settles O28: the tiles being resident, a load finds each sample's bytes as they stand, and a store writes them in lane
order. All the sample accesses of the issue are made at one moment (log 111). -/
theorem surfaceAccesses : Obligations.SurfaceAccesses := by
  unfold Obligations.SurfaceAccesses
  intro s s' g t a c b ps n sel at_ hc hready
  refine ⟨fun hr => ?load, fun hr => ?store⟩
  case load =>
    obtain ⟨lts, wts, stamp, hload⟩ := surfaceLoad_of_ready hc hready hr
    refine ⟨s'.restamped lts wts stamp, rfl, rfl, rfl, ?_, fun hform => ?_⟩
    · exact (exec_ldt t a b c s).trans (hload false rfl)
    · exact (exec_ldtSym t a b c s).trans (hload true (formKind_of_none hform true))
  case store =>
    exact (exec_stt t a b c s).trans (surfaceStore_of_ready hc hready hr)

end Sys2Proof.Machine

namespace Sys2Proof.Machine

/-! O27, O29, O47: what the memory system leaves alone. -/

/-- The state with all that the memory system keeps set aside: bytes, cache lines, copies and granules, translations,
reductions waiting, times and stamps, and the counter of free choices. -/
def State.apart (s : State) : State :=
  { s with
    free := 0, mem := [], scr := [], granules := [], tlb := [], lts := [], wts := [], rts := [], stamp := 0, olds := [],
    walks := [], l1 := [], llc := [], uses := 0, partials := [] }

section
variable {s u : State} (h : u.apart = s.apart)
include h

theorem regs_of_apart : u.regs = s.regs := (congrArg State.regs h : u.apart.regs = s.apart.regs)
theorem iss_of_apart : u.iss = s.iss := (congrArg State.iss h : u.apart.iss = s.apart.iss)
theorem groups_of_apart : u.groups = s.groups := (congrArg State.groups h : u.apart.groups = s.apart.groups)
theorem hostReads_of_apart : u.hostReads = s.hostReads :=
  (congrArg State.hostReads h : u.apart.hostReads = s.apart.hostReads)

end

@[simp] theorem chose_apart (s : State) : (chose s).apart = s.apart := rfl
@[simp] theorem raiseTime_apart (s : State) (a t : Nat) : (raiseTime s a t).apart = s.apart := rfl
@[simp] theorem storeAt_apart (s : State) (key n v t : Nat) : (storeAt s key n v t).apart = s.apart := rfl
@[simp] theorem stampWrite_apart (s : State) (a key : Nat) : (stampWrite s a key).apart = s.apart := rfl
theorem Scratched.apart {s u : State} (h : Scratched s u) : u.apart = s.apart := by
  obtain ⟨_, _, _, _, _, rfl⟩ := h
  rfl
@[simp] theorem dirtyLine_apart (s : State) (key n : Nat) : (dirtyLine s key n).apart = s.apart := by
  unfold dirtyLine; split <;> rfl
@[simp] theorem fillSector_apart (s : State) (sec tid : Nat) : (fillSector s sec tid).apart = s.apart := by
  fun_cases fillSector s sec tid <;> rfl
@[simp] theorem applyPartials_apart (n : Nat) (s : State) (ps : List Partial) :
    (applyPartials n s ps).apart = s.apart := by
  fun_induction applyPartials n s ps with
  | case1 => rfl
  | case2 => rfl
  | case3 n s ps ks k p e w u v x ih =>
    have hu : u.apart = s.apart := by simp only [u, apply_ite State.apart, chose_apart, ite_self]
    have hv : v.apart = s.apart := by simp only [v, apply_ite State.apart, dirtyLine_apart, hu, ite_self]
    rw [ih, storeAt_apart, hv]
@[simp] theorem mergeLine_apart (s : State) (line : Nat) : (mergeLine s line).apart = s.apart := by
  unfold mergeLine
  split
  · rfl
  · exact applyPartials_apart _ _ _
@[simp] theorem reach_apart (s : State) (a line : Nat) : (reach s a line).apart = s.apart := by
  simp only [reach, apply_ite State.apart, raiseTime_apart, mergeLine_apart, ite_self]
@[simp] theorem readSlice_apart (s : State) (key n tid : Nat) : (readSlice s key n tid).1.apart = s.apart := by
  simp only [readSlice, apply_ite State.apart, fillSector_apart, mergeLine_apart, ite_self]
@[simp] theorem writeSector_apart (s : State) (key n v tid t : Nat) : (writeSector s key n v tid t).apart = s.apart := by
  simp only [writeSector, storeAt_apart, apply_ite State.apart, dirtyLine_apart, fillSector_apart, mergeLine_apart,
    ite_self]
@[simp] theorem writeCore_apart (s : State) (a key n v tid : Nat) : (writeCore s a key n v tid).apart = s.apart := by
  simp only [writeCore, stampWrite_apart, writeSector_apart, reach_apart]
@[simp] theorem readAgent_apart (s : State) (a key n tid : Nat) : (readAgent s a key n tid).1.apart = s.apart :=
  (readSlice_apart _ key n tid).trans (reach_apart s a (key / 1024))
@[simp] theorem makeRoom_apart (s : State) (core i : Nat) : (makeRoom s core i).apart = s.apart := by
  fun_cases makeRoom s core i <;> rfl
@[simp] theorem placeCopy_apart (s : State) (core sec : Nat) (c : L1Copy) : (placeCopy s core sec c).apart = s.apart := by
  unfold placeCopy
  dsimp only
  split
  · rfl
  · exact makeRoom_apart (chose { s with l1 := cdel s.l1 (l1Key core sec) }) core _
@[simp] theorem grantCopy_apart (s : State) (core key tid : Nat) : (grantCopy s core key tid).apart = s.apart :=
  placeCopy_apart _ core (key / 256) _

/-! O29, O47: where no reduction waits in a partial copy, reads leave the bytes of memory alone (R125). -/

/-- Memory holds these bytes, and no reduction waits. -/
def State.holds (s : State) (m : List Host.Cell) : Prop := s.mem = m ∧ s.partials = []

theorem holds_of_none {s : State} (h : s.partials = []) : s.holds s.mem := ⟨rfl, h⟩
theorem mergeLine_of_none {s : State} (h : s.partials = []) (line : Nat) : mergeLine s line = s := by simp [mergeLine, h]
theorem reach_of_none {s : State} (h : s.partials = []) (a line : Nat) : reach s a line = s := by simp [reach, h]

section
variable {s : State} {m : List Host.Cell} (h : s.holds m)
include h

theorem holds_fillSector (sec tid : Nat) : (fillSector s sec tid).holds m := by
  fun_cases fillSector s sec tid <;> exact h
theorem holds_readSlice (key n tid : Nat) : (readSlice s key n tid).1.holds m := by
  rw [readSlice, mergeLine_of_none h.2]
  split
  · exact holds_fillSector h _ _
  · exact h
theorem holds_makeRoom (core i : Nat) : (makeRoom s core i).holds m := by
  fun_cases makeRoom s core i <;> exact h
theorem holds_placeCopy (core sec : Nat) (c : L1Copy) : (placeCopy s core sec c).holds m := by
  unfold placeCopy
  dsimp only
  split
  · exact h
  · exact holds_makeRoom (s := chose { s with l1 := cdel s.l1 (l1Key core sec) }) h core _
theorem holds_grantCopy (core key tid : Nat) : (grantCopy s core key tid).holds m := by
  unfold grantCopy
  exact holds_placeCopy (by exact h) core (key / 256) _

end

/-! O29: a walk and the checks of an access read entries, choose, and keep translations. -/

/-- A property of states that reads, free choices and kept translations do not end. -/
structure ReadKeeps (P : State → Prop) : Prop where
  read : ∀ s key n tid, P s → P (readSlice s key n tid).1
  choose : ∀ s, P s → P (chose s)
  walks : ∀ s w, P s → P { s with walks := w }
  tlb : ∀ s ts, P s → P { s with tlb := ts }

theorem readKeeps_apart (a : State) : ReadKeeps fun s => s.apart = a where
  read s key n tid h := (readSlice_apart s key n tid).trans h
  choose _ h := h
  walks _ _ h := h
  tlb _ _ h := h

theorem readKeeps_holds (m : List Host.Cell) : ReadKeeps (State.holds · m) where
  read _ key n tid h := holds_readSlice h key n tid
  choose _ h := h
  walks _ _ h := h
  tlb _ _ h := h

section
variable {P : State → Prop} (hP : ReadKeeps P) {s : State}
include hP

theorem ReadKeeps.walkEntry (h : P s) (stack a : Nat) : P (walkEntry s stack a).1 := by
  fun_cases Machine.walkEntry s stack a
  · exact hP.read s a 16 0 h
  · exact h
  · exact hP.choose s h
  · exact hP.choose _ (hP.read s a 16 0 h)
theorem ReadKeeps.walkFrom (h : P s) (stack p va lvl base : Nat) : P (walkFrom s stack p va lvl base).1 := by
  fun_induction Machine.walkFrom s stack p va lvl base
  · exact hP.walkEntry h _ _
  · exact hP.walkEntry h _ _
  · exact hP.walkEntry h _ _
  next ih => exact ih (hP.walks _ _ (hP.walkEntry h _ _))
theorem ReadKeeps.walk (h : P s) (stack c va : Nat) : P (walk s stack c va).1 := by
  fun_cases Machine.walk s stack c va
  · exact h
  · exact h
  · exact hP.walkFrom h _ _ _ _ _
theorem ReadKeeps.translate (h : P s) (core c va : Nat) : P (translate s core c va).1 := by
  have hwalk := hP.walk h (stackOf core) c va
  fun_cases Machine.translate s core c va
  · exact h
  · exact h
  · exact hP.tlb _ _ h
  next e =>
    rw [e] at hwalk
    exact hwalk
  next e _ =>
    rw [e] at hwalk
    exact hP.tlb _ _ hwalk
theorem ReadKeeps.checkAccessIn (h : P s) (ts : List TlbEntry) (core c va n : Nat) (need : Need) (bad : Nat → Bool)
    (align : Nat → Nat) : P (checkAccessIn ts s core c va n need bad align).1 := by
  have htr := hP.translate h core c va
  fun_cases Machine.checkAccessIn ts s core c va n need bad align
  · exact h
  all_goals
    rename Machine.translate s core c va = _ => e
    rw [e] at htr
    exact htr

end

/-- What the check of every lane keeps, the checks of all keep. -/
theorem checkLanes_keeps {α : Type} {P : State → Prop} {chk : State → Nat → State × Except Fail α}
    (hchk : ∀ s l, P s → P (chk s l).1) (addr : Nat → Nat) {s : State} (h : P s) (ls : List Nat) :
    P (checkLanes chk addr s ls).1 := by
  induction ls generalizing s with
  | nil => exact h
  | cons l ls ih =>
    have hl := hchk s l h
    rw [checkLanes]
    split
    · next e => exact ih (by rwa [e] at hl)
    · next e => exact ih (by rwa [e] at hl)

end Sys2Proof.Machine

namespace Sys2Proof.Machine

/-! O27: accesses made in parts (R117, R127). -/

/-- A group keeps its points as numbers, and finds them again. -/
theorem pointsOf_nums (ps : List Point) : pointsOf (ps.flatMap Point.nums) = ps := by
  induction ps with
  | nil => rfl
  | cons p ps ih => rw [List.flatMap_cons]; exact congrArg (p :: ·) ih

/-- A group in the midst of its accesses, with those it has made and those it has to make. -/
def Group.amid (g : Group) (i : Issue) (made rest : List Point) : Group :=
  { g with
    phase := 20, phaseVals := made.length :: (made ++ rest).flatMap Point.nums, phaseAt := i.a, phaseLanes := i.lanes }

theorem amid_midst (g : Group) (i : Issue) (made rest : List Point) : (g.amid i made rest).midst = true := rfl

theorem amid_parts (g : Group) (i : Issue) (made rest : List Point) : (g.amid i made rest).parts = (made, rest) := by
  have hparts : (g.amid i made rest).parts = ((pointsOf ((made ++ rest).flatMap Point.nums)).take made.length,
    (pointsOf ((made ++ rest).flatMap Point.nums)).drop made.length) := rfl
  rw [hparts, pointsOf_nums, List.take_left, List.drop_left]

theorem requestsOf_single (ps : List Point) : requestsOf false ps = ps.map ([·]) := rfl

theorem length_requestsOf_single (ps : List Point) : (requestsOf false ps).length = ps.length :=
  List.length_map _

theorem flatten_requestsOf_single (ps : List Point) : (requestsOf false ps).flatten = ps := by
  rw [requestsOf_single, ← List.flatMap_def, List.flatMap_singleton']

theorem flatten_take_requestsOf (c : Nat) (ps : List Point) : ((requestsOf false ps).take c).flatten = ps.take c := by
  rw [requestsOf_single, ← List.map_take, ← requestsOf_single, flatten_requestsOf_single]

theorem flatten_drop_requestsOf (c : Nat) (ps : List Point) : ((requestsOf false ps).drop c).flatten = ps.drop c := by
  rw [requestsOf_single, ← List.map_drop, ← requestsOf_single, flatten_requestsOf_single]

/-- The lanes that name one place make one request (R127). -/
theorem length_requestsOf_gather (ps : List Point) : (requestsOf true ps).length = (ps.map (·.key)).eraseDups.length :=
  List.length_map _

/-- A request is made of all the points of its place (R127). -/
theorem mem_requestsOf_gather {ps r : List Point} (h : r ∈ requestsOf true ps) :
    ∃ q ∈ ps, r = ps.filter fun p => p.key == q.key := by
  obtain ⟨k, hk, rfl⟩ := List.mem_map.mp h
  obtain ⟨q, hq, rfl⟩ := List.mem_map.mp (List.mem_eraseDups.mp hk)
  exact ⟨q, hq, rfl⟩

/-- A point's operation leaves alone all but the memory system. -/
def Stays (f : State → Point → State × Nat) : Prop := ∀ s p, (f s p).1.apart = s.apart

theorem Stays.makePoints {f : State → Point → State × Nat} (hf : Stays f) (s : State) (ps : List Point) :
    (makePoints f s ps).1.apart = s.apart := by
  induction ps generalizing s with
  | nil => rfl
  | cons p ps ih => exact (ih _).trans (hf s p)

@[simp] theorem length_makePoints (f : State → Point → State × Nat) (s : State) (ps : List Point) :
    (makePoints f s ps).2.length = ps.length := by
  induction ps generalizing s with
  | nil => rfl
  | cons p ps ih => exact congrArg (· + 1) (ih _)

section
variable {s : State} {g : Group} {gather : Bool} {f : State → Point → State × Nat} {done todo : List Point}
  {k : State → List Point → Out}

/-- An issue that makes all the requests left ends its instruction. -/
theorem inParts_of_all (h : (requestsOf gather todo).length ≤ s.iss.cut) :
    inParts s g gather f done todo k = k (makePoints f s todo).1 (done ++ (makePoints f s todo).2) :=
  if_pos (.inr h)

/-- An issue that makes only the next requests leaves its group in the midst of them, with the rest kept (R117, R127). -/
theorem inParts_of_some (hf : Stays f) (hc : 0 < s.iss.cut) (h : s.iss.cut < (requestsOf gather todo).length) :
    let now := ((requestsOf gather todo).take s.iss.cut).flatten
    ∃ u y, inParts s g gather f done todo k = .next u ∧ u.group s.iss.g = some y ∧ u.scr = (makePoints f s now).1.scr
      ∧ u.iss = s.iss ∧ y.midst = true ∧ y.parts.1.length = done.length + now.length
      ∧ y.parts.2 = ((requestsOf gather todo).drop s.iss.cut).flatten := by
  intro now
  have hiss : (makePoints f s now).1.iss = s.iss := iss_of_apart (hf.makePoints s now)
  have hout : inParts s g gather f done todo k
      = .next (putGroup (makePoints f s now).1 (makePoints f s now).1.iss.g (g.amid (makePoints f s now).1.iss
          (done ++ (makePoints f s now).2) ((requestsOf gather todo).drop s.iss.cut).flatten)) :=
    if_neg (by omega)
  rw [hiss] at hout
  refine ⟨_, _, hout, tget_tput_self _ _ _, rfl, hiss, amid_midst _ _ _ _, ?_, ?_⟩
  · rw [amid_parts, List.length_append, length_makePoints]
  · rw [amid_parts]

theorem partwise_of_midst (h : g.midst = true) (hh : partsHeld s gather g.parts.2 = false)
    (start : (State → List Point → Out) → Out) :
    partwise s g gather f k start = inParts s g gather f g.parts.1 g.parts.2 k := by
  simp [partwise, h, hh]

end

/-! O27: stores of scratch in parts. -/

theorem stays_scratchPut (g : Group) (t : AccTy) (a : Nat) : Stays (scratchPut g t a) :=
  fun s p => (scratched_scratchPut g t a s p).apart

/-- A scratch store that goes on with its accesses. -/
theorem scratchStore_of_midst {s : State} {g : Group} {t : AccTy} {a : VReg} {m : MemOp}
    (hr : AccessReady s g .noZero [] (regsFrom a (AccTy.regs t)) (MemOp.vregs m) (MemOp.sregs false m) s.iss.flagB)
    (hm : g.midst = true) (hh : partsHeld s false g.parts.2 = false) :
    scratchStore s t a m = inParts s g false (scratchPut g t a.toNat) g.parts.1 g.parts.2 fun u ps =>
      watched g false true (scratchSeen u g (AccTy.bytes t) m ps)
        (completeOp u g.settled u.iss.flagB [] [] none false) := by
  rw [scratchStore, laneMem_of_ready hr rfl]
  exact partwise_of_midst hm hh _

/-- An issue that makes some of the points of a store leaves their bytes written, and the rest to be made. -/
theorem inParts_scratchPut {s : State} (g : Group) (t : AccTy) (a : Nat) {done todo : List Point} (hc : 0 < s.iss.cut)
    (h : s.iss.cut < todo.length) (k : State → List Point → Out) :
    ∃ u y, inParts s g false (scratchPut g t a) done todo k = .next u ∧ u.group s.iss.g = some y
      ∧ u.scr = (todo.take s.iss.cut).foldl (writePart (g.storeValue t a)) s.scr ∧ u.iss = s.iss ∧ y.midst = true
      ∧ y.parts.1.length = done.length + s.iss.cut ∧ y.parts.2 = todo.drop s.iss.cut := by
  obtain ⟨u, y, hu, hy, hscr, hiss, hmidst, hmade, hrest⟩ := inParts_of_some (g := g) (done := done) (k := k)
    (stays_scratchPut g t a) hc (h.trans_eq (length_requestsOf_single todo).symm)
  rw [flatten_take_requestsOf] at hscr hmade
  rw [flatten_drop_requestsOf] at hrest
  rw [scr_makePoints_scratchPut] at hscr
  rw [List.length_take_of_le h.le] at hmade
  exact ⟨u, y, hu, hy, hscr, hiss, hmidst, hmade, hrest⟩

/-- A scratch store that makes the last of its accesses ends. -/
theorem exec_sts_of_last {s : State} {g : Group} {t : AccTy} {a : VReg} {m : MemOp} (hw : Unwatched s g)
    (hr : AccessReady s g .noZero [] (regsFrom a (AccTy.regs t)) (MemOp.vregs m) (MemOp.sregs false m) s.iss.flagB)
    (hm : g.midst = true) (hh : partsHeld s false g.parts.2 = false) (hc : g.parts.2.length ≤ s.iss.cut) :
    exec (.sts t a m) s
      = .next ((makePoints (scratchPut g t a.toNat) s g.parts.2).1.awaits g.settled s.iss.flagB [] []) := by
  have hs := scratched_makePoints (scratched_scratchPut g t a.toNat) s g.parts.2
  rw [exec_sts, execSts, scratchStore_of_midst hr hm hh, inParts_of_all ((length_requestsOf_single _).trans_le hc),
    watched_awaits hw hs.regs, hs.iss]

/-! O27: atomics in parts. -/

/-- A point of an atomic of the global space, made. -/
def globalAtom (g : Group) (o : AtomOp) (wide : Bool) (a : Nat) : State → Point → State × Nat :=
  atomPoint g o wide a (fun s p => readSlice (reach s g.core (p.key / 1024)) p.key (wideBytes wide) (pteTid p.leaf))
    (fun s p v => writeCore s g.core p.key (wideBytes wide) v (pteTid p.leaf))

theorem stays_globalAtom (g : Group) (o : AtomOp) (wide : Bool) (a : Nat) : Stays (globalAtom g o wide a) := by
  intro s p
  simp only [globalAtom, atomPoint, writeCore_apart, readSlice_apart, reach_apart]

theorem stays_scratchAtom (g : Group) (o : AtomOp) (wide : Bool) (a : Nat) : Stays (scratchAtom g o wide a) :=
  fun s p => (scratched_scratchAtom g o wide a s p).apart

/-- An atomic of either space. -/
def atomicIn (glob : Bool) (s : State) (o : AtomOp) (wide : Bool) (a : VReg) (m : MemOp) : Out :=
  if glob then globalAtomic s o wide a m else scratchAtomic s o wide a m

theorem exec_atomic (glob : Bool) (s : State) (o : AtomOp) (wide : Bool) (a : VReg) (m : MemOp) :
    exec (if glob then (if wide then .atg64 o a m else .atg32 o a m) else (if wide then .ats64 o a m else .ats32 o a m)) s
      = atomicIn glob s o wide a m := by
  cases glob
  · exact exec_ats s o wide a m
  · cases wide
    · exact exec_atg32 o a m s
    · exact exec_atg64 o a m s

/-- An atomic's points of either space. -/
def atomMake (glob : Bool) (g : Group) (o : AtomOp) (wide : Bool) (a : Nat) : State → Point → State × Nat :=
  if glob then globalAtom g o wide a else scratchAtom g o wide a

theorem stays_atomMake (glob : Bool) (g : Group) (o : AtomOp) (wide : Bool) (a : Nat) :
    Stays (atomMake glob g o wide a) := by
  cases glob
  · exact stays_scratchAtom g o wide a
  · exact stays_globalAtom g o wide a

section
variable {s : State} {g : Group} {o : AtomOp} {wide : Bool} {a : VReg} {m : MemOp} {glob : Bool}
  (hr : AccessReady s g .plain [] (regsFrom a (atomRegs o wide)) (MemOp.vregs m) (MemOp.sregs glob m) s.iss.flagA)
  (hm : g.midst = true) (hh : partsHeld s true g.parts.2 = false)
include hr hm hh

/-- An atomic that goes on with its accesses. -/
theorem atomicIn_of_midst : ∃ seen : State → List Point → List Seen, atomicIn glob s o wide a m
    = inParts s g true (atomMake glob g o wide a.toNat) g.parts.1 g.parts.2 fun u ps =>
        atomEnd u g wide a.toNat ps (seen u ps) := by
  cases glob
  · change ∃ seen, scratchAtomic s o wide a m = _
    rw [scratchAtomic, laneMem_of_ready hr rfl]
    exact ⟨_, partwise_of_midst hm hh _⟩
  · change ∃ seen, globalAtomic s o wide a m = _
    rw [globalAtomic, laneMem_of_ready hr rfl]
    exact ⟨_, partwise_of_midst hm hh _⟩

/-- An atomic that makes the last of its requests ends, its old values awaited. -/
theorem atomicIn_of_last (hw : Unwatched s g) (hc : (requestsOf true g.parts.2).length ≤ s.iss.cut) :
    ∃ (u : State) (vw : List (Nat × Word)), atomicIn glob s o wide a m
      = .next (u.awaits (zeroOff s g.settled a.toNat (wideRegs wide)) s.iss.flagA vw []) := by
  obtain ⟨seen, he⟩ := atomicIn_of_midst hr hm hh
  have hu := (stays_atomMake glob g o wide a.toNat).makePoints s g.parts.2
  rw [he, inParts_of_all hc]
  simp only [atomEnd, deliverLanes, watched_awaits hw (regs_of_apart hu), zeroOff_congr (iss_of_apart hu),
    iss_of_apart hu]
  exact ⟨_, _, rfl⟩

end

/-- Settles O27: an issue that makes all the requests left ends its instruction, and one that makes fewer keeps the rest
with the group. -/
theorem accessesInParts : Obligations.AccessesInParts := by
  unfold Obligations.AccessesInParts
  refine ⟨?points, ?parts⟩
  case points =>
    intro n l p _
    rw [lanePoints]
    split <;> rfl
  case parts =>
    rintro s g t o wide a m key c hw rfl hc ex n at_ stores ps wr
    refine ⟨fun hr hk hm hlt => ?first, fun hr hm hh hle => ?last, fun hr hm hh hlt => ?next, ?atomics⟩
    case first =>
      have hiss : (loseIfRemote s g (ex.map key)).iss = s.iss := loseIfRemote_iss _ _ _
      obtain ⟨u, y, hu, hy, hscr, hui, hmidst, hmade, hrest⟩ := inParts_scratchPut
        (s := loseIfRemote s g (ex.map key)) g t a.toNat (done := []) (todo := ps) (by rwa [hiss]) (by rwa [hiss]) _
      rw [hiss] at hy hscr hui hmade hrest
      rw [loseIfRemote_scr] at hscr
      exact ⟨u, y, ((exec_sts t a m s).trans (scratchStore_of_ok hr hm hk)).trans hu, hy, hscr, congrArg Issue.done hui,
        hmidst, hmade.trans (Nat.zero_add _), hrest⟩
    case last =>
      have hs := scratched_makePoints (scratched_scratchPut g t a.toNat) s g.parts.2
      exact ⟨_, exec_sts_of_last hw hr hm hh hle, scr_makePoints_scratchPut g t a.toNat s g.parts.2, hs.mem, hs.groups⟩
    case next =>
      obtain ⟨u, y, hu, hy, hscr, -, hmidst, -, hrest⟩ := inParts_scratchPut g t a.toNat (done := g.parts.1) hc hlt _
      exact ⟨u, y, ((exec_sts t a m s).trans (scratchStore_of_midst hr hm hh)).trans hu, hy, hscr, hmidst, hrest⟩
    case atomics =>
      refine ⟨length_requestsOf_gather _, fun r => mem_requestsOf_gather, fun hm hh glob hr => ?_⟩
      dsimp only
      rw [exec_atomic]
      refine ⟨fun hle => ?end_, fun hlt => ?more⟩
      case end_ => exact atomicIn_of_last hr hm hh hw hle
      case more =>
        obtain ⟨seen, he⟩ := atomicIn_of_midst hr hm hh
        obtain ⟨u, y, hu, hy, -, hui, hmidst, hmade, hrest⟩ := inParts_of_some (g := g) (done := g.parts.1)
          (k := fun u ps => atomEnd u g wide a.toNat ps (seen u ps)) (stays_atomMake glob g o wide a.toNat) hc hlt
        exact ⟨u, y, he.trans hu, hy, congrArg Issue.done hui, hmidst, hmade, hrest⟩

end Sys2Proof.Machine

namespace Sys2Proof.Machine

/-! O29: fences (R123, R130, R134). -/

/-- Commands of the group are unfinished, or their writes not yet visible. -/
def State.owes (s : State) (gid : Nat) : Prop := cmdsBusy s gid = true ∨ ∃ w ∈ s.late, w.g = gid

/-- A fence's hold has ended where nothing is owed, and at facet scope every access is made. -/
theorem fenceClear_iff (s : State) (gid : Nat) (g : Group) (scope : Nat) :
    fenceClear s gid g scope = true ↔ ¬ s.owes gid ∧ (scope = 2 → opsBusy g = false) := by
  by_cases h : scope = 2 <;> simp [fenceClear, State.owes, lateOf, h]

/-- The group that a fence holds (R134). -/
def Group.fencing (g : Group) (i : Issue) : Group :=
  { g with blocked := true, phase := 30, phaseVals := [], phaseAt := i.a, phaseLanes := i.lanes }

section
variable {s : State} {g : Group} (h : Issues s g {})
include h

/-- Until its hold ends, a fence holds its group. -/
theorem fenceOp_of_held {scope : Nat} (hc : ¬ fenceClear s s.iss.g g scope = true) :
    fenceOp s scope = .next { s with groups := tput s.groups s.iss.g (g.fencing s.iss) } := by
  rw [fenceOp, begin_of_issues h, if_neg hc]
  rfl

/-- Once its hold has ended, a fence completes. -/
theorem fenceOp_of_clear {scope : Nat} (hc : fenceClear s s.iss.g g scope = true) :
    fenceOp s scope = .next ((fenced s s.iss.g g scope).after g.settled) := by
  rw [fenceOp, begin_of_issues h, if_pos hc, complete_eq]

/-- A fence of a scope other than the facet waits for what is owed alone. -/
theorem fenceOp_cases {scope : Nat} (hscope : scope ≠ 2) :
    (s.owes s.iss.g → fenceOp s scope = .next { s with groups := tput s.groups s.iss.g (g.fencing s.iss) })
      ∧ (¬ s.owes s.iss.g → fenceOp s scope = .next ((fenced s s.iss.g g scope).after g.settled)) := by
  refine ⟨fun ho => fenceOp_of_held h ?_, fun ho => fenceOp_of_clear h ?_⟩
  · rw [fenceClear_iff]
    exact fun hc => hc.1 ho
  · rw [fenceClear_iff]
    exact ⟨ho, fun h2 => absurd h2 hscope⟩

/-- A fence of facet scope waits for the group's accesses too (R123). -/
theorem fenceOp_facet_cases :
    (s.owes s.iss.g ∨ opsBusy g = true →
      fenceOp s 2 = .next { s with groups := tput s.groups s.iss.g (g.fencing s.iss) })
      ∧ (¬ (s.owes s.iss.g ∨ opsBusy g = true) →
        fenceOp s 2 = .next ((fenced s s.iss.g g 2).after g.settled)) := by
  refine ⟨fun ho => fenceOp_of_held h ?_, fun ho => fenceOp_of_clear h ?_⟩
  · rw [fenceClear_iff]
    rintro ⟨hn, hops⟩
    exact ho.elim hn (by simp [hops rfl])
  · rw [fenceClear_iff]
    obtain ⟨hn, hops⟩ := not_or.mp ho
    exact ⟨hn, fun _ => by simpa using hops⟩

/-- `ack` drops the core's read copies (R120). -/
theorem exec_ack_of_issues :
    exec .ack s = .next (State.after { s with l1 := s.l1.filter fun p => p.1 / 2 ^ 60 != g.core } g) := by
  rw [exec_ack, execAck, begin_of_issues h, complete_eq]
  rfl

end

/-- The fences of a scope other than the facet, with their scopes' codes. -/
theorem exec_fence (s : State) :
    ∀ i ∈ [(Instr.fenceGroup, 0), (.fenceTeam, 1), (.fenceCluster, 3), (.fencePackage, 4), (.fenceSystem, 5)],
      exec i.1 s = fenceOp s i.2 ∧ i.2 ≠ 2 := by
  simp [exec_fenceGroup, execFenceGroup, exec_fenceTeam, execFenceTeam, exec_fenceCluster, execFenceCluster,
    exec_fencePackage, execFencePackage, exec_fenceSystem, execFenceSystem]

/-! O29: what a fence makes visible (R129, R130). -/

theorem coreTime_raiseTime_self (s : State) (a t : Nat) : coreTime (raiseTime s a t) a = max (coreTime s a) t := by
  simp only [coreTime, raiseTime, cget_cset_self]
  omega

theorem coreTime_raiseTime_ne (s : State) {a b : Nat} (t : Nat) (h : b ≠ a) :
    coreTime (raiseTime s a t) b = coreTime s b := by
  simp only [coreTime, raiseTime, cget_cset_ne 0 s.lts _ h]

/-- Logical time only rises. -/
theorem le_coreTime_raiseTime (s : State) (a t b : Nat) : coreTime s b ≤ coreTime (raiseTime s a t) b := by
  by_cases h : b = a
  · subst h
    rw [coreTime_raiseTime_self]
    exact le_max_left _ _
  · rw [coreTime_raiseTime_ne s t h]

/-- A core and its units come up to a stamp. -/
def raiseCore (t : Nat) (s : State) (c : Nat) : State := raiseTime (raiseTime s c t) (agentUnits c) t

theorem le_coreTime_raiseCore (t : Nat) (s : State) (c b : Nat) : coreTime s b ≤ coreTime (raiseCore t s c) b := by
  have hunits := le_coreTime_raiseTime (raiseTime s c t) (agentUnits c) t b
  rw [← raiseCore] at hunits
  exact le_trans (le_coreTime_raiseTime s c t b) hunits

theorem stamp_le_coreTime_raiseCore (t : Nat) (s : State) (c : Nat) : t ≤ coreTime (raiseCore t s c) c := by
  have hself : t ≤ coreTime (raiseTime s c t) c := by
    rw [coreTime_raiseTime_self]
    exact le_max_right _ _
  have hunits := le_coreTime_raiseTime (raiseTime s c t) (agentUnits c) t c
  rw [← raiseCore] at hunits
  exact le_trans hself hunits

@[simp] theorem raiseTime_mem (s : State) (a t : Nat) : (raiseTime s a t).mem = s.mem := rfl
@[simp] theorem raiseTime_scr (s : State) (a t : Nat) : (raiseTime s a t).scr = s.scr := rfl
theorem raiseCore_mem (t : Nat) (s : State) (c : Nat) : (raiseCore t s c).mem = s.mem := by
  simp only [raiseCore, raiseTime_mem]
theorem raiseCore_scr (t : Nat) (s : State) (c : Nat) : (raiseCore t s c).scr = s.scr := by
  simp only [raiseCore, raiseTime_scr]

theorem le_coreTime_raiseCores (t : Nat) (s : State) (cs : List Nat) (b : Nat) :
    coreTime s b ≤ coreTime (cs.foldl (raiseCore t) s) b := by
  induction cs generalizing s with
  | nil => exact le_rfl
  | cons c cs ih =>
    rw [List.foldl_cons]
    exact le_trans (le_coreTime_raiseCore t s c b) (ih (raiseCore t s c))

/-- Each of several cores comes up to the stamp. -/
theorem stamp_le_coreTime_raiseCores (t : Nat) (s : State) {cs : List Nat} {c : Nat} (h : c ∈ cs) :
    t ≤ coreTime (cs.foldl (raiseCore t) s) c := by
  induction cs generalizing s with
  | nil => cases h
  | cons d cs ih =>
    rw [List.foldl_cons]
    rcases List.mem_cons.mp h with rfl | h
    · exact le_trans (stamp_le_coreTime_raiseCore t s c) (le_coreTime_raiseCores t (raiseCore t s c) cs c)
    · exact ih (raiseCore t s d) h

theorem publish_of_cores (s : State) (core cid : Nat) {scope : Nat} (h : scope < 4) (t : Nat) :
    publish s core cid scope t = (scopeCores s core cid scope).foldl (raiseCore t) s := if_pos h

theorem publish_of_all (s : State) (core cid : Nat) {scope : Nat} (h : ¬ scope < 4) (t : Nat) :
    publish s core cid scope t = { s with ltFloor := max s.ltFloor t, stamp := max s.stamp t,
                                          olds := s.olds.filter fun e => decide (t < e.stamp) } :=
  if_neg h

/-- What is published, the cores of the scope do not fall below. -/
theorem stamp_le_coreTime_publish {s : State} {core cid scope c : Nat}
    (h : scope < 4 → c ∈ scopeCores s core cid scope) (t : Nat) : t ≤ coreTime (publish s core cid scope t) c := by
  by_cases hs : scope < 4
  · rw [publish_of_cores s core cid hs]
    exact stamp_le_coreTime_raiseCores t s (h hs)
  · rw [publish_of_all s core cid hs, coreTime]
    exact le_max_of_le_left (le_max_of_le_right (le_max_right _ _))

/-- A fence makes visible the engine writes it has waited for, and at facet scope the group's own accesses (R123,
R134). -/
theorem le_coreTime_fenced {s : State} {g : Group} {scope c : Nat}
    (h : scope < 4 → c ∈ scopeCores s g.core (clusterOf s g) scope) (gid : Nat) :
    engTime s gid ≤ coreTime (fenced s gid g scope) c
      ∧ (scope = 2 → coreTime s g.core ≤ coreTime (fenced s gid g scope) c) := by
  have hle := stamp_le_coreTime_publish h (if scope = 2 then max (engTime s gid) (coreTime s g.core) else engTime s gid)
  rw [← fenced] at hle
  by_cases h2 : scope = 2
  · rw [if_pos h2, Nat.max_le] at hle
    exact ⟨hle.1, fun _ => hle.2⟩
  · rw [if_neg h2] at hle
    exact ⟨hle, fun h => absurd h h2⟩

@[simp] theorem publish_mem (s : State) (core cid scope t : Nat) : (publish s core cid scope t).mem = s.mem := by
  by_cases h : scope < 4
  · rw [publish_of_cores s core cid h]
    exact foldl_keeps State.mem (raiseCore_mem t) _ s
  · rw [publish_of_all s core cid h]
@[simp] theorem publish_scr (s : State) (core cid scope t : Nat) : (publish s core cid scope t).scr = s.scr := by
  by_cases h : scope < 4
  · rw [publish_of_cores s core cid h]
    exact foldl_keeps State.scr (raiseCore_scr t) _ s
  · rw [publish_of_all s core cid h]

/-! O29: `tdisc` (R93). -/

@[simp] theorem loseIdem_llc (s : State) (g : Group) : (loseIdem s g).llc = s.llc := by
  unfold loseIdem; split <;> rfl

theorem mergeAll_of_none {s : State} (h : s.partials = []) : mergeAll s = s := by simp [mergeAll, h]

/-- Lines of the id keep dirty the sectors of the spill engine alone. -/
theorem dirty_discard {s : State} {id x : Nat} {p : Nat × LlcLine} (hp : p ∈ (discard s id).llc) (hid : p.2.tid = id)
    (hx : x ∈ p.2.dirty) : (tget (discard s id).spilled (4 * p.1 + x)).isSome := by
  obtain ⟨q, -, hq⟩ := List.mem_filterMap.mp hp
  split at hq
  · split at hq
    · cases hq
    · cases hq
      exact (List.mem_filter.mp hx).2
  · next hne =>
    cases hq
    exact absurd (beq_iff_eq.mpr hid) hne

/-- No read copy of the id stays. -/
theorem tid_of_mem_l1_discard {s : State} {id : Nat} {p : Nat × L1Copy} (hp : p ∈ (discard s id).l1) :
    p.2.tid ≠ id := by
  simpa using (List.mem_filter.mp hp).2

/-- A byte of memory of which no line of the id keeps what it was stays. -/
theorem rdByte_discard {s : State} {id x : Nat}
    (h : ∀ p ∈ s.llc, p.2.tid = id → ∀ o ∈ p.2.old, p.1 * 1024 + o.1 ≠ x) :
    rdByte (discard s id).mem x = rdByte s.mem x := by
  refine List.foldlRecOn (motive := fun m => rdByte m x = rdByte s.mem x) _ _ rfl fun m hm p hp => ?_
  obtain ⟨hp, hid⟩ := List.mem_filter.mp hp
  refine List.foldlRecOn (motive := fun m => rdByte m x = rdByte s.mem x) _ _ hm fun m hm o ho => ?_
  dsimp only
  split
  · exact hm
  · rw [rdByte_wrByte_ne _ _ (h p hp (by simpa using hid) o ho).symm, hm]

/-- Where no capture of the group is in flight, `tdisc` acts at once (R136). -/
theorem exec_tdisc_of_issues {s : State} {g : Group} {b : SReg} {id : Nat} (h : Issues s g { sr := [b.toNat] })
    (hc : capsBusy s s.iss.g = false) (hid : id = (g.sreg b.toNat).toNat % 2 ^ 10) :
    exec (.tdisc b) s
      = .next ((if id = 0 then loseIdem s g else discard (mergeAll (loseIdem s g)) id).after g) := by
  subst hid
  rw [exec_tdisc, execTdisc, begin_of_issues h]
  simp only [annHold, hc, fld, Nat.pow_zero, Nat.div_one, complete_eq]
  rfl

/-! O29: prefetches (R235). -/

theorem fillL1_apart (s : State) (core : Nat) (p : Loc) : (fillL1 s core p).apart = s.apart := by
  simp only [fillL1, fillSlice, apply_ite State.apart, fillSector_apart, grantCopy_apart, readSlice_apart, ite_self]

theorem holds_fillL1 {s : State} {m : List Host.Cell} (h : s.holds m) (core : Nat) (p : Loc) :
    (fillL1 s core p).holds m := by
  rw [fillL1, fillSlice]
  split
  · exact holds_fillSector h _ _
  · exact holds_grantCopy (holds_readSlice h _ _ _) _ _ _

section
variable {s s' : State} {g : Group} {m : MemOp} {bad : List (Nat × Fail × Nat)} {ps : List (Nat × Loc)}

/-- The checks of a prefetch. -/
def prefetchChecks (s : State) (g : Group) (m : MemOp) : State × List (Nat × Fail × Nat) × List (Nat × Loc) :=
  checkLanes (fun u l => checkAccessIn s.tlb u g.core g.id.ctx (g.memAddr true 256 m l) 1 .read anyFmt (natural 1))
    (g.memAddr true 256 m) s (lanesOf s.iss.lanes)

theorem ReadKeeps.prefetchChecks {P : State → Prop} (hP : ReadKeeps P) (h : P s) (g : Group) (m : MemOp) :
    P (prefetchChecks s g m).1 := by
  unfold Machine.prefetchChecks
  exact checkLanes_keeps (P := P) (fun u l hu => hP.checkAccessIn hu s.tlb g.core g.id.ctx (g.memAddr true 256 m l) 1
    .read anyFmt (natural 1)) (g.memAddr true 256 m) h (lanesOf s.iss.lanes)

/-- A prefetch acts for the lanes whose address passes the checks and lies in the device's own memory. -/
theorem prefetchOp_of_known (h : Issues s g { v := MemOp.vregs m, vr := MemOp.vregs m, sr := MemOp.sregs true m })
    (hk : Known g (MemOp.vregs m) (lanesOf s.iss.lanes)) (hc : prefetchChecks s g m = (s', bad, ps))
    (act : State → Group → Loc → State) :
    prefetchOp s m act
      = .next (((ps.filter fun p => pteTgt p.2.pte == 0).foldl (fun s p => act s g p.2) s').after g) := by
  rw [prefetchOp, begin_of_issues h, blocking_of_known hk]
  dsimp only
  rw [← prefetchChecks, hc, complete_eq]

end

/-- Settles O29: a fence publishes what it has waited for to the cores of its scope; `tdisc` takes back the dirty bytes
of the lines of its id; a prefetch only reads. At package and system scope what is published is so for every core
(log 101). -/
theorem orderingAndCaches : Obligations.OrderingAndCaches := by
  unfold Obligations.OrderingAndCaches
  intro s s' g b m bad ps wait held owed
  refine ⟨fun h => ⟨fun i hi => ?others, (fenceOp_facet_cases h).1, (fenceOp_facet_cases h).2,
    exec_ack_of_issues h⟩, fun scope c hc => ?visible, fun h hcaps => ?tdisc, fun h hk hchecks => ?prefetch⟩
  case others =>
    obtain ⟨he, hscope⟩ := exec_fence s i hi
    rw [he]
    exact fenceOp_cases h hscope
  case visible =>
    obtain ⟨heng, hcore⟩ := le_coreTime_fenced hc s.iss.g
    exact ⟨heng, hcore, publish_mem _ _ _ _ _, publish_scr _ _ _ _ _, fenced_groups _ _ _ _⟩
  case tdisc =>
    intro id
    have he := exec_tdisc_of_issues h hcaps (id := id) rfl
    refine ⟨fun hid => ?_, fun hid => ?_⟩
    · rw [he, if_pos hid]
    · rw [if_neg hid] at he
      refine ⟨_, he, fun p hp ht x hx => dirty_discard hp ht hx, fun p hp => tid_of_mem_l1_discard hp,
        fun hn x hx => ?_⟩
      have hmerged : mergeAll (loseIdem s g) = loseIdem s g := mergeAll_of_none (by rw [loseIdem_partials, hn])
      rw [hmerged, rdByte_discard (by rwa [loseIdem_llc]), loseIdem_mem]
  case prefetch =>
    intro near u1 u2
    have hc : prefetchChecks s g m = (s', bad, ps) := hchecks
    have hapart : s'.apart = s.apart := by
      have := (readKeeps_apart s.apart).prefetchChecks rfl g m
      rwa [hc] at this
    have hapart1 (u : State) (p : Nat × Loc) := fillL1_apart u g.core p.2
    have hapart2 (u : State) (p : Nat × Loc) := fillSector_apart u (p.2.key / 256) (pteTid p.2.pte)
    refine ⟨(exec_prefetchL1 m s).trans (prefetchOp_of_known h hk hc _),
      (exec_prefetchSlice m s).trans (prefetchOp_of_known h hk hc _),
      groups_of_apart ((foldl_keeps State.apart hapart1 near s').trans hapart),
      groups_of_apart ((foldl_keeps State.apart hapart2 near s').trans hapart), fun hn => ?_⟩
    have hs' : s'.holds s.mem := by
      have := (readKeeps_holds s.mem).prefetchChecks (holds_of_none hn) g m
      rwa [hc] at this
    have hu1 : u1.holds s.mem := List.foldlRecOn (motive := (State.holds · s.mem)) near _ hs' fun u hu p _ =>
      holds_fillL1 hu g.core p.2
    have hu2 : u2.holds s.mem := List.foldlRecOn (motive := (State.holds · s.mem)) near _ hs' fun u hu p _ =>
      holds_fillSector hu (p.2.key / 256) (pteTid p.2.pte)
    exact ⟨hu1.1, hu2.1⟩

end Sys2Proof.Machine

namespace Sys2Proof.Machine

/-! O47: fields of a register of which some bits are written. -/

theorem getLsbD_masked (old w m : Word) (i : Nat) :
    (masked old w m).getLsbD i = if m.getLsbD i then w.getLsbD i else old.getLsbD i := by
  by_cases hi : i < 32
  · simp only [masked, BitVec.getLsbD_or, BitVec.getLsbD_and, BitVec.getLsbD_not, hi, decide_true, Bool.true_and]
    cases m.getLsbD i <;> simp
  · simp only [BitVec.getLsbD_of_ge _ _ (Nat.le_of_not_lt hi), ite_self]

theorem testBit_fld (w : Word) (lo n i : Nat) : (fld w lo n).testBit i = (decide (i < n) && w.getLsbD (i + lo)) := by
  rw [fld, Nat.testBit_mod_two_pow, Nat.testBit_div_two_pow, BitVec.testBit_toNat]

/-- Words that agree in the bits of a field agree in the field. -/
theorem fld_congr {w v : Word} {lo n : Nat} (h : ∀ i, lo ≤ i → i < lo + n → w.getLsbD i = v.getLsbD i) :
    fld w lo n = fld v lo n := by
  refine Nat.eq_of_testBit_eq fun i => ?_
  rw [testBit_fld, testBit_fld]
  by_cases hi : i < n
  · rw [h (i + lo) (by omega) (by omega)]
  · simp [hi]

/-- A field within the mask is written. -/
theorem fld_masked_of_mem {m : Word} {lo n : Nat} (h : ∀ i, lo ≤ i → i < lo + n → m.getLsbD i = true) (old w : Word) :
    fld (masked old w m) lo n = fld w lo n :=
  fld_congr fun i h1 h2 => by rw [getLsbD_masked, if_pos (h i h1 h2)]

/-- A field outside the mask stays. -/
theorem fld_masked_of_not_mem {m : Word} {lo n : Nat} (h : ∀ i, lo ≤ i → i < lo + n → m.getLsbD i = false)
    (old w : Word) : fld (masked old w m) lo n = fld old lo n :=
  fld_congr fun i h1 h2 => by rw [getLsbD_masked, if_neg (by simp [h i h1 h2])]

/-- The field from a bit to the top of the word. -/
theorem fld_top (w : Word) {lo n : Nat} (h : lo + n = 32) : fld w lo n = w.toNat / 2 ^ lo := by
  have hw : w.toNat < 2 ^ lo * 2 ^ n := by
    rw [← Nat.pow_add, h]
    exact w.isLt
  exact Nat.mod_eq_of_lt (Nat.div_lt_of_lt_mul hw)

theorem fld_bottom (w : Word) (n : Nat) : fld w 0 n = w.toNat % 2 ^ n := by rw [fld, Nat.pow_zero, Nat.div_one]

theorem toNat_word (n : Nat) : (word n).toNat = n % 2 ^ 32 := rfl

/-! O47: walks, leases and spill writes. -/

theorem exec_pageWalk_of_valid {s : State} {core ctx va : Nat} (hv : ctxValid s ctx = true)
    (hq : partOfQuad s (quadOf core) = some (ctxPart s ctx)) (hva : va < 2 ^ 56) :
    exec (.pageWalk core ctx va) s = .next (translate s core ctx va).1 := by
  rw [exec_pageWalk, execPageWalk, if_pos]
  rw [hv, hq, decide_eq_true hva, BEq.rfl]
  rfl

section
variable {s : State} {core line : Nat} {x : L1Copy} (h : tget s.l1 (l1Key core line) = some x)
include h

/-- A copy lapses 2048 ns after its grant, and not before (R119). -/
theorem exec_l1CopyLapse_of_late (hx : x.grant + 2048 ≤ s.time) :
    exec (.l1CopyLapse core line) s = .next { s with l1 := cdel s.l1 (l1Key core line) } := by
  rw [exec_l1CopyLapse, execL1CopyLapse, h]
  exact if_pos hx
theorem exec_l1CopyLapse_of_early (hx : s.time < x.grant + 2048) : exec (.l1CopyLapse core line) s = .next s := by
  rw [exec_l1CopyLapse, execL1CopyLapse, h]
  exact if_neg (by omega)

end

/-- A spill write that has been made: the last one of a column ends its reservation (R114). -/
def spillLeft (s : State) (q : SpillReq) : State :=
  match resvOf s q.core q.ctx q.slot with
  | some r => if (s.spills.any fun p => p.2.ctx == q.ctx && p.2.slot == q.slot && p.2.core == q.core) || r.failed then s
      else dropResv s q.core q.ctx q.slot
  | none => s

section
variable {s u : State} {id : Nat} {q : SpillReq} (h : tget s.spills id = some q) (hout : spillOut s id q.core = true)
  (hheld : arenaHeld s q.core = false) (hu : { s with spills := cdel s.spills id } = u)
include h hout hheld hu

/-- A spill write of a surface that is gone is dropped. -/
theorem spillDone_of_gone (hgone : surfAt u q.ctx q.slot = none) : spillDone s id = u := by
  subst hu
  simp only [spillDone, h, hout, hheld, hgone, Bool.not_true, Bool.or_self, Bool.false_eq_true, if_false]

/-- A spill write that can be made leaves the arena. -/
theorem spillDone_of_written {f : Surf} {t : State} (hf : surfAt u q.ctx q.slot = some f)
    (ht : homeWrite u q.ctx q.slot q.core f q.tile (tileOf u q.ctx q.slot f q.tile).mode
      (tileElems u q.ctx q.slot f q.tile) = .ok t) :
    spillDone s id = spillLeft (leaveArena t q.ctx q.slot f q.tile) q := by
  subst hu
  simp only [spillDone, h, hout, hheld, hf, ht, Bool.not_true, Bool.or_self, Bool.false_eq_true, if_false]
  rfl

end

/-! O47: accesses from outside (R90, R121, R147, R401). -/

theorem linked_of_keys {s : State} (h : s.sessionKeys = true) (k : State → Out) : linked s k = k s := if_pos h

/-- A range within one line of 64 bytes is one piece. -/
theorem linePieces_of_line {a n : Nat} (h : a % 64 + n ≤ 64) (hn : 0 < n) : linePieces a n = [(a, n)] := by
  have hone : ceilDiv (a % 64 + n) 64 = 1 := by
    rw [ceilDiv]
    omega
  have hlo : max a (a / 64 * 64) = a := by omega
  have hlen : min (a + n) (a / 64 * 64 + 64) - a = n := by omega
  have hne : (n != 0) = true := by simpa using hn.ne'
  simp [linePieces, hone, hlo, hlen, hne]

theorem aboardIn_of_none {s : State} (h : s.aboard = []) (a n : Nat) : aboardIn s a n = none := by
  simp [aboardIn, aboardOver, h]

theorem holds_readAgent {s : State} {m : List Host.Cell} (h : s.holds m) (a key n tid : Nat) :
    (readAgent s a key n tid).1.holds m := by
  rw [readAgent, reach_of_none h.2]
  exact holds_readSlice h key n tid

/-- Where no reduction waits, an agent finds the bytes as they stand. -/
theorem readAgent_snd {s : State} (h : s.partials = []) (a key n tid : Nat) :
    (readAgent s a key n tid).2 = rdN s.mem key n := by
  have hr : (readAgent s a key n tid).2 = rdN (readSlice s key n tid).1.mem key n := by
    rw [readAgent, reach_of_none h]
    rfl
  rw [hr, (holds_readSlice (holds_of_none h) key n tid).1]

theorem dirtyLine_mem (s : State) (key n : Nat) : (dirtyLine s key n).mem = s.mem := by
  unfold dirtyLine; split <;> rfl

/-- Where no reduction waits, an agent's write changes its bytes alone. -/
theorem writeCore_mem {s : State} (h : s.partials = []) (a key n v tid : Nat) :
    (writeCore s a key n v tid).mem = wrN s.mem key n v := by
  have hfill := (holds_fillSector (holds_of_none h) (key / 256) tid).1
  have hmem : (writeCore s a key n v tid).mem = (writeSector s key n v tid (writeStamp s a key)).mem := by
    rw [writeCore, reach_of_none h]
    rfl
  have hstore : (writeSector s key n v tid (writeStamp s a key)).mem
      = wrN (if key < hbmEnd then dirtyLine (fillSector s (key / 256) tid) key n else s).mem key n v := by
    rw [writeSector, mergeLine_of_none h]
    rfl
  rw [hmem, hstore, apply_ite State.mem, dirtyLine_mem, hfill, ite_self]

theorem ofBytes_lt (bs : List Byte) : ofBytes bs < 256 ^ bs.length := by
  induction bs with
  | nil => exact Nat.one_pos
  | cons b bs ih =>
    have hcons : ofBytes (b :: bs) = b.toNat + 256 * ofBytes bs := rfl
    have hb : b.toNat < 256 := b.isLt
    rw [hcons, List.length_cons, Nat.pow_succ]
    omega

section
variable {s : State} (ha : s.aboard = []) (hp : s.partials = [])
include ha hp

/-- A reader outside finds the bytes of a piece as they stand, and changes none. -/
theorem answer_outReads {a n : Nat} (hl : a % 64 + n ≤ 64) (hn : 0 < n) (who : Nat) :
    let r := outReads s who a n
    (answer r.1 (ofBytes r.2)).mem = s.mem
      ∧ (answer r.1 (ofBytes r.2)).hostReads = ofBytes (bytesOf n (rdN s.mem a n)) :: s.hostReads := by
  have hr : outReads s who a n = ((readAgent s who a n 0).1, bytesOf n (readAgent s who a n 0).2) := by
    simp [outReads, linePieces_of_line hl hn, outRead, aboardIn_of_none ha]
  have hmem : (readAgent s who a n 0).1.mem = s.mem := (holds_readAgent (holds_of_none hp) who a n 0).1
  have hreads : (readAgent s who a n 0).1.hostReads = s.hostReads := hostReads_of_apart (readAgent_apart s who a n 0)
  rw [hr, readAgent_snd hp]
  exact ⟨hmem, by rw [answer, hreads]⟩

/-- A writer outside writes the bytes of a piece, and no other. -/
theorem mem_outWrites {a : Nat} {bs : List Byte} (hl : a % 64 + bs.length ≤ 64) (hn : 0 < bs.length) (who : Nat) :
    let t := outWrites s who a bs
    rdN t.mem a bs.length = ofBytes bs ∧ ∀ x, (x < a ∨ a + bs.length ≤ x) → rdByte t.mem x = rdByte s.mem x := by
  have hw : outWrites s who a bs = writeCore s who a bs.length (ofBytes bs) 0 := by
    simp [outWrites, linePieces_of_line hl hn, outWrite, aboardIn_of_none ha]
  dsimp only
  rw [hw, writeCore_mem hp]
  exact ⟨(rdN_wrN _ _ _ _).trans (Nat.mod_eq_of_lt (ofBytes_lt bs)), fun x hx => rdByte_wrN_ne _ _ _ _ _ hx⟩

end

end Sys2Proof.Machine

namespace Sys2Proof.Machine

/-! O47: requests to peers without a reply, and flits received (R394, R400, R401). -/

section
variable {s t : State} {n id : Nat} {r : VlReq} (h : tget s.vlreqs n = some r) (hr : r.cmd = some id)
include h

theorem exec_vlReplyTimeout_of_early (ht : s.time < r.since + 1000 * ((regGet s 0x885).toNat % 2 ^ 16)) :
    exec (.vlReplyTimeout n) s = .next s := by
  rw [exec_vlReplyTimeout, execVlReplyTimeout, h]
  exact if_pos (by rwa [fld_bottom])

include hr
variable (ht : r.since + 1000 * ((regGet s 0x885).toNat % 2 ^ 16) ≤ s.time)
  (hu : { s with vlreqs := cdel s.vlreqs n } = t)
include ht hu

/-- A request whose command is gone is forgotten. -/
theorem exec_vlReplyTimeout_of_gone (hx : tget s.cmds id = none) : exec (.vlReplyTimeout n) s = .next t := by
  subst hu
  rw [exec_vlReplyTimeout, execVlReplyTimeout]
  simp only [h, hr, hx, fld_bottom, if_neg (Nat.not_lt.mpr ht)]

/-- A request that has waited VLTO fails its command, unless that has finished (R401). -/
theorem exec_vlReplyTimeout_of_late {x : Cmd} (hx : tget s.cmds id = some x) : exec (.vlReplyTimeout n) s
    = .next (if x.stage = .finished then t
        else if x.kind = .putSig ∨ x.kind = .getp then xferFail t id x failPlain 4 0
        else cmdFail t id x failPlain 4 0) := by
  subst hu
  rw [exec_vlReplyTimeout, execVlReplyTimeout]
  simp only [h, hr, hx, fld_bottom, if_neg (Nat.not_lt.mpr ht), apply_ite Host.Outcome.next]

end

section
variable {s : State} {port flit : Nat} (hport : port < 18)
include hport

/-- A flit with a bad CRC is counted at its port, whose other fields stay. -/
theorem exec_vlFlitReceive_of_bad (hcrc : flit / 2 ^ 16 % 2 = 1) : exec (.vlFlitReceive port flit) s
    = .next (regSet s (0x8A0 + port)
        (masked (regGet s (0x8A0 + port)) (regGet s (0x8A0 + port) + 1) 0x07FFFFFF)) := by
  rw [exec_vlFlitReceive, execVlFlitReceive, if_neg (by omega), if_pos hcrc]

variable (hcrc : ¬ flit / 2 ^ 16 % 2 = 1) (hkeys : s.sessionKeys = true)
include hcrc hkeys

theorem exec_vlFlitReceive_of_own (hdom : flit % 2 ^ 16 = (regGet s 0x881).toNat % 2 ^ 16) :
    exec (.vlFlitReceive port flit) s = .next s := by
  rw [exec_vlFlitReceive, execVlFlitReceive, if_neg (by omega), if_neg hcrc, linked_of_keys hkeys,
    fld_bottom, if_pos hdom]

/-- A flit of another domain is dropped and counted (R394). -/
theorem exec_vlFlitReceive_of_other (hdom : flit % 2 ^ 16 ≠ (regGet s 0x881).toNat % 2 ^ 16) :
    exec (.vlFlitReceive port flit) s
      = .next (regSet s 0x886 (word ((fld (regGet s 0x886) 14 18 + 1) % 2 ^ 18 * 2 ^ 14))) := by
  rw [exec_vlFlitReceive, execVlFlitReceive, if_neg (by omega), if_neg hcrc, linked_of_keys hkeys,
    fld_bottom, if_neg hdom]

end

/-- A port's count of bad flits goes on by one. -/
theorem fld_count (w : Word) : fld (masked w (w + 1) 0x07FFFFFF) 0 27 = (fld w 0 27 + 1) % 2 ^ 27 := by
  rw [fld_masked_of_mem (by decide), fld_bottom, fld_bottom, BitVec.toNat_add]
  have hone : (1 : Word).toNat = 1 := rfl
  omega

/-! O47: the vertical ratio (R386, R387). -/

theorem wantedRatio_eq (s : State) : wantedRatio s = max ((regGet s 0x400).toNat % 16) s.floor := by
  rw [wantedRatio, fld_bottom, show (2 : Nat) ^ 4 = 16 from rfl]

theorem exec_ratioChange_of_new {s : State} (hr : wantedRatio s ≠ s.ratio) (hs : s.stall = none) :
    exec .ratioChange s = .next { s with stall := some (s.mclk + 96, wantedRatio s) } := by
  rw [exec_ratioChange, execRatioChange, if_neg]
  simp [hr, hs]

/-- Trace records leave the ratio, its stall, the groups and memory alone. -/
theorem foldl_emit_vertical (ty k src pl : Nat) (s : State) (ps : List Nat) :
    let t := ps.foldl (fun s p => emit s ty k p src pl Names.none) s
    t.ratio = s.ratio ∧ t.stall = s.stall ∧ t.groups = s.groups ∧ t.mem = s.mem := by
  have hkeep := foldl_keeps (f := fun s p => emit s ty k p src pl Names.none)
    (fun s : State => (s.ratio, s.stall, s.groups, s.mem)) (fun s p => by
      rcases emit_cases s ty k p src pl Names.none with h | ⟨_, h⟩ | ⟨_, h⟩ <;> rw [h]) ps s
  simpa only [Prod.mk.injEq] using hkeep

section
variable {s : State} {e q : Nat} (h : s.stall = some (e, q))
include h

theorem exec_ratioStallEnd_of_over (he : e ≤ s.mclk) : ∃ t, exec .ratioStallEnd s = .next t ∧ t.ratio = q
    ∧ t.stall = none ∧ t.groups = s.groups ∧ t.mem = s.mem := by
  rw [exec_ratioStallEnd, execRatioStallEnd, h]
  exact ⟨_, if_neg (by omega), foldl_emit_vertical _ _ _ _ { s with stall := none, ratio := q } _⟩
theorem exec_ratioStallEnd_of_under (he : s.mclk < e) : exec .ratioStallEnd s = .next s := by
  rw [exec_ratioStallEnd, execRatioStallEnd, h]
  exact if_pos he

end

/-! O47: bus retirement (R388 to R390). -/

theorem exec_busRetire_of_waiting {s : State} {core bus : Nat} {rest : List (Nat × Nat)} (hr : s.retire = none)
    (hq : s.retireQueue = (core, bus) :: rest) (hb : bus ∉ (columnOf s core).retired) :
    exec .busRetire s = .next { s with retireState := 1, retire := some (retireJob s core bus)
                                       retireQueue := rest.filter fun q => !(columnOf s q.1).retired.contains q.2 } := by
  have hfirst : s.retireQueue.filter (fun p => !(columnOf s p.1).retired.contains p.2)
      = (core, bus) :: rest.filter fun p => !(columnOf s p.1).retired.contains p.2 := by
    rw [hq, List.filter_cons_of_pos (by simpa using hb)]
  rw [exec_busRetire, execBusRetire]
  simp only [hr, hq]
  rw [nextRetire, hfirst]

theorem exec_retireCopyDone_of_copying {s : State} {j : RetireJob} (hj : s.retire = some j) (hs : s.stall = none)
    (hc : j.copying = true) : exec .retireCopyDone s = .next (retireFinish s j) := by
  rw [exec_retireCopyDone, execRetireCopyDone]
  simp [hj, hs, hc]

/-- What starts next leaves columns, groups and scratch alone; with none waiting, no retirement is under way. -/
theorem nextRetire_keeps (s : State) :
    (nextRetire s).columns = s.columns ∧ (nextRetire s).groups = s.groups ∧ (nextRetire s).scr = s.scr := by
  unfold nextRetire
  split <;> exact ⟨rfl, rfl, rfl⟩

theorem nextRetire_of_none {s : State} (h : s.retireQueue = []) :
    (nextRetire s).retire = s.retire ∧ (nextRetire s).retireState = if s.retireState = 1 then 2 else s.retireState := by
  unfold nextRetire
  rw [h]
  exact ⟨rfl, rfl⟩

/-- A retirement whose core is not degraded is over at once. -/
theorem retireEmpty_of_sound {s : State} {j : RetireJob} (h : degraded s j.core = false) :
    retireEmpty s j = nextRetire { s with retire := none, retireState := 2 } := by
  simp [retireEmpty, h]

/-- With fewer than 6 buses retired, the remap ends the retirement: its bus is retired, and no work is vacated. -/
theorem retireFinish_of_few {s : State} {j : RetireJob} (h : (columnOf s j.core).retired.length < 5) :
    ∃ u : State, retireFinish s j = nextRetire { u with retire := none, retireState := 2 }
      ∧ (columnOf u j.core).retired = (columnOf s j.core).retired ++ [j.bus] ∧ u.retireQueue = s.retireQueue
      ∧ u.groups = s.groups ∧ u.scr = s.scr := by
  have hfew : decide (6 ≤ ((columnOf s j.core).retired ++ [j.bus]).length) = false := by
    rw [List.length_append]
    exact decide_eq_false (Nat.not_le.mpr (Nat.succ_lt_succ h))
  unfold retireFinish
  extract_lets c us gone v w
  have hcols : w.columns = v.columns := by
    simp only [w]
    split
    · split <;> rfl
    · rfl
  have hcol : columnOf w j.core = { c with units := us, retired := gone, degraded := decide (6 ≤ gone.length) } := by
    rw [columnOf, hcols]
    simp only [v, tget_tput_self, Option.getD_some]
  refine ⟨w, retireEmpty_of_sound (by rw [degraded, hcol, hfew]), by rw [hcol], ?_, ?_, ?_⟩
  all_goals
    simp only [w]
    split
    · split <;> rfl
    · rfl

/-- Such a remap retires the bus, and leaves groups and scratch alone. -/
theorem retireFinish_keeps_of_few {s : State} {j : RetireJob} (h : (columnOf s j.core).retired.length < 5) :
    (columnOf (retireFinish s j) j.core).retired = (columnOf s j.core).retired ++ [j.bus]
      ∧ (retireFinish s j).groups = s.groups ∧ (retireFinish s j).scr = s.scr := by
  obtain ⟨u, hu, hretired, -, hgroups, hscr⟩ := retireFinish_of_few h
  obtain ⟨hcols, hgs, hsc⟩ := nextRetire_keeps { u with retire := none, retireState := 2 }
  rw [hu]
  refine ⟨?_, hgs.trans hgroups, hsc.trans hscr⟩
  rw [columnOf, hcols]
  exact hretired

/-- With no other waiting, it is the last retirement. -/
theorem retireFinish_over_of_few {s : State} {j : RetireJob} (h : (columnOf s j.core).retired.length < 5)
    (hq : s.retireQueue = []) : (retireFinish s j).retire = none ∧ (retireFinish s j).retireState = 2 := by
  obtain ⟨u, hu, -, hqueue, -, -⟩ := retireFinish_of_few h
  rw [hu]
  exact nextRetire_of_none (s := { u with retire := none, retireState := 2 }) (hqueue.trans hq)

/-! O47: the on-die network (R393). -/

/-- Of the states of the subnetworks, one is set. -/
theorem subnetState_setSubnet {k v i : Nat} (hk : k < 4) (hv : v < 4) (hi : i < 4) (s : State) :
    subnetState (setSubnet s k v) i = if i = k then v else subnetState s i := by
  have hmask : ∀ k < 4, ∀ j < 32, (word (3 * 4 ^ k)).getLsbD j = decide (j / 2 = k) := by decide
  rw [subnetState, setSubnet, regGet_regSet_self]
  split
  · next h =>
    subst h
    have hval : ∀ v < 4, ∀ i < 4, fld (word (v * 4 ^ i)) (2 * i) 2 = v := by decide
    rw [fld_masked_of_mem fun j _ _ => (hmask i hi j (by omega)).trans (decide_eq_true (by omega)), hval v hv i hi]
  · rw [fld_masked_of_not_mem fun j _ _ => (hmask k hk j (by omega)).trans (decide_eq_false (by omega)), subnetState]

/-- An event brings the state of one subnetwork to a value, and leaves the others'. -/
def SubnetGoes (s : State) (i : Instr) (k v : Nat) : Prop :=
  ∃ t, exec i s = .next t ∧ subnetState t k = v ∧ ∀ i, i < 4 → i ≠ k → subnetState t i = subnetState s i

theorem subnetGoes_of_set {s u : State} {i : Instr} {k v : Nat} (hk : k < 4) (hv : v < 4) (hr : u.regs = s.regs)
    (h : exec i s = .next (setSubnet u k v)) : SubnetGoes s i k v := by
  have hu (i : Nat) : subnetState u i = subnetState s i := by rw [subnetState, subnetState, regGet, regGet, hr]
  refine ⟨_, h, ?_, fun i hi hne => ?_⟩
  · rw [subnetState_setSubnet hk hv hk, if_pos rfl]
  · rw [subnetState_setSubnet hk hv hi, if_neg hne, hu]

/-- What a report of a subnetwork's occupancy leaves of it (log 83). -/
def Subnet.reported (x : Subnet) (s : State) (occ : Nat) : Subnet :=
  { busySince := if fld (regGet s 0x800) 8 8 < occ then some (x.busySince.getD s.time) else none
    idle := if occ = 0 then some (x.idle.getD s.time) else none }

theorem subnetReport_eq (s : State) (k occ : Nat) :
    subnetReport s k occ = { s with subnets := tput s.subnets k ((subnetOf s k).reported s occ) } := by
  simp only [subnetReport, Subnet.reported, decide_eq_true_eq, beq_iff_eq]

theorem subnetOf_subnetReport (s : State) (k occ : Nat) :
    subnetOf (subnetReport s k occ) k = (subnetOf s k).reported s occ := by
  rw [subnetReport_eq, subnetOf, tget_tput_self, Option.getD_some]

/-- A subnetwork below the threshold, or above it for less than 1 µs, has not been reported busy for 1 µs. -/
theorem time_lt_of_quiet {s : State} {x : Subnet} {occ t0 : Nat}
    (h : ¬ fld (regGet s 0x800) 8 8 < occ ∨ x.busySince = none ∨ ∃ t0, x.busySince = some t0 ∧ s.time < t0 + 1000)
    (ht : (x.reported s occ).busySince = some t0) : s.time < t0 + 1000 := by
  have hbusy : fld (regGet s 0x800) 8 8 < occ := by
    by_contra hn
    rw [Subnet.reported, if_neg hn] at ht
    cases ht
  have hsince : x.busySince.getD s.time = t0 := by
    rw [Subnet.reported, if_pos hbusy] at ht
    exact Option.some.inj ht
  rcases h with h | h | ⟨t, h, hlt⟩
  · exact absurd hbusy h
  · rw [h, Option.getD_none] at hsince
    omega
  · rw [h, Option.getD_some] at hsince
    omega

section
variable {s : State} {k occ : Nat} (hk : 1 ≤ k) (hk3 : k ≤ 3) (hon : subnetState s (k - 1) = 3)
include hk hk3 hon

/-- A subnetwork wakes when the one below has been over the threshold for 1 µs. -/
theorem exec_subnetWake_of_busy {t0 : Nat} (hoff : subnetState s k = 0) (hp : s.pstate = 0)
    (hs : ((subnetOf s (k - 1)).reported s occ).busySince = some t0) (ht : t0 + 1000 ≤ s.time) :
    exec (.subnetWake k occ) s = .next (setSubnet (subnetReport s (k - 1) occ) k 1) := by
  rw [exec_subnetWake, execSubnetWake, if_neg (by omega)]
  simp only [subnetOf_subnetReport, hs]
  exact if_pos ⟨hk3, hoff, ht, hp⟩

/-- Until then a report is all that an occupancy leaves. -/
theorem exec_subnetWake_of_quiet
    (hs : ∀ t0, ((subnetOf s (k - 1)).reported s occ).busySince = some t0 → s.time < t0 + 1000) :
    exec (.subnetWake k occ) s = .next (subnetReport s (k - 1) occ) := by
  rw [exec_subnetWake, execSubnetWake, if_neg (by omega)]
  simp only [subnetOf_subnetReport]
  split
  · next t0 h0 => exact if_neg fun ⟨_, _, ht, _⟩ => absurd (hs t0 h0) (Nat.not_lt.mpr ht)
  · rfl

omit hon

theorem exec_subnetOn_of_waking (h : subnetState s k = 1) : exec (.subnetOn k) s = .next (setSubnet s k 3) := by
  rw [exec_subnetOn, execSubnetOn, if_pos ⟨hk, hk3, h⟩]

/-- A subnetwork sleeps after 100 µs without traffic, the next one being off. -/
theorem exec_subnetOff_of_late {t0 : Nat} (hi : (subnetOf s k).idle = some t0) (h : subnetState s k = 3)
    (hnext : k = 3 ∨ subnetState s (k + 1) = 0) (ht : t0 + 100000 ≤ s.time) :
    exec (.subnetOff k) s = .next (setSubnet s k 0) := by
  rw [exec_subnetOff, execSubnetOff]
  simp only [hi]
  exact if_pos ⟨hk, hk3, h, hnext, ht⟩

end

theorem exec_subnetOff_of_early {s : State} {k t0 : Nat} (hi : (subnetOf s k).idle = some t0)
    (ht : s.time < t0 + 100000) : exec (.subnetOff k) s = .next s := by
  rw [exec_subnetOff, execSubnetOff]
  simp only [hi]
  exact if_neg fun ⟨_, _, _, _, h⟩ => absurd ht (Nat.not_lt.mpr h)

/-! O47: the links (R394, R396). -/

/-- Training shows the lanes in use, and whether the port is up. -/
theorem exec_vimenLinkPortTraining_of_port {port lanes : Nat} (hp : port < 18) (hl : lanes ≤ 8) (s : State) :
    ∃ t, exec (.vimenLinkPortTraining port lanes) s = .next t
      ∧ fld (regGet t (0x8A0 + port)) 31 1 = (if lanes = 0 then 0 else 1)
      ∧ fld (regGet t (0x8A0 + port)) 27 4 = lanes := by
  rw [exec_vimenLinkPortTraining, execVimenLinkPortTraining, if_neg (by omega)]
  refine ⟨_, rfl, ?_, ?_⟩
  · rw [regGet_regSet_self, fld_masked_of_mem (by decide)]
    have hup : ∀ n ≤ 8, fld (word ((if n = 0 then 0 else 2 ^ 31) + n * 2 ^ 27)) 31 1
        = if n = 0 then 0 else 1 := by decide
    exact hup lanes hl
  · rw [regGet_regSet_self, fld_masked_of_mem (by decide)]
    have hlanes : ∀ n ≤ 8, fld (word ((if n = 0 then 0 else 2 ^ 31) + n * 2 ^ 27)) 27 4 = n := by decide
    exact hlanes lanes hl

end Sys2Proof.Machine

namespace Sys2Proof.Machine

/-! O47: accesses from outside, by target (R90, R397, R401). -/

/-- A read from outside: the answer is the bytes as they stand, which it leaves alone. -/
def AnswersRead (s : State) (n k : Nat) (i : Instr) : Prop :=
  ∃ t, exec i s = .next t ∧ t.mem = s.mem ∧ t.hostReads = ofBytes (bytesOf n (rdN s.mem k n)) :: s.hostReads

/-- A write from outside: its bytes stand there, and every other byte as before. -/
def MakesWrite (s : State) (n : Nat) (bs : List Byte) (k : Nat) (i : Instr) : Prop :=
  ∃ t, exec i s = .next t ∧ rdN t.mem k n = ofBytes bs ∧ ∀ a, (a < k ∨ k + n ≤ a) → rdByte t.mem a = rdByte s.mem a

/-- The range of `n` bytes at `a` lies in the window that peers may reach (R394). -/
def InWindow (s : State) (a n : Nat) : Prop :=
  regGet64 s 0x882 % 2 ^ 56 / 65536 * 65536 ≤ a
    ∧ a + n ≤ regGet64 s 0x882 % 2 ^ 56 / 65536 * 65536 + (regGet s 0x884).toNat % 2 ^ 26 * 65536

theorem inPeerWindow_iff (s : State) (a n : Nat) : inPeerWindow s a n = true ↔ InWindow s a n ∧ a + n ≤ hbmEnd := by
  simp [inPeerWindow, InWindow, fld_bottom]

section
variable {s : State} {a : Nat} {bs : List Byte} (ha : s.aboard = []) (hp : s.partials = [])
  (hl : a % 64 + bs.length ≤ 64) (hn : 0 < bs.length)
include ha hp hl hn

theorem hostMemory_access (hend : a + bs.length ≤ 2 ^ 56) :
    AnswersRead s bs.length (hostKey + a) (.hostAccess .hostMemory a bs.length none)
      ∧ MakesWrite s bs.length bs (hostKey + a) (.hostAccess .hostMemory a bs.length (some bs)) := by
  have hl' : (hostKey + a) % 64 + bs.length ≤ 64 := by
    rw [hostKey]
    omega
  exact ⟨⟨_, (exec_hostAccess _ _ _ _ s).trans (if_neg (Nat.not_lt.mpr hend)), answer_outReads ha hp hl' hn agentHost⟩,
    ⟨_, (exec_hostAccess _ _ _ _ s).trans (if_neg (Nat.not_lt.mpr hend)), mem_outWrites ha hp hl' hn agentHost⟩⟩

variable (hkeys : s.sessionKeys = true) (hend : a + bs.length ≤ hbmEnd)
include hkeys hend

theorem device_access : AnswersRead s bs.length a (.hostAccess .device a bs.length none)
    ∧ MakesWrite s bs.length bs a (.hostAccess .device a bs.length (some bs)) := by
  refine ⟨⟨_, ?_, answer_outReads ha hp hl hn agentHost⟩, ⟨_, ?_, mem_outWrites ha hp hl hn agentHost⟩⟩
  all_goals
    rw [exec_hostAccess, execHostAccess, if_neg (Nat.not_lt.mpr hend)]
    exact linked_of_keys hkeys _

theorem peer_access (hw : InWindow s a bs.length) (dev : Nat) : AnswersRead s bs.length a (.peerAccess dev .read a bs)
    ∧ MakesWrite s bs.length bs a (.peerAccess dev .write a bs) := by
  have hin : inPeerWindow s a bs.length = true := (inPeerWindow_iff s a bs.length).mpr ⟨hw, hend⟩
  refine ⟨⟨_, ?_, answer_outReads ha hp hl hn (agentPeer dev)⟩, ⟨_, ?_, mem_outWrites ha hp hl hn (agentPeer dev)⟩⟩
  all_goals
    rw [exec_peerAccess]
    unfold execPeerAccess
    exact (if_neg (by simp [hin])).trans (linked_of_keys hkeys _)

end

/-- A peer's access outside the window has no effect. -/
theorem exec_peerAccess_of_outside {s : State} {a : Nat} {bs : List Byte} (hw : ¬ InWindow s a bs.length) (dev : Nat)
    {k : PeerOp} (hk : k = .read ∨ k = .write) : exec (.peerAccess dev k a bs) s = .next s := by
  have hout : inPeerWindow s a bs.length = false :=
    Bool.eq_false_iff.mpr fun h => hw ((inPeerWindow_iff s a bs.length).mp h).1
  rw [exec_peerAccess]
  unfold execPeerAccess
  rcases hk with rfl | rfl
  · exact if_pos (by simp [hout])
  · exact if_pos (by simp [hout])

/-- Settles O47: each event is taken in its own cases. Accesses out of range have no effect (log 80), a flit is given as
its domain and whether its CRC fails (log 108), and the subnetworks' levels are those that the event reports (log 83).
Which traffic is protected is log 89; a bus that is retired already is skipped (log 73). -/
theorem memoryAndFabricEvents : Obligations.MemoryAndFabricEvents := by
  unfold Obligations.MemoryAndFabricEvents
  intro s core ctx va n bs
  refine ⟨exec_pageWalk_of_valid, fun line x h => ⟨exec_l1CopyLapse_of_late h, exec_l1CopyLapse_of_early h⟩,
    exec_tlbEntryDrop n s, fun x hx hout hheld => ⟨fun hgone => ?gone, fun f t hf ht => ?written⟩, ?outside,
    fun r id h hr => ⟨exec_vlReplyTimeout_of_early h, fun hlate => ?late⟩, fun port flit hport => ?flits, ?ratio,
    fun bus rest => exec_busRetire_of_waiting, fun j hj hs hc => ⟨exec_retireCopyDone_of_copying hj hs hc, ?copied⟩,
    fun k hk hk3 => ?subnets, fun port lanes hp hl => ?training, fun hn => ?lanes⟩
  case gone =>
    exact (exec_spillWriteCompletion n s).trans (congrArg _ (spillDone_of_gone hx hout hheld rfl hgone))
  case written =>
    exact (exec_spillWriteCompletion n s).trans (congrArg _ (spillDone_of_written hx hout hheld rfl hf ht))
  case outside =>
    refine ⟨?_, fun hend => ?_, fun hend => ?_⟩
    · rintro hl hn ha hp rfl
      exact ⟨hostMemory_access ha hp hl hn, fun hkeys hend => ⟨(device_access ha hp hl hn hkeys hend).1,
        (device_access ha hp hl hn hkeys hend).2, peer_access ha hp hl hn hkeys hend⟩,
        fun hw dev k => exec_peerAccess_of_outside hw dev⟩
    · exact (exec_hostAccess _ _ _ _ s).trans (if_pos hend)
    · exact (exec_hostAccess _ _ _ _ s).trans (if_pos hend)
  case late =>
    refine ⟨exec_vlReplyTimeout_of_gone h hr hlate rfl, fun x hx => ?_⟩
    have he := exec_vlReplyTimeout_of_late h hr hlate rfl hx
    exact ⟨fun hfin => by rw [he, if_pos hfin], fun hrun => by rw [he, if_neg hrun]⟩
  case flits =>
    refine ⟨fun hcrc => ?_, exec_vlFlitReceive_of_own hport, fun hcrc hkeys hdom => ?_⟩
    · refine ⟨_, exec_vlFlitReceive_of_bad hport hcrc, rfl, ?_, ?_⟩
      · simpa only [regGet_regSet_self, fld_bottom] using fld_count (regGet s (0x8A0 + port))
      · rw [regGet_regSet_self, ← fld_top _ (n := 5) rfl, ← fld_top _ (n := 5) rfl]
        exact fld_masked_of_not_mem (by decide) _ _
    · refine ⟨_, exec_vlFlitReceive_of_other hport hcrc hkeys hdom, ?_, rfl⟩
      rw [regGet_regSet_self, toNat_word, fld_top _ rfl]
      omega
  case ratio =>
    rw [← wantedRatio_eq]
    exact ⟨exec_ratioChange_of_new, fun e q => exec_ratioStallEnd_of_over, fun e q => exec_ratioStallEnd_of_under⟩
  case copied =>
    intro hfew
    obtain ⟨hretired, hgroups, hscr⟩ := retireFinish_keeps_of_few hfew
    refine ⟨retireFinish_over_of_few hfew, ?_, hgroups, hscr⟩
    rw [hretired]
    exact List.mem_append_right _ (List.mem_singleton_self _)
  case subnets =>
    have hk4 : k < 4 := by omega
    refine ⟨fun hon => ⟨fun hbusy hoff hp t0 hs ht => ?wake, fun hquiet => ?quiet⟩, fun hwaking => ?on,
      fun hon3 hnext t0 hi => ⟨fun ht => ?off, exec_subnetOff_of_early hi⟩⟩
    case wake =>
      have hsince : ((subnetOf s (k - 1)).reported s n).busySince = some t0 := by
        rw [Subnet.reported, hs]
        exact if_pos hbusy
      exact subnetGoes_of_set (u := subnetReport s (k - 1) n) hk4 (by decide) rfl
        (exec_subnetWake_of_busy hk hk3 hon hoff hp hsince ht)
    case quiet =>
      rw [exec_subnetWake_of_quiet hk hk3 hon, subnetReport_eq]
      · rfl
      · exact fun t0 => time_lt_of_quiet hquiet
    case on => exact subnetGoes_of_set hk4 (by decide) rfl (exec_subnetOn_of_waking hk hk3 hwaking)
    case off => exact subnetGoes_of_set hk4 (by decide) rfl (exec_subnetOff_of_late hk hk3 hi hon3 hnext ht)
  case training =>
    obtain ⟨t, ht, hup, hlanes⟩ := exec_vimenLinkPortTraining_of_port hp hl s
    exact ⟨t, ht, (fld_top _ rfl).symm.trans hup, hlanes⟩
  case lanes =>
    exact (exec_ucieLaneLoss n s).trans (if_neg hn.ne')

end Sys2Proof.Machine

namespace Sys2Proof.Machine

/-! O31: the frame of an Annulus instruction (R139, R141, R143). -/

/-- The checks of lanes that all pass give what each lane's check gives. -/
theorem checkLanes_of_ok {α : Type} {chk : State → Nat → State × Except Fail α} {s : State} {ex : List Nat} {x : Nat → α}
    (h : ∀ l ∈ ex, chk s l = (s, .ok (x l))) (addr : Nat → Nat) :
    checkLanes chk addr s ex = (s, [], ex.map fun l => (l, x l)) := by
  induction ex with
  | nil => rfl
  | cons l ls ih =>
    have hls := ih fun l hl => h l (List.mem_cons_of_mem _ hl)
    simp only [checkLanes, h l List.mem_cons_self, hls, List.map_cons]

theorem annHold_of_free {s : State} (h : capsBusy s s.iss.g = false) (k : Out) : annHold s k = k := by
  rw [annHold, h]
  rfl

theorem charged_of_room {s : State} {g : Group} {n : Nat} (h : flagFull g n = false) (k : Out) : charged s g n k = k := by
  rw [charged, h]
  rfl

theorem stationHold_of_room {s : State} {g : Group} (h : stationFull s g.core = false) (k : Out) :
    stationHold s g k = k := by
  rw [stationHold, h]
  rfl

@[simp] theorem enterStation_iss (s : State) (core : Nat) (c : Capture) : (enterStation s core c).iss = s.iss := rfl
@[simp] theorem enterStation_regs (s : State) (core : Nat) (c : Capture) : (enterStation s core c).regs = s.regs := rfl
@[simp] theorem enterLanes_iss (s : State) (g : Group) (kind : Nat) (op : AtomOp) (wide : Bool) (dst oid : Nat)
    (ok : List (Nat × Nat)) (lane : Nat → Nat × Nat × Dword × Dword) :
    (enterLanes s g kind op wide dst oid ok lane).iss = s.iss :=
  foldl_keeps State.iss (fun _ _ => enterStation_iss _ _ _) _ s

/-- The group of a per-lane Annulus instruction whose results are awaited (R157). -/
def annWaiting (s : State) (g : Group) (wide : Bool) (a : Nat) (ex : List Nat) : Group :=
  g.addOp s.fresh s.iss.flagA (loadWrites a (wideRegs wide) ex fun _ _ => 0) [] none true

/-- The captures of the lanes of a per-lane Annulus instruction, at their slots and offsets (R143). -/
def annCaptures (s u : State) (g : Group) (kind : Nat) (op : AtomOp) (wide : Bool) (a oid : Nat) (m : MemOp)
    (sl : Nat → Nat) (x y : Nat → Dword) : State :=
  enterLanes u g kind op wide a oid ((lanesOf (execMask s g)).map fun l => (l, sl l)) fun l =>
    (l, ringOff (g.memAddr false (wideBytes wide) m l), x l, y l)

/-- The executing lanes' addresses lie in the context's window, each at a slot (R139, R141). -/
def InRing (s : State) (g : Group) (wide : Bool) (m : MemOp) (sl : Nat → Nat) : Prop :=
  ∀ l ∈ lanesOf (execMask s g), checkRing s g.id.ctx (g.memAddr false (wideBytes wide) m l) (wideBytes wide) = .ok (sl l)

section
variable {s : State} {g : Group} {wide : Bool} {m : MemOp} {sl : Nat → Nat} (hroom : stationFull s g.core = false)
  (hin : InRing s g wide m sl)

include hin in
theorem checkRingLanes_of_in : checkRingLanes s g (g.memAddr false (wideBytes wide) m) (wideBytes wide)
    (lanesOf (execMask s g)) = (s, [], (lanesOf (execMask s g)).map fun l => (l, sl l)) :=
  checkLanes_of_ok (fun l hl => congrArg (Prod.mk s) (hin l hl)) _

include hroom hin

/-- An ordinary load enters its captures and awaits their words (R241). -/
theorem annLoad_of_in (a : Nat) : annLoad s g wide a m (lanesOf (execMask s g))
    = .next ((annCaptures s (bump s) g 2 .add wide a s.fresh m sl (fun _ => 0) fun _ => 0).after
        (annWaiting s g wide a (lanesOf (execMask s g)))) := by
  rw [annLoad, stationHold_of_room hroom]
  simp only [checkRingLanes_of_in hin, List.isEmpty_nil, Bool.not_true, Bool.false_eq_true, if_false, complete_eq,
    enterLanes_iss, bump_iss]
  rfl

/-- A load that makes forms enters its captures for its symbol (R149). -/
theorem annSymLoad_of_in {flt : Bool} {a j : Nat} {h : Group} (hw : wide = false)
    (hnew : g.newForms a flt (lanesOf (execMask s g)) [] 0 (lanesOf (execMask s g)).isEmpty s.fresh = some (j, h)) :
    annSymLoad s g flt a m (lanesOf (execMask s g))
      = .next ((annCaptures s (bump s) g 5 .add wide a j m sl (fun _ => 0) fun _ => 0).after h) := by
  subst hw
  have hchecks := checkRingLanes_of_in hin
  rw [show wideBytes false = 4 from rfl] at hchecks
  rw [annSymLoad, stationHold_of_room hroom]
  simp only [hchecks, List.map_nil, maskOf_nil, List.isEmpty_map, hnew]
  rfl

end

theorem exec_annLd (s : State) (wide : Bool) (a : VReg) (m : MemOp) :
    exec (if wide then .annLdB64 a m else .annLdB32 a m) s
      = annLanes s (regsFrom a (wideRegs wide)) [] m (fun _ => s.iss.flagA) fun g ex => annLoad s g wide a.toNat m ex := by
  cases wide
  · exact exec_annLdB32 a m s
  · exact exec_annLdB64 a m s

theorem exec_annOp (s : State) (o : AtomOp) (wide : Bool) (a : VReg) (m : MemOp) :
    exec (if wide then .annOp64 o a m else .annOp32 o a m) s = annOp s o wide a m := by
  cases wide
  · exact exec_annOp32 o a m s
  · exact exec_annOp64 o a m s

theorem exec_annLdSym (s : State) (flt : Bool) (a : VReg) (m : MemOp) :
    exec (if flt then .annLdSymF32 a m else .annLdSymI32 a m) s = annSymOp s flt a m := by
  cases flt
  · exact exec_annLdSymI32 a m s
  · exact exec_annLdSymF32 a m s

section
variable {s : State} {g : Group} {m : MemOp} {sl : Nat → Nat} {a : VReg} (hroom : stationFull s g.core = false)
include hroom

theorem exec_annLd_of_in {wide : Bool} (hin : InRing s g wide m sl)
    (hr : AccessReady s g .no (regsFrom a (wideRegs wide)) [] (MemOp.vregs m) (MemOp.sregs false m) s.iss.flagA) :
    exec (if wide then .annLdB64 a m else .annLdB32 a m) s
      = .next ((annCaptures s (bump s) g 2 .add wide a.toNat s.fresh m sl (fun _ => 0) fun _ => 0).after
          (annWaiting s g wide a.toNat (lanesOf (execMask s g)))) := by
  rw [exec_annLd, annLanes, laneMem_of_ready hr rfl, annLoad_of_in hroom hin]

/-- While MODE is 0, a symbolic load is an ordinary one (R52, R149). -/
theorem annSymOp_of_plain (hin : InRing s g false m sl) (hmode : g.mode = 0)
    (hr : AccessReady s g .no (regsFrom a (wideRegs false)) [] (MemOp.vregs m) (MemOp.sregs false m) s.iss.flagA)
    (flt : Bool) : annSymOp s flt a m
      = .next ((annCaptures s (bump s) g 2 .add false a.toNat s.fresh m sl (fun _ => 0) fun _ => 0).after
          (annWaiting s g false a.toNat (lanesOf (execMask s g)))) := by
  rw [annSymOp, annLanes, laneMem_of_ready (dst := [a.toNat]) hr (if_pos hmode), if_pos hmode, annLoad_of_in hroom hin]

theorem annSymOp_of_symbolic {flt : Bool} {j : Nat} {h : Group} (hin : InRing s g false m sl) (hmode : g.mode ≠ 0)
    (hr : AccessReady s g .no [a.toNat] [] (MemOp.vregs m) (MemOp.sregs false m) 15)
    (hnew : g.newForms a.toNat flt (lanesOf (execMask s g)) [] 0 (lanesOf (execMask s g)).isEmpty s.fresh = some (j, h)) :
    annSymOp s flt a m
      = .next ((annCaptures s (bump s) g 5 .add false a.toNat j m sl (fun _ => 0) fun _ => 0).after h) := by
  rw [annSymOp, annLanes, laneMem_of_ready hr (if_neg hmode), if_neg hmode, annSymLoad_of_in hroom hin rfl hnew]

/-- An operation ends idempotent status, enters its captures with their data, and awaits the words before (R145, R364). -/
theorem annOp_of_in {o : AtomOp} {wide : Bool} (hin : InRing s g wide m sl)
    (hr : AccessReady s g .no [] (regsFrom a (atomRegs o wide)) (MemOp.vregs m) (MemOp.sregs false m) s.iss.flagA) :
    annOp s o wide a m
      = .next ((annCaptures s (bump (loseIdem s g)) g 3 o wide a.toNat s.fresh m sl
          (fun l => BitVec.ofNat 64 (g.atomData wide a.toNat l)) fun l =>
            if o = .cas then BitVec.ofNat 64 (g.atomData wide (a.toNat + wideRegs wide) l) else 0).after
          (annWaiting s g wide a.toNat (lanesOf (execMask s g)))) := by
  rw [annOp, annLanes, laneMem_of_ready hr rfl, stationHold_of_room hroom]
  simp only [checkRingLanes_of_in hin, List.isEmpty_nil, Bool.not_true, Bool.false_eq_true, if_false, complete_eq,
    enterLanes_iss, bump_iss, loseIdem_iss]
  rfl

end

/-! O31: boarding and alighting (R241). -/

theorem ReadKeeps.checkBoard {P : State → Prop} (hP : ReadKeeps P) {s : State} (h : P s) (core c va : Nat) :
    P (checkBoard s core c va).1 := by
  have htr := hP.translate h core c va
  fun_cases Machine.checkBoard s core c va
  · exact h
  all_goals
    rename Machine.translate s core c va = _ => e
    rw [e] at htr
    exact htr

theorem fresh_of_apart {s u : State} (h : u.apart = s.apart) : u.fresh = s.fresh :=
  (congrArg State.fresh h : u.apart.fresh = s.apart.fresh)

theorem checkBoard_apart {s t : State} {core c va : Nat} {r : Except Fail Loc} (h : checkBoard s core c va = (t, r)) :
    t.apart = s.apart := by
  have hkeep := (readKeeps_apart s.apart).checkBoard (s := s) rfl core c va
  rwa [h] at hkeep

section
variable {s : State} {g : Group} {b : SReg} {q : Nat} (hroom : stationFull s g.core = false)
  (hfree : capsBusy s s.iss.g = false) (hflag : flagFull g s.iss.flagB = false) (hu : Unwatched s g)
  (hq : checkRing s g.id.ctx (g.sreg b.toNat).toNat 64 = .ok q)
include hroom hfree hflag hu hq

theorem exec_annBoard_of_in {s' : State} {p : Loc}
    (hp : checkBoard s g.core g.id.ctx (g.spair (b.toNat + 2)) = (s', .ok p))
    (hi : Issues s g { sr := [b.toNat, b.toNat + 2, b.toNat + 3] }) :
    exec (.annBoard b) s = .next ((enterStation (bump (loseIdem s' g)) g.core (newCapture s' g q 0 .add false
      [(pteTid p.pte, g.spair (b.toNat + 2), 0, 0)] 0 s.fresh p.key)).after
        (g.addOp s.fresh s.iss.flagB [] [] none true)) := by
  have hkept := checkBoard_apart hp
  have hiss := iss_of_apart hkept
  have hfresh : s'.fresh = s.fresh := fresh_of_apart hkept
  rw [exec_annBoard, execAnnBoard, begin_of_issues hi, annHold_of_free hfree, charged_of_room hflag,
    stationHold_of_room hroom]
  simp only [hq, hp, hfresh, enterStation_iss, bump_iss, loseIdem_iss, hiss, complete_eq]
  refine watched_of_none (strike_of_unwatched (hu.congr ?_) _ _ _)
  rw [after_regs, enterStation_regs, bump_regs, loseIdem_regs, regs_of_apart hkept]

theorem exec_annAlight_of_in (hi : Issues s g { sr := [b.toNat] }) :
    exec (.annAlight b) s = .next ((enterStation (bump (loseIdem s g)) g.core
      (newCapture s g q 1 .add false [] 0 s.fresh 0)).after (g.addOp s.fresh s.iss.flagB [] [] none true)) := by
  rw [exec_annAlight, execAnnAlight, begin_of_issues hi, annHold_of_free hfree, charged_of_room hflag,
    stationHold_of_room hroom]
  simp only [hq, enterStation_iss, bump_iss, loseIdem_iss, complete_eq]
  refine watched_of_none (strike_of_unwatched (hu.congr ?_) _ _ _)
  rw [after_regs, enterStation_regs, bump_regs, loseIdem_regs]

end

/-- `ann.wait` arms its watch (R148, R242). -/
theorem exec_annWait_of_in {s s' : State} {g h : Group} {k : WatchCond} {w : BitVec 2} {d b c : SReg} {q : Nat}
    (hi : Issues s g { sr := [b.toNat, c.toNat] }) (hfree : capsBusy s s.iss.g = false)
    (hflag : flagFull g s.iss.flagA = false) (hq : checkRing s g.id.ctx (g.sreg b.toNat).toNat 4 = .ok q)
    (hdrop : dropWatch s s.iss.g g w.toNat = (s', h)) (hroom : stationFull s' g.core = false) :
    let armed := h.addOp s'.fresh s.iss.flagA [] [(d.toNat, 0)] none true
    exec (.annWait k w d b c) s = .next ((enterStation (bump s') g.core
      (newCapture s' g q 4 .add false [] d.toNat w.toNat 0)).after { armed with
        watches := tput armed.watches w.toNat
          { addr := g.sreg b.toNat, cond := k, cmp := g.sreg c.toNat, dst := d.toNat, op := s'.fresh, fired := false } }) := by
  rw [exec_annWait, execAnnWait, begin_of_issues hi, annHold_of_free hfree, charged_of_room hflag]
  simp only [hq, hdrop, hroom, Bool.false_eq_true, if_false]
  rfl

/-- Settles O31: where the checks pass and the station has room, each instruction is the entry of its captures; the checks
of a line to board leave alone all that the captures are made of. The flag of `ann.wait` is log 106. -/
theorem annulusInstructions : Obligations.AnnulusInstructions := by
  unfold Obligations.AnnulusInstructions
  intro s s' g h o wide k w a d b c m sl hroom ex n addr at_ ready caps zero wait loaded
  refine ⟨fun hin hr => ⟨exec_annLd_of_in hroom hin hr, ?plain⟩, ?symbolic, fun hin hr => ?op,
    fun hfree hflag hu q hq => ⟨fun p hp => exec_annBoard_of_in hroom hfree hflag hu hq hp,
      exec_annAlight_of_in hroom hfree hflag hu hq⟩,
    fun hi hfree hflag q hq hdrop hroom' => exec_annWait_of_in hi hfree hflag hq hdrop hroom'⟩
  case plain =>
    rintro rfl hmode
    have hload := annSymOp_of_plain hroom hin hmode hr
    exact ⟨(exec_annLdSymI32 a m s).trans (hload false), (exec_annLdSymF32 a m s).trans (hload true)⟩
  case symbolic =>
    rintro flt j rfl hmode hin hr hnew
    exact (exec_annLdSym s flt a m).trans (annSymOp_of_symbolic hroom hin hmode hr hnew)
  case op => exact (exec_annOp s o wide a m).trans (annOp_of_in hroom hin hr)

end Sys2Proof.Machine

namespace Sys2Proof.Machine

/-! O32: what a passage leaves alone. -/

@[simp] theorem visit_groups (s : State) (a sec : Nat) : (visit s a sec).groups = s.groups := rfl
@[simp] theorem visit_ring (s : State) (a sec : Nat) : (visit s a sec).ring = s.ring := rfl
@[simp] theorem dropCapture_ring (s : State) (key : Nat) (c : Capture) : (dropCapture s key c).ring = s.ring := rfl

theorem group_updGroup_self {s : State} {k : Nat} {g : Group} (hg : s.group k = some g) (f : Group → Group) :
    (updGroup s k f).group k = some (f g) := by
  have h : (updGroup s k f).group k = (s.group k).map f := (tget_tupd s.groups k k f).trans (if_pos rfl)
  rw [h, hg, Option.map_some]

theorem resultHeld_of_group {s : State} {id : Nat} {g : Group} (hg : s.group id = some g) :
    resultHeld s id = busHeld s g.core (4 + g.bank) := by
  simp only [resultHeld, hg]

/-- A group that stays in its place has its bank held as before (R387, R390). -/
theorem resultHeld_updGroup {s : State} {id : Nat} {g : Group} (hg : s.group id = some g) {f : Group → Group}
    (hcore : (f g).core = g.core) (hbank : (f g).bank = g.bank) : resultHeld (updGroup s id f) id = resultHeld s id := by
  rw [resultHeld_of_group hg, resultHeld_of_group (group_updGroup_self hg f), hcore, hbank]
  rfl

/-! O32: the end of an operation, for one awaited s register and for an element that awaits nothing (R157, R158). -/

@[simp] theorem discharge_s (g : Group) (k : Option Nat) : (g.discharge k).s = g.s := by cases k <;> rfl
@[simp] theorem discharge_watches (g : Group) (k : Option Nat) : (g.discharge k).watches = g.watches := by cases k <;> rfl

@[simp] theorem finishOp_watches (g : Group) (op : Nat) : (g.finishOp op).watches = g.watches := by
  unfold Group.finishOp
  split
  · rfl
  · exact discharge_watches _ _

/-- A register that awaits an operation of one result receives it. -/
theorem sreg_finishOp_of_awaits {g : Group} {op r : Nat} {o : Op} {w old : Word} (ho : tget g.ops op = some o)
    (hsw : o.sw = [(r, w)]) (hp : cget (.val 0) g.s r = .pend op old) (hr : r ≠ 0) : (g.finishOp op).sreg r = w := by
  have hs : (g.finishOp op).s = cset (.val 0) g.s r (.val w) := by
    unfold Group.finishOp
    rewrite [ho]
    simp only [discharge_s, hsw, List.filter_cons, hp, BEq.rfl, if_true, List.filter_nil]
    rfl
  rw [Group.sreg, if_neg hr, hs, cget_cset_self]
  rfl

/-- An element that holds a value keeps it when an operation ends. -/
theorem elem_finishOp_of_val {g : Group} {r l : Nat} {w : Word} (h : g.elem r l = .val w) (op : Nat) :
    (g.finishOp op).elem r l = .val w := by
  cases ho : tget g.ops op with
  | none => rw [Group.finishOp, ho, h]
  | some o => rw [elem_finishOp_of_not_awaits ho (by rw [h]; rfl), h]

/-! O32: a watch fires (R148). -/

/-- The group of a watch that fires: its destination's operation has the word. -/
def Group.fires (g : Group) (k : Nat) (x : Watch) (w : Word) (held : Bool) : Group :=
  { g with watches := tput g.watches k { x with fired := true },
           ops := tupd g.ops x.op fun o => { o with sw := o.sw.map fun p => (p.1, w), ext := o.ext && !held } }

theorem group_fireWatch {s : State} {c : Capture} {g : Group} {x : Watch} (hg : s.group c.g = some g)
    (hfree : resultHeld s c.g = false) (hx : tget g.watches c.oid = some x) (key : Nat) :
    (fireWatch s key c).group c.g = some ((g.fires c.oid x
      (word (rdN s.ring (64 * c.slot + x.addr.toNat % 64) 4)) false).finishOp x.op) := by
  have hfree' : resultHeld (visit { s with caps := cdel s.caps key } (key / 2 ^ 40) (slotSec c.slot)) c.g = false := hfree
  refine (group_updGroup_self (s := visit { s with caps := cdel s.caps key } _ _) hg _).trans ?_
  simp only [hx, hfree', Bool.false_eq_true, if_false]
  rfl

/-- A watch due gives its destination the word, and is fired. -/
theorem fireWatch_gives_word {s : State} {c : Capture} {g : Group} {x : Watch} {o : Op} {v old : Word}
    (hg : s.group c.g = some g) (hfree : resultHeld s c.g = false) (hx : tget g.watches c.oid = some x)
    (ho : tget g.ops x.op = some o) (hsw : o.sw = [(x.dst, v)]) (hp : cget (.val 0) g.s x.dst = .pend x.op old)
    (hd : x.dst ≠ 0) (key : Nat) :
    ∃ g', (fireWatch s key c).group c.g = some g'
      ∧ g'.sreg x.dst = word (rdN s.ring (64 * c.slot + x.addr.toNat % 64) 4)
      ∧ tget g'.watches c.oid = some { x with fired := true } := by
  refine ⟨_, group_fireWatch hg hfree hx key, ?_, ?_⟩
  · refine sreg_finishOp_of_awaits (((tget_tupd g.ops x.op x.op _).trans (if_pos rfl)).trans
      (congrArg (Option.map _) ho)) ?_ hp hd
    simp only [hsw, List.map_cons, List.map_nil]
  · rw [finishOp_watches]
    exact tget_tput_self _ _ _

/-! O32: what a capture's lane and its end do to the group (R145, R157). -/

/-- A group to which the words of a lane's capture go, its bank held or not. -/
def Group.receives (g : Group) (held : Bool) (oid : Nat) (ws : List (Nat × Word)) : Group :=
  if held then g.keepElems oid ws else g.deliverElems oid ws

@[simp] theorem receives_core (g : Group) (held : Bool) (oid : Nat) (ws : List (Nat × Word)) :
    (g.receives held oid ws).core = g.core := by cases held <;> rfl
@[simp] theorem receives_bank (g : Group) (held : Bool) (oid : Nat) (ws : List (Nat × Word)) :
    (g.receives held oid ws).bank = g.bank := by cases held <;> rfl

theorem elem_deliverElems_of_awaits {g : Group} {oid r l : Nat} (h : (g.elem r l).awaits oid = true) (w : Word) :
    (g.deliverElems oid [(vkey r l, w)]).elem r l = .val w := by
  have hlive : [(vkey r l, w)].filter (fun w => (cget (Elem.val 0) g.v w.1).awaits oid) = [(vkey r l, w)] :=
    List.filter_eq_self.mpr fun p hp => by rwa [List.mem_singleton.mp hp]
  simp only [Group.deliverElems, Group.elem, hlive]
  exact cget_cset_self _ _ _ _

theorem keepElems_keeps (g : Group) (oid : Nat) (ws : List (Nat × Word)) : (g.keepElems oid ws).v = g.v := rfl

/-- A word kept stands in place of the one awaited. -/
theorem vw_keepElems {g : Group} {oid k : Nat} {o : Op} {v : Word} (ho : tget g.ops oid = some o)
    (hv : o.vw = [(k, v)]) (w : Word) :
    ∃ o', tget (g.keepElems oid [(k, w)]).ops oid = some o' ∧ o'.vw = [(k, w)] := by
  refine ⟨_, ((tget_tupd g.ops oid oid _).trans (if_pos rfl)).trans (congrArg (Option.map _) ho), ?_⟩
  simp [hv]

section
variable {s : State} {c : Capture} {g : Group} (hg : s.group c.g = some g) (hk : c.kind ≠ 5)
include hg hk

/-- Where the bank is free, the end of a capture takes no value from an element. -/
theorem elem_dropCapture (hfree : resultHeld s c.g = false) {r l : Nat} {w : Word} (he : g.elem r l = .val w)
    (key : Nat) : ∃ g', (dropCapture s key c).group c.g = some g' ∧ g'.elem r l = .val w := by
  refine ⟨_, group_updGroup_self (s := { s with caps := cdel s.caps key }) hg _, ?_⟩
  simp only [if_neg hk, hfree, Bool.false_eq_true, if_false]
  split
  · exact he
  · exact elem_finishOp_of_val (g := { g with replay := g.replay.filter (· != key) }) he c.oid

/-- Where the bank is held, it leaves the elements, and the words that its operation keeps for them. -/
theorem vw_dropCapture (hheld : resultHeld s c.g = true) (key : Nat) : ∃ g', (dropCapture s key c).group c.g = some g'
    ∧ g'.v = g.v ∧ ∀ o, tget g.ops c.oid = some o → ∃ o', tget g'.ops c.oid = some o' ∧ o'.vw = o.vw := by
  refine ⟨_, group_updGroup_self (s := { s with caps := cdel s.caps key }) hg _, ?_⟩
  simp only [if_neg hk, hheld, if_true]
  split
  · exact ⟨rfl, fun o ho => ⟨o, ho, rfl⟩⟩
  · exact ⟨rfl, fun o ho => ⟨_, ((tget_tupd g.ops c.oid c.oid _).trans (if_pos rfl)).trans (congrArg _ ho), rfl⟩⟩

end

/-! O32: a capture of one lane takes effect (R145, R146). -/

/-- The ring bytes after a lane of a capture: an operation applied, or as they were. -/
def Capture.applied (c : Capture) (s : State) (off : Nat) (x y : Dword) : State :=
  if c.kind = 3 then ringWrite s c.slot off (wideBytes c.wide)
    (atomStep c.op c.wide (rdN s.ring (64 * c.slot + off) (wideBytes c.wide)) x.toNat y.toNat) else s

theorem applied_cases (c : Capture) (s : State) (off : Nat) (x y : Dword) :
    ∃ m, c.applied s off x y = { s with ring := m } := by
  unfold Capture.applied
  split
  · exact ⟨_, rfl⟩
  · exact ⟨s.ring, rfl⟩

theorem oldWords_narrow (v : Nat) : oldWords false v = [word v] := by simp [oldWords, wideRegs]

section
variable {c : Capture} {l off : Nat} {x y : Dword} (hlanes : c.lanes = [(l, off, x, y)])
include hlanes

theorem ring_capture_of_lane (hk : c.kind = 2 ∨ c.kind = 3) (s : State) (key : Nat) :
    (capture s key c).ring = (c.applied s off x y).ring := by
  have h0 : c.kind ≠ 0 := by omega
  have h1 : c.kind ≠ 1 := by omega
  unfold capture
  simp only [if_neg h0, if_neg h1, dropCapture_ring, hlanes, captureLanes, updGroup_ring]
  unfold Capture.applied
  split <;> rfl

/-- A capture of a narrow lane is the end of a capture, its word gone to its group. -/
theorem capture_of_lane (hk : c.kind = 2 ∨ c.kind = 3) (hw : c.wide = false) {s t : State} {key : Nat}
    (ht : t = c.applied (visit s (key / 2 ^ 40) (slotSec c.slot)) off x y) :
    capture s key c = dropCapture (updGroup t c.g fun g => g.receives (resultHeld t c.g) c.oid
      [(vkey c.dst l, word (rdN s.ring (64 * c.slot + off) 4))]) key c := by
  have h0 : c.kind ≠ 0 := by omega
  have h1 : c.kind ≠ 1 := by omega
  have h5 : c.kind ≠ 5 := by omega
  subst ht
  unfold capture
  simp only [if_neg h0, if_neg h1, if_neg h5, hlanes, captureLanes, hw, oldWords_narrow, Capture.applied, Group.receives]
  rfl

/-- The word before goes to the element that awaits it, or is kept for it while its bank is held (R387, R390). -/
theorem capture_gives_word (hk : c.kind = 2 ∨ c.kind = 3) (hw : c.wide = false) {s : State} {g : Group}
    (hg : s.group c.g = some g) (ha : (g.elem c.dst l).awaits c.oid = true) (key : Nat) :
    let old := rdN s.ring (64 * c.slot + off) 4
    ∃ g', (capture s key c).group c.g = some g'
      ∧ (resultHeld s c.g = false → g'.elem c.dst l = .val (word old))
      ∧ (resultHeld s c.g = true → g'.v = g.v ∧ ∀ o w, tget g.ops c.oid = some o → o.vw = [(vkey c.dst l, w)] →
          ∃ o', tget g'.ops c.oid = some o' ∧ o'.vw = [(vkey c.dst l, word old)]) := by
  intro old
  have h5 : c.kind ≠ 5 := by omega
  obtain ⟨m, hm⟩ := applied_cases c (visit s (key / 2 ^ 40) (slotSec c.slot)) off x y
  generalize ht : c.applied (visit s (key / 2 ^ 40) (slotSec c.slot)) off x y = t at hm
  have htg : t.group c.g = some g := by rw [hm]; exact hg
  have hheld : resultHeld t c.g = resultHeld s c.g := by rw [hm]; rfl
  have hcap := capture_of_lane hlanes hk hw ht.symm
  rw [hheld] at hcap
  have hug := group_updGroup_self htg fun g => g.receives (resultHeld s c.g) c.oid [(vkey c.dst l, word old)]
  have huheld := (resultHeld_updGroup htg
    (f := fun g => g.receives (resultHeld s c.g) c.oid [(vkey c.dst l, word old)])
    (receives_core _ _ _ _) (receives_bank _ _ _ _)).trans hheld
  rw [hcap]
  cases hb : resultHeld s c.g with
  | false =>
    rw [hb] at hug huheld
    obtain ⟨g', hg', he⟩ := elem_dropCapture hug h5 huheld (elem_deliverElems_of_awaits ha (word old)) key
    exact ⟨g', hg', fun _ => he, nofun⟩
  | true =>
    rw [hb] at hug huheld
    obtain ⟨g', hg', hv, hops⟩ := vw_dropCapture hug h5 huheld key
    refine ⟨g', hg', nofun, fun _ => ⟨hv, fun o w ho hvw => ?_⟩⟩
    obtain ⟨o1, ho1, hvw1⟩ := vw_keepElems ho hvw (word old)
    obtain ⟨o2, ho2, hvw2⟩ := hops o1 ho1
    exact ⟨o2, ho2, hvw2.trans hvw1⟩

end

/-! O32: the events of a passage and of a station (R143, R144). -/

section
variable {s : State} {core slot key : Nat} {c : Capture} (hdue : dueNow s core slot = some (key, c))
include hdue

theorem exec_watchPassage_of_due (hk : c.kind = 4) :
    exec (.watchPassage core slot) s = .next (passed (fireWatch s key c) core slot) := by
  rw [exec_watchPassage, execWatchPassage, hdue]
  exact if_pos hk

theorem exec_annulusCapture_of_due (hk : c.kind ≠ 4) :
    exec (.annulusCapture core slot) s = .next (passed (capture s key c) core slot) := by
  rw [exec_annulusCapture, execAnnulusCapture, hdue]
  exact if_neg hk

end

theorem exec_stationEntry_of_room {s : State} {core k : Nat} {d : Capture} (hroom : stationUsed s core < 16)
    (hd : (stationCaps s core).find? (fun c => c.2.entry.isNone) = some (k, d)) :
    exec (.stationEntry core) s = .next { s with caps := tput s.caps k { d with entry := some s.mclk } } := by
  rw [exec_stationEntry, execStationEntry, if_neg (Nat.not_le.mpr hroom), hd]

/-- Settles O32: a watch that fires ends its operation with the word at its address; a capture of one lane applies its
operation to the slot's bytes and its group receives the word before. Its destination is written at the capture itself
(log 88). -/
theorem annulusPassages : Obligations.AnnulusPassages := by
  unfold Obligations.AnnulusPassages
  intro s core slot key c hdue
  refine ⟨fun hk => ⟨exec_watchPassage_of_due hdue hk, ?watch⟩, exec_annulusCapture_of_due hdue,
    fun l off x y hlanes => ⟨fun hk => ?op, fun hk => ?load, fun hk hw hl g hg ha => ?words⟩,
    fun core' k d => exec_stationEntry_of_room⟩
  case watch =>
    intro g w o v old hg hfree hw ho hsw hp hd
    exact fireWatch_gives_word hg hfree hw ho hsw hp hd key
  case op =>
    rw [ring_capture_of_lane hlanes (.inr hk), Capture.applied, if_pos hk]
    rfl
  case load => rw [ring_capture_of_lane hlanes (.inl hk), Capture.applied, if_neg (by omega)]
  case words =>
    rw [hw]
    exact capture_gives_word hlanes hk hw hg ha key

end Sys2Proof.Machine

namespace Sys2Proof.Machine

/-! O50: the host's port (R398, R434). -/

theorem portOpen_of_open {s : State} (h : bit (regGet s 0x600) 29 = true) (sec : Bool) : portOpen s sec = true := by
  rw [portOpen, h, Bool.true_or]

theorem portOpen_of_closed {s : State} (h : ¬ bit (regGet s 0x600) 29 = true) : portOpen s false = false := by
  rw [portOpen, Bool.or_false]
  exact Bool.eq_false_iff.mpr h

theorem windowOf_odd {off : Nat} (h : off % 4 ≠ 0) : windowOf off = none := if_pos h

theorem windowOf_pack {n : Nat} (h : n < 0x4000) : windowOf (4 * n) = some (.pack n) := by
  rw [windowOf, if_neg (by omega), if_pos (by omega), Nat.mul_div_cancel_left n (by decide)]

theorem windowOf_part {p n : Nat} (hp : p < 8) (hn : n < 0x4000) :
    windowOf (0x100000 * (p + 1) + 4 * n) = some (.part p n) := by
  rw [windowOf, if_neg (by omega), if_neg (by omega), if_pos (by omega)]
  congr 2 <;> omega

theorem windowOf_ctx {c n : Nat} (hc : c < 64) (hn : n < 0x4000) :
    windowOf (0xA00000 + 0x10000 * c + 4 * n) = some (.ctx c n) := by
  rw [windowOf, if_neg (by omega), if_neg (by omega), if_neg (by omega), if_pos (by omega)]
  congr 2 <;> omega

/-- One register at most differs, as after a read that clears it (R5). -/
def OneRegister (s t : State) : Prop := t = s ∨ ∃ k w, t = regSet s k w

theorem packAfterRead_oneRegister (s : State) (n : Nat) : OneRegister s (packAfterRead s n) := by
  unfold packAfterRead
  split
  · exact .inr ⟨_, _, rfl⟩
  · split
    · exact .inr ⟨_, _, rfl⟩
    · exact .inl rfl

theorem partAfterRead_oneRegister (s : State) (p n : Nat) : OneRegister s (partAfterRead s p n) := by
  unfold partAfterRead
  split
  · exact .inr ⟨_, _, rfl⟩
  · exact .inl rfl

/-- A host's read clears one register at most, whichever window it is of. -/
theorem hostReadReg_oneRegister (s : State) (off : Nat) : OneRegister s (hostReadReg s off).1 := by
  unfold hostReadReg
  split
  case h_1 =>
    split
    · exact packAfterRead_oneRegister _ _
    · exact .inl rfl
  case h_2 =>
    split
    · exact partAfterRead_oneRegister _ _ _
    · exact .inl rfl
  case h_3 => split <;> exact .inl rfl
  case h_4 => exact .inl rfl

theorem hostReadReg_keeps (s : State) (off : Nat) : (hostReadReg s off).1.groups = s.groups
    ∧ (hostReadReg s off).1.mem = s.mem ∧ (hostReadReg s off).1.hostReads = s.hostReads := by
  rcases hostReadReg_oneRegister s off with h | ⟨k, w, h⟩ <;> rw [h] <;> exact ⟨rfl, rfl, rfl⟩

theorem hostReadReg_odd {off : Nat} (h : off % 4 ≠ 0) (s : State) : hostReadReg s off = (s, 0) := by
  rw [hostReadReg, windowOf_odd h]

section
variable {s : State} (hopen : bit (regGet s 0x600) 29 = true)
include hopen

/-- The counter of the other domains' flits is cleared by its read (R394). -/
theorem hostReadReg_drops : hostReadReg s (4 * 0x886) = (regSet s 0x886 0, regGet s 0x886) := by
  rw [hostReadReg, windowOf_pack (by decide)]
  simp only [portOpen_of_open hopen]
  rfl

/-- The host reads SYS.CTXCFG as it stands (R327). -/
theorem hostReadReg_ctxcfg {c : Nat} (hc : c < 64) :
    hostReadReg s (0xA00000 + 0x10000 * c + 4 * 0x55) = (s, regGet s (kCtx c 0x55)) := by
  have hwin : ¬ 0x55 = 0x300 + c := by omega
  rw [hostReadReg, windowOf_ctx hc (by decide)]
  simp only [portOpen_of_open hopen, if_neg hwin]
  rfl

theorem hostWriteReg_stopLaunch {p : Nat} (hp : p < 8) (w : Word) :
    hostWriteReg s (0x100000 * (p + 1) + 4 * 0x570) w = regSet s (kPart p 0x570) w := by
  rw [hostWriteReg, windowOf_part hp (by decide)]
  simp only [portOpen_of_open hopen]
  rfl

end

/-- Until a firmware has been accepted, the SEC registers alone are written (R434). -/
theorem hostWriteReg_of_closed {s : State} (hclosed : ¬ bit (regGet s 0x600) 29 = true) {off : Nat} (hoff : off < 0x10000)
    (hsec : ¬ (4 * 0x600 ≤ off ∧ off < 4 * 0x700)) (w : Word) : hostWriteReg s off w = s := by
  by_cases hodd : off % 4 = 0
  · have hpack : windowOf off = some (.pack (off / 4)) := by
      rw [windowOf, if_neg (by omega), if_pos hoff]
    have hno : decide (0x600 ≤ off / 4 ∧ off / 4 ≤ 0x6FF) = false := decide_eq_false (by omega)
    rw [hostWriteReg, hpack]
    simp only [hno, portOpen_of_closed hclosed, Bool.and_false, Bool.false_eq_true, if_false]
  · rw [hostWriteReg, windowOf_odd hodd]

theorem exec_registerWrite_of_keys {s : State} (hkeys : s.sessionKeys = true) (off val : Nat) :
    exec (.registerWrite off val) s = .next (hostWriteReg s off (word val)) := by
  rw [exec_registerWrite, execRegisterWrite, linked_of_keys hkeys]

theorem exec_rcRegisterRead_of_keys {s : State} (hkeys : s.sessionKeys = true) (off : Nat) :
    exec (.rcRegisterRead off) s = .next { (hostReadReg s off).1 with
      hostReads := (hostReadReg s off).2.toNat :: s.hostReads } := by
  obtain ⟨-, -, hreads⟩ := hostReadReg_keeps s off
  rw [exec_rcRegisterRead, execRcRegisterRead, linked_of_keys hkeys, ← hreads]
  rfl

/-! O50: the windows of the Annulus (R140). -/

theorem cget_filter {α : Type} (d : α) (c : Cells α) (f : Nat → Bool) (k : Nat) :
    cget d (c.filter fun x => f x.1) k = if f k then cget d c k else d := by
  induction c with
  | nil => simp
  | cons p t ih =>
    obtain ⟨j, x⟩ := p
    by_cases hj : f j = true
    · rw [List.filter_cons_of_pos (by exact hj), cget_cons, cget_cons, ih]
      by_cases h : j = k
      · subst h; simp [hj]
      · simp [h]
    · rw [List.filter_cons_of_neg (by exact hj), ih, cget_cons]
      by_cases h : j = k
      · subst h; simp [hj]
      · simp [h]

/-- A range that is zeroed reads 0, and every other byte as before. -/
theorem rdByte_zeroRange (m : List Host.Cell) (a n x : Nat) :
    rdByte (zeroRange m a n) x = if a ≤ x ∧ x < a + n then 0 else rdByte m x := by
  refine (cget_filter 0 m (fun k => decide (k < a) || decide (a + n ≤ k)) x).trans ?_
  by_cases h : a ≤ x ∧ x < a + n
  · rw [if_pos h, if_neg (by simp; omega)]
  · rw [if_neg h, if_pos (by simp; omega)]
    rfl

/-- A field whose bits a mask keeps. -/
theorem fld_and_of_mem {m : Word} {lo n : Nat} (h : ∀ i, lo ≤ i → i < lo + n → m.getLsbD i = true) (w : Word) :
    fld (w &&& m) lo n = fld w lo n :=
  fld_congr fun i h1 h2 => by rw [BitVec.getLsbD_and, h i h1 h2, Bool.and_true]

theorem bit_and_of_mem {m : Word} {k : Nat} (h : bit m k = true) (w : Word) : bit (w &&& m) k = bit w k := by
  rw [bit_and, h, Bool.and_true]

theorem winBase_eq (w : Word) : winBase w = w.toNat % 2 ^ 11 := fld_bottom _ _

section
variable {s : State} {c : Nat} {w : Word}

/-- A word that enables a window is refused where it has no room, meets another window or is open, and else zeroes its slots
(R140). -/
theorem windowWrite_of_enable (hw : bit w 31 = true) : windowWrite s c w
    = if winCount w = 0 ∨ 1152 < winBase w + winCount w then s
      else if (List.range 64).any fun k => k != c && winEn (winReg s k) && windowsMeet (winReg s k) w then s
      else if winEn (winReg s c) then s
      else regSet { s with ring := zeroRange s.ring (64 * winBase w) (64 * winCount w) } (0x300 + c) (w &&& 0x87FF07FF) := by
  have hen : winEn (w &&& 0x87FF07FF) = true := (bit_and_of_mem (by decide) w).trans hw
  have hbase : winBase (w &&& 0x87FF07FF) = winBase w := fld_and_of_mem (by decide) w
  have hcount : winCount (w &&& 0x87FF07FF) = winCount w := fld_and_of_mem (by decide) w
  simp only [windowWrite, windowsMeet, hen, hbase, hcount, if_true]
  rfl

theorem windowWrite_of_disable (hw : bit w 31 = false) : windowWrite s c w
    = if winEn (winReg s c) then closeWindow s c (w &&& 0x87FF07FF) else regSet s (0x300 + c) (w &&& 0x87FF07FF) := by
  have hen : winEn (w &&& 0x87FF07FF) = false := (bit_and_of_mem (by decide) w).trans hw
  simp only [windowWrite, hen, Bool.false_eq_true, if_false]

/-- Another context's window is open that shares a slot with a word's. -/
theorem meets_iff : ((List.range 64).any fun k => k != c && winEn (winReg s k) && windowsMeet (winReg s k) w) = true
    ↔ ∃ k, k < 64 ∧ k ≠ c ∧ winEn (winReg s k) = true ∧ winBase (winReg s k) < winBase w + winCount w
      ∧ winBase w < winBase (winReg s k) + winCount (winReg s k) := by
  simp [windowsMeet, and_assoc]

/-- Without a capture of the context, no capture is cancelled. -/
theorem cancelWindow_of_none (h : ∀ k ∈ s.caps, k.2.ctx ≠ c) : cancelWindow s c = s := by
  have hnone : (s.caps.filter fun x => x.2.ctx == c && !x.2.cancelled && inWindow s c x.2.slot) = [] :=
    List.filter_eq_nil_iff.mpr fun x hx => by simp [h x hx]
  simp [cancelWindow, hnone, cancelCaps]

theorem alight_of_none (h : s.aboard = []) (core slot : Nat) : alight s core slot = s := by
  rw [alight, h]
  rfl

/-- A window without captures and without lines aboard closes as it stands. -/
theorem closeWindow_of_empty (hcaps : ∀ k ∈ s.caps, k.2.ctx ≠ c) (haboard : s.aboard = []) :
    closeWindow s c w = regSet s (0x300 + c) w := by
  rw [closeWindow, cancelWindow_of_none hcaps]
  exact congrArg (regSet · (0x300 + c) w) (List.foldl_fixed' (fun i => alight_of_none haboard _ _) _)

end

section
variable {s : State} {c val : Nat} (hc : c < 64) (hopen : bit (regGet s 0x600) 29 = true)
include hc hopen

theorem exec_annWindowEnable_of_open (hw : bit (word val) 31 = true) :
    exec (.annWindowEnable c val) s = .next (windowWrite s c (word val)) := by
  rw [exec_annWindowEnable, execAnnWindowEnable, if_pos ⟨hc, portOpen_of_open hopen _, hw⟩]

theorem exec_annWindowDisable_of_open (hw : bit (word val) 31 = false) :
    exec (.annWindowDisable c val) s = .next (windowWrite s c (word val)) := by
  rw [exec_annWindowDisable, execAnnWindowDisable, if_pos ⟨hc, portOpen_of_open hopen _, hw⟩]

theorem exec_contextCreate_of_open (hv : ctxValid s c = false) (hw : bit (word val) 31 = true) :
    exec (.contextCreate c val) s = .next (ctxcfgSet s c (word val)) := by
  rw [exec_contextCreate, execContextCreate, if_pos ⟨hc, portOpen_of_open hopen _, hv, hw⟩]

theorem exec_contextInvalidate_of_open (hv : ctxValid s c = true) (hw : bit (word val) 31 = false) :
    exec (.contextInvalidate c val) s = .next (ctxcfgSet s c (word val)) := by
  rw [exec_contextInvalidate, execContextInvalidate, if_pos ⟨hc, portOpen_of_open hopen _, hv, hw⟩]

end

/-- Until a firmware has been accepted, no event of the port has an effect (R434). -/
theorem exec_port_of_closed {s : State} (hclosed : ¬ bit (regGet s 0x600) 29 = true) (c p val : Nat) :
    ∀ i ∈ [Instr.annWindowEnable c val, .annWindowDisable c val, .partqWrite p val, .hcoreWrite p val,
      .contextCreate c val, .contextInvalidate c val, .pstateRun, .pstateIdle, .pstateSleep], exec i s = .next s := by
  simp [exec_annWindowEnable, execAnnWindowEnable, exec_annWindowDisable, execAnnWindowDisable, exec_partqWrite,
    execPartqWrite, exec_hcoreWrite, execHcoreWrite, exec_contextCreate, execContextCreate, exec_contextInvalidate,
    execContextInvalidate, exec_pstateRun, execPstateRun, exec_pstateIdle, execPstateIdle, exec_pstateSleep,
    execPstateSleep, pstateEvent, portOpen_of_closed hclosed]

/-! O50: quadrant masks and the handler core (R323, R326). -/

/-- The low 8 bits of a word, one by one. -/
theorem bit_low (w : Word) {q : Nat} (hq : q < 8) : (w.toNat % 256 / 2 ^ q % 2 == 1) = bit w q := by
  have h : (w.toNat % 2 ^ 8).testBit q = w.toNat.testBit q := by rw [Nat.testBit_mod_two_pow, decide_eq_true hq, Bool.true_and]
  simpa [Nat.testBit_eq_decide_div_mod_eq, bit, Bool.beq_eq_decide_eq] using h

theorem bit_partMask (s : State) (k : Nat) {q : Nat} (hq : q < 8) :
    (partMask s k / 2 ^ q % 2 == 1) = bit (regGet s (0x48 + k)) q := by
  rw [partMask, fld_bottom]
  exact bit_low _ hq

/-- Another partition holds a quadrant of a mask. -/
theorem overlaps_iff (s : State) (p : Nat) (w : Word) :
    ((List.range 8).any fun k => k != p && (List.range 8).any fun q =>
      w.toNat % 256 / 2 ^ q % 2 == 1 && partMask s k / 2 ^ q % 2 == 1) = true
    ↔ ∃ k q, k < 8 ∧ k ≠ p ∧ q < 8 ∧ bit w q = true ∧ bit (regGet s (0x48 + k)) q = true := by
  simp only [List.any_eq_true, List.mem_range, Bool.and_eq_true, bne_iff_ne]
  constructor
  · rintro ⟨k, hk, hne, q, hq, hw, hm⟩
    exact ⟨k, q, hk, hne, hq, bit_low w hq ▸ hw, bit_partMask s k hq ▸ hm⟩
  · rintro ⟨k, q, hk, hne, hq, hw, hm⟩
    exact ⟨k, hk, hne, q, hq, (bit_low w hq).trans hw, (bit_partMask s k hq).trans hm⟩

theorem partCores_regSet_ne {s : State} {p k : Nat} (h : 0x48 + p ≠ k) (w : Word) :
    partCores (regSet s k w) p = partCores s p := by
  simp only [partCores, partQuads, partMask, regGet_regSet_ne s w h]

theorem firstHandlerCore_regSet_ne {s : State} {p k : Nat} (h : 0x48 + p ≠ k) (w : Word) :
    firstHandlerCore (regSet s k w) p = firstHandlerCore s p := by
  unfold firstHandlerCore
  rw [partCores_regSet_ne h]
  rfl

section
variable {s : State} {p val : Nat} (hp : p < 8) (hopen : bit (regGet s 0x600) 29 = true)
include hp hopen

theorem exec_partqWrite_of_open : exec (.partqWrite p val) s = .next (partqSet s p (word val)) := by
  rw [exec_partqWrite, execPartqWrite, if_pos ⟨hp, portOpen_of_open hopen _⟩]

theorem exec_partqWrite_of_overlap (h : ∃ k q, k < 8 ∧ k ≠ p ∧ q < 8 ∧ bit (word val) q = true
    ∧ bit (regGet s (0x48 + k)) q = true) : exec (.partqWrite p val) s = .next s := by
  rw [exec_partqWrite_of_open hp hopen, partqSet]
  exact congrArg _ (if_pos ((overlaps_iff s p _).mpr h))

/-- A mask that shares no quadrant with another takes effect, and the partition has its handler core anew (R326). -/
theorem exec_partqWrite_of_free (h : ∀ k q, k < 8 → k ≠ p → q < 8 → bit (word val) q = true →
    bit (regGet s (0x48 + k)) q = false) : ∃ t, exec (.partqWrite p val) s = .next t
      ∧ regGet t (0x48 + p) = word (val % 256) ∧ regGet t (kPart p 0x54) = word (firstHandlerCore t p)
      ∧ t.groups = s.groups ∧ t.ctxs = s.ctxs := by
  have hno := mt (overlaps_iff s p (word val)).mp fun ⟨k, q, hk, hne, hq, hw, hm⟩ => by simp [h k q hk hne hq hw] at hm
  have hne : 0x48 + p ≠ kPart p 0x54 := by
    rw [kPart]
    omega
  rw [exec_partqWrite_of_open hp hopen, partqSet]
  refine ⟨_, congrArg _ (if_neg hno), ?_, ?_, rfl, rfl⟩
  · rw [regGet_regSet_ne _ _ hne, regGet_regSet_self, toNat_word, Nat.mod_mod_of_dvd _ (by decide)]
  · rw [regGet_regSet_self, firstHandlerCore_regSet_ne hne]

theorem exec_hcoreWrite_of_open : exec (.hcoreWrite p val) s
    = .next (if (tget s.slot p).isSome ∨ val % 2 ^ 10 ∉ partCores s p ∨ degraded s (val % 2 ^ 10) = true
        ∨ usableBanks s (val % 2 ^ 10) ≠ 4 then s else regSet s (kPart p 0x54) (word (val % 2 ^ 10))) := by
  have hk : fld (word val) 0 10 = val % 2 ^ 10 := by
    rw [fld_bottom, toNat_word, Nat.mod_mod_of_dvd _ (by decide)]
  rw [exec_hcoreWrite, execHcoreWrite, if_pos ⟨hp, portOpen_of_open hopen _⟩, hcoreSet, hk]
  simp [or_assoc]

end

/-! O50: contexts (R324, R327). -/

/-- The word makes context `c` a supervisor of a partition that has another supervisor already (R327). -/
def SecondSup (s : State) (c : Nat) (w : Word) : Prop :=
  bit w 27 = true ∧ ∃ k, k < 64 ∧ k ≠ c ∧ ctxValid s k = true ∧ ctxPart s k = fld w 28 3 ∧ ctxSup s k = true

theorem secondSup_iff (s : State) (c : Nat) (w : Word) : (bit w 27 && (List.range 64).any fun k =>
      k != c && ctxValid s k && ctxPart s k == fld w 28 3 && ctxSup s k) = true ↔ SecondSup s c w := by
  simp [SecondSup, and_assoc]

section
variable {s : State} {c : Nat} {w : Word}

/-- A write of SYS.CTXCFG that no rule of R327 refuses before it has its own effect. -/
theorem ctxcfgSet_eq (hkeep : ctxValid s c = true → bit w 31 = false) : ctxcfgSet s c w
    = if (bit w 27 && (List.range 64).any fun k => k != c && ctxValid s k && ctxPart s k == fld w 28 3 && ctxSup s k) then s
      else if partMask s (fld w 28 3) = 0 then s
      else if ctxValid s c && !bit w 31 && ctxBusy s c then s
      else
        let u := if ctxValid s c && !bit w 31 then dropCtx s c else s
        regSet (if !ctxValid s c && bit w 31 then createCtx u c else u) (kCtx c 0x55) (w &&& 0xF8000000) := by
  have hpart : fld (w &&& 0xF8000000) 28 3 = fld w 28 3 := fld_and_of_mem (by decide) w
  have hsup : bit (w &&& 0xF8000000) 27 = bit w 27 := bit_and_of_mem (by decide) w
  have hnow : bit (w &&& 0xF8000000) 31 = bit w 31 := bit_and_of_mem (by decide) w
  have hboth : (ctxValid s c && bit w 31) = false := by
    cases hv : ctxValid s c with
    | false => rfl
    | true => exact hkeep hv
  simp only [ctxcfgSet, hpart, hsup, hnow, hboth, Bool.false_and, Bool.false_eq_true, if_false]

theorem ctxcfgSet_of_refused (hkeep : ctxValid s c = true → bit w 31 = false)
    (h : SecondSup s c w ∨ partMask s (fld w 28 3) = 0) : ctxcfgSet s c w = s := by
  rw [ctxcfgSet_eq hkeep]
  rcases h with h | h
  · rw [if_pos ((secondSup_iff s c w).mpr h)]
  · rw [if_pos h, ite_self]

theorem ctxcfgSet_of_create (hv : ctxValid s c = false) (hw : bit w 31 = true) (hsup : ¬ SecondSup s c w)
    (hm : partMask s (fld w 28 3) ≠ 0) :
    ctxcfgSet s c w = regSet (createCtx s c) (kCtx c 0x55) (w &&& 0xF8000000) := by
  rw [ctxcfgSet_eq (by simp [hv]), if_neg (mt (secondSup_iff s c w).mp hsup), if_neg hm]
  simp only [hv, hw, Bool.false_and, Bool.false_eq_true, if_false, Bool.not_false, Bool.true_and, if_true]

theorem ctxcfgSet_of_busy (hw : bit w 31 = false) (hv : ctxValid s c = true) (hb : ctxBusy s c = true) :
    ctxcfgSet s c w = s := by
  rw [ctxcfgSet_eq fun _ => hw]
  simp only [hv, hw, hb, Bool.not_false, Bool.and_self, if_true, ite_self]

theorem ctxcfgSet_of_drop (hw : bit w 31 = false) (hv : ctxValid s c = true) (hb : ctxBusy s c = false)
    (hsup : bit w 27 = false) (hm : partMask s (fld w 28 3) ≠ 0) :
    ctxcfgSet s c w = regSet (dropCtx s c) (kCtx c 0x55) (w &&& 0xF8000000) := by
  rw [ctxcfgSet_eq fun _ => hw, if_neg (by simp [hsup]), if_neg hm]
  simp only [hv, hw, hb, Bool.not_false, Bool.and_false, Bool.and_self, Bool.false_eq_true, if_false, if_true]

end

/-- The registers of a new context but for SYS.CTXCFG take their reset values (R327). -/
theorem regGet_createCtx (s : State) (c : Nat) {n : Nat} (hn : n < 65536) (hne : n ≠ 0x55) :
    regGet (createCtx s c) (kCtx c n) = regReset n := by
  have hhome : (kCtx c n / 65536 == 16 + c) = true := by
    rw [beq_iff_eq, kCtx]
    omega
  have hcfg : (kCtx c n != kCtx c 0x55) = true := by simpa [kCtx] using hne
  have hmod : kCtx c n % 65536 = n := by
    rw [kCtx]
    omega
  simp only [createCtx, regGet, putCtx, cget_filter (f := fun k => k != 0x300 + c),
    cget_filter (f := fun k => !(k / 65536 == 16 + c && k != kCtx c 0x55)), hhome, hcfg, hmod]
  simp

/-- A new context draws from the start (R327). -/
theorem seq_createCtx (s : State) (c : Nat) : (ctxOf (createCtx s c) c).seq = 0 := by
  rw [createCtx, ctxOf_putCtx_self]

theorem regReset_of_ctx : ∀ n ∈ [0x51, 0x52, 0x53, 0x100, 0x101, 0x102, 0x103, 0x104, 0x105],
    n < 65536 ∧ n ≠ 0x55 ∧ regReset n = 0 := by decide

/-- SYS.CTXCFG as it is written makes the context what the word says. -/
theorem ctx_of_cfg (u : State) (c : Nat) (w : Word) :
    let t := regSet u (kCtx c 0x55) (w &&& 0xF8000000)
    ctxValid t c = bit w 31 ∧ ctxPart t c = fld w 28 3 ∧ ctxSup t c = bit w 27 := by
  simp only [ctxValid, ctxPart, ctxSup, regGet_regSet_self]
  exact ⟨bit_and_of_mem (by decide) w, fld_and_of_mem (by decide) w, bit_and_of_mem (by decide) w⟩

/-- A bank bound to a context is unbound. -/
def unbind (c core : Nat) (s : State) (i : Nat) : State :=
  if boundTo s core i = some c then setBound s core i none else s

/-- Every bank of a core that is bound to a context is unbound. -/
def unbindCore (c : Nat) (s : State) (b : Nat × CoreBanks) : State := (List.range 4).foldl (unbind c b.1) s

/-- Steps that change the banks alone change the banks alone together. -/
theorem foldl_banks {β : Type} {f : State → β → State} (hf : ∀ s b, ∃ bs, f s b = { s with banks := bs }) (xs : List β)
    (s : State) : ∃ bs, xs.foldl f s = { s with banks := bs } := by
  induction xs generalizing s with
  | nil => exact ⟨s.banks, rfl⟩
  | cons x xs ih =>
    obtain ⟨bs, h⟩ := hf s x
    obtain ⟨bs', h'⟩ := ih (f s x)
    exact ⟨bs', by rw [List.foldl_cons, h', h]⟩

theorem unbind_cases (c core : Nat) (s : State) (i : Nat) : ∃ bs, unbind c core s i = { s with banks := bs } := by
  unfold unbind
  split
  · exact ⟨_, rfl⟩
  · exact ⟨s.banks, rfl⟩

theorem unbindCore_cases (c : Nat) (s : State) (x : Nat × CoreBanks) :
    ∃ bs, unbindCore c s x = { s with banks := bs } :=
  foldl_banks (unbind_cases c x.1) (List.range 4) s

/-- Unbinding changes the banks alone. -/
theorem unbindAll_cases (c : Nat) (s : State) : ∃ bs, s.banks.foldl (unbindCore c) s = { s with banks := bs } :=
  foldl_banks (unbindCore_cases c) s.banks s

theorem boundTo_setBound_none (s : State) (core i k b : Nat) :
    boundTo (setBound s core i none) k b = none ∨ boundTo (setBound s core i none) k b = boundTo s k b := by
  by_cases hk : k = core
  · subst hk
    simp only [boundTo, setBound, banksOf, putBanks, tget_tput_self, Option.getD_some, List.getElem?_set]
    split
    · left; split <;> rfl
    · right; rfl
  · right
    simp only [boundTo, setBound, banksOf, putBanks, tget_tput_ne _ _ hk]

theorem boundTo_setBound_self (s : State) (core i : Nat) : boundTo (setBound s core i none) core i = none := by
  simp only [boundTo, setBound, banksOf, putBanks, tget_tput_self, Option.getD_some, List.getElem?_set, if_true]
  split <;> rfl

/-- Unbinding binds no bank. -/
theorem boundTo_unbind {s : State} {c k b : Nat} (h : boundTo s k b ≠ some c) (core i : Nat) :
    boundTo (unbind c core s i) k b ≠ some c := by
  unfold unbind
  split
  · rcases boundTo_setBound_none s core i k b with e | e <;> rw [e]
    · nofun
    · exact h
  · exact h

theorem boundTo_unbind_self (s : State) (c core i : Nat) : boundTo (unbind c core s i) core i ≠ some c := by
  unfold unbind
  split
  · rw [boundTo_setBound_self]
    nofun
  · assumption

/-- What one step of a fold makes so and every step keeps is so at the end. -/
theorem foldl_establishes {α β : Type} {P : α → Prop} {f : α → β → α} (hkeep : ∀ a b, P a → P (f a b)) {bs : List β} {b : β}
    (hb : b ∈ bs) (hmake : ∀ a, P (f a b)) (a : α) : P (bs.foldl f a) := by
  have hrest (bs : List β) (a : α) (h : P a) : P (bs.foldl f a) :=
    List.foldlRecOn (motive := P) bs f h fun a h b _ => hkeep a b h
  induction bs generalizing a with
  | nil => cases hb
  | cons x bs ih =>
    rcases List.mem_cons.mp hb with rfl | hb
    · exact hrest bs _ (hmake a)
    · exact ih hb _

theorem boundTo_unbindCore {s : State} {c k b : Nat} (h : boundTo s k b ≠ some c) (x : Nat × CoreBanks) :
    boundTo (unbindCore c s x) k b ≠ some c :=
  List.foldlRecOn (motive := fun s : State => boundTo s k b ≠ some c) _ _ h fun _ h i _ => boundTo_unbind h x.1 i

/-- No bank stays bound to a context that leaves the banks. -/
theorem boundTo_unbindAll (c : Nat) (s : State) {k b : Nat} (hk : k ∈ s.banks.map (·.1)) (hb : b < 4) :
    boundTo (s.banks.foldl (unbindCore c) s) k b ≠ some c := by
  obtain ⟨x, hx, rfl⟩ := List.mem_map.mp hk
  exact foldl_establishes (P := fun s : State => boundTo s x.1 b ≠ some c) (fun _ y h => boundTo_unbindCore h y) hx
    (foldl_establishes (P := fun s : State => boundTo s x.1 b ≠ some c) (fun _ i h => boundTo_unbind h x.1 i)
      (List.mem_range.mpr hb) fun a => boundTo_unbind_self a c x.1 b) s

theorem dropCtx_eq (s : State) (c : Nat) : dropCtx s c =
    let u := s.banks.foldl (unbindCore c) s
    let v : State := { u with images := u.images.filter fun p => p.1 / 2 ^ 64 != c }
    if winEn (winReg v c) then closeWindow v c (winReg v c &&& 0x7FFFFFFF) else v := rfl

/-- A context whose window is closed leaves the banks, none of which stays bound to it, and its images (R324). -/
theorem dropCtx_of_closed {s : State} {c : Nat} (hwin : winEn (winReg s c) = false) :
    ∃ bs is, dropCtx s c = { s with banks := bs, images := is }
      ∧ ∀ k b, k ∈ s.banks.map (·.1) → b < 4 → boundTo { s with banks := bs, images := is } k b ≠ some c := by
  obtain ⟨bs, hbs⟩ := unbindAll_cases c s
  refine ⟨bs, s.images.filter fun p => p.1 / 2 ^ 64 != c, ?_, fun k b hk hb => ?_⟩
  · rw [dropCtx_eq, hbs]
    exact if_neg (Bool.eq_false_iff.mp hwin)
  · have hfree := boundTo_unbindAll c s hk hb
    rw [hbs] at hfree
    exact hfree

/-! O50: power states (R441). -/

/-- The state once sleep is left: trained again, and SRAM zeroed. -/
def State.awake (s : State) : State := if s.pstate = 2 then zeroSram (trained s) else s

theorem awake_mem (s : State) : s.awake.mem = s.mem := by
  unfold State.awake
  split <;> rfl

theorem anyValid_iff (s : State) : anyValid s = true ↔ ∃ k, k < 64 ∧ ctxValid s k = true := by simp [anyValid]

section
variable {s : State} (hopen : bit (regGet s 0x600) 29 = true)
include hopen

theorem pstateEvent_of_open (w : Word) : pstateEvent s w = .next (pstateSet s w) := by
  rw [pstateEvent, if_pos (portOpen_of_open hopen _)]

theorem exec_pstateRun_of_open : exec .pstateRun s = .next { s.awake with pstate := 0 } :=
  (exec_pstateRun s).trans (pstateEvent_of_open hopen 0)

theorem exec_pstateIdle_of_open : exec .pstateIdle s
    = .next (if s.teams.isEmpty then subnetsOff { s.awake with pstate := 1 } else s) :=
  (exec_pstateIdle s).trans (pstateEvent_of_open hopen 1)

theorem exec_pstateSleep_of_open : exec .pstateSleep s
    = .next (if anyValid s then s else { s with pstate := 2 }) :=
  (exec_pstateSleep s).trans (pstateEvent_of_open hopen 2)

end

/-- Settles O50: each write is taken or refused by the rules of its register. In sleep the registers and memory stay, and
SRAM reads 0 once it is left (log 75), after a training whose outcome is a free choice (log 129). -/
theorem registersAndContexts : Obligations.RegistersAndContexts := by
  unfold Obligations.RegistersAndContexts
  intro s c p off val w open_ base count
  have hbase : winBase = base := funext winBase_eq
  refine ⟨fun hkeys => exec_registerWrite_of_keys hkeys off val, fun hkeys => ?read,
    fun hclosed hoff hsec => hostWriteReg_of_closed hclosed hoff hsec w,
    fun hopen hp => hostWriteReg_stopLaunch hopen hp w, fun hc hopen hw => ?enable, fun hc hopen hw => ?disable,
    fun hp hopen => ⟨exec_partqWrite_of_overlap hp hopen, exec_partqWrite_of_free hp hopen⟩,
    fun hclosed => exec_port_of_closed hclosed c p val, fun hp hopen => ?hcore, fun hc hopen => ?context,
    fun hopen => ?power⟩
  case read =>
    obtain ⟨hgroups, hmem, -⟩ := hostReadReg_keeps s off
    refine ⟨_, _, exec_rcRegisterRead_of_keys hkeys off, hgroups, hmem, fun hodd => ?_, fun hopen h => ?_,
      fun hopen hc h => ?_⟩
    · rw [hostReadReg_odd hodd]
      exact ⟨rfl, rfl⟩
    · rw [h, hostReadReg_drops hopen]
      exact ⟨rfl, regGet_regSet_self _ _ _⟩
    · rw [h, hostReadReg_ctxcfg hopen hc]
      exact ⟨rfl, rfl⟩
  case enable =>
    have hmeets := meets_iff (s := s) (c := c) (w := w)
    rw [hbase] at hmeets
    rw [exec_annWindowEnable_of_open hc hopen hw, windowWrite_of_enable hw, hbase]
    intro old
    refine ⟨fun h => congrArg _ (if_pos h), fun hold => ?_, fun k hk hne hen h1 h2 => ?_, fun hold h0 hend hapart => ?_⟩
    · have hold : winEn (winReg s c) = true := hold
      simp only [hold, if_true, ite_self]
    · rw [if_pos (hmeets.mpr ⟨k, hk, hne, hen, h1, h2⟩), ite_self]
    · have hfits : ¬ (count w = 0 ∨ 1152 < base w + count w) := by omega
      have hnone : ¬ ∃ k, k < 64 ∧ k ≠ c ∧ winEn (winReg s k) = true ∧ base (winReg s k) < base w + count w
          ∧ base w < base (winReg s k) + count (winReg s k) := by
        rintro ⟨k, hk, hne, hen, h1, h2⟩
        exact (hapart k hk hne hen).elim h1.not_ge h2.not_ge
      refine ⟨_, congrArg _ ((if_neg hfits).trans ((if_neg (mt hmeets.mp hnone)).trans
        (if_neg (Bool.eq_false_iff.mp hold)))), regGet_regSet_self _ _ _, fun a => ?_⟩
      rw [Nat.mul_add]
      exact rdByte_zeroRange _ _ _ _
  case disable =>
    rw [exec_annWindowDisable_of_open hc hopen hw, windowWrite_of_disable hw]
    refine ⟨fun hold => ?_, fun hold hcaps haboard => ⟨_, congrArg _ (if_pos hold), ?_⟩⟩
    · rw [winEn, winReg, hold]
      rfl
    · rw [closeWindow_of_empty hcaps haboard]
      exact ⟨regGet_regSet_self _ _ _, rfl, rfl, rfl⟩
  case hcore =>
    rw [exec_hcoreWrite_of_open hp hopen]
    refine ⟨fun h => congrArg _ (if_pos h), fun hslot hk hd hb => congrArg _ (if_neg ?_)⟩
    exact not_or.mpr ⟨by rw [hslot]; nofun, not_or.mpr ⟨not_not_intro hk,
      not_or.mpr ⟨Bool.eq_false_iff.mp hd, not_not_intro hb⟩⟩⟩
  case context =>
    intro q second
    refine ⟨fun hv hw => ?_, fun hv hw => ?_⟩
    · rw [exec_contextCreate_of_open hc hopen hv hw]
      refine ⟨fun h => congrArg _ (ctxcfgSet_of_refused (by simp [hv]) h), fun hsup hm => ?_⟩
      rw [ctxcfgSet_of_create hv hw hsup hm]
      obtain ⟨hvalid, hpart, hsup'⟩ := ctx_of_cfg (createCtx s c) c w
      refine ⟨_, rfl, hvalid.trans hw, hpart, hsup', seq_createCtx s c, rfl, rfl, fun n hn => ?_⟩
      obtain ⟨hlt, hne, hreset⟩ := regReset_of_ctx n hn
      rw [regGet_regSet_ne _ _ (by simpa [kCtx] using hne), regGet_createCtx s c hlt hne, hreset]
    · rw [exec_contextInvalidate_of_open hc hopen hv hw]
      refine ⟨fun hb => congrArg _ (ctxcfgSet_of_busy hw hv hb), fun hb hsup hm hwin => ?_⟩
      rw [ctxcfgSet_of_drop hw hv hb hsup hm]
      obtain ⟨bs, is, hdrop, hfree⟩ := dropCtx_of_closed hwin
      obtain ⟨hvalid, -, -⟩ := ctx_of_cfg (dropCtx s c) c w
      refine ⟨_, rfl, hvalid.trans hw, ?_, ?_, ?_⟩
      · rw [hdrop]
        rfl
      · rw [hdrop]
        rfl
      · rw [hdrop]
        exact hfree
  case power =>
    refine ⟨fun h => ?_, fun h => ?_, fun h => ?_, fun h => ?_, fun h => ?_, fun h => ?_⟩
    · rw [exec_pstateRun_of_open hopen, State.awake, if_neg h]
    · rw [exec_pstateRun_of_open hopen, State.awake, if_pos h]
      exact ⟨_, rfl, rfl, rfl, rfl, rfl, fun _ => ⟨rfl, rfl, rfl⟩⟩
    · rw [exec_pstateIdle_of_open hopen, if_neg (by simpa using h)]
    · rw [exec_pstateIdle_of_open hopen, if_pos (by simpa using h)]
      exact ⟨_, rfl, rfl, regGet_regSet_self _ _ _, awake_mem s⟩
    · rw [exec_pstateSleep_of_open hopen, if_pos ((anyValid_iff s).mpr h)]
    · rw [exec_pstateSleep_of_open hopen, if_neg ((not_congr (anyValid_iff s)).mpr (by simpa using h))]

end Sys2Proof.Machine

namespace Sys2Proof

/-! O57: fields, operands and codes are read back as they were written (R160 to R162, R168, R170, R171, R414). -/

theorem fields_word32 {cls m a b c : Nat} (hk : cls < 64) (hm : m < 16) (ha : a < 128) (hb : b < 128) (hc : c < 128) :
    bitsAt (word32 cls m a b c) 1 6 = cls ∧ bitsAt (word32 cls m a b c) 28 4 = m ∧ bitsAt (word32 cls m a b c) 7 7 = a
    ∧ bitsAt (word32 cls m a b c) 14 7 = b ∧ bitsAt (word32 cls m a b c) 21 7 = c := by
  simp only [bitsAt, word32]
  refine ⟨?_, ?_, ?_, ?_, ?_⟩ <;> omega

theorem fields_word16 {a b op : Nat} (ha : a < 64) (hb : b < 32) (ho : op < 16) :
    bitsAt (word16 op a b) 1 4 = op ∧ bitsAt (word16 op a b) 5 6 = a ∧ bitsAt (word16 op a b) 11 5 = b := by
  simp only [bitsAt, word16]
  refine ⟨?_, ?_, ?_⟩ <;> omega

theorem fields_wordFilter {op d a b imm : Nat} (ho : op < 64) (hd : d < 16) (ha : a < 16) (hb : b < 16) (hi : imm < 2 ^ 14) :
    bitsAt (wordFilter op d a b imm) 26 6 = op ∧ bitsAt (wordFilter op d a b imm) 22 4 = d
    ∧ bitsAt (wordFilter op d a b imm) 18 4 = a ∧ bitsAt (wordFilter op d a b imm) 14 4 = b
    ∧ bitsAt (wordFilter op d a b imm) 0 14 = imm := by
  simp only [bitsAt, wordFilter]
  refine ⟨?_, ?_, ?_, ?_, ?_⟩ <;> omega

theorem wordFilter_lt {op d a b imm : Nat} (ho : op < 64) (hd : d < 16) (ha : a < 16) (hb : b < 16) (hi : imm < 2 ^ 14) :
    wordFilter op d a b imm < 2 ^ 32 := by simp only [wordFilter]; omega

/-- An odd word is made of its fields. -/
theorem word32_fields {w : Nat} (h : w < 2 ^ 32) (ho : w % 2 = 1) :
    word32 (bitsAt w 1 6) (bitsAt w 28 4) (bitsAt w 7 7) (bitsAt w 14 7) (bitsAt w 21 7) = w := by
  simp only [bitsAt, word32]
  omega

/-- The fields within the immediate of a filter word. -/
theorem bitsAt_of_imm {w imm : Nat} (h : bitsAt w 0 14 = imm) : bitsAt w 0 2 = imm % 4 ∧ bitsAt w 0 4 = imm % 16
    ∧ bitsAt w 0 5 = imm % 32 ∧ bitsAt w 13 1 = imm / 2 ^ 13 ∧ bitsAt w 4 9 = imm / 16 % 512 := by
  simp only [bitsAt] at *
  omega

/-- The fields that reach over the borders of D, A, B and the immediate. -/
theorem fields_wider {w : Nat} : bitsAt w 5 13 = bitsAt w 14 4 * 512 + bitsAt w 0 14 / 32
    ∧ bitsAt w 4 18 = bitsAt w 18 4 * 2 ^ 14 + bitsAt w 14 4 * 2 ^ 10 + bitsAt w 0 14 / 16
    ∧ bitsAt w 2 24 = bitsAt w 22 4 * 2 ^ 20 + bitsAt w 18 4 * 2 ^ 16 + bitsAt w 14 4 * 2 ^ 12 + bitsAt w 0 14 / 4
    ∧ bitsAt w 0 26 = bitsAt w 22 4 * 2 ^ 22 + bitsAt w 18 4 * 2 ^ 18 + bitsAt w 14 4 * 2 ^ 14 + bitsAt w 0 14 := by
  simp only [bitsAt]
  refine ⟨?_, ?_, ?_, ?_⟩ <;> omega

theorem bitsAt_lt (w lo n : Nat) : bitsAt w lo n < 2 ^ n := Nat.mod_lt _ (by positivity)

/-- A flag is written as one bit. -/
theorem exists_bit (f : Bool) (n : Nat) : ∃ x, x < 2 ∧ (if f then n else 0) = x * n ∧ (x == 1) = f := by
  cases f with
  | true => exact ⟨1, by simp⟩
  | false => exact ⟨0, by simp⟩

@[simp] theorem vOf_toNat (v : VReg) : vOf v.toNat = v := by simp [vOf]
@[simp] theorem toNat_vOf (n : Nat) : (vOf n).toNat = n % 128 := by simp [vOf]
@[simp] theorem withS_toNat (r : SReg) (k : SReg → Decoded) : withS r.toNat k = k r := by
  simp [withS, r.isLt]
@[simp] theorem withM_toNat (r : MReg) (k : MReg → Decoded) : withM r.toNat k = k r := by
  simp [withM, r.isLt]
@[simp] theorem withK_toNat (r : KReg) (k : KReg → Decoded) : withK r.toNat k = k r := by
  simp [withK, r.isLt]
@[simp] theorem withTy_code (t : AccTy) (k : AccTy → Decoded) : withTy t.code k = k t := by cases t <;> rfl
@[simp] theorem withOp_code (o : AtomOp) (k : AtomOp → Decoded) : withOp o.code k = k o := by cases o <;> rfl
@[simp] theorem withNum_code (t : NumTy) (k : NumTy → Decoded) : withNum t.code k = k t := by cases t <;> rfl

theorem xOf_field {x : XOp} (h : x.short = true) : xOf x.field = x := by
  cases x with
  | s r => simp [xOf, XOp.field, r.isLt]
  | imm n => simp [xOf, XOp.field, Nat.mod_eq_of_lt n.isLt]
  | lit w => simp [XOp.short] at h

theorem field_xOf {c : Nat} (h : c < 128) : (xOf c).field = c := by
  unfold xOf
  split <;> simp [XOp.field] <;> omega

theorem xOp_field_lt (x : XOp) : x.field < 128 := by
  cases x <;> simp only [XOp.field] <;> omega

theorem exists_near {n : BranchOp} (h : n.short = true) : ∃ k, n = .near k := by
  cases n with
  | near k => exact ⟨k, rfl⟩
  | far w => simp [BranchOp.short] at h

theorem memOf_field_of_local {y : MemOp} (h : y.wfLocal = true) : memOf y.fieldB y.fieldC = y := by
  cases y with
  | off b n => simp [memOf, MemOp.fieldB, MemOp.fieldC, b.isLt]
  | idx b n =>
    have hb : b.toNat ≠ 0 := by simpa [MemOp.wfLocal] using h
    simp [memOf, MemOp.fieldB, MemOp.fieldC, Nat.mod_eq_of_lt b.isLt, hb]
  | pair n => simp [memOf, MemOp.fieldB, MemOp.fieldC]
  | _ => simp [MemOp.wfLocal] at h

theorem wfLocal_of_wfGlobal {y : MemOp} (h : y.wfGlobal = true) : y.wfLocal = true := by
  cases y <;> simp_all [MemOp.wfGlobal, MemOp.wfLocal]

theorem memOp_fields_lt (y : MemOp) : y.fieldB < 128 ∧ y.fieldC < 128 := by
  cases y <;> simp only [MemOp.fieldB, MemOp.fieldC] <;> omega

theorem fields_memOf {b c : Nat} (hb : b < 128) (hc : c < 128) : (memOf b c).fieldB = b ∧ (memOf b c).fieldC = c := by
  unfold memOf
  split
  · simp [MemOp.fieldB, MemOp.fieldC]; omega
  · split <;> simp [MemOp.fieldB, MemOp.fieldC] <;> omega

theorem accTy_code_lt (t : AccTy) : t.code < 16 := by cases t <;> decide
theorem atomOp_code_lt (o : AtomOp) : o.code < 16 := by cases o <;> decide
theorem numTy_code_lt (t : NumTy) : t.code < 16 := by cases t <;> decide

theorem checked_zero {i : Instr} (h : i.wf = true) : Decoded.checked 0 i = .ok i := by simp [Decoded.checked, h]

/-! O57: a word that decodes to an instruction is its encoding (R173: no unused bit is ignored). -/

/-- Where `d` carries an instruction, it is well formed and `w` is its encoding in `n` bits. -/
def Yields (d : Decoded) (n w : Nat) : Prop := ∀ i, d = .ok i → i.wf = true ∧ encode i = some (n, w)

@[simp] theorem yields_illegal (n w : Nat) : Yields .illegal n w ↔ True := by simp [Yields]
@[simp] theorem yields_ok (i : Instr) (n w : Nat) : Yields (.ok i) n w ↔ i.wf = true ∧ encode i = some (n, w) := by
  simp [Yields]

@[simp] theorem yields_checked (z : Nat) (i : Instr) (n w : Nat) :
    Yields (.checked z i) n w ↔ (i.wf = true → z = 0 → encode i = some (n, w)) := by
  unfold Yields Decoded.checked
  by_cases hw : i.wf = true
  · by_cases hz : z = 0
    · simp [hw, hz]
    · simp [hw, hz]
  · simp [hw]
@[simp] theorem yields_withS (k : Nat) (f : SReg → Decoded) (n w : Nat) :
    Yields (withS k f) n w ↔ (k < 64 → Yields (f (BitVec.ofNat 6 k)) n w) := by
  unfold withS; split <;> simp_all
@[simp] theorem yields_withM (k : Nat) (f : MReg → Decoded) (n w : Nat) :
    Yields (withM k f) n w ↔ (k < 16 → Yields (f (BitVec.ofNat 4 k)) n w) := by
  unfold withM; split <;> simp_all
@[simp] theorem yields_withK (k : Nat) (f : KReg → Decoded) (n w : Nat) :
    Yields (withK k f) n w ↔ (k < 2 → Yields (f (BitVec.ofNat 1 k)) n w) := by
  unfold withK; split <;> simp_all

theorem code_of_accTyOf {n : Nat} {t : AccTy} (h : accTyOf n = some t) : t.code = n := by
  unfold accTyOf at h
  split at h <;> cases h <;> rfl
theorem code_of_atomOpOf {n : Nat} {t : AtomOp} (h : atomOpOf n = some t) : t.code = n := by
  unfold atomOpOf at h
  split at h <;> cases h <;> rfl
theorem code_of_numTyOf {n : Nat} {t : NumTy} (h : numTyOf n = some t) : t.code = n := by
  unfold numTyOf at h
  split at h <;> cases h <;> rfl
theorem code_watchCondOf {n : Nat} (h : n < 4) : (watchCondOf n).code = n := by
  interval_cases n <;> rfl

@[simp] theorem yields_withTy (k : Nat) (f : AccTy → Decoded) (n w : Nat) :
    Yields (withTy k f) n w ↔ ∀ t : AccTy, t.code = k → Yields (f t) n w := by
  constructor
  · rintro h t rfl
    simpa using h
  · intro h
    unfold withTy
    cases ht : accTyOf k with
    | some t => exact h t (code_of_accTyOf ht)
    | none => simp
@[simp] theorem yields_withOp (k : Nat) (f : AtomOp → Decoded) (n w : Nat) :
    Yields (withOp k f) n w ↔ ∀ t : AtomOp, t.code = k → Yields (f t) n w := by
  constructor
  · rintro h t rfl
    simpa using h
  · intro h
    unfold withOp
    cases ht : atomOpOf k with
    | some t => exact h t (code_of_atomOpOf ht)
    | none => simp
@[simp] theorem yields_withNum (k : Nat) (f : NumTy → Decoded) (n w : Nat) :
    Yields (withNum k f) n w ↔ ∀ t : NumTy, t.code = k → Yields (f t) n w := by
  constructor
  · rintro h t rfl
    simpa using h
  · intro h
    unfold withNum
    cases ht : numTyOf k with
    | some t => exact h t (code_of_numTyOf ht)
    | none => simp

@[simp] theorem yields_ite (p : Prop) [Decidable p] (d e : Decoded) (n w : Nat) :
    Yields (if p then d else e) n w ↔ (p → Yields d n w) ∧ (¬p → Yields e n w) := by
  by_cases h : p <;> simp [h]

/-- The field N, made of C above B (R168). -/
theorem field_near {b c : Nat} (hb : b < 128) (hc : c < 128) :
    (c * 128 + b) % 16384 = c * 128 + b ∧ (c * 128 + b) / 128 = c := by omega

/-- The classes 0x08 and 0x09, all of whose minor opcodes have a row. -/
theorem yields_decClass08_09 {m a b c : Nat} (hm : m < 16) (ha : a < 128) (hb : b < 128) (hc : c < 128) :
    Yields (decClass08 m a b c) 32 (word32 8 m a b c) ∧ Yields (decClass09 m a b c) 32 (word32 9 m a b c) := by
  interval_cases m <;> simp [decClass08, decClass09, encode, Nat.mod_eq_of_lt, field_xOf, *]

/-- `cvt`: the field C holds the source type and the bit of saturation (R171). -/
theorem yields_decClass11 {m a b c : Nat} (ha : a < 128) (hb : b < 128) :
    Yields (decClass11 m a b c) 32 (word32 17 m a b c) := by
  simp only [decClass11, yields_withNum, yields_checked]
  rintro t rfl u hu - hz
  have hsat : u.code + (if c / 16 % 2 = 1 then 16 else 0) = c := by split <;> omega
  simp [encode, Nat.mod_eq_of_lt, ha, hb, hsat]

/-- `ann.wait`: the minor opcode holds the condition and the comparison's width. -/
theorem yields_decClass32 {m a b c : Nat} (hm : m < 16) : Yields (decClass32 m a b c) 32 (word32 50 m a b c) := by
  simp only [decClass32, yields_withS, yields_checked]
  intro ha hb hc _ _
  have hcode := code_watchCondOf (show m / 4 < 4 by omega)
  have hk : m / 4 * 4 + m % 4 = m := by omega
  simp [encode, hcode, hk, Nat.mod_eq_of_lt, ha, hb, hc]

/-- The pushes, bit 0 of whose field C says which registers B names (R172). -/
theorem yields_decClass36 {m a b c : Nat} (hb : b < 128) :
    Yields (decClass36 m a b c) 32 (word32 54 m a b c) := by
  have hvec : c ≤ 1 → (if c = 1 then 1 else 0) = c := by intro h; split <;> omega
  unfold decClass36
  split <;> simp +contextual [encode, hb, hvec, Nat.mod_eq_of_lt]

/-- The hypervector class, in four rows of which one bit of B or C chooses between two instructions. -/
theorem yields_decClass38 {m a b c : Nat} (ha : a < 128) (hb : b < 128) (hc : c < 128) :
    Yields (decClass38 m a b c) 32 (word32 56 m a b c) := by
  unfold decClass38
  split
  case h_4 | h_8 | h_9 | h_13 =>
    simp +contextual [encode, Nat.mod_eq_of_lt]
    intros
    constructor <;> intros <;> congr 1 <;> omega
  all_goals simp +contextual [encode, ha, hb, hc, Nat.mod_eq_of_lt, field_xOf]

/-- Every row of R167 that stands: a class whose minor opcode chooses its rows is split by it. -/
theorem yields_decClass {cls m a b c : Nat} (hm : m < 16) (ha : a < 128) (hb : b < 128) (hc : c < 128) :
    Yields (decClass cls m a b c) 32 (word32 cls m a b c) := by
  obtain ⟨hn, hd⟩ := field_near hb hc
  obtain ⟨hy, hz⟩ := fields_memOf hb hc
  unfold decClass
  split
  case h_6 => exact (yields_decClass08_09 hm ha hb hc).1
  case h_7 => exact (yields_decClass08_09 hm ha hb hc).2
  case h_15 => exact yields_decClass11 ha hb
  case h_41 => exact yields_decClass32 hm
  case h_45 => exact yields_decClass36 hb
  case h_47 => exact yields_decClass38 ha hb hc
  case h_49 => simp
  case h_21 | h_22 | h_23 | h_24 | h_25 | h_26 | h_27 | h_28 | h_29 | h_30 | h_31 | h_33 | h_34 | h_35 | h_36 | h_37
      | h_38 | h_42 | h_43 =>
    simp +contextual [decClass18, decClass19, decClass20, decClass21, decClass22, decClass23, decClass24, decClass25,
      decClass26, decClass27, decClass28, decClass2A, decClass2B, decClass2C, decClass2D, decClass2E, decClass2F, decClass33,
      decClass34, encode, ha, hb, hc, hy, hz, Nat.mod_eq_of_lt, field_xOf]
  all_goals
    simp only [decClass01, decClass02, decClass03, decClass04, decClass05, decClass0A, decClass0B, decClass0C, decClass0D,
      decClass0E, decClass0F, decClass10, decClass12, decClass13, decClass14, decClass16, decClass17, decClass29, decClass30,
      decClass31, decClass35, decClass37, decClass3C]
    split
  all_goals simp +contextual [encode, ha, hb, hc, hn, hd, hy, hz, Nat.mod_eq_of_lt, field_xOf, BranchOp.field]

theorem yields_decode32 {w : Nat} (h : w < 2 ^ 32) (ho : w % 2 = 1) : Yields (decode32 w) 32 w := by
  intro i hi
  simp only [decode32] at hi
  split at hi
  next h3 =>
    obtain rfl := Decoded.ok.inj hi
    refine ⟨rfl, ?_⟩
    simp only [bitsAt] at h3
    simp [encode, bitsAt]
    omega
  next h3 =>
    split at hi
    next h4 =>
      revert hi i
      change Yields _ _ _
      simp only [yields_checked]
      intro hwf hz
      simp only [bitsAt] at h4 hz
      simp [encode, bitsAt]
      split_ifs <;> omega
    next h4 =>
      rw [← word32_fields h ho]
      exact yields_decClass (bitsAt_lt w 28 4) (bitsAt_lt w 7 7) (bitsAt_lt w 14 7) (bitsAt_lt w 21 7) i hi

theorem yields_decode64 {w : Nat} (h : w < 2 ^ 64) (hk : w % 128 = 0x3D * 2 + 1) : Yields (decode64 w) 64 w := by
  simp only [decode64, yields_checked]
  intro _ hz
  simp only [bitsAt] at hz
  simp [encode, bitsAt]
  omega

theorem yields_decode16 {w : Nat} (h : w < 2 ^ 16) (ho : w % 2 = 0) : Yields (decode16 w) 16 w := by
  have hop : bitsAt w 1 4 < 16 := bitsAt_lt w 1 4
  generalize hk : bitsAt w 1 4 = k at hop
  simp only [decode16, hk]
  simp only [bitsAt] at hk
  interval_cases k <;> simp [encode, Instr.wf, word16, bitsAt] <;> omega

theorem decodeFilter_encodes {w : Nat} {i : Instr} (h : w < 2 ^ 32) (hi : decodeFilter w = some i) :
    i.wf = true ∧ encode i = some (32, w) := by
  unfold decodeFilter at hi
  simp only at hi
  split at hi
  case h_23 => cases hi
  case h_20 hop =>
    obtain ⟨⟨hz, hwf⟩, hi⟩ := Option.ite_none_right_eq_some.1 hi
    obtain rfl := Option.some.inj hi
    refine ⟨hwf, ?_⟩
    obtain ⟨h4, h14, h22⟩ : bitsAt w 4 9 = 0 ∧ bitsAt w 14 4 = 0 ∧ bitsAt w 22 4 = 0 := by omega
    simp only [bitsAt] at hop h4 h14 h22
    simp [encode, wordFilter, bitsAt]
    split <;> omega
  all_goals
    rename_i hop
    obtain ⟨⟨hz, hwf⟩, hi⟩ := Option.ite_none_right_eq_some.1 hi
    obtain rfl := Option.some.inj hi
    refine ⟨hwf, ?_⟩
    simp only [bitsAt] at hop hz
    simp [encode, wordFilter, bitsAt]
    omega

/-- The word at the head of four halfwords is the encoding of what they decode to, in as many bits (R151). -/
theorem decodeHalves_encodes {h0 h1 h2 h3 k : Nat} {i : Instr} (b0 : h0 < 65536) (b1 : h1 < 65536) (b2 : h2 < 65536)
    (b3 : h3 < 65536) (h : decodeHalves [h0, h1, h2, h3] = (.ok i, k)) :
    i.wf = true ∧ encode i = some (16 * k, (h0 + 65536 * h1 + 65536 ^ 2 * h2 + 65536 ^ 3 * h3) % 2 ^ (16 * k)) := by
  simp only [decodeHalves] at h
  split at h
  next ho =>
    obtain ⟨hd, rfl⟩ := Prod.mk.inj h
    have hw : (h0 + 65536 * h1 + 65536 ^ 2 * h2 + 65536 ^ 3 * h3) % 2 ^ (16 * 1) = h0 := by omega
    rw [hw]
    exact yields_decode16 b0 ho i hd
  next ho =>
    split at h
    next hk =>
      obtain ⟨hd, rfl⟩ := Prod.mk.inj h
      have hw : (h0 + 65536 * h1 + 65536 ^ 2 * h2 + 65536 ^ 3 * h3) % 2 ^ (16 * 4)
        = h0 + 65536 * h1 + 65536 ^ 2 * h2 + 65536 ^ 3 * h3 := Nat.mod_eq_of_lt (by omega)
      simp only [bitsAt] at hk
      rw [hw]
      exact yields_decode64 (by omega) (by omega) i hd
    next hk =>
      obtain ⟨hd, rfl⟩ := Prod.mk.inj h
      have hw : (h0 + 65536 * h1 + 65536 ^ 2 * h2 + 65536 ^ 3 * h3) % 2 ^ (16 * 2) = h0 + 65536 * h1 := by omega
      rw [hw]
      exact yields_decode32 (by omega) (by omega) i hd

/-! O57: an encoding decodes to its instruction. -/

/-- The `n` bits of `w`, split into halfwords, decode to `i`, or are a filter word that does. -/
def ReadsBack (i : Instr) (n w : Nat) : Prop :=
  w < 2 ^ n ∧ n ∈ [16, 32, 64]
  ∧ ((decodeHalves [w % 65536, w / 65536 % 65536, w / 65536 ^ 2 % 65536, w / 65536 ^ 3]) = (.ok i, n / 16)
    ∨ decodeFilter w = some i)

/-- A 32-bit word that is no long form is read by `decode32` (R151). -/
theorem readsBack_of_decode32 {i : Instr} {w : Nat} (hw : w < 2 ^ 32) (ho : w % 2 = 1) (hk : bitsAt w 1 6 ≠ 0x3D)
    (h : decode32 w = .ok i) : ReadsBack i 32 w := by
  refine ⟨hw, by simp, .inl ?_⟩
  have h1 : w % 65536 + 65536 * (w / 65536 % 65536) = w := by omega
  have h2 : bitsAt (w % 65536) 1 6 ≠ 0x3D := by simp only [bitsAt] at hk ⊢; omega
  have h3 : w % 65536 % 2 ≠ 0 := by omega
  simp only [decodeHalves, if_neg h3, if_neg h2, h1, h]

theorem readsBack_word32 {i : Instr} {cls m a b c : Nat} (hk : cls < 0x3D) (hm : m < 16) (ha : a < 128) (hb : b < 128)
    (hc : c < 128) (h : decClass cls m a b c = .ok i) : ReadsBack i 32 (word32 cls m a b c) := by
  obtain ⟨h1, h2, h3, h4, h5⟩ := fields_word32 (show cls < 64 by omega) hm ha hb hc
  refine readsBack_of_decode32 (by simp only [word32]; omega) (by simp only [word32]; omega) (by omega) ?_
  have n1 : cls ≠ 0x3E := by omega
  have n2 : cls ≠ 0x3F := by omega
  simp only [decode32, h1, h2, h3, h4, h5, if_neg n1, if_neg n2, h]

theorem readsBack_word16 {i : Instr} {a b op : Nat} (ha : a < 64) (hb : b < 32) (ho : op < 16)
    (h : decode16 (word16 op a b) = .ok i) : ReadsBack i 16 (word16 op a b) := by
  have hw : word16 op a b < 65536 := by simp only [word16]; omega
  have he : word16 op a b % 2 = 0 := by simp only [word16]; omega
  refine ⟨hw, by simp, .inl ?_⟩
  simp only [decodeHalves, Nat.mod_eq_of_lt hw, if_pos he, h]

theorem readsBack_of_decodeFilter {i : Instr} {w : Nat} (hw : w < 2 ^ 32) (h : decodeFilter w = some i) : ReadsBack i 32 w :=
  ⟨hw, by simp, .inr h⟩

/-- A kind of operand (R161): the field that it is written in, and what the decoder reads from a field. -/
structure Operand (α : Type) where
  field : α → Nat
  read : Nat → (α → Decoded) → Decoded
  fits : α → Prop
  field_lt : ∀ x, field x < 128
  read_field : ∀ x k, fits x → read (field x) k = k x

namespace Operand
/-- Kinds S, K, M and H, and V. -/
def s : Operand SReg := ⟨BitVec.toNat, withS, fun _ => True, fun x => by omega, fun r k _ => withS_toNat r k⟩
def k : Operand KReg := ⟨BitVec.toNat, withK, fun _ => True, fun x => by omega, fun r k _ => withK_toNat r k⟩
def m : Operand MReg := ⟨BitVec.toNat, withM, fun _ => True, fun x => by omega, fun r k _ => withM_toNat r k⟩
def v : Operand VReg :=
  ⟨BitVec.toNat, fun n k => k (vOf n), fun _ => True, fun x => by omega, fun r k _ => by rw [vOf_toNat]⟩
/-- Kind X, without a literal. -/
def x : Operand XOp :=
  ⟨XOp.field, fun n k => k (xOf n), fun x => x.short = true, xOp_field_lt, fun r k h => by rw [xOf_field h]⟩
/-- No operand: the field is 0. -/
def z : Operand Unit := ⟨fun _ => 0, fun _ k => k (), fun _ => True, fun _ => by decide, fun _ _ _ => rfl⟩
/-- A field whose value 1 is part of the opcode. -/
def one : Operand Unit := ⟨fun _ => 1, fun _ k => k (), fun _ => True, fun _ => by decide, fun _ _ _ => rfl⟩
end Operand

section
variable {α β γ : Type} {cls m : Nat} {a : α} {b : β} {c : γ}

/-- A row of R167 whose operands are each read from a field of their own. -/
theorem readsBack_row3 {K : α → β → γ → Instr} (oA : Operand α) (oB : Operand β) (oC : Operand γ) (hwf : (K a b c).wf = true)
    (hf : oA.fits a ∧ oB.fits b ∧ oC.fits c)
    (hd : decClass cls m (oA.field a) (oB.field b) (oC.field c) = oA.read (oA.field a) fun a => oB.read (oB.field b) fun b =>
      oC.read (oC.field c) fun c => .checked 0 (K a b c)) (hk : cls < 0x3D := by decide) (hm : m < 16 := by decide) :
    ReadsBack (K a b c) 32 (word32 cls m (oA.field a) (oB.field b) (oC.field c)) := by
  refine readsBack_word32 hk hm (oA.field_lt a) (oB.field_lt b) (oC.field_lt c) ?_
  rw [hd, oA.read_field a _ hf.1, oB.read_field b _ hf.2.1, oC.read_field c _ hf.2.2, checked_zero hwf]

/-- A row with the operands in the fields A and B. -/
theorem readsBack_rowAB {K : α → β → Instr} (oA : Operand α) (oB : Operand β) (hwf : (K a b).wf = true)
    (hf : oA.fits a ∧ oB.fits b)
    (hd : decClass cls m (oA.field a) (oB.field b) 0 = oA.read (oA.field a) fun a => oB.read (oB.field b) fun b =>
      .checked 0 (K a b)) (hk : cls < 0x3D := by decide) (hm : m < 16 := by decide) :
    ReadsBack (K a b) 32 (word32 cls m (oA.field a) (oB.field b) 0) :=
  readsBack_row3 (K := fun a b _ => K a b) (c := ()) oA oB .z hwf ⟨hf.1, hf.2, trivial⟩ hd hk hm

/-- A row with the operands in the fields A and C. -/
theorem readsBack_rowAC {K : α → γ → Instr} (oA : Operand α) (oC : Operand γ) (hwf : (K a c).wf = true)
    (hf : oA.fits a ∧ oC.fits c)
    (hd : decClass cls m (oA.field a) 0 (oC.field c) = oA.read (oA.field a) fun a => oC.read (oC.field c) fun c =>
      .checked 0 (K a c)) (hk : cls < 0x3D := by decide) (hm : m < 16 := by decide) :
    ReadsBack (K a c) 32 (word32 cls m (oA.field a) 0 (oC.field c)) :=
  readsBack_row3 (K := fun a _ c => K a c) (b := ()) oA .z oC hwf ⟨hf.1, trivial, hf.2⟩ hd hk hm

/-- A row with one operand, in the field A. -/
theorem readsBack_rowA {K : α → Instr} (oA : Operand α) (hwf : (K a).wf = true) (hf : oA.fits a)
    (hd : decClass cls m (oA.field a) 0 0 = oA.read (oA.field a) fun a => .checked 0 (K a))
    (hk : cls < 0x3D := by decide) (hm : m < 16 := by decide) : ReadsBack (K a) 32 (word32 cls m (oA.field a) 0 0) :=
  readsBack_rowAB (K := fun a _ => K a) (b := ()) oA .z hwf ⟨hf, trivial⟩ hd hk hm

/-- A row with one operand, in the field B. -/
theorem readsBack_rowB {K : β → Instr} (oB : Operand β) (hwf : (K b).wf = true) (hf : oB.fits b)
    (hd : decClass cls m 0 (oB.field b) 0 = oB.read (oB.field b) fun b => .checked 0 (K b))
    (hk : cls < 0x3D := by decide) (hm : m < 16 := by decide) : ReadsBack (K b) 32 (word32 cls m 0 (oB.field b) 0) :=
  readsBack_rowAB (K := fun _ b => K b) (a := ()) .z oB hwf ⟨trivial, hf⟩ hd hk hm

/-- A row whose operands are in the field A and in N, which is C above B (R168). -/
theorem readsBack_rowN {K : α → BitVec 14 → Instr} {n : BitVec 14} (oA : Operand α) (hwf : (K a n).wf = true)
    (hf : oA.fits a)
    (hd : decClass cls m (oA.field a) (n.toNat % 128) (n.toNat / 128) = oA.read (oA.field a) fun a =>
      .checked 0 (K a (BitVec.ofNat 14 (n.toNat / 128 * 128 + n.toNat % 128))))
    (hk : cls < 0x3D := by decide) (hm : m < 16 := by decide) :
    ReadsBack (K a n) 32 (word32 cls m (oA.field a) (n.toNat % 128) (n.toNat / 128)) := by
  refine readsBack_word32 hk hm (oA.field_lt a) (Nat.mod_lt _ (by decide)) (by omega) ?_
  rw [hd, oA.read_field a _ hf, Nat.div_add_mod', BitVec.ofNat_toNat, BitVec.setWidth_eq, checked_zero hwf]

/-- A row whose operands are in the field A and in a memory operand, which takes B and C (R162). -/
theorem readsBack_rowMem {K : α → MemOp → Instr} {y : MemOp} (oA : Operand α) (hwf : (K a y).wf = true) (hf : oA.fits a)
    (hy : y.wfLocal = true) (hm : m < 16)
    (hd : decClass cls m (oA.field a) y.fieldB y.fieldC = oA.read (oA.field a) fun a =>
      .checked 0 (K a (memOf y.fieldB y.fieldC))) (hk : cls < 0x3D := by decide) :
    ReadsBack (K a y) 32 (word32 cls m (oA.field a) y.fieldB y.fieldC) := by
  refine readsBack_word32 hk hm (oA.field_lt a) (memOp_fields_lt y).1 (memOp_fields_lt y).2 ?_
  rw [hd, oA.read_field a _ hf, memOf_field_of_local hy, checked_zero hwf]
end

/-- A 16-bit row of R159. -/
theorem readsBack_half {K : BitVec 6 → BitVec 5 → Instr} {op : Nat} {a : BitVec 6} {b : BitVec 5}
    (hd : ∀ w, bitsAt w 1 4 = op → decode16 w = .ok (K (BitVec.ofNat 6 (bitsAt w 5 6)) (BitVec.ofNat 5 (bitsAt w 11 5))))
    (ho : op < 16 := by decide) : ReadsBack (K a b) 16 (word16 op a.toNat b.toNat) := by
  obtain ⟨h1, h2, h3⟩ := fields_word16 a.isLt b.isLt ho
  refine readsBack_word16 a.isLt b.isLt ho ?_
  rw [hd _ h1, h2, h3, BitVec.ofNat_toNat, BitVec.ofNat_toNat, BitVec.setWidth_eq, BitVec.setWidth_eq]

/-! The rows whose fields are packed by rules of their own. -/

/-- A surface row: a scalar register in the low six bits of B (R162). -/
theorem readsBack_surface {K : VReg → SReg → VReg → Instr} {cls m : Nat} {a : VReg} {b : SReg} {c : VReg}
    (hwf : (K a b c).wf = true) (hm : m < 16)
    (hd : decClass cls m a.toNat b.toNat c.toNat
      = .checked (b.toNat / 64) (K (vOf a.toNat) (BitVec.ofNat 6 (b.toNat % 64)) (vOf c.toNat)))
    (hk : cls < 0x3D := by decide) : ReadsBack (K a b c) 32 (word32 cls m a.toNat b.toNat c.toNat) := by
  refine readsBack_word32 hk hm a.isLt (by omega) c.isLt ?_
  rw [hd, Nat.div_eq_of_lt b.isLt, Nat.mod_eq_of_lt b.isLt, BitVec.ofNat_toNat, BitVec.setWidth_eq, vOf_toNat, vOf_toNat,
    checked_zero hwf]

/-- A `push`: bit 0 of C says whether B names v or s registers (R172). -/
theorem readsBack_push {K : Bool → BitVec 7 → SReg → Instr} {m : Nat} {vec : Bool} {b : BitVec 7} {a : SReg}
    (hwf : (K vec b a).wf = true) (hb : pushBlockOk vec b.toNat = true)
    (hd : ∀ c, decClass 0x36 m a.toNat b.toNat c = if c % 2 = 1 ∨ b.toNat < 64 then
      withS a.toNat fun a => .checked (c / 2) (K (c % 2 == 1) (BitVec.ofNat 7 b.toNat) a) else .illegal)
    (hm : m < 16 := by decide) : ReadsBack (K vec b a) 32 (word32 0x36 m a.toNat b.toNat (if vec then 1 else 0)) := by
  refine readsBack_word32 (by decide) hm (by omega) b.isLt (by split <;> decide) ?_
  cases vec with
  | true => simpa [hd] using checked_zero hwf
  | false =>
    have hlt : b.toNat < 64 := by
      have : b.toNat ≤ 48 := by simpa [pushBlockOk] using hb
      omega
    simpa [hd, hlt] using checked_zero hwf

theorem readsBack_cvt {d u : NumTy} {sat : Bool} {b a : VReg} (hwf : (Instr.cvt d sat u b a).wf = true) :
    ReadsBack (.cvt d sat u b a) 32 (word32 0x11 d.code a.toNat b.toNat (u.code + if sat then 16 else 0)) := by
  have hu := numTy_code_lt u
  have h1 : (u.code + if sat then 16 else 0) % 16 = u.code := by split <;> omega
  have h2 : (u.code + if sat then 16 else 0) / 32 = 0 := by split <;> omega
  have h3 : ((u.code + if sat then 16 else 0) / 16 % 2 == 1) = sat := by cases sat <;> simp <;> omega
  refine readsBack_word32 (by decide) (numTy_code_lt d) a.isLt b.isLt (by split <;> omega) ?_
  simp only [decClass, decClass11, withNum_code, vOf_toNat, h1, h2, h3, checked_zero hwf]

theorem readsBack_annWait {k : WatchCond} {q : BitVec 2} {a b c : SReg} (hwf : (Instr.annWait k q a b c).wf = true) :
    ReadsBack (.annWait k q a b c) 32 (word32 0x32 (k.code * 4 + q.toNat) a.toNat b.toNat c.toNat) := by
  have hk : k.code < 4 := by cases k <;> decide
  have h1 : (k.code * 4 + q.toNat) / 4 = k.code := by omega
  have h2 : (k.code * 4 + q.toNat) % 4 = q.toNat := by omega
  have h3 : watchCondOf k.code = k := by cases k <;> rfl
  refine readsBack_word32 (by decide) (by omega) (by omega) (by omega) (by omega) ?_
  simp only [decClass, decClass32, withS_toNat, h1, h2, h3, BitVec.ofNat_toNat, BitVec.setWidth_eq, checked_zero hwf]

theorem readsBack_bar (n : BitVec 4) : ReadsBack (.barTeam n) 32 (word32 5 5 0 n.toNat 1)
    ∧ ReadsBack (.barCluster n) 32 (word32 5 5 0 n.toNat 3) := by
  constructor <;>
  · refine readsBack_word32 (by decide) (by decide) (by decide) (by omega) (by decide) ?_
    simp [decClass, decClass05, n.isLt, Decoded.checked, Instr.wf]

theorem readsBack_sel {a b : VReg} {k : MReg} :
    (∀ c, (Instr.selV a k b c).wf = true → ReadsBack (.selV a k b c) 32 (word32 0x18 k.toNat a.toNat b.toNat c.toNat))
    ∧ ∀ c, (Instr.selX a k b c).wf = true → ReadsBack (.selX a k b c) 32 (word32 0x19 k.toNat a.toNat b.toNat c.field) := by
  refine ⟨fun c hwf => ?_, fun c hwf => ?_⟩
  · refine readsBack_word32 (by decide) k.isLt a.isLt b.isLt c.isLt ?_
    simp only [decClass, decClass18, withM_toNat, vOf_toNat, checked_zero hwf]
  · refine readsBack_word32 (by decide) k.isLt a.isLt b.isLt (xOp_field_lt c) ?_
    simp only [decClass, decClass19, withM_toNat, vOf_toNat, xOf_field (Bool.and_eq_true_iff.1 hwf).2, checked_zero hwf]

theorem readsBack_annAlight (b : SReg) : ReadsBack (.annAlight b) 32 (word32 0x31 1 0 b.toNat 0) := by
  refine readsBack_word32 (by decide) (by decide) (by decide) (by omega) (by decide) ?_
  simp only [decClass, decClass31, Nat.div_eq_of_lt b.isLt, Nat.mod_eq_of_lt b.isLt, withS_toNat]
  rfl

theorem readsBack_clauseHeader (len : BitVec 5) (fb fa : BitVec 4) (wait : BitVec 12) :
    ReadsBack (.clauseHeader len fb fa wait) 32
      (len.toNat * 2 ^ 27 + fb.toNat * 2 ^ 23 + fa.toNat * 2 ^ 19 + wait.toNat * 2 ^ 7 + 0x3E * 2 + 1) := by
  generalize hw : len.toNat * 2 ^ 27 + fb.toNat * 2 ^ 23 + fa.toNat * 2 ^ 19 + wait.toNat * 2 ^ 7 + 0x3E * 2 + 1 = w
  obtain ⟨h0, h1, h2, h3, h4⟩ : bitsAt w 1 6 = 0x3E ∧ bitsAt w 27 5 = len.toNat ∧ bitsAt w 23 4 = fb.toNat
      ∧ bitsAt w 19 4 = fa.toNat ∧ bitsAt w 7 12 = wait.toNat := by
    simp only [bitsAt]
    refine ⟨?_, ?_, ?_, ?_, ?_⟩ <;> omega
  refine readsBack_of_decode32 (by omega) (by omega) (by omega) ?_
  simp [decode32, h0, h1, h2, h3, h4]

theorem readsBack_prefixWord {d : VReg} {dv ftz zero : Bool} {rnd : BitVec 3} {mask : BitVec 4}
    (hwf : (Instr.prefixWord d dv ftz zero rnd mask).wf = true) :
    ReadsBack (.prefixWord d dv ftz zero rnd mask) 32 (d.toNat * 2 ^ 17 + (if dv then 2 ^ 16 else 0)
      + (if ftz then 2 ^ 15 else 0) + (if zero then 2 ^ 14 else 0) + rnd.toNat * 2 ^ 11 + mask.toNat * 2 ^ 7
      + 0x3F * 2 + 1) := by
  obtain ⟨x, hx, ex, bx⟩ := exists_bit dv (2 ^ 16)
  obtain ⟨y, hy, ey, b'⟩ := exists_bit ftz (2 ^ 15)
  obtain ⟨z, hz, ez, bz⟩ := exists_bit zero (2 ^ 14)
  rw [ex, ey, ez]
  generalize hw : d.toNat * 2 ^ 17 + x * 2 ^ 16 + y * 2 ^ 15 + z * 2 ^ 14 + rnd.toNat * 2 ^ 11 + mask.toNat * 2 ^ 7
    + 0x3F * 2 + 1 = w
  obtain ⟨h0, h1, h2, h3, h4, h5, h6, h7⟩ : bitsAt w 1 6 = 0x3F ∧ bitsAt w 24 8 = 0 ∧ bitsAt w 17 7 = d.toNat
      ∧ bitsAt w 16 1 = x ∧ bitsAt w 15 1 = y ∧ bitsAt w 14 1 = z ∧ bitsAt w 11 3 = rnd.toNat
      ∧ bitsAt w 7 4 = mask.toNat := by
    simp only [bitsAt]
    refine ⟨?_, ?_, ?_, ?_, ?_, ?_, ?_, ?_⟩ <;> omega
  refine readsBack_of_decode32 (by omega) (by omega) (by omega) ?_
  simpa [decode32, h0, h1, h2, h3, h4, h5, h6, h7, bx, b', bz] using checked_zero hwf

theorem readsBack_longForm (minor : BitVec 4) (b a : BitVec 7) (icls : BitVec 6) (lit : Word) :
    ReadsBack (.longForm minor b a icls lit) 64 (lit.toNat * 2 ^ 32 + minor.toNat * 2 ^ 27 + b.toNat * 2 ^ 20
      + a.toNat * 2 ^ 13 + icls.toNat * 2 ^ 7 + 0x3D * 2 + 1) := by
  generalize hw : lit.toNat * 2 ^ 32 + minor.toNat * 2 ^ 27 + b.toNat * 2 ^ 20
      + a.toNat * 2 ^ 13 + icls.toNat * 2 ^ 7 + 0x3D * 2 + 1 = w
  obtain ⟨h0, h1, h2, h3, h4, h5, h6⟩ : bitsAt (w % 65536) 1 6 = 0x3D ∧ bitsAt w 31 1 = 0 ∧ bitsAt w 27 4 = minor.toNat
      ∧ bitsAt w 20 7 = b.toNat ∧ bitsAt w 13 7 = a.toNat ∧ bitsAt w 7 6 = icls.toNat ∧ bitsAt w 32 32 = lit.toNat := by
    simp only [bitsAt]
    refine ⟨?_, ?_, ?_, ?_, ?_, ?_, ?_⟩ <;> omega
  have ho : w % 65536 % 2 ≠ 0 := by omega
  have hjoin : w % 65536 + 65536 * (w / 65536 % 65536) + 65536 ^ 2 * (w / 65536 ^ 2 % 65536)
      + 65536 ^ 3 * (w / 65536 ^ 3) = w := by omega
  refine ⟨by omega, by simp, .inl ?_⟩
  simp only [decodeHalves, if_neg ho, h0, hjoin, if_true]
  simp [decode64, h1, h2, h3, h4, h5, h6, Decoded.checked, Instr.wf]

theorem readsBack_filter {i : Instr} {op d a b imm : Nat} (h1 : d < 16) (h2 : a < 16) (h3 : b < 16) (h4 : imm < 2 ^ 14)
    (hd : ∀ w, bitsAt w 26 6 = op → bitsAt w 22 4 = d → bitsAt w 18 4 = a → bitsAt w 14 4 = b → bitsAt w 0 14 = imm →
      decodeFilter w = some i) (ho : op < 64 := by decide) : ReadsBack i 32 (wordFilter op d a b imm) := by
  obtain ⟨e0, e1, e2, e3, e4⟩ := fields_wordFilter ho h1 h2 h3 h4
  exact readsBack_of_decodeFilter (wordFilter_lt ho h1 h2 h3 h4) (hd _ e0 e1 e2 e3 e4)

/-- A filter row with a load of 16 bits, which take the place of the field B too (R414). -/
theorem readsBack_filterLd (d : BitVec 4) (imm : BitVec 16) :
    ReadsBack (.filterLdlo d imm) 32 (wordFilter 12 d.toNat 0 0 imm.toNat)
    ∧ ReadsBack (.filterLdhi d imm) 32 (wordFilter 13 d.toNat 0 0 imm.toNat) := by
  have key : ∀ op, op < 64 → wordFilter op d.toNat 0 0 imm.toNat < 2 ^ 32
      ∧ bitsAt (wordFilter op d.toNat 0 0 imm.toNat) 26 6 = op ∧ bitsAt (wordFilter op d.toNat 0 0 imm.toNat) 22 4 = d.toNat
      ∧ bitsAt (wordFilter op d.toNat 0 0 imm.toNat) 16 6 = 0
      ∧ bitsAt (wordFilter op d.toNat 0 0 imm.toNat) 0 16 = imm.toNat := by
    intro op hop
    simp only [bitsAt, wordFilter]
    refine ⟨?_, ?_, ?_, ?_, ?_⟩ <;> omega
  constructor
  · obtain ⟨hw, h0, h1, h2, h3⟩ := key 12 (by decide)
    exact readsBack_of_decodeFilter hw (by simp [decodeFilter, h0, h1, h2, h3, Instr.wf])
  · obtain ⟨hw, h0, h1, h2, h3⟩ := key 13 (by decide)
    exact readsBack_of_decodeFilter hw (by simp [decodeFilter, h0, h1, h2, h3, Instr.wf])

/-- The filter rows of three registers. -/
theorem readsBack_filterDAB (d a b : BitVec 4) : ∀ p ∈ [(0, Instr.filterAdd d a b), (1, .filterSub d a b),
    (2, .filterAnd d a b), (3, .filterOr d a b), (4, .filterXor d a b), (5, .filterShl d a b), (6, .filterShr d a b)],
    ReadsBack p.2 32 (wordFilter p.1 d.toNat a.toNat b.toNat 0) := by
  simp only [List.forall_mem_cons, List.not_mem_nil, false_imp_iff, implies_true, and_true]
  refine ⟨?_, ?_, ?_, ?_, ?_, ?_, ?_⟩ <;>
  · refine readsBack_filter (by omega) (by omega) (by omega) (by decide) fun w h0 h1 h2 h3 h4 => ?_
    simp [decodeFilter, h0, h1, h2, h3, h4, Instr.wf]

/-- The filter rows of two registers and an immediate. -/
theorem readsBack_filterDAI (d a : BitVec 4) (imm : BitVec 14) :
    ∀ p ∈ [(8, Instr.filterAddi d a imm), (9, .filterAndi d a imm)],
      ReadsBack p.2 32 (wordFilter p.1 d.toNat a.toNat 0 imm.toNat) := by
  simp only [List.forall_mem_cons, List.not_mem_nil, false_imp_iff, implies_true, and_true]
  refine ⟨?_, ?_⟩ <;>
  · refine readsBack_filter (by omega) (by omega) (by decide) (by omega) fun w h0 h1 h2 h3 h4 => ?_
    simp [decodeFilter, h0, h1, h2, h3, h4, Instr.wf]

/-- The filter shifts by an immediate count of five bits. -/
theorem readsBack_filterShift (d a : BitVec 4) (n : BitVec 5) : ∀ p ∈ [(10, Instr.filterShli d a n), (11, .filterShri d a n)],
    ReadsBack p.2 32 (wordFilter p.1 d.toNat a.toNat 0 n.toNat) := by
  simp only [List.forall_mem_cons, List.not_mem_nil, false_imp_iff, implies_true, and_true]
  refine ⟨?_, ?_⟩ <;>
  · refine readsBack_filter (by omega) (by omega) (by decide) (by omega) fun w h0 h1 h2 h3 h4 => ?_
    obtain ⟨-, -, h5, -⟩ := bitsAt_of_imm h4
    simp [decodeFilter, h0, h1, h2, h3, h4, h5, fields_wider, Nat.mod_eq_of_lt, Nat.div_eq_of_lt, n.isLt, Instr.wf]

/-- The filter branches. -/
theorem readsBack_filterBranch (a b : BitVec 4) (imm : BitVec 14) : ∀ p ∈ [(16, Instr.filterBeq a b imm),
    (17, .filterBne a b imm), (18, .filterBltu a b imm), (19, .filterBgeu a b imm)],
    ReadsBack p.2 32 (wordFilter p.1 0 a.toNat b.toNat imm.toNat) := by
  simp only [List.forall_mem_cons, List.not_mem_nil, false_imp_iff, implies_true, and_true]
  refine ⟨?_, ?_, ?_, ?_⟩ <;>
  · refine readsBack_filter (by decide) (by omega) (by omega) (by omega) fun w h0 h1 h2 h3 h4 => ?_
    simp [decodeFilter, h0, h1, h2, h3, h4, Instr.wf]

theorem readsBack_filterEnd :
    ReadsBack .filterKeep 32 (wordFilter 32 0 0 0 0) ∧ ReadsBack .filterDrop 32 (wordFilter 33 0 0 0 0) := by
  constructor <;>
  · refine readsBack_filter (by decide) (by decide) (by decide) (by decide) fun w h0 h1 h2 h3 h4 => ?_
    simp [decodeFilter, h0, h1, h2, h3, h4, fields_wider, Instr.wf]

theorem readsBack_filterTrig (c : BitVec 2) : ReadsBack (.filterTrig c) 32 (wordFilter 35 0 0 0 c.toNat) := by
  refine readsBack_filter (by decide) (by decide) (by decide) (by omega) fun w h0 h1 h2 h3 h4 => ?_
  obtain ⟨h5, -⟩ := bitsAt_of_imm h4
  simp [decodeFilter, h0, h1, h2, h3, h4, h5, fields_wider, Nat.mod_eq_of_lt, Nat.div_eq_of_lt, c.isLt, Instr.wf]

theorem readsBack_filterRdcnt (d c : BitVec 4) : ReadsBack (.filterRdcnt d c) 32 (wordFilter 36 d.toNat 0 0 c.toNat) := by
  refine readsBack_filter (by omega) (by decide) (by decide) (by omega) fun w h0 h1 h2 h3 h4 => ?_
  obtain ⟨-, h5, -⟩ := bitsAt_of_imm h4
  simp [decodeFilter, h0, h1, h2, h3, h4, h5, fields_wider, Nat.mod_eq_of_lt, Nat.div_eq_of_lt, c.isLt, Instr.wf]

theorem readsBack_filterCount {a c : BitVec 4} {s : Bool} (hwf : (Instr.filterCount a s c).wf = true) :
    ReadsBack (.filterCount a s c) 32 (wordFilter 34 0 a.toNat 0 ((if s then 2 ^ 13 else 0) + c.toNat)) := by
  refine readsBack_filter (by omega) (by omega) (by omega) (by split <;> omega) fun w h0 h1 h2 h3 h4 => ?_
  obtain ⟨-, h5, -, h6, h7⟩ := bitsAt_of_imm h4
  have e1 : ((if s then 2 ^ 13 else 0) + c.toNat) % 16 = c.toNat := by split <;> omega
  have e2 : ((if s then 2 ^ 13 else 0) + c.toNat) / 16 % 512 = 0 := by split <;> omega
  have e3 : (((if s then 2 ^ 13 else 0) + c.toNat) / 2 ^ 13 == 1) = s := by cases s <;> simp <;> omega
  simp only [decodeFilter, h0, h1, h2, h3, h5, h6, h7, e1, e2, e3]
  simpa using hwf

/-- Each instruction's row, by the kinds of its operands. -/
theorem readsBack_encode {i : Instr} {n w : Nat} (hwf : i.wf = true) (h : encode i = some (n, w)) : ReadsBack i n w := by
  cases i <;> cases h
  case scalarAdd | scalarSub | scalarMul | scalarMulhiI32 | scalarMulhiN32 | scalarAnd | scalarOr | scalarXor
      | scalarShl | scalarShr | scalarSra | scalarMinI32 | scalarMaxI32 | scalarMinN32 | scalarMaxN32 | seteq | setne
      | setltI32 | setleI32 | setltN32 | setleN32 | scalarSel =>
    exact readsBack_row3 .s .s .x hwf ⟨trivial, trivial, hwf⟩ rfl
  case waitAny | waitAll | launch =>
    exact readsBack_row3 .s .s .x hwf ⟨trivial, trivial, (Bool.and_eq_true_iff.1 hwf).1⟩ rfl
  case surfDef | pushb | msgSend | grd | gwr | bankset | tlbinv =>
    exact readsBack_row3 .s .s .s hwf ⟨trivial, trivial, trivial⟩ rfl
  case addV | subV | mulV | mulhiI32V | mulhiN32V | madV | minI32V | maxI32V | minN32V | maxN32V | andV | orV | xorV
      | shlV | shrV | sraV | bfeN32V | bfeI32V | bfiB32V | addI64V | subI64V | shlB64V | shrN64V | sraI64V | mulWideI32V
      | mulWideN32V | faddF32V | fsubF32V | fmulF32V | ffmaF32V | fminF32V | fmaxF32V | paddF16V | psubF16V | pmulF16V
      | pfmaF16V | pminF16V | pmaxF16V | paddBf16V | psubBf16V | pmulBf16V | pfmaBf16V | pminBf16V | pmaxBf16V
      | fdot4E4m3V | fdot4E5m2V | xlaneGetV | xlaneBackV | xlaneFwdV | xlaneMixV =>
    exact readsBack_row3 .v .v .v hwf ⟨trivial, trivial, trivial⟩ rfl
  case addX | subX | mulX | mulhiI32X | mulhiN32X | madX | minI32X | maxI32X | minN32X | maxN32X | andX | orX | xorX
      | shlX | shrX | sraX | bfeN32X | bfeI32X | bfiB32X | faddF32X | fsubF32X | fmulF32X | ffmaF32X | fminF32X
      | fmaxF32X | paddF16X | psubF16X | pmulF16X | pfmaF16X | pminF16X | pmaxF16X | paddBf16X | psubBf16X | pmulBf16X
      | pfmaBf16X | pminBf16X | pmaxBf16X | fdot4E4m3X | fdot4E5m2X | xlaneGetX | xlaneBackX | xlaneFwdX | xlaneMixX =>
    exact readsBack_row3 .v .v .x hwf ⟨trivial, trivial, hwf⟩ rfl
  case mulWideI32X | mulWideN32X =>
    exact readsBack_row3 .v .v .x hwf ⟨trivial, trivial, (Bool.and_eq_true_iff.1 hwf).1⟩ rfl
  case addI64X | subI64X | shlB64X | shrN64X | sraI64X =>
    exact readsBack_row3 .v .v .x hwf ⟨trivial, trivial, (Bool.and_eq_true_iff.1 (Bool.and_eq_true_iff.1 hwf).1).1⟩ rfl
  case cmpEqB32V | cmpNeB32V | cmpLtI32V | cmpLeI32V | cmpGtI32V | cmpGeI32V | cmpLtN32V | cmpLeN32V | cmpGtN32V
      | cmpGeN32V | fcmpEqF32V | fcmpLtF32V | fcmpLeF32V | fcmpNeF32V | fcmpUnF32V =>
    exact readsBack_row3 .m .v .v hwf ⟨trivial, trivial, trivial⟩ rfl
  case cmpEqB32X | cmpNeB32X | cmpLtI32X | cmpLeI32X | cmpGtI32X | cmpGeI32X | cmpLtN32X | cmpLeN32X | cmpGtN32X
      | cmpGeN32X | fcmpEqF32X | fcmpLtF32X | fcmpLeF32X | fcmpNeF32X | fcmpUnF32X =>
    exact readsBack_row3 .m .v .x hwf ⟨trivial, trivial, (Bool.and_eq_true_iff.1 hwf).2⟩ rfl
  case tbpackTb8 | tbpackTb4 | tbpackSatTb8 | tbpackSatTb4 | tbunpTb8 | tbunpTb4 =>
    exact readsBack_row3 .v .v .s hwf ⟨trivial, trivial, trivial⟩ rfl
  case absI32 | popcB32 | clzB32 | brevB32 | fnegF32 | fabsF32 | fclassF32 | frndF32 | frcpF32 | frsqF32 | fsqrtF32
      | fex2F32 | flg2F32 | fsinF32 | fcosF32 | pollSome | pollEvery | pollBits | foldAddI32 | foldMinI32 | foldMaxI32
      | foldAddF32 | prefixAddI32 | prefixAddF32 | sameB32 | sameF32 =>
    exact readsBack_rowAB .v .v hwf ⟨trivial, trivial⟩ rfl
  case putSigSet | putSigAdd | getpGroup | getpTeam | getpFacet | getpCluster | getpPackage | getpSystem | msgRecv
      | msgProbe | resume | halt =>
    exact readsBack_rowAB .s .s hwf ⟨trivial, trivial⟩ rfl
  case mrd | hpop => exact readsBack_rowAB .s .m hwf ⟨trivial, trivial⟩ rfl
  case mwr | hldS | hstS => exact readsBack_rowAB .m .s hwf ⟨trivial, trivial⟩ rfl
  case hldG => exact readsBack_row3 (K := fun a b _ => .hldG a b) (c := ()) .m .s .one hwf ⟨trivial, trivial, trivial⟩ rfl
  case hstG => exact readsBack_row3 (K := fun a b _ => .hstG a b) (c := ()) .m .s .one hwf ⟨trivial, trivial, trivial⟩ rfl
  case hbun => exact readsBack_rowAB .k .m hwf ⟨trivial, trivial⟩ rfl
  case hmaj => exact readsBack_rowAB .m .k hwf ⟨trivial, trivial⟩ rfl
  case hfrom => exact readsBack_rowAB .m .v hwf ⟨trivial, trivial⟩ rfl
  case hto => exact readsBack_rowAB .v .m hwf ⟨trivial, trivial⟩ rfl
  case hclrH => exact readsBack_rowA .m hwf trivial rfl
  case hclrC => exact readsBack_rowAB (K := fun a _ => .hclrC a) (b := ()) .k .one hwf ⟨trivial, trivial⟩ rfl
  case htie => exact readsBack_rowA .m hwf trivial rfl
  case htieSeed =>
    exact readsBack_row3 (K := fun _ b _ => .htieSeed b) (a := ()) (c := ()) .z .s .one hwf ⟨trivial, trivial, trivial⟩ rfl
  case hxor => exact readsBack_row3 .m .m .m hwf ⟨trivial, trivial, trivial⟩ rfl
  case hrot => exact readsBack_row3 .m .m .x hwf ⟨trivial, trivial, hwf⟩ rfl
  case hdist => exact readsBack_row3 .s .m .m hwf ⟨trivial, trivial, trivial⟩ rfl
  case hmatch => exact readsBack_row3 .s .m .s hwf ⟨trivial, trivial, trivial⟩ rfl
  case scalarMov => exact readsBack_rowAC .s .x hwf ⟨trivial, hwf⟩ rfl
  case movB32V | ropz => exact readsBack_rowAC .v .v hwf ⟨trivial, trivial⟩ rfl
  case movB32X => exact readsBack_rowAC .v .x hwf ⟨trivial, hwf⟩ rfl
  case surfDrop | surfClr | surfDecomp => exact readsBack_rowAC .s .s hwf ⟨trivial, trivial⟩ rfl
  case bri | ret => exact readsBack_rowA .v hwf trivial rfl
  case elect | rdtime => exact readsBack_rowA .s hwf trivial rfl
  case mjoin | mleave | mwait => exact readsBack_rowA .m hwf trivial rfl
  case exit | yield | fenceGroup | fenceTeam | fenceFacet | fenceCluster | fencePackage | fenceSystem | ack =>
    exact readsBack_word32 (by decide) (by decide) (by decide) (by decide) (by decide) rfl
  case settile => exact readsBack_rowB .x hwf hwf rfl
  case sleepAt | sleepAtProm | evsig | tdisc | annBoard | mbLd | mbZero | mmx | mmxLut | mmxR | mmxLutR =>
    exact readsBack_rowB .s hwf trivial rfl
  case rdsrS | wrsr => exact readsBack_rowN .s hwf trivial rfl
  case rdsrV => exact readsBack_rowN .v hwf trivial rfl
  case trap n => exact readsBack_rowN (K := fun _ n => .trap n) (a := ()) .z hwf trivial rfl
  case brk n => exact readsBack_rowN (K := fun _ n => .brk n) (a := ()) .z hwf trivial rfl
  case bra n =>
    obtain ⟨n, rfl⟩ := exists_near hwf
    exact readsBack_rowN (K := fun _ n => .bra (.near n)) (a := ()) .z hwf trivial rfl
  case brcNz a n =>
    obtain ⟨n, rfl⟩ := exists_near hwf
    exact readsBack_rowN (K := fun a n => .brcNz a (.near n)) .v hwf trivial rfl
  case brcZ a n =>
    obtain ⟨n, rfl⟩ := exists_near hwf
    exact readsBack_rowN (K := fun a n => .brcZ a (.near n)) .v hwf trivial rfl
  case call a n =>
    obtain ⟨n, rfl⟩ := exists_near hwf
    exact readsBack_rowN (K := fun a n => .call a (.near n)) .v hwf trivial rfl
  case symWait => exact readsBack_rowAC (K := fun _ c => .symWait c) (a := ()) .z .x hwf ⟨trivial, hwf⟩ rfl
  case barTeam n => exact (readsBack_bar n).1
  case barCluster n => exact (readsBack_bar n).2
  case selV a k b c => exact readsBack_sel.1 c hwf
  case selX a k b c => exact readsBack_sel.2 c hwf
  case annLdB32 | annLdSymI32 | annLdSymF32 => exact readsBack_rowMem .v hwf trivial hwf (by decide) rfl
  case annLdB64 => exact readsBack_rowMem .v hwf trivial (Bool.and_eq_true_iff.1 hwf).1 (by decide) rfl
  case prefetchL1 =>
    exact readsBack_rowMem (K := fun _ y => .prefetchL1 y) (a := ()) .z hwf trivial (wfLocal_of_wfGlobal hwf) (by decide) rfl
  case prefetchSlice =>
    exact readsBack_rowMem (K := fun _ y => .prefetchSlice y) (a := ()) .z hwf trivial (wfLocal_of_wfGlobal hwf) (by decide) rfl
  case ldg t a y | ldgSym t a y | stg t a y =>
    exact readsBack_rowMem .v hwf trivial (wfLocal_of_wfGlobal (Bool.and_eq_true_iff.1 hwf).1) (accTy_code_lt t)
      (withTy_code t _)
  case lds t a y | ldsSym t a y | sts t a y =>
    exact readsBack_rowMem .v hwf trivial (Bool.and_eq_true_iff.1 (Bool.and_eq_true_iff.1 hwf).1).1 (accTy_code_lt t)
      (withTy_code t _)
  case atg32 o a y | atg64 o a y | red32 o a y | red64 o a y =>
    exact readsBack_rowMem .v hwf trivial (wfLocal_of_wfGlobal (Bool.and_eq_true_iff.1 (Bool.and_eq_true_iff.1 hwf).1).1)
      (atomOp_code_lt o) (withOp_code o _)
  case ats32 o a y | ats64 o a y | annOp32 o a y | annOp64 o a y =>
    exact readsBack_rowMem .v hwf trivial (Bool.and_eq_true_iff.1 (Bool.and_eq_true_iff.1 hwf).1).1 (atomOp_code_lt o)
      (withOp_code o _)
  case ldt t a b c | ldtSym t a b c | stt t a b c => exact readsBack_surface hwf (accTy_code_lt t) (withTy_code t _)
  case ropc a b c => exact readsBack_surface hwf (by decide) rfl
  case annAlight b => exact readsBack_annAlight b
  case annWait => exact readsBack_annWait hwf
  case cvt => exact readsBack_cvt hwf
  case pushCopy | pushTensor | pushGather | pushColl | pushRast | pushMsg => exact readsBack_push hwf hwf fun _ => rfl
  case addI32Half | subI32Half | mulI32Half | andB32Half | orB32Half | xorB32Half | shlB32Half | shrN32Half
      | faddF32Half | fsubF32Half | fmulF32Half | fminF32Half | fmaxF32Half | movB32Half | minI32Half =>
    exact readsBack_half fun w h => by simp only [decode16, h]
  case nopHalf => exact readsBack_word16 (op := 0) (a := 0) (b := 0) (by decide) (by decide) (by decide) rfl
  case clauseHeader => exact readsBack_clauseHeader ..
  case prefixWord => exact readsBack_prefixWord hwf
  case longForm => exact readsBack_longForm ..
  case filterAdd d a b | filterSub d a b | filterAnd d a b | filterOr d a b | filterXor d a b | filterShl d a b
      | filterShr d a b =>
    exact readsBack_filterDAB d a b (_, _) (by simp)
  case filterAddi d a imm | filterAndi d a imm => exact readsBack_filterDAI d a imm (_, _) (by simp)
  case filterShli d a n | filterShri d a n => exact readsBack_filterShift d a n (_, _) (by simp)
  case filterBeq a b imm | filterBne a b imm | filterBltu a b imm | filterBgeu a b imm =>
    exact readsBack_filterBranch a b imm (_, _) (by simp)
  case filterKeep => exact readsBack_filterEnd.1
  case filterDrop => exact readsBack_filterEnd.2
  case filterTrig c => exact readsBack_filterTrig c
  case filterRdcnt d c => exact readsBack_filterRdcnt d c
  case filterCount a s c => exact readsBack_filterCount hwf
  case filterLdlo d imm => exact (readsBack_filterLd d imm).1
  case filterLdhi d imm => exact (readsBack_filterLd d imm).2

/-- Settles O57: the rows of R167, read by the kinds of their operands, and the words packed by rules of their own; and each
word that decodes, taken apart by the class, the minor opcode and the operands that the decoder reads. -/
theorem decodeAndEncodeAgree : Obligations.DecodeAndEncodeAgree :=
  ⟨fun _ _ _ hwf h => readsBack_encode hwf h, fun _ _ _ _ _ _ b0 b1 b2 b3 h => decodeHalves_encodes b0 b1 b2 b3 h,
    fun _ _ h hi => decodeFilter_encodes h hi⟩
end Sys2Proof

namespace Sys2Proof.Machine

/-! O13, O53: lane instructions on known operands, by their shapes (R201). -/

/-- The word of a second source, an imm6 read as a float where the instruction is floating (R161). -/
theorem srcOr_some (g : Group) (c : Src) (flt : Bool) (l : Nat) :
    srcOr g (some c) flt l = if flt then g.srcF fp32 1 c l else g.src c l := by
  cases c with
  | v r => simp only [srcOr, Group.srcElem, Group.srcF, Group.src, Group.vword, ite_self]
  | x o => rfl

section
variable {s : State} {g : Group} {rule : PfxRule} {a b : VReg} {c : Src}

theorem laneOp2_of_ready (h : LaneReady s g rule a.toNat 1 (b.toNat :: c.vregs) c.sregs) (f : Word → Word → Word) :
    laneOp2 s rule a b c f = .next (s.wroteV g a 1 fun l _ => f (g.vword b.toNat l) (g.src c l)) :=
  laneOp_of_ready h

theorem minMaxOp_of_ready (h : LaneReady s g .plain a.toNat 1 (b.toNat :: c.vregs) c.sregs) (isMax : Bool) :
    minMaxOp s isMax a b c = .next (s.wroteV g a 1 fun l _ =>
      word (fp32.minMax isMax (g.vword b.toNat l).toNat (g.srcF fp32 1 c l).toNat)) :=
  laneOp_of_ready h

/-- A transform-capable instruction of two sources on known operands. -/
theorem laneXform2_of_ready (h : LaneReady s g rule a.toNat 1 (b.toNat :: c.vregs) c.sregs) (hf : g.formRegs ≤ 16)
    (t : Group → Xform) (flt : Bool) :
    laneXform s rule a t (some b.toNat) (some c) flt none = .next (s.wroteV g a 1 fun l _ =>
      (t g).value (g.vword b.toNat l) (if flt then g.srcF fp32 1 c l else g.src c l) 0) := by
  have hready : LaneReady s g rule a.toNat 1 (xformReads (some b.toNat) (some c) none)
      ((some c).toList.flatMap Src.sregs) := by simpa [xformReads] using h
  rw [laneXform_of_known hready hf]
  simp only [srcOr_some]
  rfl

theorem intXform_of_ready (h : LaneReady s g .plain a.toNat 1 (b.toNat :: c.vregs) c.sregs) (hf : g.formRegs ≤ 16)
    (t : Xform) :
    intXform s t a b c = .next (s.wroteV g a 1 fun l _ => t.value (g.vword b.toNat l) (g.src c l) 0) :=
  laneXform2_of_ready h hf (fun _ => t) false

theorem floatXform_of_ready (h : LaneReady s g .round a.toNat 1 (b.toNat :: c.vregs) c.sregs) (hf : g.formRegs ≤ 16)
    (t : Nat → Bool → Xform) :
    floatXform s t a b c = .next (s.wroteV g a 1 fun l _ =>
      (t (modeOf s g) (ftzOf s)).value (g.vword b.toNat l) (g.srcF fp32 1 c l) 0) :=
  laneXform2_of_ready h hf (fun g => t (modeOf s g) (ftzOf s)) true

/-- A move of a known operand. -/
theorem movOp_of_ready (h : LaneReady s g .plain a.toNat 1 c.vregs c.sregs) (hf : g.formRegs ≤ 16) :
    movOp s a c = .next (s.wroteV g a 1 fun l _ => g.src c l) := by
  have hready : LaneReady s g .plain a.toNat 1 (xformReads none (some c) none) ((some c).toList.flatMap Src.sregs) := by
    simpa [xformReads] using h
  rw [movOp, laneXform_of_known hready hf]
  simp only [srcOr_some]
  rfl

end

@[simp] theorem toNat_half6 (a : BitVec 6) : (half6 a).toNat = a.toNat := by
  simp only [half6, BitVec.toNat_setWidth]
  omega

@[simp] theorem toNat_half5 (b : BitVec 5) : (half5 b).toNat = b.toNat := by
  simp only [half5, BitVec.toNat_setWidth]
  omega

/-- The signed lesser, written by `BitVec.sle`. -/
theorem minI_eq_sle (p x : Word) : minI p x = if p.sle x then p else x := by
  simp only [minI, sx, BitVec.sle, decide_eq_true_eq, ← Int.not_le, ite_not]

/-- The operand fields A, A and B of a 16-bit instruction, as its 32-bit equivalent names them (R159). -/
theorem laneReady_half {s : State} {g : Group} {rule : PfxRule} {a : BitVec 6} {b : BitVec 5}
    (h : LaneReady s g rule a.toNat 1 [a.toNat, b.toNat] []) :
    LaneReady s g rule (half6 a).toNat 1 ((half6 a).toNat :: (Src.v (half5 b)).vregs) (Src.v (half5 b)).sregs := by
  simpa [Src.vregs, Src.sregs] using h

/-- Settles O13: on known operands each 16-bit instruction completes with the function of its 32-bit equivalent, whose operand
fields are A, A and B; `nop` issues and changes nothing. -/
theorem sixteenBitForms : Obligations.SixteenBitForms := by
  unfold Obligations.SixteenBitForms
  refine ⟨fun s g a b => ⟨fun h hf => ?int, fun h hf => ?mov, fun h => ?nop⟩,
    fun s g a b hf => ⟨fun h => ?round, fun h => ?minMax⟩⟩
  case int =>
    have hr := laneReady_half h
    have hint := intXform_of_ready hr hf
    have hop := laneOp2_of_ready hr
    simp only [toNat_half6, Group.src, toNat_half5] at hint hop
    have hmin := hop minI
    simp only [minI_eq_sle] at hmin
    exact ⟨(exec_addI32Half a b s).trans (hint .add), (exec_subI32Half a b s).trans (hint .sub),
      (exec_mulI32Half a b s).trans (hint .mul), (exec_andB32Half a b s).trans (hop (· &&& ·)),
      (exec_orB32Half a b s).trans (hop (· ||| ·)), (exec_xorB32Half a b s).trans (hop (· ^^^ ·)),
      (exec_shlB32Half a b s).trans (hop fun b x => b <<< (x.toNat % 32)), (exec_shrN32Half a b s).trans (hop shrW),
      (exec_minI32Half a b s).trans hmin⟩
  case mov =>
    have := movOp_of_ready (c := .v (half5 b)) (a := half6 a) (by simpa [Src.vregs, Src.sregs] using h) hf
    simp only [Group.src, toNat_half5] at this
    exact (exec_movB32Half a b s).trans this
  case nop => exact (exec_nopHalf s).trans (begin_of_issues h _)
  case round =>
    have hr := laneReady_half h
    have hflt := floatXform_of_ready hr hf
    simp only [toNat_half6, Group.srcF, toNat_half5] at hflt
    exact ⟨(exec_faddF32Half a b s).trans (hflt .fadd), (exec_fsubF32Half a b s).trans (hflt .fsub),
      (exec_fmulF32Half a b s).trans (hflt .fmul)⟩
  case minMax =>
    have hr := laneReady_half h
    have hmm := minMaxOp_of_ready hr
    simp only [toNat_half6, Group.srcF, toNat_half5] at hmm
    exact ⟨(exec_fminF32Half a b s).trans (hmm false), (exec_fmaxF32Half a b s).trans (hmm true)⟩
end Sys2Proof.Machine

namespace Sys2Proof.Machine

/-! O53: the frame of the instructions that write registers of their own group alone. -/

/-- The outcome completes the issue with a group that has the registers of `g` but for those named. -/
def CompletesKeeping (s : State) (g : Group) (v : Nat → Nat → Prop) (r m : Nat → Prop) (o : Out) : Prop :=
  ∃ h, o = .next (s.after h) ∧ g.keeps h v r m

/-- The same for an instruction that names `n` v registers from `a`. -/
abbrev CompletesVector (s : State) (g : Group) (a n : Nat) (o : Out) : Prop :=
  CompletesKeeping s g (destOf s a n) (fun _ => False) (fun _ => False) o

/-- The same for an instruction that names an s register. -/
abbrev CompletesScalar (s : State) (g : Group) (a : SReg) (o : Out) : Prop :=
  CompletesKeeping s g (fun _ _ => False) (fun k => k = a.toNat) (fun _ => False) o

/-- The same for an instruction that names an m register. -/
abbrev CompletesMask (s : State) (g : Group) (m : MReg) (o : Out) : Prop :=
  CompletesKeeping s g (fun _ _ => False) (fun _ => False) (fun k => k = m.toNat) o

section
variable {s t : State} {g h : Group} {v : Nat → Nat → Prop} {r m : Nat → Prop} {o : Out}

/-- Completing an issue changes its group and nothing else of the frame. -/
theorem CompletesKeeping.framed (hc : CompletesKeeping s g v r m o) (ht : o = .next t) : framed s t g v r m := by
  obtain ⟨h, rfl, hk⟩ := hc
  cases ht
  exact ⟨fun _ => ⟨rfl, rfl, rfl, rfl, rfl⟩, ⟨rfl, rfl, rfl⟩, fun _ hne => tget_tput_ne _ _ hne, _, group_after s h,
    hk.trans (keeps_setLanes _ _ _)⟩

theorem keeps_writeLanes (s : State) (g : Group) (a n : Nat) (f : Nat → Nat → Word) :
    g.keeps (writeLanes s g a n f) (destOf s a n) r m := by
  refine keeps_csets_v g fun w hw k j hj hv => ?_
  simp only [List.mem_flatMap, List.mem_filterMap, List.mem_range, mem_lanesOf_iff] at hw
  obtain ⟨l, hl, i, hi, hval⟩ := hw
  have hkey : w.1 = vkey (a + i) l := by
    split at hval
    · cases hval; rfl
    · split at hval
      · cases hval; rfl
      · cases hval
  rw [hkey]
  exact vkey_ne_of_not_destOf hl hi hj hv

theorem keeps_setS (g : Group) (a : Nat) (w : Word) (hr : ∀ k, ¬ r k → k ≠ a) : g.keeps (g.setS a w) v r m := by
  refine ⟨setS_id .., fun _ _ _ _ => ?_, fun k hk => sreg_setS_ne g w (hr k hk), fun _ _ => ?_, setS_h .., setS_c ..,
    setS_tile .., setS_cause .., setS_rmode .., setS_mode .., setS_lfsr .., setS_tieSrc .., setS_tieReg .., setS_syms ..⟩
  · simp only [Group.elem, setS_v]
  · simp only [Group.mreg, setS_m]

theorem keeps_setM (g : Group) (a : Nat) (w : Word) (hm : ∀ k, ¬ m k → k ≠ a) : g.keeps (g.setM a w) v r m :=
  ⟨rfl, fun _ _ _ _ => rfl, fun _ _ => rfl, fun k hk => mreg_setM_ne g w (hm k hk), rfl, rfl, rfl, rfl, rfl, rfl, rfl, rfl,
    rfl, rfl⟩

theorem completesVector_of_writes (a n : Nat) (f : Nat → Nat → Word) :
    CompletesVector s g a n (.next (s.after (writeLanes s g a n f))) := ⟨_, rfl, keeps_writeLanes s g a n f⟩

theorem completesScalar_of_write (a : SReg) (w : Word) : CompletesScalar s g a (.next (s.wroteS g a w)) :=
  ⟨_, rfl, keeps_setS g _ w fun _ => id⟩

theorem completesMask_of_compare (a : MReg) (f : Nat → Bool) :
    CompletesMask s g a (.next (s.after (compareInto s g a.toNat f))) := ⟨_, rfl, keeps_setM g _ _ fun _ => id⟩

/-- What an instruction's operation does in either form, the instruction does. -/
theorem CompletesKeeping.formOf {i : VReg → VReg → VReg → Instr} {x : VReg → VReg → XOp → Instr} {a b : VReg} {c : Src}
    {op : Src → Out} (ho : CompletesKeeping s g v r m (op c)) (hv : ∀ r, exec (i a b r) s = op (.v r))
    (hx : ∀ o, exec (x a b o) s = op (.x o)) : CompletesKeeping s g v r m (exec (formOf i x a b c) s) := by
  rw [exec_formOf hv hx c]
  exact ho

theorem CompletesKeeping.compareOf {i : MReg → VReg → VReg → Instr} {x : MReg → VReg → XOp → Instr} {a : MReg} {b : VReg}
    {c : Src} {op : Src → Out} (ho : CompletesKeeping s g v r m (op c)) (hv : ∀ r, exec (i a b r) s = op (.v r))
    (hx : ∀ o, exec (x a b o) s = op (.x o)) : CompletesKeeping s g v r m (exec (compareOf i x a b c) s) := by
  cases c with
  | v r => exact (hv r).symm ▸ ho
  | x o => exact (hx o).symm ▸ ho

end

section
variable {s : State} {g : Group} {rule : PfxRule}

theorem completes_scalarOp {a b : SReg} {c : XOp} (h : Issues s g { sr := b.toNat :: XOp.reg c }) (f : Word → Word → Word) :
    CompletesScalar s g a (scalarOp s a b c f) := by
  rw [scalarOp_of_issues h]
  exact completesScalar_of_write a _

theorem completes_laneOp {a n : Nat} {rs sr : List Nat} (h : LaneReady s g rule a n rs sr) (f : Group → Nat → Nat → Word) :
    CompletesVector s g a n (laneOp s rule a n [] rs sr f) := by
  rw [laneOp_of_ready h]
  exact completesVector_of_writes a n (f g)

theorem completes_laneXform {a : VReg} {b : Option Nat} {x : Option Src} {addend : Option Nat}
    (h : LaneReady s g rule a.toNat 1 (xformReads b x addend) (x.toList.flatMap Src.sregs)) (hf : g.formRegs ≤ 16)
    (t : Group → Xform) (flt : Bool) : CompletesVector s g a.toNat 1 (laneXform s rule a t b x flt addend) := by
  rw [laneXform_of_known h hf]
  exact completesVector_of_writes a.toNat 1 _

theorem completes_laneXform2 {a b : VReg} {c : Src} (h : LaneReady s g rule a.toNat 1 (b.toNat :: c.vregs) c.sregs)
    (hf : g.formRegs ≤ 16) (t : Group → Xform) (flt : Bool) :
    CompletesVector s g a.toNat 1 (laneXform s rule a t (some b.toNat) (some c) flt none) :=
  completes_laneXform (by simpa [xformReads] using h) hf t flt

theorem completes_laneXform3 {a b : VReg} {c : Src} {e : Nat}
    (h : LaneReady s g rule a.toNat 1 (b.toNat :: c.vregs ++ [e]) c.sregs) (hf : g.formRegs ≤ 16) (t : Group → Xform)
    (flt : Bool) : CompletesVector s g a.toNat 1 (laneXform s rule a t (some b.toNat) (some c) flt (some e)) :=
  completes_laneXform (by simpa [xformReads] using h) hf t flt

/-- `shl`, whose immediate count transforms and whose count in a register blocks (R201). -/
theorem completes_shlOp {a b : VReg} {c : Src} (h : LaneReady s g .plain a.toNat 1 (b.toNat :: c.vregs) c.sregs)
    (hf : g.formRegs ≤ 16) : CompletesVector s g a.toNat 1 (shlOp s a b c) := by
  unfold shlOp
  split
  · exact completes_laneXform2 h hf (fun _ => .shl) false
  · exact completes_laneXform2 h hf (fun _ => .shl) false
  · exact completes_laneOp h _

theorem completes_movOp {a : VReg} {c : Src} (h : LaneReady s g .plain a.toNat 1 c.vregs c.sregs) (hf : g.formRegs ≤ 16) :
    CompletesVector s g a.toNat 1 (movOp s a c) :=
  completes_laneXform (by simpa [xformReads] using h) hf _ _

theorem completes_cmpOp {a : MReg} {b : VReg} {c : Src}
    (h : Issues s g { rule := .plain, v := b.toNat :: c.vregs, vr := b.toNat :: c.vregs, sr := c.sregs })
    (hk : Known g (b.toNat :: c.vregs) (lanesOf (execMask s g))) (f : Word → Word → Bool) :
    CompletesMask s g a (cmpOp s a b c f) := by
  rw [cmpOp, begin_of_issues h, blocking_of_known hk, complete_eq]
  exact completesMask_of_compare a _

theorem completes_fcmpOp {a : MReg} {b : VReg} {c : Src}
    (h : Issues s g { rule := .plain, v := b.toNat :: c.vregs, vr := b.toNat :: c.vregs, sr := c.sregs })
    (hk : Known g (b.toNat :: c.vregs) (lanesOf (execMask s g))) (k : Nat) : CompletesMask s g a (fcmpOp s a b c k) := by
  rw [fcmpOp, begin_of_issues h, blocking_of_known hk, complete_eq]
  exact completesMask_of_compare a _

/-- `tbpack` writes the elements of a block and then its two exponents (R218). -/
theorem completes_tbpackOp {a b : VReg} {c : SReg} (h : Issues s g { rule := .plain, v := [a.toNat, b.toNat], vr := [b.toNat] })
    (hk : Known g [b.toNat] (List.range 32)) (tb8 sat : Bool) :
    CompletesKeeping s g (destOf s a.toNat 1) (fun k => k = c.toNat) (fun _ => False) (tbpackOp s tb8 sat a b c) := by
  rw [tbpackOp, begin_of_issues h, blocking_of_known hk]
  simp only [complete_eq]
  exact ⟨_, rfl, (keeps_writeLanes ..).trans (keeps_setS _ _ _ fun _ => id)⟩

theorem completes_xlaneOp {a b : VReg} {c : Src}
    (h : Issues s g { rule := .plain, v := a.toNat :: b.toNat :: c.vregs, vr := b.toNat :: c.vregs, sr := c.sregs })
    (hb : Known g [b.toNat] (crossLanes s g)) (hc : Known g c.vregs (lanesOf (execMask s g))) (mode : Nat) :
    CompletesVector s g a.toNat 1 (xlaneOp s mode a b c) := by
  rw [xlaneOp, begin_of_issues h, blockingTwo_of_known hb hc, complete_eq]
  exact completesVector_of_writes a.toNat 1 _

theorem completes_tileOp {a b : VReg} (h : Issues s g { rule := rule, v := [a.toNat, b.toNat], vr := [b.toNat] })
    (hk : Known g [b.toNat] (crossLanes s g)) (f : Group → List Nat → Nat → Word) :
    CompletesVector s g a.toNat 1 (tileOp s rule a b f) := by
  rw [tileOp, begin_of_issues h, blocking_of_known hk, complete_eq]
  exact completesVector_of_writes a.toNat 1 _

end

/-! Instructions of one or two forms. -/

section
variable {s : State} {g : Group} {d b : VReg} {c : Src}

/-- An instruction that reads fewer s registers issues too. -/
theorem issues_of_cons {r : Nat} {rs : List Nat} (h : Issues s g { sr := r :: rs }) :
    Issues s g { sr := rs } := by
  obtain ⟨hg, hp, hv, hh, hc, hr, hq, hs, hw, hsr, hhr⟩ := h
  exact ⟨hg, hp, hv, hh, hc, hr, hq, hs, hw, fun r hm => hsr r (List.mem_cons_of_mem _ hm), hhr⟩

theorem completes_scalarMov {a : SReg} {x : XOp} (h : Issues s g { sr := XOp.reg x }) :
    CompletesScalar s g a (execScalarMov a x s) := by
  rw [execScalarMov, begin_of_issues h, complete_eq]
  exact completesScalar_of_write a _

theorem completes_scalarSel {a p : SReg} {x : XOp} (h : Issues s g { sr := a.toNat :: p.toNat :: XOp.reg x }) :
    CompletesScalar s g a (exec (.scalarSel a p x) s) := by
  rw [exec_scalarSel, execScalarSel, begin_of_issues h, complete_eq]
  exact completesScalar_of_write a _

theorem completes_mov (h : LaneReady s g .plain d.toNat 1 c.vregs c.sregs) (hf : g.formRegs ≤ 16) :
    CompletesVector s g d.toNat 1 (exec (match (generalizing := false) c with
      | .v r => .movB32V d r
      | .x o => .movB32X d o) s) := by
  cases c with
  | v r => exact (exec_movB32V d r s).symm ▸ completes_movOp h hf
  | x o => exact (exec_movB32X d o s).symm ▸ completes_movOp h hf

theorem completes_sel {m : MReg} (h : LaneReady s g .plain d.toNat 1 (b.toNat :: c.vregs) c.sregs) :
    CompletesVector s g d.toNat 1 (exec (match (generalizing := false) c with
      | .v r => .selV d m b r
      | .x o => .selX d m b o) s) := by
  cases c with
  | v r => exact (exec_selV d m b r s).symm ▸ completes_laneOp h _
  | x o => exact (exec_selX d m b o s).symm ▸ completes_laneOp h _

section
variable {i : VReg → VReg → VReg → Instr} {x : VReg → VReg → XOp → Instr}

theorem completes_laneOp2_forms {rule : PfxRule} {f : Word → Word → Word}
    (h : LaneReady s g rule d.toNat 1 (b.toNat :: c.vregs) c.sregs)
    (hv : ∀ r, exec (i d b r) s = laneOp2 s rule d b (.v r) f) (hx : ∀ o, exec (x d b o) s = laneOp2 s rule d b (.x o) f) :
    CompletesVector s g d.toNat 1 (exec (formOf i x d b c) s) :=
  (completes_laneOp h _).formOf (op := (laneOp2 s rule d b · f)) hv hx

theorem completes_pairOp_forms {f : Dword → Word → Dword}
    (h : LaneReady s g .plain d.toNat 2 (b.toNat :: (b.toNat + 1) :: c.vregs) c.sregs)
    (hv : ∀ r, exec (i d b r) s = pairOp s d b (.v r) f) (hx : ∀ o, exec (x d b o) s = pairOp s d b (.x o) f) :
    CompletesVector s g d.toNat 2 (exec (formOf i x d b c) s) :=
  (completes_laneOp h _).formOf (op := (pairOp s d b · f)) hv hx

theorem completes_wideOp_forms {f : Word → Word → Dword} (h : LaneReady s g .plain d.toNat 2 (b.toNat :: c.vregs) c.sregs)
    (hv : ∀ r, exec (i d b r) s = wideOp s d b (.v r) f) (hx : ∀ o, exec (x d b o) s = wideOp s d b (.x o) f) :
    CompletesVector s g d.toNat 2 (exec (formOf i x d b c) s) :=
  (completes_laneOp h _).formOf (op := (wideOp s d b · f)) hv hx

end

section
variable {m : MReg} {i : MReg → VReg → VReg → Instr} {x : MReg → VReg → XOp → Instr}
  (h : Issues s g { rule := .plain, v := b.toNat :: c.vregs, vr := b.toNat :: c.vregs, sr := c.sregs })
  (hk : Known g (b.toNat :: c.vregs) (lanesOf (execMask s g)))
include h hk

theorem completes_cmpOp_forms {f : Word → Word → Bool} (hv : ∀ r, exec (i m b r) s = cmpOp s m b (.v r) f)
    (hx : ∀ o, exec (x m b o) s = cmpOp s m b (.x o) f) : CompletesMask s g m (exec (compareOf i x m b c) s) :=
  (completes_cmpOp h hk f).compareOf (op := (cmpOp s m b · f)) hv hx

theorem completes_fcmpOp_forms {k : Nat} (hv : ∀ r, exec (i m b r) s = fcmpOp s m b (.v r) k)
    (hx : ∀ o, exec (x m b o) s = fcmpOp s m b (.x o) k) : CompletesMask s g m (exec (compareOf i x m b c) s) :=
  (completes_fcmpOp h hk k).compareOf (op := (fcmpOp s m b · k)) hv hx

end

/-- The elements of one register. -/
theorem destOf_one (s : State) (a : Nat) : destOf s a 1 = fun k l => k = a ∧ bit s.iss.lanes l = true := by
  funext k l
  simp only [destOf, Nat.lt_succ_iff, ← and_assoc, eq_iff_iff]
  rw [and_comm (a := a ≤ k), ← Nat.le_antisymm_iff]

theorem completes_cvt {dt st : NumTy} (sat : Bool)
    (h : LaneReady s g (if (NumTy.fmt dt).isNone ∧ (NumTy.fmt st).isNone then .plain else .round) d.toNat 1 [b.toNat] []) :
    CompletesVector s g d.toNat 1 (exec (.cvt dt sat st b d) s) := by
  rw [exec_cvt_of_ready sat h]
  exact completesVector_of_writes d.toNat 1 _

end

/-- The frame of one of several instructions that all complete so. -/
theorem framed_of_mem {s t : State} {g : Group} {v : Nat → Nat → Prop} {r m : Nat → Prop} {l : List Instr} {i : Instr}
    (ht : exec i s = .next t) (hl : l.Forall fun i => CompletesKeeping s g v r m (exec i s)) (hm : i ∈ l) :
    framed s t g v r m :=
  (List.forall_iff_forall_mem.mp hl i hm).framed ht

/-- Settles O53: each instruction, in either form, completes with a group that keeps every register but those it names, and
completing changes nothing else of the frame. -/
theorem frameOfRegisterInstructions : Obligations.FrameOfRegisterInstructions := by
  unfold Obligations.FrameOfRegisterInstructions
  intro s t g a d b p x c m i dt st sat ha hb e vector ht
  refine ⟨?scalar, ?scalarSel, ?integer, ?mad, ?bfi, ?mov, ?unary, ?rounded, ?cvt, ?float, ?ffma, ?packedFma, ?pair, ?wide,
    ?compare, ?tbunp, ?tbpack, ?xlane, ?tile, ?half, ?movHalf, ?floatHalf⟩
  case scalar =>
    intro h hm
    have op := completes_scalarOp (a := a) h
    have set : ∀ f, CompletesScalar s g a (scalarSet s a p x f) := fun _ => op _
    refine framed_of_mem ht ?_ hm
    simp only [List.Forall, exec_scalarAdd, exec_scalarSub, exec_scalarMul, exec_scalarMulhiI32, exec_scalarMulhiN32,
      exec_scalarAnd, exec_scalarOr, exec_scalarXor, exec_scalarShl, exec_scalarShr, exec_scalarSra, exec_scalarMinI32,
      exec_scalarMaxI32, exec_scalarMinN32, exec_scalarMaxN32, exec_seteq, exec_setne, exec_setltI32, exec_setleI32, exec_setltN32,
      exec_setleN32, exec_scalarMov]
    exact ⟨op _, op _, op _, op _, op _, op _, op _, op _, op _, op _, op _, op _, op _, op _, op _, set _, set _, set _, set _,
      set _, set _, completes_scalarMov (issues_of_cons h)⟩
  case scalarSel =>
    intro h hi
    exact (completes_scalarSel h).framed (hi ▸ ht)
  case integer =>
    intro h hf hm
    have form : ∀ k, CompletesVector s g d.toNat 1 (intXform s k d b c) := fun _ => completes_laneXform2 h hf _ false
    have minMax : ∀ k, CompletesVector s g d.toNat 1 (minMaxOp s k d b c) := fun _ => completes_laneOp h _
    have packed : ∀ f k, CompletesVector s g d.toNat 1 (packedMinMax s f k d b c) := fun _ _ => completes_laneOp h _
    refine framed_of_mem ht ?_ hm
    simp only [List.Forall]
    exact ⟨(form .add).formOf (exec_addV d b · s) (exec_addX d b · s),
      (form .sub).formOf (exec_subV d b · s) (exec_subX d b · s),
      (form .mul).formOf (exec_mulV d b · s) (exec_mulX d b · s),
      completes_laneOp2_forms h (exec_mulhiI32V d b · s) (exec_mulhiI32X d b · s),
      completes_laneOp2_forms h (exec_mulhiN32V d b · s) (exec_mulhiN32X d b · s),
      completes_laneOp2_forms h (exec_minI32V d b · s) (exec_minI32X d b · s),
      completes_laneOp2_forms h (exec_maxI32V d b · s) (exec_maxI32X d b · s),
      completes_laneOp2_forms h (exec_minN32V d b · s) (exec_minN32X d b · s),
      completes_laneOp2_forms h (exec_maxN32V d b · s) (exec_maxN32X d b · s),
      completes_laneOp2_forms h (exec_andV d b · s) (exec_andX d b · s),
      completes_laneOp2_forms h (exec_orV d b · s) (exec_orX d b · s),
      completes_laneOp2_forms h (exec_xorV d b · s) (exec_xorX d b · s),
      (completes_shlOp h hf).formOf (exec_shlV d b · s) (exec_shlX d b · s),
      completes_laneOp2_forms h (exec_shrV d b · s) (exec_shrX d b · s),
      completes_laneOp2_forms h (exec_sraV d b · s) (exec_sraX d b · s),
      completes_laneOp2_forms h (exec_bfeN32V d b · s) (exec_bfeN32X d b · s),
      completes_laneOp2_forms h (exec_bfeI32V d b · s) (exec_bfeI32X d b · s),
      (minMax false).formOf (exec_fminF32V d b · s) (exec_fminF32X d b · s),
      (minMax true).formOf (exec_fmaxF32V d b · s) (exec_fmaxF32X d b · s),
      (packed fp16 false).formOf (exec_pminF16V d b · s) (exec_pminF16X d b · s),
      (packed fp16 true).formOf (exec_pmaxF16V d b · s) (exec_pmaxF16X d b · s),
      (packed bf16 false).formOf (exec_pminBf16V d b · s) (exec_pminBf16X d b · s),
      (packed bf16 true).formOf (exec_pmaxBf16V d b · s) (exec_pmaxBf16X d b · s), completes_sel h⟩
  case mad =>
    intro h hf hi
    exact ((completes_laneXform3 h hf (fun _ => .mad) false).formOf (op := madOp s d b)
      (exec_madV d b · s) (exec_madX d b · s)).framed (hi ▸ ht)
  case bfi =>
    intro h hf hi
    exact ((completes_laneOp h _).formOf (op := bfiOp s d b) (exec_bfiB32V d b · s) (exec_bfiB32X d b · s)).framed (hi ▸ ht)
  case mov =>
    rintro h hf rfl
    exact (completes_mov h hf).framed ht
  case unary =>
    intro h hf hm
    have op1 : ∀ f, CompletesVector s g d.toNat 1 (laneOp1 s .plain d b f) := fun _ => completes_laneOp h _
    have form := fun k => completes_laneXform (b := some b.toNat) (x := none) (addend := none) h hf (fun _ => k) true
    refine framed_of_mem ht ?_ hm
    simp only [List.Forall, exec_absI32, exec_popcB32, exec_clzB32, exec_brevB32, exec_fnegF32, exec_fabsF32, exec_fclassF32]
    exact ⟨op1 _, op1 _, op1 _, op1 _, form .fneg, op1 _, op1 _⟩
  case rounded =>
    intro h hf hm
    have op1 : ∀ f, CompletesVector s g d.toNat 1 (laneOp1 s .round d b f) := fun _ => completes_laneOp h _
    refine framed_of_mem ht ?_ hm
    simp only [List.Forall, exec_frndF32, exec_frcpF32, exec_frsqF32, exec_fsqrtF32, exec_fex2F32, exec_flg2F32, exec_fsinF32,
      exec_fcosF32]
    exact ⟨op1 _, op1 _, op1 _, op1 _, op1 _, op1 _, op1 _, op1 _⟩
  case cvt =>
    intro h hi
    exact (completes_cvt sat h).framed (hi ▸ ht)
  case float =>
    intro h hf hm
    have form : ∀ k, CompletesVector s g d.toNat 1 (floatXform s k d b c) := fun k => completes_laneXform2 h hf _ true
    have packed : ∀ f k, CompletesVector s g d.toNat 1 (packedOp s f k d b c) := fun _ _ => completes_laneOp h _
    refine framed_of_mem ht ?_ hm
    simp only [List.Forall]
    exact ⟨(form .fadd).formOf (exec_faddF32V d b · s) (exec_faddF32X d b · s),
      (form .fsub).formOf (exec_fsubF32V d b · s) (exec_fsubF32X d b · s),
      (form .fmul).formOf (exec_fmulF32V d b · s) (exec_fmulF32X d b · s),
      (packed fp16 0).formOf (exec_paddF16V d b · s) (exec_paddF16X d b · s),
      (packed fp16 1).formOf (exec_psubF16V d b · s) (exec_psubF16X d b · s),
      (packed fp16 2).formOf (exec_pmulF16V d b · s) (exec_pmulF16X d b · s),
      (packed bf16 0).formOf (exec_paddBf16V d b · s) (exec_paddBf16X d b · s),
      (packed bf16 1).formOf (exec_psubBf16V d b · s) (exec_psubBf16X d b · s),
      (packed bf16 2).formOf (exec_pmulBf16V d b · s) (exec_pmulBf16X d b · s)⟩
  case ffma =>
    intro h hf hi
    exact ((completes_laneXform3 h hf _ true).formOf (op := ffmaOp s d b)
      (exec_ffmaF32V d b · s) (exec_ffmaF32X d b · s)).framed (hi ▸ ht)
  case packedFma =>
    intro h hm
    have fma : ∀ f, CompletesVector s g d.toNat 1 (pfmaOp s f d b c) := fun _ => completes_laneOp h _
    have dot : ∀ f, CompletesVector s g d.toNat 1 (fdot4Op s f d b c) := fun _ => completes_laneOp h _
    refine framed_of_mem ht ?_ hm
    simp only [List.Forall]
    exact ⟨(fma fp16).formOf (exec_pfmaF16V d b · s) (exec_pfmaF16X d b · s),
      (fma bf16).formOf (exec_pfmaBf16V d b · s) (exec_pfmaBf16X d b · s),
      (dot e4m3).formOf (exec_fdot4E4m3V d b · s) (exec_fdot4E4m3X d b · s),
      (dot e5m2).formOf (exec_fdot4E5m2V d b · s) (exec_fdot4E5m2X d b · s)⟩
  case pair =>
    intro h hm
    refine framed_of_mem ht ?_ hm
    simp only [List.Forall]
    exact ⟨completes_pairOp_forms h (exec_addI64V d b · s) (exec_addI64X d b · s),
      completes_pairOp_forms h (exec_subI64V d b · s) (exec_subI64X d b · s),
      completes_pairOp_forms h (exec_shlB64V d b · s) (exec_shlB64X d b · s),
      completes_pairOp_forms h (exec_shrN64V d b · s) (exec_shrN64X d b · s),
      completes_pairOp_forms h (exec_sraI64V d b · s) (exec_sraI64X d b · s)⟩
  case wide =>
    intro h hm
    refine framed_of_mem ht ?_ hm
    simp only [List.Forall]
    exact ⟨completes_wideOp_forms h (exec_mulWideI32V d b · s) (exec_mulWideI32X d b · s),
      completes_wideOp_forms h (exec_mulWideN32V d b · s) (exec_mulWideN32X d b · s)⟩
  case compare =>
    intro h hk hm
    refine framed_of_mem ht ?_ hm
    simp only [List.Forall]
    exact ⟨completes_cmpOp_forms h hk (exec_cmpEqB32V m b · s) (exec_cmpEqB32X m b · s),
      completes_cmpOp_forms h hk (exec_cmpNeB32V m b · s) (exec_cmpNeB32X m b · s),
      completes_cmpOp_forms h hk (exec_cmpLtI32V m b · s) (exec_cmpLtI32X m b · s),
      completes_cmpOp_forms h hk (exec_cmpLeI32V m b · s) (exec_cmpLeI32X m b · s),
      completes_cmpOp_forms h hk (exec_cmpGtI32V m b · s) (exec_cmpGtI32X m b · s),
      completes_cmpOp_forms h hk (exec_cmpGeI32V m b · s) (exec_cmpGeI32X m b · s),
      completes_cmpOp_forms h hk (exec_cmpLtN32V m b · s) (exec_cmpLtN32X m b · s),
      completes_cmpOp_forms h hk (exec_cmpLeN32V m b · s) (exec_cmpLeN32X m b · s),
      completes_cmpOp_forms h hk (exec_cmpGtN32V m b · s) (exec_cmpGtN32X m b · s),
      completes_cmpOp_forms h hk (exec_cmpGeN32V m b · s) (exec_cmpGeN32X m b · s),
      completes_fcmpOp_forms h hk (exec_fcmpEqF32V m b · s) (exec_fcmpEqF32X m b · s),
      completes_fcmpOp_forms h hk (exec_fcmpLtF32V m b · s) (exec_fcmpLtF32X m b · s),
      completes_fcmpOp_forms h hk (exec_fcmpLeF32V m b · s) (exec_fcmpLeF32X m b · s),
      completes_fcmpOp_forms h hk (exec_fcmpNeF32V m b · s) (exec_fcmpNeF32X m b · s),
      completes_fcmpOp_forms h hk (exec_fcmpUnF32V m b · s) (exec_fcmpUnF32X m b · s)⟩
  case tbunp =>
    intro h hm
    have op : ∀ k, CompletesVector s g d.toNat 1 (tbunpOp s k d b a) := fun _ => completes_laneOp h _
    refine framed_of_mem ht ?_ hm
    simp only [List.Forall, exec_tbunpTb8, exec_tbunpTb4]
    exact ⟨op _, op _⟩
  case tbpack =>
    intro h hk hm
    have op := completes_tbpackOp (c := a) h hk
    simp only [← destOf_one]
    refine framed_of_mem ht ?_ hm
    simp only [List.Forall, exec_tbpackTb8, exec_tbpackTb4, exec_tbpackSatTb8, exec_tbpackSatTb4]
    exact ⟨op _ _, op _ _, op _ _, op _ _⟩
  case xlane =>
    intro h hb hc hm
    have op := completes_xlaneOp h hb hc
    refine framed_of_mem ht ?_ hm
    simp only [List.Forall]
    exact ⟨(op 0).formOf (exec_xlaneGetV d b · s) (exec_xlaneGetX d b · s),
      (op 1).formOf (exec_xlaneBackV d b · s) (exec_xlaneBackX d b · s),
      (op 2).formOf (exec_xlaneFwdV d b · s) (exec_xlaneFwdX d b · s),
      (op 3).formOf (exec_xlaneMixV d b · s) (exec_xlaneMixX d b · s)⟩
  case tile =>
    intro rnd h hk hm
    have op := completes_tileOp h hk
    cases rnd with
    | false =>
      refine framed_of_mem ht ?_ hm
      simp only [Bool.false_eq_true, if_false, List.Forall, exec_pollSome, exec_pollEvery, exec_pollBits, exec_foldAddI32,
        exec_foldMinI32, exec_foldMaxI32, exec_prefixAddI32, exec_sameB32, exec_sameF32]
      exact ⟨op _, op _, op _, op _, op _, op _, op _, op _, op _⟩
    | true =>
      refine framed_of_mem ht ?_ hm
      simp only [if_true, List.Forall, exec_foldAddF32, exec_prefixAddF32]
      exact ⟨op _, op _⟩
  case half =>
    intro h hf hm
    have hr := laneReady_half h
    simp only [vector, ← toNat_half6 ha]
    have form : ∀ k, CompletesVector s g (half6 ha).toNat 1 (intXform s k (half6 ha) (half6 ha) (.v (half5 hb))) := fun _ =>
      completes_laneXform2 hr hf _ false
    have op2 : ∀ f, CompletesVector s g (half6 ha).toNat 1 (laneOp2 s .plain (half6 ha) (half6 ha) (.v (half5 hb)) f) :=
      fun _ => completes_laneOp hr _
    have minMax : ∀ k, CompletesVector s g (half6 ha).toNat 1 (minMaxOp s k (half6 ha) (half6 ha) (.v (half5 hb))) := fun _ =>
      completes_laneOp hr _
    refine framed_of_mem ht ?_ hm
    simp only [List.Forall, exec_addI32Half, exec_subI32Half, exec_mulI32Half, exec_andB32Half, exec_orB32Half, exec_xorB32Half,
      exec_shlB32Half, exec_shrN32Half, exec_minI32Half, exec_fminF32Half, exec_fmaxF32Half]
    exact ⟨form _, form _, form _, op2 _, op2 _, op2 _, completes_shlOp hr hf, op2 _, op2 _, minMax _, minMax _⟩
  case movHalf =>
    intro h hf hi
    have hr : LaneReady s g .plain (half6 ha).toNat 1 (Src.v (half5 hb)).vregs (Src.v (half5 hb)).sregs := by
      simpa [Src.vregs, Src.sregs] using h
    subst hi
    rw [exec_movB32Half] at ht
    simp only [vector, ← toNat_half6 ha]
    exact (completes_movOp hr hf).framed ht
  case floatHalf =>
    intro h hf hm
    simp only [vector, ← toNat_half6 ha]
    have form : ∀ k, CompletesVector s g (half6 ha).toNat 1 (floatXform s k (half6 ha) (half6 ha) (.v (half5 hb))) := fun _ =>
      completes_laneXform2 (laneReady_half h) hf _ true
    refine framed_of_mem ht ?_ hm
    simp only [List.Forall, exec_faddF32Half, exec_fsubF32Half, exec_fmulF32Half]
    exact ⟨form _, form _, form _⟩

end Sys2Proof.Machine

namespace Sys2Proof.Machine

/-! O55: an issue that a check of R173 fails. -/

/-! A fault moves no byte of memory. -/

theorem sameBytes.trans {s t u : State} (hst : sameBytes s t) (htu : sameBytes t u) : sameBytes s u := fun a => by
  obtain ⟨mem₁, scr₁, arena₁, bst₁, ring₁⟩ := hst a
  obtain ⟨mem₂, scr₂, arena₂, bst₂, ring₂⟩ := htu a
  exact ⟨mem₂.trans mem₁, scr₂.trans scr₁, arena₂.trans arena₁, bst₂.trans bst₁, ring₂.trans ring₁⟩

theorem sameBytes_refl (s : State) : sameBytes s s := fun _ => ⟨rfl, rfl, rfl, rfl, rfl⟩

theorem sameBytes_putGroup (s : State) (k : Nat) (g : Group) : sameBytes s (putGroup s k g) := sameBytes_refl s

theorem sameBytes_putCtx (s : State) (c : Nat) (x : Ctx) : sameBytes s (putCtx s c x) := sameBytes_refl s

theorem sameBytes_emit (s : State) (ty k p src pl : Nat) (n : Names) : sameBytes s (emit s ty k p src pl n) := by
  simp [sameBytes]

theorem sameBytes_noteCause (s : State) (g c : Nat) : sameBytes s (noteCause s g c) := by
  unfold noteCause
  split <;> exact sameBytes_refl s

theorem sameBytes_raiseLine (s : State) (c src base : Nat) : sameBytes s (raiseLine s c src base) := by
  unfold raiseLine
  dsimp only
  split
  · split
    · exact sameBytes_putCtx _ _ _
    · exact sameBytes_refl s
  · exact sameBytes_putCtx _ _ _

theorem sameBytes_addRec (s : State) (c : Nat) (r : StopRec) : sameBytes s (addRec s c r) := by
  unfold addRec
  dsimp only
  split
  · exact sameBytes_putCtx _ _ _
  · exact sameBytes_refl s

section
variable {s : State} {gid : Nat} {g : Group} (hg : s.group gid = some g) (hn : g.id.handler = false) (hs : g.step ≠ 1)
include hg hn hs

theorem sameBytes_raiseFault (lanes : Word) (cause : Nat) (ltf : Bool) (pc : Nat) (d : Detail) :
    sameBytes s (raiseFault s gid lanes cause ltf pc d) := by
  simp only [raiseFault, hg, hn, Bool.false_eq_true, if_false, hs]
  exact ((((sameBytes_noteCause _ _ _).trans (sameBytes_emit _ _ _ _ _ _ _)).trans (sameBytes_putGroup _ _ _)).trans
    (sameBytes_raiseLine _ _ _ _)).trans (sameBytes_addRec _ _ _)

/-- A first fault leaves the issue open. -/
theorem done_raiseFault (hh : haltedCtx s g.id.ctx = false) (lanes : Word) (cause : Nat) (ltf : Bool) (pc : Nat) (d : Detail) :
    (raiseFault s gid lanes cause ltf pc d).iss.done = s.iss.done := by
  obtain ⟨s1, hc, -, -, hd, e⟩ := raiseFault_first hg hn hs hh lanes cause ltf pc d
  have hdown : (ctxOf (putGroup s1 gid (g.failing false lanes cause)) g.id.ctx).halt = none := by
    have : ctxOf s1 g.id.ctx = ctxOf s g.id.ctx := ctxOf_congr hc ..
    simpa [haltedCtx, this] using hh
  rw [e, raiseLine_down hdown, addRec, ctxOf_putCtx_self]
  exact hd

end

/-- The outcome is a first fault of cause `code` of the issue in progress, which has done nothing else (R371, R374, R375). -/
def Raises (s : State) (g : Group) (code : Nat) (o : Out) : Prop :=
  ∃ t hl r, o = .next t
    ∧ t.group s.iss.g = some { g with cause := code, causeUp := true, faulted := g.faulted ||| s.iss.lanes }
    ∧ (ctxOf t g.id.ctx).halt = some hl ∧ hl.time = s.time ∧ hl.src = srcWedge g.core g.wedge ∧ hl.recs = [r]
    ∧ r.cause = code ∧ r.pc = s.iss.a ∧ r.detail = s.iss.w1 ++ s.iss.w0 ∧ sameBytes s t ∧ t.iss.done = s.iss.done

/-- DETAIL of the cause: the two words of the encoding (R381). -/
theorem ofNat_words (lo hi : Word) : BitVec.ofNat 64 (lo.toNat + 2 ^ 32 * hi.toNat) = hi ++ lo := by
  apply BitVec.eq_of_toNat_eq
  rw [BitVec.toNat_ofNat, BitVec.toNat_append, ← Nat.shiftLeft_add_eq_or_of_lt lo.isLt, Nat.shiftLeft_eq,
    Nat.mod_eq_of_lt (by omega)]
  omega

section
variable {s : State} {g : Group} (hg : s.group s.iss.g = some g)
include hg

theorem raises_faultWord (hn : g.id.handler = false) (hs : g.step ≠ 1) (hh : haltedCtx s g.id.ctx = false) (code : Nat) :
    Raises s g code (faultWord s code) := by
  obtain ⟨hgroup, hl, r, hhalt, htime, hsrc, hrecs, hcause, hpc, hdetail, -, -⟩ :=
    raiseFault_first_facts hg hn hs hh s.iss.lanes code false s.iss.a (Detail.of (s.iss.w0.toNat + 2 ^ 32 * s.iss.w1.toNat))
  exact ⟨_, hl, r, rfl, hgroup, hhalt, htime, hsrc, hrecs, hcause, hpc, hdetail.trans (ofNat_words _ _),
    sameBytes_raiseFault hg hn hs _ _ _ _ _, done_raiseFault hg hn hs hh ..⟩

/-- A register beyond the declared count (row 3 of R173). -/
theorem begin_of_beyond {u : Use} (hp : s.iss.pfx = none) {r : Nat} (hr : r ∈ u.v) (hnv : g.id.nv ≤ r) (k : Group → Out) :
    begin_ s u k = faultWord s cIllegal := by
  have hany : ((u.v ++ (fourth s).toList).any fun r => decide (g.id.nv ≤ r)) = true :=
    List.any_eq_true.mpr ⟨r, List.mem_append_left _ hr, decide_eq_true hnv⟩
  simp only [begin_, hg, hp, Option.isSome_none, Bool.and_false, Bool.false_eq_true, if_false, hany, Bool.true_or, if_true]

/-- A prefix before an instruction that takes none. -/
theorem begin_of_prefixed {u : Use} (hu : u.rule = .no) (hp : s.iss.pfx ≠ none) (k : Group → Out) :
    begin_ s u k = faultWord s cIllegal := by
  simp only [begin_, hg, hu, Option.isSome_iff_ne_none.mpr hp, decide_true, Bool.and_self, if_true]

/-- A nonzero unused field (row 7 of R173) of an instruction that names v registers alone. -/
theorem begin_of_reserved {u : Use} (hp : s.iss.pfx = none) (hv : ∀ r ∈ u.v, r < g.id.nv) (hh : u.h = []) (hc : u.c = [])
    (hr : s.iss.rsv = true) (k : Group → Out) : begin_ s u k = faultWord s cReserved := by
  have hany : (u.v.any fun r => decide (g.id.nv ≤ r)) = false := any_eq_false_of fun r hm => by simpa using hv r hm
  simp only [begin_, hg, fourth, hp, hh, hc, hr, hany, Option.toList_none, List.append_nil, List.any_nil, Option.isSome_none,
    Bool.and_false, Bool.or_self, Bool.true_or, Bool.false_eq_true, if_false, if_true]

end

/-- Settles O55: each instruction begins with the checks of R173, which answer with the fault of the issue alone. -/
theorem issueFaults : Obligations.IssueFaults := by
  unfold Obligations.IssueFaults
  intro s g a b c p q x hg hn hs hh raises
  have illegal : ∀ {o}, o = faultWord s cIllegal → Raises s g 0x10 o := fun e => e ▸ raises_faultWord hg hn hs hh cIllegal
  have reserved : ∀ {o}, o = faultWord s cReserved → Raises s g 0x11 o := fun e => e ▸ raises_faultWord hg hn hs hh cReserved
  refine ⟨fun hp hbeyond => ?beyond, fun hp => ?prefixed, fun hp hr => ?unused⟩
  case beyond =>
    obtain ⟨r, hr, hnv⟩ : ∃ r ∈ [a.toNat, b.toNat, c.toNat], g.id.nv ≤ r := by simpa using hbeyond
    have fault : ∀ (u : Use) k, [a.toNat, b.toNat, c.toNat] ⊆ u.v → begin_ s u k = faultWord s cIllegal :=
      fun u k hu => begin_of_beyond hg hp (hu hr) hnv k
    exact ⟨illegal ((exec_addV ..).trans (fault _ _ (by simp [xformReads, Src.vregs]))),
      illegal ((exec_mulV ..).trans (fault _ _ (by simp [xformReads, Src.vregs]))),
      illegal ((exec_xlaneGetV ..).trans (fault _ _ (by simp [Src.vregs]))),
      illegal ((exec_faddF32V ..).trans (fault _ _ (by simp [xformReads, Src.vregs]))),
      illegal ((exec_fdot4E4m3V ..).trans (fault _ _ (by simp [Src.vregs])))⟩
  case prefixed =>
    have fault : ∀ (u : Use) k, u.rule = .no → begin_ s u k = faultWord s cIllegal := fun _ k hu =>
      begin_of_prefixed hg hu hp k
    exact ⟨illegal ((exec_scalarAdd ..).trans (fault _ _ rfl)), illegal ((exec_exit ..).trans (fault _ _ rfl)),
      illegal ((exec_yield ..).trans (fault _ _ rfl)), illegal ((exec_elect ..).trans (fault _ _ rfl))⟩
  case unused =>
    have fault : ∀ k, begin_ s {} k = faultWord s cReserved := begin_of_reserved hg hp nofun rfl rfl hr
    refine ⟨reserved ((exec_exit ..).trans (fault _)), reserved ((exec_yield ..).trans (fault _)),
      reserved ((exec_elect ..).trans (fault _)), reserved ((exec_nopHalf ..).trans (fault _)),
      reserved ((exec_barTeam ..).trans (fault _)), fun ha hb => ?_⟩
    have hnames : ∀ r ∈ [a.toNat, b.toNat], r < g.id.nv := by simp [ha, hb]
    have fault : ∀ (u : Use) k, u.v ⊆ [a.toNat, b.toNat] → u.h = [] → u.c = [] → begin_ s u k = faultWord s cReserved :=
      fun _ k hv hhr hcr => begin_of_reserved hg hp (fun r hm => hnames r (hv hm)) hhr hcr hr k
    exact ⟨reserved ((exec_absI32 ..).trans (fault _ _ (by simp) rfl rfl)),
      reserved ((exec_fnegF32 ..).trans (fault _ _ (by simp [xformReads]) rfl rfl))⟩

end Sys2Proof.Machine

namespace Sys2Proof.Machine

/-! O42: the words that introduce an instruction. -/

/-- Whether a flag that the header names is up. -/
theorem waits_iff (wait : BitVec 12) (g : Group) :
    ((List.range 12).any fun k => wait.toNat / 2 ^ k % 2 == 1 && g.flag k != 0) = true
      ↔ ∃ k, k < 12 ∧ wait.getLsbD k = true ∧ g.flag k ≠ 0 := by
  simp [List.any_eq_true, BitVec.getLsbD, Nat.testBit_eq_decide_div_mod_eq]

section
variable {s : State} {g : Group} (hg : s.group s.iss.g = some g)
include hg

/-- A clause header whose flags are clear lets the lanes enter (R156). -/
theorem exec_clauseHeader_of_clear (len : BitVec 5) (fb fa : BitVec 4) {wait : BitVec 12}
    (h : ∀ k, k < 12 → wait.getLsbD k = true → g.flag k = 0) :
    exec (.clauseHeader len fb fa wait) s = .next (putGroup s s.iss.g
      { g with latch := some { at_ := s.iss.a, entered := true, pfx := none, pfxBad := false } }) := by
  rw [exec_clauseHeader, execClauseHeader, hg]
  refine if_neg fun hw => ?_
  obtain ⟨k, hk, hbit, hflag⟩ := (waits_iff wait g).mp hw
  exact hflag (h k hk hbit)

/-- A clause header with a flag up waits. -/
theorem exec_clauseHeader_of_up (len : BitVec 5) (fb fa : BitVec 4) {wait : BitVec 12}
    (h : ∃ k, k < 12 ∧ wait.getLsbD k = true ∧ g.flag k ≠ 0) : exec (.clauseHeader len fb fa wait) s = .next s := by
  rw [exec_clauseHeader, execClauseHeader, hg]
  exact if_pos ((waits_iff wait g).mpr h)

/-- A prefix is held for the instruction after it (R164). -/
theorem exec_prefixWord_of_group (d : VReg) (dv ftz zero : Bool) (rnd : BitVec 3) (mk : BitVec 4) :
    exec (.prefixWord d dv ftz zero rnd mk) s = .next (putGroup s s.iss.g { g with
      latch := some { g.latchAt s.iss.a with
        pfx := some { d := if dv then some d.toNat else none, ftz := ftz, zero := zero, rnd := rnd.toNat
                      mask := if mk.toNat < 12 then some mk.toNat else none }
        pfxBad := s.iss.rsv } }) := by
  rw [exec_prefixWord, execPrefixWord, hg]

end

/-! The class that a long form wraps, and its operand fields (R166). -/

section
variable (m : BitVec 4) (a b : BitVec 7) (lit : Word) (s : State)

theorem exec_longForm_01 : exec (.longForm m b a 0x01 lit) s = long01 m.toNat a.toNat b.toNat (.lit lit) s := rfl
theorem exec_longForm_02 : exec (.longForm m b a 0x02 lit) s = long02 m.toNat a.toNat b.toNat (.lit lit) s := rfl
theorem exec_longForm_09 : exec (.longForm m b a 0x09 lit) s = long09 m.toNat a.toNat b.toNat (.lit lit) s := rfl
theorem exec_longForm_0B : exec (.longForm m b a 0x0B lit) s = long0B m.toNat a.toNat b.toNat (.lit lit) s := rfl
theorem exec_longForm_0D : exec (.longForm m b a 0x0D lit) s = long0D m.toNat a.toNat b.toNat (.lit lit) s := rfl
theorem exec_longForm_0F : exec (.longForm m b a 0x0F lit) s = long0F m.toNat a.toNat b.toNat (.lit lit) s := rfl
theorem exec_longForm_13 : exec (.longForm m b a 0x13 lit) s = long13 m.toNat a.toNat b.toNat (.lit lit) s := rfl
theorem exec_longForm_03 : exec (.longForm m b a 0x03 lit) s = long03 m.toNat a.toNat b.toNat lit s := rfl
theorem exec_longForm_19 : exec (.longForm m b a 0x19 lit) s = longM s m.toNat fun k =>
    longIf s (decide (m.toNat ≤ 11)) (execSelX (vOf a.toNat) k (vOf b.toNat) (.lit lit) s) := rfl
theorem exec_longForm_20 : exec (.longForm m b a 0x20 lit) s = longAcc 0x20 m.toNat a.toNat b.toNat lit s := rfl
theorem exec_longForm_22 : exec (.longForm m b a 0x22 lit) s = longAcc 0x22 m.toNat a.toNat b.toNat lit s := rfl
theorem exec_longForm_23 : exec (.longForm m b a 0x23 lit) s = longAcc 0x23 m.toNat a.toNat b.toNat lit s := rfl
theorem exec_longForm_25 : exec (.longForm m b a 0x25 lit) s = longAcc 0x25 m.toNat a.toNat b.toNat lit s := rfl
theorem exec_longForm_30 : exec (.longForm m b a 0x30 lit) s = longAcc 0x30 m.toNat a.toNat b.toNat lit s := rfl

end

/-- A register's number in a wider field. -/
theorem toNat_zeroExtend_field {n : Nat} (r : BitVec n) (h : n ≤ 7) : (r.zeroExtend 7).toNat = r.toNat :=
  BitVec.toNat_setWidth_of_le h

section
variable (s : State)

/-- A field that widens the number of an s register names it. -/
theorem longS_zeroExtend (r : SReg) (k : SReg → Out) : longS s (r.zeroExtend 7).toNat k = k r := by
  rw [longS, toNat_zeroExtend_field r (by decide), if_pos r.isLt, BitVec.ofNat_toNat, BitVec.setWidth_eq]

/-- A field that widens the number of an m register names it. -/
theorem longM_zeroExtend (r : MReg) (k : MReg → Out) : longM s (r.zeroExtend 7).toNat k = k r := by
  rw [longM, toNat_zeroExtend_field r (by decide), if_pos r.isLt, BitVec.ofNat_toNat, BitVec.setWidth_eq]

@[simp] theorem longM_toNat (r : MReg) (k : MReg → Out) : longM s r.toNat k = k r := by
  rw [longM, if_pos r.isLt, BitVec.ofNat_toNat, BitVec.setWidth_eq]

@[simp] theorem longIf_true (k : Out) : longIf s true k = k := rfl

/-- An unused field that is 0 breaks no rule. -/
@[simp] theorem zField_zero : zField s 0 = s := by simp [zField]

/-- An s register and an offset, even the register where the access is of global memory (R162). -/
theorem longMem_offFar (glob : Bool) {r : SReg} (h : glob = true → r.toNat % 2 = 0) (lit : Word) (k : MemOp → Out) :
    longMem s glob (r.zeroExtend 7).toNat lit k = k (.offFar r lit) := by
  have hr := toNat_zeroExtend_field r (by decide)
  have hmod : r.toNat % 64 = r.toNat := Nat.mod_eq_of_lt r.isLt
  have heven : (glob && r.toNat % 2 == 1) = false := by
    cases glob with
    | false => rfl
    | true => simp [h rfl]
  simp only [longMem, hr, hmod, heven, Bool.false_eq_true, if_false, if_pos (show r.toNat < 128 - 64 from r.isLt),
    BitVec.ofNat_toNat, BitVec.setWidth_eq]

/-- The long form of a prefetch, its unused field A being 0 (R235). -/
theorem longAcc_prefetch (m b : Nat) (lit : Word) : longAcc 0x30 m 0 b lit s =
    if m = 8 then longMem s true b lit fun bc => execPrefetchL1 bc s
    else if m = 9 then longMem s true b lit fun bc => execPrefetchSlice bc s
    else faultWord s cIllegal := by
  simp [longAcc]

/-- A long form acts as the instructions of a list where its class does, minor field by minor field. -/
theorem longForm_wraps {cls : BitVec 6} {a b : BitVec 7} {lit : Word} {l : List (BitVec 4 × Instr)} (op : Nat → Out)
    (hop : ∀ m, exec (.longForm m b a cls lit) s = op m.toNat) (hl : l.Forall fun p => op p.1.toNat = exec p.2 s) :
    ∀ p ∈ l, exec (.longForm p.1 b a cls lit) s = exec p.2 s := fun p hp =>
  (hop p.1).trans (List.forall_iff_forall_mem.mp hl p hp)

end

/-- Settles O42: a header and a prefix by their cases; a long form by its class, whose entry for the minor field runs the
wrapped instruction on the registers that the fields name and the literal. -/
theorem encodingWords : Obligations.EncodingWords := by
  unfold Obligations.EncodingWords
  intro s g len fb fa mk wait d va vb dv ftz zero rnd sa sb m lit x as_ ra rb
  refine ⟨fun hg => ⟨exec_clauseHeader_of_clear hg len fb fa, exec_clauseHeader_of_up hg len fb fa,
      exec_prefixWord_of_group hg d dv ftz zero rnd mk⟩, ?add, ?scalar, ?scalarMov, ?scalarSet, ?branch, ?integer, ?field, ?mov,
    ?wide, ?pair, ?mask, ?float, ?packed, ?prefetch, ?access⟩
  case add =>
    intro h
    rw [exec_longForm_01]
    simp only [BitVec.ofNat_eq_ofNat, BitVec.reduceToNat, long01, ra, rb, longS_zeroExtend]
    exact scalarOp_of_issues (c := .lit lit) h
  case scalar =>
    refine longForm_wraps s (long01 · ra.toNat rb.toNat x s) (exec_longForm_01 · _ _ lit s) ?_
    simp only [List.Forall, BitVec.ofNat_eq_ofNat, BitVec.reduceToNat, long01, ra, rb, longS_zeroExtend, exec_scalarAdd,
      exec_scalarSub, exec_scalarMul, exec_scalarMulhiI32, exec_scalarMulhiN32, exec_scalarAnd, exec_scalarOr,
      exec_scalarXor, exec_scalarShl, exec_scalarShr, exec_scalarSra, exec_scalarMinI32, exec_scalarMaxI32,
      exec_scalarMinN32, exec_scalarMaxN32, and_self]
  case scalarMov =>
    refine longForm_wraps s (long02 · ra.toNat 0 x s) (exec_longForm_02 · _ _ lit s) ?_
    simp only [List.Forall, BitVec.ofNat_eq_ofNat, BitVec.reduceToNat, long02, ra, longS_zeroExtend, zField_zero,
      exec_scalarMov]
  case scalarSet =>
    refine longForm_wraps s (long02 · ra.toNat rb.toNat x s) (exec_longForm_02 · _ _ lit s) ?_
    simp only [List.Forall, BitVec.ofNat_eq_ofNat, BitVec.reduceToNat, long02, ra, rb, longS_zeroExtend, exec_seteq, exec_setne,
      exec_setltI32, exec_setleI32, exec_setltN32, exec_setleN32, exec_scalarSel, and_self]
  case branch =>
    intro h
    refine ⟨longForm_wraps s (long03 · 0 0 lit s) (exec_longForm_03 · _ _ lit s) ?_,
      longForm_wraps s (long03 · va.toNat 0 lit s) (exec_longForm_03 · _ _ lit s) ?_⟩
    · simp only [List.Forall, BitVec.ofNat_eq_ofNat, BitVec.reduceToNat, long03, h, ne_eq, not_true_eq_false, if_false,
        Nat.add_zero, zField_zero, exec_bra]
    · simp only [List.Forall, BitVec.ofNat_eq_ofNat, BitVec.reduceToNat, long03, h, ne_eq, not_true_eq_false, if_false,
        vOf_toNat, zField_zero, exec_brcNz, exec_brcZ, exec_call, and_self]
  case integer =>
    refine longForm_wraps s (long09 · va.toNat vb.toNat x s) (exec_longForm_09 · _ _ lit s) ?_
    simp only [List.Forall, BitVec.ofNat_eq_ofNat, BitVec.reduceToNat, long09, vOf_toNat, exec_addX, exec_subX, exec_mulX,
      exec_mulhiI32X, exec_mulhiN32X, exec_madX, exec_minI32X, exec_maxI32X, exec_minN32X, exec_maxN32X, exec_andX,
      exec_orX, exec_xorX, exec_shlX, exec_shrX, exec_sraX, and_self]
  case field =>
    refine longForm_wraps s (long0B · va.toNat vb.toNat x s) (exec_longForm_0B · _ _ lit s) ?_
    simp only [List.Forall, BitVec.ofNat_eq_ofNat, BitVec.reduceToNat, long0B, vOf_toNat, exec_bfeN32X, exec_bfeI32X,
      exec_bfiB32X,
      and_self]
  case mov =>
    refine longForm_wraps s (long0B · va.toNat 0 x s) (exec_longForm_0B · _ _ lit s) ?_
    simp only [List.Forall, BitVec.ofNat_eq_ofNat, BitVec.reduceToNat, long0B, vOf_toNat, zField_zero, exec_movB32X]
  case wide =>
    intro h
    refine longForm_wraps s (long0B · va.toNat vb.toNat x s) (exec_longForm_0B · _ _ lit s) ?_
    simp only [List.Forall, BitVec.ofNat_eq_ofNat, BitVec.reduceToNat, long0B, vOf_toNat, h, decide_true, longIf_true,
      exec_mulWideI32X, exec_mulWideN32X, and_self]
  case pair =>
    intro ha hb
    refine longForm_wraps s (long0B · va.toNat vb.toNat x s) (exec_longForm_0B · _ _ lit s) ?_
    simp only [List.Forall, BitVec.ofNat_eq_ofNat, BitVec.reduceToNat, long0B, vOf_toNat, ha, hb, decide_true, Bool.and_self,
      longIf_true, exec_addI64X, exec_subI64X, exec_shlB64X, exec_shrN64X, exec_sraI64X, and_self]
  case mask =>
    intro hm
    have hfield : decide ((m.zeroExtend 7).toNat ≤ 11) = true := by
      rw [toNat_zeroExtend_field m (by decide)]
      exact decide_eq_true (Nat.le_of_lt_succ hm)
    refine ⟨longForm_wraps s (long0D · (m.zeroExtend 7).toNat vb.toNat x s) (exec_longForm_0D · _ _ lit s) ?_,
      List.forall_mem_singleton.mpr ?_⟩
    · simp only [List.Forall, BitVec.ofNat_eq_ofNat, BitVec.reduceToNat, long0D, longM_zeroExtend, hfield, longIf_true,
        vOf_toNat, exec_cmpEqB32X, exec_cmpNeB32X, exec_cmpLtI32X, exec_cmpLeI32X, exec_cmpGtI32X, exec_cmpGeI32X, exec_cmpLtN32X,
        exec_cmpLeN32X, exec_cmpGtN32X, exec_cmpGeN32X, exec_fcmpEqF32X, exec_fcmpLtF32X, exec_fcmpLeF32X, exec_fcmpNeF32X,
        exec_fcmpUnF32X, and_self]
    · rw [exec_longForm_19, longM_toNat, decide_eq_true (Nat.le_of_lt_succ hm), longIf_true, vOf_toNat, vOf_toNat, exec_selX]
  case float =>
    refine longForm_wraps s (long0F · va.toNat vb.toNat x s) (exec_longForm_0F · _ _ lit s) ?_
    simp only [List.Forall, BitVec.ofNat_eq_ofNat, BitVec.reduceToNat, long0F, vOf_toNat, exec_faddF32X, exec_fsubF32X,
      exec_fmulF32X, exec_ffmaF32X, exec_fminF32X, exec_fmaxF32X, and_self]
  case packed =>
    refine longForm_wraps s (long13 · va.toNat vb.toNat x s) (exec_longForm_13 · _ _ lit s) ?_
    simp only [List.Forall, BitVec.ofNat_eq_ofNat, BitVec.reduceToNat, long13, vOf_toNat, exec_paddF16X, exec_psubF16X,
      exec_pmulF16X, exec_pfmaF16X, exec_pminF16X, exec_pmaxF16X, exec_paddBf16X, exec_psubBf16X, exec_pmulBf16X,
      exec_pfmaBf16X, exec_pminBf16X, exec_pmaxBf16X, exec_fdot4E4m3X, exec_fdot4E5m2X, and_self]
  case prefetch =>
    intro h
    refine longForm_wraps s (longAcc 0x30 · 0 rb.toNat lit s) (exec_longForm_30 · _ _ lit s) ?_
    simp only [List.Forall, BitVec.ofNat_eq_ofNat, BitVec.reduceToNat, longAcc_prefetch, if_true,
      if_neg (by decide : ¬ 9 = 8), rb, longMem_offFar s true (fun _ => h), exec_prefetchL1, exec_prefetchSlice, and_self]
  case access =>
    intro k t ht hok
    refine ⟨fun h => ⟨longForm_wraps s (longAcc 0x20 · va.toNat rb.toNat lit s) (exec_longForm_20 · _ _ lit s) ?_,
        longForm_wraps s (longAcc 0x22 · va.toNat rb.toNat lit s) (exec_longForm_22 · _ _ lit s) ?_⟩,
      fun h => ⟨longForm_wraps s (longAcc 0x23 · va.toNat rb.toNat lit s) (exec_longForm_23 · _ _ lit s) ?_,
        longForm_wraps s (longAcc 0x25 · va.toNat rb.toNat lit s) (exec_longForm_25 · _ _ lit s) ?_⟩⟩
    · simp only [List.Forall, longAcc, longTy, ht, hok, if_true, rb, longMem_offFar s true (fun _ => h), vOf_toNat, exec_ldg]
    · simp only [List.Forall, longAcc, longTy, ht, hok, if_true, rb, longMem_offFar s true (fun _ => h), vOf_toNat, exec_stg]
    · simp only [List.Forall, longAcc, longTy, ht, h, hok, Bool.and_self, if_true, rb, longMem_offFar s false nofun, vOf_toNat,
        exec_lds]
    · simp only [List.Forall, longAcc, longTy, ht, h, hok, Bool.and_self, if_true, rb, longMem_offFar s false nofun, vOf_toNat,
        exec_sts]

end Sys2Proof.Machine

namespace Sys2Proof.Machine

/-- Settles O56: the decoder runs on each word, and gives the instruction that the encodings spell out. -/
theorem decodeWords : Obligations.DecodeWords := by
  unfold Obligations.DecodeWords
  decide +kernel

end Sys2Proof.Machine

namespace Sys2Proof.Machine

/-! O11: the integer functions of R204 as operations on bit vectors. -/

theorem mulhiI_eq (p x : Word) : mulhiI p x = (p.signExtend 64 * x.signExtend 64).extractLsb' 32 32 := by
  have hwide : p.signExtend 64 * x.signExtend 64 = BitVec.ofInt 64 (p.toInt * x.toInt) := by
    rw [BitVec.ofInt_mul, BitVec.signExtend, BitVec.signExtend]
  apply BitVec.eq_of_toNat_eq
  rw [hwide]
  simp only [mulhiI, wordI, sx, BitVec.extractLsb'_toNat, BitVec.toNat_ofInt]
  omega

theorem mulhiN_eq (p x : Word) : mulhiN p x = (p.zeroExtend 64 * x.zeroExtend 64).extractLsb' 32 32 := by
  have hlt : p.toNat * x.toNat < 2 ^ 64 :=
    Nat.mul_lt_mul'' (c := 2 ^ 32) (d := 2 ^ 32) p.isLt x.isLt
  apply BitVec.eq_of_toNat_eq
  simp only [mulhiN, word, BitVec.toNat_ofNat, BitVec.extractLsb'_toNat, BitVec.toNat_mul, BitVec.toNat_setWidth]
  rw [Nat.mod_eq_of_lt (by omega : p.toNat < 2 ^ 64), Nat.mod_eq_of_lt (by omega : x.toNat < 2 ^ 64), Nat.mod_eq_of_lt hlt,
    Nat.shiftRight_eq_div_pow]

theorem maxI_eq_sle (p x : Word) : maxI p x = if p.sle x then x else p := by
  change (if p.toInt < x.toInt then x else p) = _
  simp only [BitVec.sle, decide_eq_true_eq]
  rcases lt_trichotomy p.toInt x.toInt with h | h | h
  · rw [if_pos h, if_pos h.le]
  · rw [BitVec.eq_of_toInt_eq h, ite_self, ite_self]
  · rw [if_neg h.not_gt, if_neg h.not_ge]

theorem minN_eq_ule (p x : Word) : minN p x = if p.ule x then p else x := by
  simp only [minN, BitVec.ule, decide_eq_true_eq, ← Nat.not_le, ite_not]

theorem maxN_eq_ule (p x : Word) : maxN p x = if p.ule x then x else p := by
  simp only [maxN, BitVec.ule, decide_eq_true_eq]
  rcases lt_trichotomy p.toNat x.toNat with h | h | h
  · rw [if_pos h, if_pos h.le]
  · rw [BitVec.eq_of_toNat_eq h, ite_self, ite_self]
  · rw [if_neg h.not_gt, if_neg h.not_ge]

section
variable {s : State} {g : Group} {rule : PfxRule} {a b : VReg} {c : Src} {v : VReg → VReg → VReg → Instr}
  {x : VReg → VReg → XOp → Instr}

/-- A two-source lane instruction in either form. -/
theorem exec_laneOp2_of_ready {f : Word → Word → Word} (h : LaneReady s g rule a.toNat 1 (b.toNat :: c.vregs) c.sregs)
    (hv : ∀ r, exec (v a b r) s = laneOp2 s rule a b (.v r) f) (hx : ∀ o, exec (x a b o) s = laneOp2 s rule a b (.x o) f) :
    exec (formOf v x a b c) s = .next (s.wroteV g a 1 fun l _ => f (g.vword b.toNat l) (g.src c l)) := by
  rw [exec_formOf (op := (laneOp2 s rule a b · f)) hv hx c, laneOp2_of_ready h]

/-- The same, by another name `k` of the function that it computes. -/
theorem exec_laneOp2_of_ready_of_eq {f k : Word → Word → Word}
    (h : LaneReady s g rule a.toNat 1 (b.toNat :: c.vregs) c.sregs) (hv : ∀ r, exec (v a b r) s = laneOp2 s rule a b (.v r) f)
    (hx : ∀ o, exec (x a b o) s = laneOp2 s rule a b (.x o) f) (hk : ∀ p q, f p q = k p q) :
    exec (formOf v x a b c) s = .next (s.wroteV g a 1 fun l _ => k (g.vword b.toNat l) (g.src c l)) := by
  obtain rfl : f = k := funext₂ hk
  exact exec_laneOp2_of_ready h hv hx

/-- `shl` on known operands, whatever gives its count (R201). -/
theorem shlOp_of_ready (h : LaneReady s g .plain a.toNat 1 (b.toNat :: c.vregs) c.sregs) (hf : g.formRegs ≤ 16) :
    shlOp s a b c = .next (s.wroteV g a 1 fun l _ => g.vword b.toNat l <<< ((g.src c l).toNat % 32)) := by
  unfold shlOp
  split
  · exact intXform_of_ready h hf .shl
  · exact intXform_of_ready h hf .shl
  · exact laneOp2_of_ready h _

end

/-- Settles O11: each instruction, in either form, completes with the model's function of the two sources, which is the one
that R204 gives. -/
theorem integerArithmetic : Obligations.IntegerArithmetic := by
  unfold Obligations.IntegerArithmetic
  intro s g a b c h hf p x done
  have hxf := @intXform_of_ready s g a b c h hf
  exact ⟨(exec_formOf_add a b c s).trans (hxf .add), (exec_formOf_sub a b c s).trans (hxf .sub),
    (exec_formOf_mul a b c s).trans (hxf .mul),
    (exec_laneOp2_of_ready_of_eq h (exec_mulhiI32V a b · s) (exec_mulhiI32X a b · s) mulhiI_eq :),
    (exec_laneOp2_of_ready_of_eq h (exec_mulhiN32V a b · s) (exec_mulhiN32X a b · s) mulhiN_eq :),
    (exec_laneOp2_of_ready_of_eq h (exec_minI32V a b · s) (exec_minI32X a b · s) minI_eq_sle :),
    (exec_laneOp2_of_ready_of_eq h (exec_maxI32V a b · s) (exec_maxI32X a b · s) maxI_eq_sle :),
    (exec_laneOp2_of_ready_of_eq h (exec_minN32V a b · s) (exec_minN32X a b · s) minN_eq_ule :),
    (exec_laneOp2_of_ready_of_eq h (exec_maxN32V a b · s) (exec_maxN32X a b · s) maxN_eq_ule :),
    (exec_laneOp2_of_ready h (exec_andV a b · s) (exec_andX a b · s) :),
    (exec_laneOp2_of_ready h (exec_orV a b · s) (exec_orX a b · s) :),
    (exec_laneOp2_of_ready h (exec_xorV a b · s) (exec_xorX a b · s) :),
    (exec_formOf (op := shlOp s a b) (exec_shlV a b · s) (exec_shlX a b · s) c).trans (shlOp_of_ready h hf),
    (exec_laneOp2_of_ready h (exec_shrV a b · s) (exec_shrX a b · s) :),
    (exec_laneOp2_of_ready h (exec_sraV a b · s) (exec_sraX a b · s) :)⟩

end Sys2Proof.Machine

namespace Sys2Proof.Machine

/-! O12: bit fields and bit counts of R205. -/

theorem absW_eq_msb (p : Word) : absW p = if p.msb then -p else p := by
  rw [absW, bit_eq, BitVec.msb_eq_getLsbD_last]

theorem popc_eq_countP (p : Word) : popc p = word ((List.range 32).countP p.getLsbD) := by
  rw [popc, List.countP_eq_length_filter]
  congr 3
  exact funext (bit_eq p)

theorem clz_eq_bitVec_clz (p : Word) : clz p = p.clz := by
  unfold clz
  split_ifs with h
  · exact (BitVec.clz_eq_iff_eq_zero.mpr h).symm
  · have hlt : p.clz.toNat < 32 := by simpa [BitVec.lt_def] using BitVec.clz_lt_iff_ne_zero.mpr h
    have hlog : p.toNat.log2 = 31 - p.clz.toNat := by
      refine (Nat.log2_eq_iff fun hz => h (BitVec.eq_of_toNat_eq hz)).mpr
        ⟨by simpa only [Nat.sub_right_comm] using BitVec.two_pow_sub_clz_le_toNat_of_ne_zero (by decide) h, ?_⟩
      rw [show 31 - p.clz.toNat + 1 = 32 - p.clz.toNat by omega]
      exact BitVec.toNat_lt_two_pow_sub_clz
    apply BitVec.eq_of_toNat_eq
    rw [hlog, word, BitVec.toNat_ofNat]
    omega

theorem brev_eq_reverse (p : Word) : brev p = p.reverse := by
  refine BitVec.eq_of_getLsbD_eq fun i hi => ?_
  rw [brev, ← bit_eq, bit_maskOf _ hi, BitVec.getLsbD_reverse, BitVec.getMsbD, ← bit_eq]
  simp [hi]

theorem bfPos_eq (x : Word) : bfPos x = x.toNat % 32 := by simp [bfPos, fld]
theorem bfLen_eq (x : Word) : bfLen x = min (x.toNat / 256 % 64) 32 := rfl
theorem bfWidth_eq (x : Word) : bfWidth x = min (min (x.toNat / 256 % 64) 32) (32 - x.toNat % 32) := by
  rw [bfWidth, bfLen_eq, bfPos_eq]

theorem bfWidth_le (x : Word) : bfWidth x ≤ 32 := by rw [bfWidth, bfLen_eq]; omega

theorem bfWidth_pos {x : Word} (h : bfLen x ≠ 0) : 0 < bfWidth x := by rw [bfWidth, bfPos_eq]; omega

/-- The low bits of a word, by a mask of that many ones. -/
theorem and_ones_eq (w : Word) {k : Nat} (hk : k ≤ 32) : w &&& BitVec.ofNat 32 (2 ^ k - 1) = word (w.toNat % 2 ^ k) := by
  have hpow : 2 ^ k ≤ 2 ^ 32 := Nat.pow_le_pow_right (by decide) hk
  have hpos := Nat.two_pow_pos k
  apply BitVec.eq_of_toNat_eq
  rw [BitVec.toNat_and, BitVec.toNat_ofNat, Nat.mod_eq_of_lt (by omega : 2 ^ k - 1 < 2 ^ 32), Nat.and_two_pow_sub_one_eq_mod,
    word, BitVec.toNat_ofNat, Nat.mod_eq_of_lt ((Nat.mod_lt _ hpos).trans_le hpow)]

/-- The low bits of a word, its sign above them, by two shifts. -/
theorem shift_back_eq (w : Word) {k : Nat} (hk : k ≤ 32) :
    (w <<< (32 - k)).sshiftRight (32 - k) = (w.setWidth k).signExtend 32 := by
  refine BitVec.eq_of_getLsbD_eq fun i hi => ?_
  rw [BitVec.getLsbD_sshiftRight, BitVec.getLsbD_signExtend, BitVec.msb_shiftLeft, BitVec.msb_setWidth,
    BitVec.getLsbD_shiftLeft, BitVec.getLsbD_setWidth, BitVec.getMsbD]
  by_cases h : i < k
  · simp [h, hi, show 32 - k + i < 32 by omega]
  · by_cases hz : k = 0
    · subst hz; simp
    · simp [h, hi, show ¬ 32 - k + i < 32 by omega, show 32 - k < 32 by omega]
      simp [show 31 - (32 - k) = k - 1 by omega, show ¬ 32 ≤ i by omega, show 0 < k by omega]

theorem bfeN_eq (p x : Word) : bfeN p x = if bfLen x = 0 then 0 else (p >>> bfPos x) &&& BitVec.ofNat 32 (2 ^ bfWidth x - 1) := by
  rw [bfeN, and_ones_eq _ (bfWidth_le x), BitVec.toNat_ushiftRight, Nat.shiftRight_eq_div_pow]

theorem bfeI_eq (p x : Word) :
    bfeI p x = if bfLen x = 0 then 0 else ((p >>> bfPos x) <<< (32 - bfWidth x)).sshiftRight (32 - bfWidth x) := by
  rw [shift_back_eq _ (bfWidth_le x), BitVec.signExtend, BitVec.toInt_eq_toNat_cond, BitVec.toNat_setWidth,
    BitVec.toNat_ushiftRight, Nat.shiftRight_eq_div_pow, bfeI]
  by_cases hl : bfLen x = 0
  · rw [if_pos hl, if_pos hl]
  · have hpow : 2 ^ bfWidth x = 2 * 2 ^ (bfWidth x - 1) := by
      rw [← Nat.pow_succ', Nat.succ_eq_add_one, Nat.sub_add_cancel (bfWidth_pos hl)]
    rw [if_neg hl, if_neg hl]
    by_cases hneg : 2 ^ (bfWidth x - 1) ≤ p.toNat / 2 ^ bfPos x % 2 ^ bfWidth x
    · rw [if_pos hneg, if_neg (by omega), wordI]
      push_cast
      rfl
    · rw [if_neg hneg, if_pos (by omega), word, BitVec.ofInt_natCast]

theorem bfi_eq (p q x : Word) : bfi p q x =
    let m : Word := if bfLen x = 0 then 0 else BitVec.ofNat 32 (2 ^ bfWidth x - 1) <<< bfPos x
    (p &&& ~~~m) ||| ((q <<< bfPos x) &&& m) := by
  have hm : word ((2 ^ bfWidth x - 1) * 2 ^ bfPos x) = BitVec.ofNat 32 (2 ^ bfWidth x - 1) <<< bfPos x := by
    apply BitVec.eq_of_toNat_eq
    simp [word, BitVec.toNat_shiftLeft, Nat.shiftLeft_eq]
  rw [bfi, hm]

section
variable {s : State} {g : Group} {rule : PfxRule} {a b : VReg} {c : Src} {v : VReg → VReg → VReg → Instr}
  {x : VReg → VReg → XOp → Instr}

/-- A transform-capable instruction of two sources and an addend on known operands. -/
theorem laneXform3_of_ready {e : Nat} (h : LaneReady s g rule a.toNat 1 (b.toNat :: c.vregs ++ [e]) c.sregs)
    (hf : g.formRegs ≤ 16) (t : Group → Xform) (flt : Bool) :
    laneXform s rule a t (some b.toNat) (some c) flt (some e) = .next (s.wroteV g a 1 fun l _ =>
      (t g).value (g.vword b.toNat l) (if flt then g.srcF fp32 1 c l else g.src c l) (g.vword e l)) := by
  have hready : LaneReady s g rule a.toNat 1 (xformReads (some b.toNat) (some c) (some e))
      ((some c).toList.flatMap Src.sregs) := by simpa [xformReads] using h
  rw [laneXform_of_known hready hf]
  simp only [srcOr_some]
  rfl

theorem bfiOp_of_ready (h : LaneReady s g .plain a.toNat 1 (a.toNat :: b.toNat :: c.vregs) c.sregs) :
    bfiOp s a b c = .next (s.wroteV g a 1 fun l _ => bfi (g.vword a.toNat l) (g.vword b.toNat l) (g.src c l)) :=
  laneOp_of_ready h

/-- A move in either form. -/
theorem exec_mov_of_ready (h : LaneReady s g .plain a.toNat 1 c.vregs c.sregs) (hf : g.formRegs ≤ 16) :
    exec (match (generalizing := false) c with
      | .v r => .movB32V a r
      | .x o => .movB32X a o) s = .next (s.wroteV g a 1 fun l _ => g.src c l) := by
  cases c with
  | v r => exact (exec_movB32V a r s).trans (movOp_of_ready h hf)
  | x o => exact (exec_movB32X a o s).trans (movOp_of_ready h hf)

/-- A one-source instruction, by another name `k` of the function that it computes. -/
theorem exec_laneOp1_of_ready_of_eq {i : Instr} {f : Group → Word → Word} {k : Word → Word}
    (h : LaneReady s g rule a.toNat 1 [b.toNat] []) (hi : exec i s = laneOp1 s rule a b f) (hk : ∀ p, f g p = k p) :
    exec i s = .next (s.wroteV g a 1 fun l _ => k (g.vword b.toNat l)) := by
  obtain rfl : f g = k := funext hk
  rw [hi, laneOp1_of_ready h]

/-- A 64-bit instruction on a pair, in either form (R206). -/
theorem exec_pairOp_of_ready {f : Dword → Word → Dword}
    (h : LaneReady s g .plain a.toNat 2 (b.toNat :: (b.toNat + 1) :: c.vregs) c.sregs)
    (hv : ∀ r, exec (v a b r) s = pairOp s a b (.v r) f) (hx : ∀ o, exec (x a b o) s = pairOp s a b (.x o) f) :
    exec (formOf v x a b c) s = .next (s.wroteV g a 2 fun l i =>
      if i = 0 then loWord (f (pairOf (g.vword b.toNat l) (g.vword (b.toNat + 1) l)) (g.src c l))
      else hiWord (f (pairOf (g.vword b.toNat l) (g.vword (b.toNat + 1) l)) (g.src c l))) :=
  (exec_formOf (op := (pairOp s a b · f)) hv hx c).trans (laneOp_of_ready h)

/-- A widening product in either form (R206). -/
theorem exec_wideOp_of_ready {f : Word → Word → Dword} (h : LaneReady s g .plain a.toNat 2 (b.toNat :: c.vregs) c.sregs)
    (hv : ∀ r, exec (v a b r) s = wideOp s a b (.v r) f) (hx : ∀ o, exec (x a b o) s = wideOp s a b (.x o) f) :
    exec (formOf v x a b c) s = .next (s.wroteV g a 2 fun l i =>
      if i = 0 then loWord (f (g.vword b.toNat l) (g.src c l)) else hiWord (f (g.vword b.toNat l) (g.src c l))) :=
  (exec_formOf (op := (wideOp s a b · f)) hv hx c).trans (laneOp_of_ready h)

end

/-- Settles O12: `mad`, `bfi`, `mov`, the one-source instructions, `bfe` and the 64-bit instructions, each completing with
the model's function of its sources, which is the one that R204 to R206 give. -/
theorem bitFieldsAndPairs : Obligations.BitFieldsAndPairs := by
  unfold Obligations.BitFieldsAndPairs
  refine ⟨fun s g a b c hf => ⟨fun h => ?mad, fun h => ?bfi, fun h => exec_mov_of_ready h hf⟩,
    fun s g a b c => ⟨fun h => ?unary, fun h => ?bfe⟩, fun s g a b c => ⟨fun h => ?pair, fun h => ?wide⟩⟩
  case mad => exact (exec_formOf_mad a b c s).trans (laneXform3_of_ready h hf (fun _ => .mad) false)
  case bfi =>
    have hexec := (exec_formOf (op := bfiOp s a b) (exec_bfiB32V a b · s) (exec_bfiB32X a b · s) c).trans (bfiOp_of_ready h)
    simpa only [bfi_eq, bfPos_eq, bfLen_eq, bfWidth_eq] using hexec
  case unary =>
    exact ⟨(exec_laneOp1_of_ready_of_eq h (exec_absI32 a b s) absW_eq_msb :),
      (exec_laneOp1_of_ready_of_eq h (exec_popcB32 a b s) popc_eq_countP :),
      (exec_laneOp1_of_ready_of_eq h (exec_clzB32 a b s) clz_eq_bitVec_clz :),
      (exec_laneOp1_of_ready_of_eq h (exec_brevB32 a b s) brev_eq_reverse :)⟩
  case bfe =>
    have hn := exec_laneOp2_of_ready_of_eq h (exec_bfeN32V a b · s) (exec_bfeN32X a b · s) bfeN_eq
    have hi := exec_laneOp2_of_ready_of_eq h (exec_bfeI32V a b · s) (exec_bfeI32X a b · s) bfeI_eq
    simp only [bfPos_eq, bfLen_eq, bfWidth_eq] at hn hi
    exact ⟨hn, hi⟩
  case pair =>
    exact ⟨(exec_pairOp_of_ready h (exec_addI64V a b · s) (exec_addI64X a b · s) :),
      (exec_pairOp_of_ready h (exec_subI64V a b · s) (exec_subI64X a b · s) :),
      (exec_pairOp_of_ready h (exec_shlB64V a b · s) (exec_shlB64X a b · s) :),
      (exec_pairOp_of_ready h (exec_shrN64V a b · s) (exec_shrN64X a b · s) :),
      (exec_pairOp_of_ready h (exec_sraI64V a b · s) (exec_sraI64X a b · s) :)⟩
  case wide =>
    exact ⟨(exec_wideOp_of_ready h (exec_mulWideI32V a b · s) (exec_mulWideI32X a b · s) :),
      (exec_wideOp_of_ready h (exec_mulWideN32V a b · s) (exec_mulWideN32X a b · s) :)⟩

end Sys2Proof.Machine

namespace Sys2Proof.Machine

/-! O15: compares (R207) and selection (R208). -/

/-- The mask that a compare leaves (R207). -/
def compareMask (s : State) (g : Group) (a : Nat) (f : Nat → Bool) : Word :=
  (g.mreg a &&& ~~~(if zeroing s then s.iss.lanes else execMask s g)) ||| maskOf ((lanesOf (execMask s g)).filter f)

theorem compareInto_eq_setM (s : State) (g : Group) (a : Nat) (f : Nat → Bool) :
    compareInto s g a f = g.setM a (compareMask s g a f) := rfl

/-- A bit of the mask: the relation in an executing lane, 0 in a masked-off one under ZERO, and its old value elsewhere. -/
theorem bit_compareMask (s : State) (g : Group) (a : Nat) (f : Nat → Bool) {l : Nat} (hl : l < 32) :
    bit (compareMask s g a f) l = if bit (execMask s g) l then f l
      else if zeroing s ∧ bit s.iss.lanes l then false else bit (g.mreg a) l := by
  have hor : ∀ p q : Word, bit (p ||| q) l = (bit p l || bit q l) := fun p q => by simp [bit_eq]
  rw [compareMask, hor, bit_and_not _ _ hl, bit_maskOf _ hl]
  simp only [List.mem_filter, mem_lanesOf_iff]
  by_cases hex : bit (execMask s g) l = true
  · have hlanes := bit_lanes_of_execMask hex
    cases hz : zeroing s <;> simp [hex, hlanes]
  · cases hz : zeroing s <;> simp [hex, Bool.and_comm]

section
variable {s : State} {g : Group} {a : MReg} {b : VReg} {c : Src} {v : MReg → VReg → VReg → Instr}
  {x : MReg → VReg → XOp → Instr}

/-- A compare's V form and X form that are one operation on their second source are that operation. -/
theorem exec_compareOf {op : Src → Out} (hv : ∀ r, exec (v a b r) s = op (.v r)) (hx : ∀ o, exec (x a b o) s = op (.x o))
    (c : Src) : exec (compareOf v x a b c) s = op c := by
  cases c with
  | v r => exact hv r
  | x o => exact hx o

variable (h : Issues s g { rule := .plain, v := b.toNat :: c.vregs, vr := b.toNat :: c.vregs, sr := c.sregs })
  (hk : Known g (b.toNat :: c.vregs) (lanesOf (execMask s g)))
include h hk

theorem cmpOp_of_known (f : Word → Word → Bool) : cmpOp s a b c f
    = .next (s.after (g.setM a.toNat (compareMask s g a.toNat fun l => f (g.vword b.toNat l) (g.src c l)))) := by
  rw [cmpOp, begin_of_issues h, blocking_of_known hk, complete_eq, compareInto_eq_setM]

theorem fcmpOp_of_known (k : Nat) : fcmpOp s a b c k
    = .next (s.after (g.setM a.toNat (compareMask s g a.toNat fun l => fcmp k (g.vword b.toNat l) (g.srcF fp32 1 c l)))) := by
  rw [fcmpOp, begin_of_issues h, blocking_of_known hk, complete_eq, compareInto_eq_setM]

/-- A compare in either form sets its relation. -/
theorem exec_cmp_sets {f : Word → Word → Bool} (hv : ∀ r, exec (v a b r) s = cmpOp s a b (.v r) f)
    (hx : ∀ o, exec (x a b o) s = cmpOp s a b (.x o) f) :
    ∃ w, exec (compareOf v x a b c) s = .next (s.after (g.setM a.toNat w))
      ∧ ∀ l, l < 32 → bit w l = if bit (execMask s g) l then f (g.vword b.toNat l) (g.src c l)
          else if zeroing s ∧ bit s.iss.lanes l then false else bit (g.mreg a.toNat) l :=
  ⟨_, (exec_compareOf (op := (cmpOp s a b · f)) hv hx c).trans (cmpOp_of_known h hk f), fun _ => bit_compareMask s g _ _⟩

/-- A floating compare in either form sets its relation, here by another name `rel`. -/
theorem exec_fcmp_sets {k : Nat} {rel : Word → Word → Bool} (hv : ∀ r, exec (v a b r) s = fcmpOp s a b (.v r) k)
    (hx : ∀ o, exec (x a b o) s = fcmpOp s a b (.x o) k)
    (hrel : ∀ p q : Word, fcmp k p q = rel p q) :
    ∃ w, exec (compareOf v x a b c) s = .next (s.after (g.setM a.toNat w))
      ∧ ∀ l, l < 32 → bit w l = if bit (execMask s g) l then rel (g.vword b.toNat l) (g.srcF fp32 1 c l)
          else if zeroing s ∧ bit s.iss.lanes l then false else bit (g.mreg a.toNat) l := by
  refine ⟨_, (exec_compareOf (op := (fcmpOp s a b · k)) hv hx c).trans (fcmpOp_of_known h hk k), fun l hl => ?_⟩
  rw [bit_compareMask s g _ _ hl, hrel]

end

section
variable (p q : Word)

theorem fcmp_eq : fcmp 10 p q = (!(fp32.decode p.toNat).isNan && !(fp32.decode q.toNat).isNan
    && (fp32.decode p.toNat).eq (fp32.decode q.toNat)) := by simp [fcmp]
theorem fcmp_lt : fcmp 11 p q = (!(fp32.decode p.toNat).isNan && !(fp32.decode q.toNat).isNan
    && (fp32.decode p.toNat).lt (fp32.decode q.toNat)) := by simp [fcmp]
theorem fcmp_le : fcmp 12 p q = (!(fp32.decode p.toNat).isNan && !(fp32.decode q.toNat).isNan
    && ((fp32.decode p.toNat).lt (fp32.decode q.toNat) || (fp32.decode p.toNat).eq (fp32.decode q.toNat))) := by simp [fcmp]
theorem fcmp_ne : fcmp 13 p q = ((fp32.decode p.toNat).isNan || (fp32.decode q.toNat).isNan
    || !(fp32.decode p.toNat).eq (fp32.decode q.toNat)) := by simp [fcmp]
theorem fcmp_un : fcmp 14 p q = ((fp32.decode p.toNat).isNan || (fp32.decode q.toNat).isNan) := by simp [fcmp]

end

/-- Settles O15: a compare leaves the mask of its relation bit by bit, and `sel` is a lane instruction of two sources. -/
theorem comparesAndSelects : Obligations.ComparesAndSelects := by
  unfold Obligations.ComparesAndSelects
  refine ⟨fun s g a b c h hk => ?compare, fun s g a b k c h => ?select⟩
  case compare =>
    exact ⟨(exec_cmp_sets h hk (exec_cmpEqB32V a b · s) (exec_cmpEqB32X a b · s) :),
      (exec_cmp_sets h hk (exec_cmpNeB32V a b · s) (exec_cmpNeB32X a b · s) :),
      (exec_cmp_sets h hk (exec_cmpLtI32V a b · s) (exec_cmpLtI32X a b · s) :),
      (exec_cmp_sets h hk (exec_cmpLeI32V a b · s) (exec_cmpLeI32X a b · s) :),
      (exec_cmp_sets h hk (exec_cmpGtI32V a b · s) (exec_cmpGtI32X a b · s) :),
      (exec_cmp_sets h hk (exec_cmpGeI32V a b · s) (exec_cmpGeI32X a b · s) :),
      (exec_cmp_sets h hk (exec_cmpLtN32V a b · s) (exec_cmpLtN32X a b · s) :),
      (exec_cmp_sets h hk (exec_cmpLeN32V a b · s) (exec_cmpLeN32X a b · s) :),
      (exec_cmp_sets h hk (exec_cmpGtN32V a b · s) (exec_cmpGtN32X a b · s) :),
      (exec_cmp_sets h hk (exec_cmpGeN32V a b · s) (exec_cmpGeN32X a b · s) :),
      (exec_fcmp_sets h hk (exec_fcmpEqF32V a b · s) (exec_fcmpEqF32X a b · s) fcmp_eq :),
      (exec_fcmp_sets h hk (exec_fcmpLtF32V a b · s) (exec_fcmpLtF32X a b · s) fcmp_lt :),
      (exec_fcmp_sets h hk (exec_fcmpLeF32V a b · s) (exec_fcmpLeF32X a b · s) fcmp_le :),
      (exec_fcmp_sets h hk (exec_fcmpNeF32V a b · s) (exec_fcmpNeF32X a b · s) fcmp_ne :),
      (exec_fcmp_sets h hk (exec_fcmpUnF32V a b · s) (exec_fcmpUnF32X a b · s) fcmp_un :)⟩
  case select =>
    cases c with
    | v r => exact (exec_selV a k b r s).trans (laneOp_of_ready h)
    | x o => exact (exec_selX a k b o s).trans (laneOp_of_ready h)

/-! O16: floating arithmetic (R209, R210). -/

/-- Settles O16: each instruction, in either form, completes with one rounding of its exact result; `fmin` and `fmax` with the
operand that they choose. -/
theorem floatingArithmetic : Obligations.FloatingArithmetic := by
  unfold Obligations.FloatingArithmetic
  intro s g a b c hf m z val p x done
  refine ⟨fun h => ?arith, fun h => ?fused, fun h => ?minMax⟩
  case arith =>
    have hxf := @floatXform_of_ready s g a b c h hf
    exact ⟨(exec_formOf_fadd a b c s).trans (hxf .fadd), (exec_formOf_fsub a b c s).trans (hxf .fsub),
      (exec_formOf_fmul a b c s).trans (hxf .fmul)⟩
  case fused =>
    exact (exec_formOf_ffma a b c s).trans (laneXform3_of_ready h hf (fun g => .ffma (modeOf s g) (ftzOf s)) true)
  case minMax =>
    exact ⟨(exec_formOf (op := minMaxOp s false a b) (exec_fminF32V a b · s) (exec_fminF32X a b · s) c).trans
        (minMaxOp_of_ready h false),
      (exec_formOf (op := minMaxOp s true a b) (exec_fmaxF32V a b · s) (exec_fmaxF32X a b · s) c).trans
        (minMaxOp_of_ready h true)⟩

/-! O18: classes of FP32 patterns (R212). -/

section
variable (w : Word)

/-- The fields of an FP32 pattern, by its magnitude. -/
theorem fld_exponent : fld w 23 8 = w.toNat % 2 ^ 31 / 2 ^ 23 := by unfold fld; omega
theorem fld_fraction : fld w 0 23 = w.toNat % 2 ^ 31 % 2 ^ 23 := by unfold fld; omega
theorem bit_sign : bit w 31 = decide (¬ w.toNat < 2 ^ 31) := by
  have := w.isLt
  rw [bit, Bool.eq_iff_iff, beq_iff_eq, decide_eq_true_eq]
  omega
theorem bit_quiet : bit w 22 = decide (2 ^ 22 ≤ w.toNat % 2 ^ 31 % 2 ^ 23) := by
  rw [bit, Bool.eq_iff_iff, beq_iff_eq, decide_eq_true_eq]
  omega

theorem fclass_infinity (hm : w.toNat % 2 ^ 31 = 0x7F800000) : fclass w = if w.toNat < 2 ^ 31 then 0x80 else 1 := by
  have he : fld w 23 8 = 255 := by rw [fld_exponent]; omega
  have hf : fld w 0 23 = 0 := by rw [fld_fraction]; omega
  simp only [fclass, he, hf, bit_sign, decide_eq_true_eq, ite_not, reduceIte]
  split_ifs <;> rfl

theorem fclass_zero (hm : w.toNat % 2 ^ 31 = 0) : fclass w = if w.toNat < 2 ^ 31 then 0x10 else 8 := by
  have he : fld w 23 8 = 0 := by rw [fld_exponent]; omega
  have hf : fld w 0 23 = 0 := by rw [fld_fraction]; omega
  simp only [fclass, he, hf, bit_sign, decide_eq_true_eq, ite_not, reduceIte, OfNat.zero_ne_ofNat]
  split_ifs <;> rfl

theorem fclass_subnormal (h0 : 0 < w.toNat % 2 ^ 31) (hm : w.toNat % 2 ^ 31 < 2 ^ 23) :
    fclass w = if w.toNat < 2 ^ 31 then 0x20 else 4 := by
  have he : fld w 23 8 = 0 := by rw [fld_exponent, Nat.div_eq_of_lt hm]
  have hf : fld w 0 23 ≠ 0 := by rw [fld_fraction, Nat.mod_eq_of_lt hm]; exact h0.ne'
  simp only [fclass, he, hf, bit_sign, decide_eq_true_eq, ite_not, reduceIte, OfNat.zero_ne_ofNat]
  split_ifs <;> rfl

theorem fclass_normal (h0 : 2 ^ 23 ≤ w.toNat % 2 ^ 31) (hm : w.toNat % 2 ^ 31 < 0x7F800000) :
    fclass w = if w.toNat < 2 ^ 31 then 0x40 else 2 := by
  have hlo : fld w 23 8 ≠ 0 := by rw [fld_exponent]; omega
  have hhi : fld w 23 8 ≠ 255 := by rw [fld_exponent]; omega
  simp only [fclass, hlo, hhi, bit_sign, decide_eq_true_eq, ite_not, reduceIte]
  split_ifs <;> rfl

theorem fclass_nan (hm : 0x7F800000 < w.toNat % 2 ^ 31) :
    fclass w = if 0x7FC00000 ≤ w.toNat % 2 ^ 31 then 0x200 else 0x100 := by
  have he : fld w 23 8 = 255 := by rw [fld_exponent]; omega
  have hf : fld w 0 23 ≠ 0 := by rw [fld_fraction]; omega
  have hquiet : 2 ^ 22 ≤ w.toNat % 2 ^ 31 % 2 ^ 23 ↔ 0x7FC00000 ≤ w.toNat % 2 ^ 31 := by omega
  simp only [fclass, he, hf, bit_quiet, hquiet, decide_eq_true_eq, reduceIte]
  split_ifs <;> rfl

end

/-- Settles O18: `fclass` writes the class bit of its operand, case by case of the operand's magnitude. -/
theorem fclassSetsOneBit : Obligations.FclassSetsOneBit := by
  unfold Obligations.FclassSetsOneBit
  intro s g a b h p
  exact ⟨fun l => fclass (p l), (exec_fclassF32 a b s).trans (laneOp1_of_ready h _), fun l =>
    ⟨fclass_infinity _, fclass_zero _, fclass_subnormal _, fclass_normal _, fclass_nan _⟩⟩

end Sys2Proof.Machine

namespace Sys2Proof.Machine

/-! O21: packed halves, dot products and blocks (R216 to R219). -/

section
variable {s : State} {g : Group} {a b : VReg} {c : Src}

theorem packedOp_of_ready (h : LaneReady s g .round a.toNat 1 (b.toNat :: c.vregs) c.sregs) (f : Fmt) (op : Nat) :
    packedOp s f op a b c = .next (s.wroteV g a 1 fun l _ =>
      halves (f.arith op (modeOf s g) (ftzOf s)) (g.vword b.toNat l) (g.srcF f 2 c l)) :=
  laneOp_of_ready h

theorem packedMinMax_of_ready (h : LaneReady s g .plain a.toNat 1 (b.toNat :: c.vregs) c.sregs) (f : Fmt) (isMax : Bool) :
    packedMinMax s f isMax a b c = .next (s.wroteV g a 1 fun l _ =>
      halves (f.minMax isMax) (g.vword b.toNat l) (g.srcF f 2 c l)) :=
  laneOp_of_ready h

theorem pfmaOp_of_ready (h : LaneReady s g .roundD a.toNat 1 (b.toNat :: (fourth s).getD a.toNat :: c.vregs) c.sregs) (f : Fmt) :
    pfmaOp s f a b c = .next (s.wroteV g a 1 fun l _ =>
      let half (i : Nat) : Nat := f.fma (modeOf s g) (ftzOf s) (fld (g.vword b.toNat l) i 16) (fld (g.srcF f 2 c l) i 16)
        (fld (g.vword ((fourth s).getD a.toNat) l) i 16)
      word (half 0 + 2 ^ 16 * half 16)) :=
  laneOp_of_ready h

theorem fdot4Op_of_ready (h : LaneReady s g .roundD a.toNat 1 (b.toNat :: (fourth s).getD a.toNat :: c.vregs) c.sregs)
    (f : Fmt) :
    fdot4Op s f a b c = .next (s.wroteV g a 1 fun l _ =>
      fdot4 f (modeOf s g) (ftzOf s) (g.vword b.toNat l) (g.srcF f 4 c l) (g.vword ((fourth s).getD a.toNat) l)) :=
  laneOp_of_ready h

end

section
variable {s : State} {g : Group} {a b : VReg} {c : SReg}

/-- The block that `tbpack` makes of a register's 32 lane slots (R218). -/
def packedBlock (s : State) (g : Group) (b : VReg) (tb8 sat : Bool) : TbBlock :=
  tbPack tb8 sat ((List.range 32).map fun l =>
    if bit (execMask s g) l then fp32.decode (g.vword b.toNat l).toNat else .fin false 0 1)

theorem tbpackOp_of_known (h : Issues s g { rule := .plain, v := [a.toNat, b.toNat], vr := [b.toNat] })
    (hk : Known g [b.toNat] (List.range 32)) (tb8 sat : Bool) :
    tbpackOp s tb8 sat a b c
      = .next (s.wroteS (writeLanes s g a.toNat 1 fun l _ => word ((packedBlock s g b tb8 sat).els.getD l 0)) c
          (if execMask s g = 0 then 0 else word ((packedBlock s g b tb8 sat).e0 + 256 * (packedBlock s g b tb8 sat).e1))) := by
  rw [tbpackOp, begin_of_issues h, blocking_of_known hk]
  rfl

theorem tbunpOp_of_ready (h : LaneReady s g .plain a.toNat 1 [b.toNat] [c.toNat]) (tb8 : Bool) :
    tbunpOp s tb8 a b c = .next (s.wroteV g a 1 fun l _ => word (fp32.write rne false false
      (tbDecode tb8 (fld (g.sreg c.toNat) 0 8) (fld (g.sreg c.toNat) 8 8) (fld (g.vword b.toNat l) 0 (tbBits tb8))))) :=
  laneOp_of_ready h

theorem fld_zero (w : Word) (n : Nat) : fld w 0 n = w.toNat % 2 ^ n := by rw [fld, Nat.pow_zero, Nat.div_one]

theorem two_pow_tbBits (tb8 : Bool) : 2 ^ tbBits tb8 = if tb8 then 256 else 16 := by cases tb8 <;> rfl

end

/-- Settles O21: the packed and dot instructions as lane instructions of their two or three sources, `tbpack` as the packing
of the 32 lane slots, and `tbunp` as the decoding of each element. -/
theorem packedAndBlock : Obligations.PackedAndBlock := by
  unfold Obligations.PackedAndBlock
  refine ⟨fun s g a b c => ⟨fun h => ?arith, fun h => ?fused, fun h => ?minMax⟩,
    fun s g a b c tb8 sat => ⟨fun h hk => ?pack, fun h => ?unpack⟩⟩
  case arith =>
    have hop := packedOp_of_ready h
    exact ⟨(exec_formOf (op := packedOp s fp16 0 a b) (exec_paddF16V a b · s) (exec_paddF16X a b · s) c).trans (hop fp16 0),
      (exec_formOf (op := packedOp s fp16 1 a b) (exec_psubF16V a b · s) (exec_psubF16X a b · s) c).trans (hop fp16 1),
      (exec_formOf (op := packedOp s fp16 2 a b) (exec_pmulF16V a b · s) (exec_pmulF16X a b · s) c).trans (hop fp16 2),
      (exec_formOf (op := packedOp s bf16 0 a b) (exec_paddBf16V a b · s) (exec_paddBf16X a b · s) c).trans (hop bf16 0),
      (exec_formOf (op := packedOp s bf16 1 a b) (exec_psubBf16V a b · s) (exec_psubBf16X a b · s) c).trans (hop bf16 1),
      (exec_formOf (op := packedOp s bf16 2 a b) (exec_pmulBf16V a b · s) (exec_pmulBf16X a b · s) c).trans (hop bf16 2)⟩
  case fused =>
    have hfma := pfmaOp_of_ready h
    have hdot := fdot4Op_of_ready h
    exact ⟨(exec_formOf (op := pfmaOp s fp16 a b) (exec_pfmaF16V a b · s) (exec_pfmaF16X a b · s) c).trans (hfma fp16),
      (exec_formOf (op := pfmaOp s bf16 a b) (exec_pfmaBf16V a b · s) (exec_pfmaBf16X a b · s) c).trans (hfma bf16),
      (exec_formOf (op := fdot4Op s e4m3 a b) (exec_fdot4E4m3V a b · s) (exec_fdot4E4m3X a b · s) c).trans (hdot e4m3),
      (exec_formOf (op := fdot4Op s e5m2 a b) (exec_fdot4E5m2V a b · s) (exec_fdot4E5m2X a b · s) c).trans (hdot e5m2)⟩
  case minMax =>
    have hop := packedMinMax_of_ready h
    exact ⟨(exec_formOf (op := packedMinMax s fp16 false a b) (exec_pminF16V a b · s) (exec_pminF16X a b · s) c).trans
        (hop fp16 false),
      (exec_formOf (op := packedMinMax s fp16 true a b) (exec_pmaxF16V a b · s) (exec_pmaxF16X a b · s) c).trans
        (hop fp16 true),
      (exec_formOf (op := packedMinMax s bf16 false a b) (exec_pminBf16V a b · s) (exec_pminBf16X a b · s) c).trans
        (hop bf16 false),
      (exec_formOf (op := packedMinMax s bf16 true a b) (exec_pmaxBf16V a b · s) (exec_pmaxBf16X a b · s) c).trans
        (hop bf16 true)⟩
  case pack =>
    have hop := tbpackOp_of_known (c := c) h hk tb8 sat
    cases tb8 with
    | true =>
      cases sat with
      | true => exact (exec_tbpackSatTb8 a b c s).trans hop
      | false => exact (exec_tbpackTb8 a b c s).trans hop
    | false =>
      cases sat with
      | true => exact (exec_tbpackSatTb4 a b c s).trans hop
      | false => exact (exec_tbpackTb4 a b c s).trans hop
  case unpack =>
    have hop := tbunpOp_of_ready h tb8
    simp only [fld_zero, two_pow_tbBits] at hop
    cases tb8 with
    | true => exact (exec_tbunpTb8 a b c s).trans hop
    | false => exact (exec_tbunpTb4 a b c s).trans hop

/-! O22: cross-lane instructions (R220 to R224). -/

section
variable (s : State) (g : Group)

theorem crossRead_eq (b j : Nat) : g.crossRead s b j
    = if (zeroing s ∧ bit (execMask s g) j = false) ∨ (g.lane j).st = .never then 0 else g.vword b j := by
  simp only [Group.crossRead, Bool.and_eq_true, Bool.not_eq_true', beq_iff_eq, ite_or]

/-- The executing lanes of a lane's tile, in ascending order (R222 to R224). -/
theorem tileLanes_eq (m : Word) (l : Nat) : ((lanesOf m).filter fun j => g.tileBase j == g.tileBase l)
    = (List.range 32).filter fun j => bit m j && j / g.tile * g.tile == l / g.tile * g.tile := by
  rw [lanesOf, List.filter_filter]
  simp only [Group.tileBase, Bool.and_comm]

end

section
variable {s : State} {g : Group} {rule : PfxRule} {a b : VReg} {c : Src}

theorem xlaneOp_of_known
    (h : Issues s g { rule := .plain, v := a.toNat :: b.toNat :: c.vregs, vr := b.toNat :: c.vregs, sr := c.sregs })
    (hb : Known g [b.toNat] (crossLanes s g)) (hc : Known g c.vregs (lanesOf (execMask s g))) (mode : Nat) :
    xlaneOp s mode a b c = .next (s.wroteV g a 1 fun l _ =>
      g.crossRead s b.toNat (g.xlaneFrom mode l (fld (g.src c l) 0 5))) := by
  rw [xlaneOp, begin_of_issues h, blockingTwo_of_known hb hc, complete_eq]
  rfl

theorem tileOp_of_known (h : Issues s g { rule := rule, v := [a.toNat, b.toNat], vr := [b.toNat] })
    (hk : Known g [b.toNat] (crossLanes s g)) (f : Group → List Nat → Nat → Word) :
    tileOp s rule a b f = .next (s.wroteV g a 1 fun l _ => f g ((List.range 32).filter fun j =>
      bit (execMask s g) j && j / g.tile * g.tile == l / g.tile * g.tile) l) := by
  rw [tileOp, begin_of_issues h, blocking_of_known hk, complete_eq]
  simp only [tileLanes_eq]
  rfl

end

/-- Settles O22: `xlane` by the lane that each mode reads; the others by their function of the executing lanes of the tile. -/
theorem crossLane : Obligations.CrossLane := by
  unfold Obligations.CrossLane
  refine ⟨fun s g a b c h hb hc => ?xlane, fun s g a b rnd h hk => ?tile⟩
  case xlane =>
    have hop := xlaneOp_of_known h hb hc
    simp only [crossRead_eq, fld_zero] at hop
    exact ⟨(exec_formOf (op := xlaneOp s 0 a b) (exec_xlaneGetV a b · s) (exec_xlaneGetX a b · s) c).trans (hop 0),
      (exec_formOf (op := xlaneOp s 1 a b) (exec_xlaneBackV a b · s) (exec_xlaneBackX a b · s) c).trans (hop 1),
      (exec_formOf (op := xlaneOp s 2 a b) (exec_xlaneFwdV a b · s) (exec_xlaneFwdX a b · s) c).trans (hop 2),
      (exec_formOf (op := xlaneOp s 3 a b) (exec_xlaneMixV a b · s) (exec_xlaneMixX a b · s) c).trans (hop 3)⟩
  case tile =>
    intro js p done sum src through
    have hop := tileOp_of_known h hk
    refine ⟨?plain, ?rounded⟩
    case plain =>
      rintro rfl
      have hsome := (exec_pollSome a b s).trans (hop _)
      have hevery := (exec_pollEvery a b s).trans (hop _)
      simp only [List.any_eq_true, List.all_eq_true, bne_iff_ne] at hsome hevery
      have hmin := (exec_foldMinI32 a b s).trans (hop _)
      have hmax := (exec_foldMaxI32 a b s).trans (hop _)
      simp only [sx, ← BitVec.slt_iff_toInt_lt] at hmin hmax
      exact ⟨hsome, hevery, ((exec_pollBits a b s).trans (hop _) :), ((exec_foldAddI32 a b s).trans (hop _) :), hmin, hmax,
        ((exec_prefixAddI32 a b s).trans (hop _) :), ((exec_sameB32 a b s).trans (hop _) :),
        ((exec_sameF32 a b s).trans (hop _) :)⟩
    case rounded =>
      rintro rfl
      exact ⟨((exec_foldAddF32 a b s).trans (hop _) :), ((exec_prefixAddF32 a b s).trans (hop _) :)⟩

end Sys2Proof.Machine

namespace Sys2Proof.Machine

/-! O19, O20: FP32 patterns as numbers (R62). The magnitude of a finite pattern is a whole multiple of 2^−149. -/

/-- The magnitude of a pattern below the sign bit, in units of 2^−149. -/
def patNat (p : Nat) : Nat := if p < 2 ^ 23 then p else (2 ^ 23 + p % 2 ^ 23) * 2 ^ (p / 2 ^ 23 - 1)

/-- A significand at an exponent, a significand of 2^24 being the least one at the next. -/
theorem patNat_add {m k : Nat} (hm : m ≤ 2 ^ 24) (hk : k = 0 ∨ 2 ^ 23 ≤ m) : patNat (m + k * 2 ^ 23) = m * 2 ^ k := by
  unfold patNat
  rcases hm.eq_or_lt with rfl | hlt
  · rw [if_neg (by omega), show (2 ^ 24 + k * 2 ^ 23) % 2 ^ 23 = 0 by omega,
      show (2 ^ 24 + k * 2 ^ 23) / 2 ^ 23 - 1 = k + 1 by omega, pow_succ]
    omega
  · by_cases hp : m + k * 2 ^ 23 < 2 ^ 23
    · obtain rfl : k = 0 := by omega
      rw [if_pos hp, pow_zero]
      omega
    · rw [if_neg hp, show 2 ^ 23 + (m + k * 2 ^ 23) % 2 ^ 23 = m by omega, show (m + k * 2 ^ 23) / 2 ^ 23 - 1 = k by omega]

/-- The step from one pattern to the next. -/
theorem patNat_succ (p : Nat) : patNat (p + 1) = patNat p + 2 ^ (p / 2 ^ 23 - 1) := by
  by_cases hp : p < 2 ^ 23
  · have h0 := patNat_add (m := p + 1) (k := 0) (by omega) (.inl rfl)
    have h1 := patNat_add (m := p) (k := 0) (by omega) (.inl rfl)
    rw [zero_mul, add_zero, pow_zero, mul_one] at h0 h1
    rw [h0, h1, Nat.div_eq_of_lt hp, pow_zero]
  · obtain ⟨k, m, hm, rfl⟩ : ∃ k m, (2 ^ 23 ≤ m ∧ m < 2 ^ 24) ∧ p = m + k * 2 ^ 23 :=
      ⟨p / 2 ^ 23 - 1, p % 2 ^ 23 + 2 ^ 23, by omega, by omega⟩
    rw [show m + k * 2 ^ 23 + 1 = (m + 1) + k * 2 ^ 23 by ring, patNat_add (by omega) (by omega), patNat_add (by omega) (by omega),
      show (m + k * 2 ^ 23) / 2 ^ 23 - 1 = k by omega, add_mul, one_mul]

theorem patNat_strictMono : StrictMono patNat :=
  strictMono_nat_of_lt_succ fun p => by rw [patNat_succ]; exact Nat.lt_add_of_pos_right (Nat.two_pow_pos _)

theorem patNat_zero : patNat 0 = 0 := rfl

/-- Infinity's pattern, read as a magnitude, is the least beyond the finite ones. -/
theorem patNat_infinity : patNat 0x7F800000 = 2 ^ 277 := by
  rw [show 0x7F800000 = 2 ^ 23 + 254 * 2 ^ 23 by norm_num, patNat_add (by omega) (by omega), ← pow_add]

theorem patNat_lt_of_finite {p : Nat} (hp : p < 0x7F800000) : patNat p < 2 ^ 277 :=
  patNat_infinity ▸ patNat_strictMono hp

/-- The value of a datum, 0 where it has none. -/
noncomputable def Fl.real : Fl → ℝ
  | .fin _ n d => n / d
  | _ => 0

/-- The value of an FP32 pattern. -/
noncomputable def fpReal (w : Nat) : ℝ := (fp32.decode w).real

/-- The numerator of a value of sign `neg` and magnitude `m`. -/
def signed (neg : Bool) (m : Nat) : Int := if neg then -(m : Int) else m

theorem signed_mul (neg : Bool) (m k : Nat) : signed neg m * k = signed neg (m * k) := by
  cases neg <;> simp [signed]

/-- A signed value over a denominator. -/
theorem signed_div (neg : Bool) (m d : Nat) : (signed neg m : ℝ) / d = (if neg then -1 else 1) * (m / d) := by
  cases neg <;> simp [signed, neg_div]

@[simp] theorem natAbs_signed (neg : Bool) (m : Nat) : (signed neg m).natAbs = m := by
  cases neg <;> simp [signed]

@[simp] theorem signed_eq_zero (neg : Bool) (m : Nat) : signed neg m = 0 ↔ m = 0 := by
  cases neg <;> simp [signed]

/-- The sign bit of a pattern. -/
def negative (w : Nat) : Bool := w / 2 ^ 31 % 2 == 1

/-- A scaled magnitude at an exponent of FP32, as a fraction. -/
theorem scaled_eq (neg : Bool) (m : Nat) {e : Nat} (he : 1 ≤ e) : ∃ n d : Nat,
    scaled neg m e 150 = .fin neg (signed neg n) d ∧ 0 < d ∧ d ≤ 2 ^ 149 ∧ n * 2 ^ 149 = m * 2 ^ (e - 1) * d := by
  by_cases h : 150 ≤ e
  · refine ⟨m * 2 ^ (e - 150), 1, ?_, by omega, Nat.one_le_two_pow, ?_⟩
    · rw [scaled, if_pos h, ← signed, ← signed_mul]
      push_cast
      rfl
    · rw [mul_one, mul_assoc, ← pow_add]
      congr 2
      omega
  · refine ⟨m, 2 ^ (150 - e), ?_, Nat.two_pow_pos _, Nat.pow_le_pow_right (by decide) (by omega), ?_⟩
    · rw [scaled, if_neg h, ← signed]
    · rw [mul_assoc, ← pow_add]
      congr 2
      omega

/-- The datum of a finite pattern, as a fraction. -/
theorem decode_finite {w : Nat} (hw : w % 2 ^ 31 < 0x7F800000) :
    ∃ m d : Nat, fp32.decode w = .fin (negative w) (signed (negative w) m) d
      ∧ 0 < d ∧ d ≤ 2 ^ 149 ∧ m * 2 ^ 149 = patNat (w % 2 ^ 31) * d := by
  have hsign : fp32.sign = 2 ^ 31 := rfl
  have hmax : fp32.maxPat = 0x7F7FFFFF := rfl
  have hfw : fp32.fw = 23 := rfl
  have hbias : fp32.bias = 127 := rfl
  simp only [Fmt.decode, hsign, hmax, hfw, hbias]
  rw [if_neg (by omega)]
  by_cases he : w % 2 ^ 31 / 2 ^ 23 = 0
  · obtain ⟨m, d, heq, hd, hle, hm⟩ := scaled_eq (negative w) (w % 2 ^ 31 % 2 ^ 23) le_rfl
    refine ⟨m, d, by rw [if_pos he]; exact heq, hd, hle, ?_⟩
    rw [hm, patNat, if_pos (by omega), show w % 2 ^ 31 % 2 ^ 23 = w % 2 ^ 31 by omega, Nat.sub_self, pow_zero, mul_one]
  · obtain ⟨m, d, heq, hd, hle, hm⟩ := scaled_eq (negative w) (2 ^ 23 + w % 2 ^ 31 % 2 ^ 23)
      (e := w % 2 ^ 31 / 2 ^ 23) (by omega)
    refine ⟨m, d, by rw [if_neg he]; exact heq, hd, hle, ?_⟩
    rw [hm, patNat, if_neg (by omega)]

/-- The value of a finite pattern, by its sign and magnitude. -/
theorem fpReal_finite {w : Nat} (hw : w % 2 ^ 31 < 0x7F800000) :
    fpReal w = (if negative w then -1 else 1) * (patNat (w % 2 ^ 31) / 2 ^ 149) := by
  obtain ⟨m, d, heq, hd, -, hm⟩ := decode_finite hw
  rw [fpReal, heq, Fl.real, signed_div]
  congr 1
  rw [div_eq_div_iff (by positivity) (by positivity)]
  exact_mod_cast hm

/-- The value of a finite pattern without a sign. -/
theorem fpReal_pos {p : Nat} (hp : p < 0x7F800000) : fpReal p = patNat p / 2 ^ 149 := by
  have hmod : p % 2 ^ 31 = p := Nat.mod_eq_of_lt (by omega)
  have hneg : negative p = false := by simp only [negative, beq_eq_false_iff_ne]; omega
  rw [fpReal_finite (by omega), hmod, hneg, if_neg (by decide), one_mul]

/-- Only finite patterns are fractions. -/
theorem finite_of_decode {w : Nat} {neg : Bool} {n : Int} {d : Nat} (h : fp32.decode w = .fin neg n d) :
    w % 2 ^ 31 < 0x7F800000 := by
  by_contra hw
  have hsign : fp32.sign = 2 ^ 31 := rfl
  have hmax : fp32.maxPat = 0x7F7FFFFF := rfl
  simp only [Fmt.decode, hsign, hmax] at h
  rw [if_pos (by omega)] at h
  split at h <;> cases h

/-! The exponent of a fraction (R66). -/

section
variable {n d : Nat}

/-- Between which powers of two a fraction lies; the logarithm is offset by 2^14. -/
theorem floorLog_spec (hn : 0 < n) (hd : 0 < d) (hsize : d.log2 < 2 ^ 14) :
    d * 2 ^ floorLog n d ≤ n * 2 ^ (2 ^ 14) ∧ n * 2 ^ (2 ^ 14) < d * 2 ^ (floorLog n d + 1) := by
  have hn1 := Nat.log2_self_le hn.ne'
  have hn2 := Nat.lt_log2_self (n := n)
  have hd1 := Nat.log2_self_le hd.ne'
  have hd2 := Nat.lt_log2_self (n := d)
  unfold floorLog
  generalize (2 ^ 14 : Nat) = off at hsize
  generalize n.log2 = a at *
  generalize d.log2 = b at *
  obtain ⟨l, hl⟩ : ∃ l, off + a - b = l + 1 := ⟨off + a - b - 1, by omega⟩
  simp only [hl, Nat.add_sub_cancel]
  have hlow : d * 2 ^ l ≤ n * 2 ^ off := by
    calc d * 2 ^ l ≤ 2 ^ (b + 1) * 2 ^ l := Nat.mul_le_mul_right _ hd2.le
      _ = 2 ^ a * 2 ^ off := by rw [← pow_add, ← pow_add]; congr 1; omega
      _ ≤ n * 2 ^ off := Nat.mul_le_mul_right _ hn1
  have hhigh : n * 2 ^ off < d * 2 ^ (l + 1 + 1) := by
    calc n * 2 ^ off < 2 ^ (a + 1) * 2 ^ off := Nat.mul_lt_mul_of_pos_right hn2 (Nat.two_pow_pos _)
      _ = 2 ^ b * 2 ^ (l + 1 + 1) := by rw [← pow_add, ← pow_add]; congr 1; omega
      _ ≤ d * 2 ^ (l + 1 + 1) := Nat.mul_le_mul_right _ hd1
  split_ifs with hlt
  · exact ⟨hlow, hlt⟩
  · exact ⟨not_lt.mp hlt, hhigh⟩

/-- The model's logarithm is the integer logarithm of the fraction. -/
theorem intLog_div (hn : 0 < n) (hd : 0 < d) (hsize : d.log2 < 2 ^ 14) :
    Int.log 2 ((n : ℝ) / d) = (floorLog n d : Int) - (2 ^ 14 : Nat) := by
  obtain ⟨hlow, hhigh⟩ := floorLog_spec hn hd hsize
  generalize floorLog n d = l at *
  generalize (2 ^ 14 : Nat) = off at *
  have hpos : (0 : ℝ) < n / d := by positivity
  have hd' : (0 : ℝ) < d := by exact_mod_cast hd
  have two : ((2 : Nat) : ℝ) = 2 := by norm_num
  apply le_antisymm
  · rw [← Int.lt_add_one_iff, ← Int.lt_zpow_iff_log_lt one_lt_two hpos, two, sub_add_eq_add_sub, zpow_sub₀ two_ne_zero,
      div_lt_div_iff₀ hd' (by positivity)]
    have := (Nat.cast_lt (α := ℝ)).mpr hhigh
    push_cast at this
    rw [zpow_natCast, mul_comm _ (d : ℝ)]
    exact_mod_cast this
  · rw [← Int.zpow_le_iff_le_log one_lt_two hpos, two, zpow_sub₀ two_ne_zero, div_le_div_iff₀ (by positivity) hd']
    have := (Nat.cast_le (α := ℝ)).mpr hlow
    push_cast at this
    rw [zpow_natCast, zpow_natCast, mul_comm _ (d : ℝ)]
    exact this

end

end Sys2Proof.Machine

namespace Sys2Proof.Machine

/-! O19, O20: the rounding of a fraction to FP32 (R66), in units of 2^−149. -/

/-- Rounding a quotient does not depend on a common factor. -/
theorem roundQuot_mul_right (mode : Mode) (neg : Bool) (a b : Nat) {c : Nat} (hc : 0 < c) :
    roundQuot mode neg (a * c) (b * c) = roundQuot mode neg a b := by
  have hmod : a % b * c = 0 ↔ a % b = 0 := by simp [hc.ne']
  have hlow : 2 * (a % b * c) < b * c ↔ 2 * (a % b) < b := by rw [← mul_assoc, Nat.mul_lt_mul_right hc]
  have hhigh : b * c < 2 * (a % b * c) ↔ b < 2 * (a % b) := by rw [← mul_assoc, Nat.mul_lt_mul_right hc]
  simp only [roundQuot, Nat.mul_div_mul_right _ _ hc, Nat.mul_mod_mul_right, hmod, hlow, hhigh]

/-- To nearest, the error is at most half a unit. -/
theorem roundQuot_near {mode : Mode} (hm : mode = 0 ∨ mode = 4) (neg : Bool) (a : Nat) {b : Nat} (hb : 0 < b) :
    2 * (roundQuot mode neg a b * b) ≤ 2 * a + b ∧ 2 * a ≤ 2 * (roundQuot mode neg a b * b) + b := by
  have hdiv := Nat.div_add_mod a b
  have hlt := Nat.mod_lt a hb
  rw [mul_comm b] at hdiv
  have hup : (a / b + 1) * b = a / b * b + b := by ring
  by_cases hr : a % b = 0
  · rw [roundQuot_of_exact hr]
    omega
  · rcases lt_trichotomy (2 * (a % b)) b with h | h | h
    · rw [roundQuot_of_below_half hm hr h]
      omega
    · rcases roundQuot_eq_or mode neg a b with hq | hq <;> rw [hq] <;> omega
    · rw [roundQuot_of_above_half hm hr h, hup]
      omega

/-- The unit that a fraction rounds to is 2 to this power, in units of 2^−149. -/
def unitExp (num den : Nat) : Nat := floorLog num den - (2 ^ 14 - 126)

section
variable {num den : Nat} (hn : 0 < num) (hd : 0 < den) (hs : den.log2 < 2 ^ 14)
include hn hd hs

/-- The significand of a fraction has 24 bits, fewer at the least exponent only. -/
theorem unitExp_spec : (unitExp num den ≠ 0 → 2 ^ 23 * (den * 2 ^ unitExp num den) ≤ num * 2 ^ 149)
    ∧ num * 2 ^ 149 < 2 ^ 24 * (den * 2 ^ unitExp num den) := by
  obtain ⟨c, hc⟩ : ∃ c, 2 ^ 14 = c + 149 := ⟨2 ^ 14 - 149, by norm_num⟩
  have hsplit : ∀ l, l - (c + 149 - 126) ≠ 0 → l = (l - (c + 149 - 126)) + 23 + c := by omega
  have hceil : ∀ l, l + 1 ≤ (l - (c + 149 - 126)) + 24 + c := by omega
  obtain ⟨hlow, hhigh⟩ := floorLog_spec hn hd hs
  unfold unitExp
  rw [hc] at hlow hhigh ⊢
  generalize floorLog num den = l at *
  have hcpos := Nat.two_pow_pos c
  constructor
  · intro hk
    refine Nat.le_of_mul_le_mul_right ?_ hcpos
    calc 2 ^ 23 * (den * 2 ^ (l - (c + 149 - 126))) * 2 ^ c = den * 2 ^ ((l - (c + 149 - 126)) + 23 + c) := by ring
      _ = den * 2 ^ l := by rw [← hsplit l hk]
      _ ≤ num * 2 ^ (c + 149) := hlow
      _ = num * 2 ^ 149 * 2 ^ c := by ring
  · have hle : num * 2 ^ 149 * 2 ^ c < 2 ^ 24 * (den * 2 ^ (l - (c + 149 - 126))) * 2 ^ c := by
      calc num * 2 ^ 149 * 2 ^ c = num * 2 ^ (c + 149) := by ring
        _ < den * 2 ^ (l + 1) := hhigh
        _ ≤ den * 2 ^ ((l - (c + 149 - 126)) + 24 + c) :=
          Nat.mul_le_mul_left _ (Nat.pow_le_pow_right (by decide) (hceil l))
        _ = 2 ^ 24 * (den * 2 ^ (l - (c + 149 - 126))) * 2 ^ c := by ring
    exact Nat.lt_of_mul_lt_mul_right hle

omit hn hd hs in
/-- The pattern of a magnitude: its significand over its exponent. -/
theorem magPat_eq (mode : Mode) (neg : Bool) : fp32.magPat mode neg num den
    = roundQuot mode neg (num * 2 ^ 149) (den * 2 ^ unitExp num den) + unitExp num den * 2 ^ 23 := by
  have hfw : fp32.fw = 23 := rfl
  have hbias : fp32.bias = 127 := rfl
  obtain ⟨c, hc⟩ : ∃ c, 2 ^ 14 = c + 149 := ⟨2 ^ 14 - 149, by norm_num⟩
  unfold Fmt.magPat unitExp
  rw [hfw, hbias, hc]
  dsimp only
  generalize floorLog num den = l
  rw [show max l (c + 149 + 1 - 127) = (l - (c + 149 - 126)) + (c + 23) by omega]
  generalize l - (c + 149 - 126) = k
  rw [show k + (c + 23) - (c + 149 + 1 - 127) = k by omega]
  by_cases h : 149 ≤ k
  · have hden : den * 2 ^ k = den * 2 ^ (k - 149) * 2 ^ 149 := by rw [mul_assoc, ← pow_add, Nat.sub_add_cancel h]
    rw [if_pos (by omega), hden, roundQuot_mul_right _ _ _ _ (Nat.two_pow_pos _),
      show k + (c + 23) - (c + 149) - 23 = k - 149 by omega]
  · have hnum : num * 2 ^ 149 = num * 2 ^ (149 - k) * 2 ^ k := by
      rw [mul_assoc, ← pow_add, Nat.sub_add_cancel (by omega)]
    rw [if_neg (by omega), hnum, roundQuot_mul_right _ _ _ _ (Nat.two_pow_pos _),
      show c + 149 + 23 - (k + (c + 23)) = 149 - k by omega]

/-- The significand that a magnitude rounds to. -/
theorem roundQuot_bounds (mode : Mode) (neg : Bool) :
    roundQuot mode neg (num * 2 ^ 149) (den * 2 ^ unitExp num den) ≤ 2 ^ 24
      ∧ (unitExp num den = 0 ∨ 2 ^ 23 ≤ roundQuot mode neg (num * 2 ^ 149) (den * 2 ^ unitExp num den)) := by
  obtain ⟨hlow, hhigh⟩ := unitExp_spec hn hd hs
  have hpos : 0 < den * 2 ^ unitExp num den := Nat.mul_pos hd (Nat.two_pow_pos _)
  have hq : num * 2 ^ 149 / (den * 2 ^ unitExp num den) < 2 ^ 24 := (Nat.div_lt_iff_lt_mul hpos).mpr hhigh
  have hor := roundQuot_eq_or mode neg (num * 2 ^ 149) (den * 2 ^ unitExp num den)
  refine ⟨by omega, ?_⟩
  by_cases hk : unitExp num den = 0
  · exact .inl hk
  · have hq' : 2 ^ 23 ≤ num * 2 ^ 149 / (den * 2 ^ unitExp num den) := (Nat.le_div_iff_mul_le hpos).mpr (hlow hk)
    exact .inr (by omega)

theorem patNat_magPat (mode : Mode) (neg : Bool) : patNat (fp32.magPat mode neg num den)
    = roundQuot mode neg (num * 2 ^ 149) (den * 2 ^ unitExp num den) * 2 ^ unitExp num den := by
  obtain ⟨hle, hge⟩ := roundQuot_bounds hn hd hs mode neg
  rw [magPat_eq, patNat_add hle hge]

/-- Rounded to nearest, a magnitude is at most half a unit away. -/
theorem patNat_magPat_near {mode : Mode} (hm : mode = 0 ∨ mode = 4) (neg : Bool) :
    2 * (patNat (fp32.magPat mode neg num den) * den) ≤ 2 * (num * 2 ^ 149) + den * 2 ^ unitExp num den
      ∧ 2 * (num * 2 ^ 149) ≤ 2 * (patNat (fp32.magPat mode neg num den) * den) + den * 2 ^ unitExp num den := by
  have hnear := roundQuot_near hm neg (num * 2 ^ 149) (Nat.mul_pos hd (Nat.two_pow_pos (unitExp num den)))
  rwa [patNat_magPat hn hd hs, mul_assoc, mul_comm (2 ^ unitExp num den)]

/-- A magnitude up to the greatest finite one rounds to a finite pattern. -/
theorem magPat_le_maxPat (hmax : num * 2 ^ 149 ≤ (2 ^ 24 - 1) * 2 ^ 253 * den) (neg : Bool) :
    fp32.magPat rne neg num den ≤ 0x7F7FFFFF := by
  by_contra hover
  obtain ⟨hlow, -⟩ := unitExp_spec hn hd hs
  obtain ⟨hnear, -⟩ := patNat_magPat_near hn hd hs (mode := rne) (.inl rfl) neg
  have hbig : 2 ^ 277 ≤ patNat (fp32.magPat rne neg num den) :=
    patNat_infinity ▸ patNat_strictMono.monotone (by omega)
  have hunit : den * 2 ^ unitExp num den ≤ 2 ^ 253 * den := by
    rw [mul_comm den]
    refine Nat.mul_le_mul_right _ (Nat.pow_le_pow_right (by decide) ?_)
    by_contra hk
    have hpow : 2 ^ 254 ≤ 2 ^ unitExp num den := Nat.pow_le_pow_right (by decide) (by omega)
    have := hlow (by omega)
    have := Nat.mul_le_mul_left den hpow
    omega
  have := Nat.mul_le_mul_right den hbig
  omega

/-- A magnitude of 2^128 or more rounds beyond the finite patterns. -/
theorem lt_magPat_of_overflow (hover : 2 ^ 277 * den ≤ num * 2 ^ 149) (mode : Mode) (neg : Bool) :
    0x7F7FFFFF < fp32.magPat mode neg num den := by
  obtain ⟨-, hhigh⟩ := unitExp_spec hn hd hs
  obtain ⟨-, hge⟩ := roundQuot_bounds hn hd hs mode neg
  have hk : 254 ≤ unitExp num den := by
    by_contra hk
    have hpow : 2 ^ unitExp num den ≤ 2 ^ 253 := Nat.pow_le_pow_right (by decide) (by omega)
    have := Nat.mul_le_mul_left den hpow
    omega
  rw [magPat_eq]
  omega

end

/-! The unit in the last place (R213). -/

/-- The spacing of FP32 at a value (R213). -/
noncomputable def ulp (x : ℝ) : ℝ := (2 : ℝ) ^ (max (Int.log 2 |x|) (-126) - 23)

theorem ulp_pos (x : ℝ) : 0 < ulp x := by unfold ulp; positivity

theorem ulp_abs (x : ℝ) : ulp |x| = ulp x := by rw [ulp, ulp, abs_abs]

theorem ulp_le_ulp {x y : ℝ} (hx : x ≠ 0) (h : |x| ≤ |y|) : ulp x ≤ ulp y := by
  unfold ulp
  refine zpow_le_zpow_right₀ one_le_two ?_
  have := Int.log_mono_right (b := 2) (abs_pos.mpr hx) h
  omega

/-- The spacing at a fraction is the unit that it rounds to. -/
theorem ulp_div {num den : Nat} (hn : 0 < num) (hd : 0 < den) (hs : den.log2 < 2 ^ 14) :
    ulp ((num : ℝ) / den) = 2 ^ unitExp num den / 2 ^ 149 := by
  have hpos : (0 : ℝ) ≤ num / den := by positivity
  obtain ⟨c, hc⟩ : ∃ c, 2 ^ 14 = c + 149 := ⟨2 ^ 14 - 149, by norm_num⟩
  have hexp : ∀ l : Nat, max ((l : Int) - (c + 149 : Nat)) (-126) - 23
      = ((l - (c + 149 - 126) : Nat) : Int) - (149 : Nat) := by omega
  rw [ulp, abs_of_nonneg hpos, intLog_div hn hd hs]
  unfold unitExp
  rw [hc, hexp, zpow_sub₀ two_ne_zero]
  rw [zpow_natCast, zpow_natCast]

end Sys2Proof.Machine

namespace Sys2Proof.Machine

/-! O20: what is near a value, and the tests of a candidate (R213). -/

/-- A finite pattern lies within `e` of `v`. -/
def Near (w : Nat) (v e : ℝ) : Prop := w < 2 ^ 32 ∧ w % 2 ^ 31 < 0x7F800000 ∧ |fpReal w - v| ≤ e

section
variable {w : Nat} {v e : ℝ}

theorem Near.mono {e' : ℝ} (h : Near w v e) (he : e ≤ e') : Near w v e' :=
  ⟨h.1, h.2.1, h.2.2.trans he⟩

/-- Near a value, and so near another one that is close to it. -/
theorem Near.trans {v' δ : ℝ} (h : Near w v e) (hv : |v - v'| ≤ δ) : Near w v' (e + δ) :=
  ⟨h.1, h.2.1, (abs_sub_le _ v _).trans (add_le_add h.2.2 hv)⟩

/-- The result word of a near pattern. -/
theorem Near.word (h : Near w v e) : (Machine.word w).toNat % 2 ^ 31 < 0x7F800000 ∧ |fpReal (Machine.word w).toNat - v| ≤ e := by
  rw [Machine.word, BitVec.toNat_ofNat, Nat.mod_eq_of_lt h.1]
  exact h.2

/-- A candidate is taken only where its test holds. -/
theorem Near.accepted {ok : Bool} {cand near : Nat} (hc : ok = true → Near cand v e) (hn : Near near v e) :
    Near (accepted ok cand near) v e := by
  unfold Machine.accepted
  split_ifs with h
  · exact hc h
  · exact hn

end

/-- The greatest finite value. -/
noncomputable def fpMax : ℝ := (2 ^ 24 - 1) * 2 ^ 104

theorem abs_intCast (n : Int) : |(n : ℝ)| = n.natAbs := by rw [← Int.cast_abs, Int.abs_eq_natAbs, Int.cast_natCast]

/-- The pattern of a sign and a magnitude. -/
def signPat (neg : Bool) (p : Nat) : Nat := (if neg then 2 ^ 31 else 0) + p

/-- A rounded value whose magnitude is finite. -/
theorem round_of_le {mode : Mode} {sat z : Bool} {n : Int} {d : Nat} (hn : n ≠ 0)
    (hp : fp32.magPat mode (decide (n < 0)) n.natAbs d ≤ 0x7F7FFFFF) :
    fp32.round mode sat false z n d = signPat (decide (n < 0)) (fp32.magPat mode (decide (n < 0)) n.natAbs d) := by
  rw [Fmt.round, if_neg hn]
  simp only [Bool.false_and, Bool.false_eq_true, if_false]
  rw [if_neg (show ¬ fp32.maxPat < _ from not_lt.mpr hp), signPat]
  split_ifs with h
  · rfl
  · rw [zero_add]

/-- A pattern is near a value of its sign where its magnitude is near the value's. -/
theorem near_signPat {neg : Bool} {p : Nat} (hp : p ≤ 0x7F7FFFFF) {x e : ℝ} (hneg : neg = true → x ≤ 0)
    (hpos : neg = false → 0 ≤ x) (h : |(patNat p : ℝ) / 2 ^ 149 - (|x|)| ≤ e) : Near (signPat neg p) x e := by
  unfold signPat
  cases neg with
  | true =>
    have hsign : negative (2 ^ 31 + p) = true := by simp only [negative, beq_iff_eq]; omega
    have hmod : (2 ^ 31 + p) % 2 ^ 31 = p := by omega
    rw [abs_of_nonpos (hneg rfl), abs_sub_comm] at h
    refine ⟨by simp only [if_true]; omega, by simp only [if_true]; omega, ?_⟩
    simp only [if_true]
    rw [fpReal_finite (by omega), hsign, hmod, if_pos rfl, neg_one_mul, ← abs_neg, neg_sub, sub_neg_eq_add]
    rwa [neg_sub_left, abs_neg, add_comm] at h
  | false =>
    rw [abs_of_nonneg (hpos rfl)] at h
    simp only [Bool.false_eq_true, if_false, zero_add]
    refine ⟨by omega, by omega, ?_⟩
    rwa [fpReal_pos (by omega)]

/-- Rounded to nearest, a magnitude is at most half a unit away. -/
theorem abs_patNat_magPat_sub_le {num den : Nat} (hn : 0 < num) (hd : 0 < den) (hs : den.log2 < 2 ^ 14) (neg : Bool) :
    |(patNat (fp32.magPat rne neg num den) : ℝ) / 2 ^ 149 - num / den| ≤ ulp (num / den) / 2 := by
  obtain ⟨hup, hlow⟩ := patNat_magPat_near hn hd hs (mode := rne) (.inl rfl) neg
  rw [ulp_div hn hd hs]
  generalize patNat (fp32.magPat rne neg num den) = q at *
  rw [← Nat.cast_le (α := ℝ)] at hup hlow
  push_cast at hup hlow
  have hden : (0 : ℝ) < den := by exact_mod_cast hd
  have hscale : (q : ℝ) / 2 ^ 149 - num / den = (q * den - num * 2 ^ 149) / (2 ^ 149 * den) := by field_simp
  have hunit : (2 : ℝ) ^ unitExp num den / 2 ^ 149 / 2 = (den * 2 ^ unitExp num den / 2) / (2 ^ 149 * den) := by field_simp
  rw [hscale, hunit, abs_div, abs_of_pos (show (0 : ℝ) < 2 ^ 149 * den by positivity)]
  refine div_le_div_of_nonneg_right ?_ (by positivity)
  rw [abs_le]
  constructor <;> linarith

section
variable {n : Int} {d : Nat} (hd : 0 < d) (hs : d.log2 < 2 ^ 14)
include hd hs

/-- A fraction beyond the finite patterns rounds to an infinity. -/
theorem round_rne_of_overflow (z : Bool) (hover : (2 : ℝ) ^ 128 ≤ |(n : ℝ) / d|) :
    fp32.round rne false false z n d = signPat (decide (n < 0)) 0x7F800000 := by
  have hd' : (0 : ℝ) < d := by exact_mod_cast hd
  rw [abs_div, Nat.abs_cast, le_div_iff₀ hd', abs_intCast] at hover
  have hnat : 2 ^ 128 * d ≤ n.natAbs := by exact_mod_cast hover
  have hpos : 0 < n.natAbs := (Nat.mul_pos (Nat.two_pow_pos 128) hd).trans_le hnat
  have hbig : 2 ^ 277 * d ≤ n.natAbs * 2 ^ 149 := by
    have := Nat.mul_le_mul_right (2 ^ 149) hnat
    omega
  have hp := lt_magPat_of_overflow hpos hd hs hbig rne (decide (n < 0))
  rw [Fmt.round, if_neg (Int.natAbs_pos.mp hpos)]
  simp only [Bool.false_and, Bool.false_eq_true, if_false]
  rw [if_pos (show fp32.maxPat < _ from hp)]
  rfl

omit hs in
/-- The numerator of a fraction up to the greatest finite value. -/
theorem natAbs_mul_le_of_fpMax (hmax : |(n : ℝ) / d| ≤ fpMax) : n.natAbs * 2 ^ 149 ≤ (2 ^ 24 - 1) * 2 ^ 253 * d := by
  have hd' : (0 : ℝ) < d := by exact_mod_cast hd
  rw [abs_div, Nat.abs_cast, div_le_iff₀ hd', abs_intCast, fpMax] at hmax
  have : n.natAbs ≤ (2 ^ 24 - 1) * 2 ^ 104 * d := by
    rw [← Nat.cast_le (α := ℝ)]
    push_cast
    norm_num at hmax ⊢
    exact hmax
  omega

omit hs in
/-- A rounded value is as near as its magnitude is. -/
theorem near_round_of_magPat {mode : Mode} {sat : Bool} (z : Bool) (hn : n ≠ 0) {e : ℝ}
    (hp : fp32.magPat mode (decide (n < 0)) n.natAbs d ≤ 0x7F7FFFFF)
    (h : |(patNat (fp32.magPat mode (decide (n < 0)) n.natAbs d) : ℝ) / 2 ^ 149 - n.natAbs / d| ≤ e) :
    Near (fp32.round mode sat false z n d) (n / d) e := by
  have hd' : (0 : ℝ) < d := by exact_mod_cast hd
  rw [round_of_le hn hp]
  refine near_signPat hp (fun h => ?_) (fun h => ?_) ?_
  · exact div_nonpos_of_nonpos_of_nonneg (by exact_mod_cast (of_decide_eq_true h).le) hd'.le
  · exact div_nonneg (by exact_mod_cast not_lt.mp (of_decide_eq_false h)) hd'.le
  · rwa [abs_div, Nat.abs_cast, abs_intCast]

omit hd hs in
theorem near_round_zero (mode : Mode) (sat z : Bool) : Near (fp32.round mode sat false z 0 d) 0 0 := by
  rw [Fmt.round, if_pos rfl]
  exact near_signPat (neg := z) (p := 0) (by decide) (fun _ => le_rfl) (fun _ => le_rfl) (by simp [patNat_zero])

/-- A fraction up to the greatest finite value rounds to a pattern at most half a unit away. -/
theorem near_round_rne (z : Bool) (hmax : |(n : ℝ) / d| ≤ fpMax) :
    Near (fp32.round rne false false z n d) (n / d) (ulp (n / d) / 2) := by
  by_cases hn : n = 0
  · rw [hn, Int.cast_zero, zero_div]
    exact (near_round_zero rne false z).mono (half_pos (ulp_pos 0)).le
  · have hpos : 0 < n.natAbs := Int.natAbs_pos.mpr hn
    have habs : |(n : ℝ) / d| = n.natAbs / d := by rw [abs_div, Nat.abs_cast, abs_intCast]
    refine near_round_of_magPat hd z hn (magPat_le_maxPat hpos hd hs (natAbs_mul_le_of_fpMax hd hmax) _) ?_
    rw [← ulp_abs, habs]
    exact abs_patNat_magPat_sub_le hpos hd hs _

end

end Sys2Proof.Machine

namespace Sys2Proof.Machine

/-! O20: the tests that a candidate has to pass (R213, assumption 6). -/

theorem den_pos_of_decode {w d : Nat} {neg : Bool} {n : Int} (h : fp32.decode w = .fin neg n d) : 0 < d := by
  obtain ⟨m, d', hdec, hd, -⟩ := decode_finite (finite_of_decode h)
  rw [h] at hdec
  cases hdec
  exact hd

/-- A test of two fractions, over the reals. -/
theorem abs_div_sub_div_le {n x : Int} {d den A B : Nat} (hd : 0 < d) (hden : 0 < den) (hA : 0 < A)
    (h : (n * den - x * d).natAbs * A ≤ B * (d * den)) : |(n : ℝ) / d - x / den| ≤ B / A := by
  have hd' : (0 : ℝ) < d := by exact_mod_cast hd
  have hden' : (0 : ℝ) < den := by exact_mod_cast hden
  have hA' : (0 : ℝ) < A := by exact_mod_cast hA
  rw [div_sub_div _ _ hd'.ne' hden'.ne', abs_div, abs_of_pos (mul_pos hd' hden'), div_le_div_iff₀ (mul_pos hd' hden') hA']
  have habs : |(n : ℝ) * den - d * x| = ((n * den - x * d).natAbs : ℝ) := by
    rw [← abs_intCast]
    push_cast
    rw [mul_comm (d : ℝ)]
  rw [habs]
  exact_mod_cast h

/-- What lies between two values is no further than the farther of them. -/
theorem abs_sub_le_of_mem_uIcc {c a b v e : ℝ} (hv : v ∈ Set.uIcc a b) (ha : |c - a| ≤ e) (hb : |c - b| ≤ e) : |c - v| ≤ e := by
  rw [Set.mem_uIcc] at hv
  rw [abs_le] at *
  rcases hv with ⟨h1, h2⟩ | ⟨h1, h2⟩ <;> constructor <;> linarith

/-- The spacing that the model tests against, in units of 2^−149. -/
theorem ulpExp_eq (num den : Nat) : ∃ c, 2 ^ 14 = c + 149 ∧ ulpExp num den = unitExp num den + c := by
  obtain ⟨c, hc⟩ : ∃ c, 2 ^ 14 = c + 149 := ⟨2 ^ 14 - 149, by norm_num⟩
  refine ⟨c, hc, ?_⟩
  unfold ulpExp unitExp
  rw [hc]
  omega

section
variable {k cand : Nat} {lo hi : Int} {den : Nat} (hc : cand < 2 ^ 32) (hden : 0 < den) {v : ℝ}
  (hv : v ∈ Set.uIcc ((lo : ℝ) / den) (hi / den))
include hc hden hv

/-- A candidate that passes the test against `k` ulp lies so near every value between the two ends. -/
theorem near_of_withinUlp (hs : den.log2 < 2 ^ 14) (h : withinUlp k cand lo hi den = true) :
    Near cand v (k * ulp ((max lo.natAbs 1 : Nat) / den)) := by
  unfold withinUlp at h
  split at h
  · next neg n d hdec =>
    have hfin := finite_of_decode hdec
    have hd := den_pos_of_decode hdec
    obtain ⟨c, hoff, hexp⟩ := ulpExp_eq (max lo.natAbs 1) den
    simp only [hexp, hoff, Bool.and_eq_true, decide_eq_true_eq] at h
    have hval : (k * 2 ^ (unitExp (max lo.natAbs 1) den + c) : Nat) / ((2 ^ (c + 149) : Nat) : ℝ)
        = k * ulp ((max lo.natAbs 1 : Nat) / den) := by
      rw [ulp_div (by omega) hden hs]
      push_cast
      rw [pow_add, pow_add]
      field_simp
    refine ⟨hc, hfin, ?_⟩
    rw [fpReal, hdec, ← hval]
    exact abs_sub_le_of_mem_uIcc hv (abs_div_sub_div_le hd hden (Nat.two_pow_pos _) h.1)
      (abs_div_sub_div_le hd hden (Nat.two_pow_pos _) h.2)
  · cases h

/-- A candidate that passes the test against 2^−k lies so near every value between the two ends. -/
theorem near_of_withinAbs (h : withinAbs k cand lo hi den = true) : Near cand v (1 / 2 ^ k) := by
  unfold withinAbs at h
  split at h
  · next neg n d hdec =>
    have hfin := finite_of_decode hdec
    have hd := den_pos_of_decode hdec
    simp only [Bool.and_eq_true, decide_eq_true_eq] at h
    have hclose : ∀ x : Int, (n * den - x * d).natAbs * 2 ^ k ≤ d * den → |(n : ℝ) / d - x / den| ≤ 1 / 2 ^ k := by
      intro x hx
      have := abs_div_sub_div_le (n := n) (x := x) (B := 1) hd hden (Nat.two_pow_pos k) (by rwa [one_mul])
      push_cast at this
      exact this
    refine ⟨hc, hfin, ?_⟩
    rw [fpReal, hdec]
    exact abs_sub_le_of_mem_uIcc hv (hclose lo h.1) (hclose hi h.2)
  · cases h

end

/-! The value nearest to a fixed-point number. -/

theorem log2_two_pow_lt {k : Nat} (hk : k < 2 ^ 14) : (2 ^ k).log2 < 2 ^ 14 := by rwa [Nat.log2_two_pow]

/-- What `near240` rounds is x · 2^(e − 240). -/
theorem near240_eq (x : Int) {e : Int} (he : -1000 ≤ e) : ∃ (n : Int) (d : Nat), 0 < d ∧ d.log2 < 2 ^ 14
    ∧ near240 x e = fp32.round rne false false (decide (x < 0)) n d ∧ (n : ℝ) / d = x / 2 ^ fx * 2 ^ e := by
  unfold near240
  split_ifs with h
  · refine ⟨x * 2 ^ e.toNat, 2 ^ fx, Nat.two_pow_pos _, log2_two_pow_lt (by decide), rfl, ?_⟩
    obtain ⟨k, rfl⟩ := Int.eq_ofNat_of_zero_le h
    push_cast
    rw [Int.toNat_natCast, zpow_natCast]
    ring
  · refine ⟨x, 2 ^ (fx + (-e).toNat), Nat.two_pow_pos _, log2_two_pow_lt (by unfold fx; omega), rfl, ?_⟩
    obtain ⟨k, hk⟩ := Int.eq_ofNat_of_zero_le (show 0 ≤ -e by omega)
    obtain rfl : e = -(k : Int) := by omega
    push_cast
    rw [neg_neg, Int.toNat_natCast, zpow_neg, zpow_natCast, pow_add]
    field_simp

/-- The nearest value to x · 2^(e − 240). -/
theorem near_near240 {x e : Int} (he : -1000 ≤ e) (hmax : |(x : ℝ) / 2 ^ fx * 2 ^ e| ≤ fpMax) :
    Near (near240 x e) (x / 2 ^ fx * 2 ^ e) (ulp (x / 2 ^ fx * 2 ^ e) / 2) := by
  obtain ⟨n, d, hd, hs, heq, hval⟩ := near240_eq x he
  rw [← hval] at hmax ⊢
  rw [heq]
  exact near_round_rne hd hs _ hmax

end Sys2Proof.Machine

namespace Sys2Proof.Machine

/-! O19, O20: the model's evaluations, each a fold over the first numbers. -/

/-- What holds at the start of a fold over the first `n` numbers, and is kept by each of its steps, holds at its end. -/
theorem foldl_range_induction {α : Type} (f : α → Nat → α) (P : Nat → α → Prop) (n : Nat) {a : α} (h0 : P 0 a)
    (hstep : ∀ i x, i < n → P i x → P (i + 1) (f x i)) : P n ((List.range n).foldl f a) := by
  induction n with
  | zero => exact h0
  | succ n ih =>
    rw [List.range_succ, List.foldl_append]
    exact hstep n _ (Nat.lt_succ_self n) (ih fun i x hi => hstep i x (Nat.lt_succ_of_lt hi))

/-! The integer square root. -/

theorem isqrt_spec (n : Nat) : isqrt n * isqrt n ≤ n ∧ n < (isqrt n + 1) * (isqrt n + 1) := by
  unfold isqrt
  generalize hL : n.log2 / 2 = L
  have hn : n < 2 ^ (L + 1) * 2 ^ (L + 1) := by
    rw [← pow_add]
    exact Nat.lt_log2_self.trans_le (Nat.pow_le_pow_right (by decide) (by omega))
  have h := foldl_range_induction (fun (r i : Nat) => if (r + 2 ^ (L - i)) * (r + 2 ^ (L - i)) ≤ n then r + 2 ^ (L - i) else r)
    (fun i r => r * r ≤ n ∧ n < (r + 2 ^ (L + 1 - i)) * (r + 2 ^ (L + 1 - i))) (L + 1) (a := 0)
    ⟨by omega, by simpa using hn⟩ ?_
  · simpa using h
  · rintro i r hi ⟨hle, hlt⟩
    rw [show L + 1 - (i + 1) = L - i by omega]
    rw [show L + 1 - i = L - i + 1 by omega, pow_succ] at hlt
    split_ifs with hb
    · exact ⟨hb, hlt.trans_eq (by ring)⟩
    · exact ⟨hle, not_le.mp hb⟩

/-- The scaled root of a fraction, rounded down. -/
theorem sqrtScaled_spec (n : Nat) {d : Nat} (hd : 0 < d) (k : Nat) :
    (sqrtScaled n d k : ℝ) ≤ Real.sqrt ((n : ℝ) / d) * 2 ^ k ∧ Real.sqrt ((n : ℝ) / d) * 2 ^ k < sqrtScaled n d k + 1 := by
  have hd' : (0 : ℝ) < d := by exact_mod_cast hd
  obtain ⟨hle, hlt⟩ := isqrt_spec (n * 2 ^ (2 * k) / d)
  rw [← sqrtScaled] at hle hlt
  have hroot : Real.sqrt ((n : ℝ) / d) * 2 ^ k = Real.sqrt ((n * 2 ^ (2 * k) : Nat) / d) := by
    rw [show ((n * 2 ^ (2 * k) : Nat) : ℝ) / d = n / d * (2 ^ k) ^ 2 by push_cast; ring, Real.sqrt_mul (by positivity),
      Real.sqrt_sq (by positivity)]
  rw [hroot]
  constructor
  · refine Real.le_sqrt_of_sq_le ?_
    rw [le_div_iff₀ hd', pow_two]
    exact_mod_cast (Nat.le_div_iff_mul_le hd).mp hle
  · rw [Real.sqrt_lt (by positivity) (by positivity), div_lt_iff₀ hd', pow_two]
    exact_mod_cast (Nat.div_lt_iff_lt_mul hd).mp hlt

/-! Rounding down in a quotient. -/

theorem abs_natDiv_sub_le (a b : Nat) : |((a / b : Nat) : ℝ) - a / b| ≤ 1 := by
  rcases Nat.eq_zero_or_pos b with rfl | hb
  · simp
  · have h1 : ((a / b : Nat) : ℝ) ≤ a / b := Nat.cast_div_le
    have h2 : (a : ℝ) / b < (a / b : Nat) + 1 := by
      rw [div_lt_iff₀ (by exact_mod_cast hb)]
      exact_mod_cast (Nat.div_lt_iff_lt_mul hb).mp (Nat.lt_succ_self _)
    rw [abs_le]
    constructor <;> linarith

theorem abs_intDiv_sub_le (a : Int) {b : Int} (hb : 0 < b) : |((a / b : Int) : ℝ) - a / b| ≤ 1 := by
  have hb' : (0 : ℝ) < b := by exact_mod_cast hb
  have h1 : ((a / b : Int) : ℝ) ≤ a / b := by
    rw [le_div_iff₀ hb']
    exact_mod_cast Int.ediv_mul_le a hb.ne'
  have h2 : (a : ℝ) / b < (a / b : Int) + 1 := by
    rw [div_lt_iff₀ hb']
    exact_mod_cast Int.lt_ediv_add_one_mul_self a hb
  rw [abs_le]
  constructor <;> linarith

/-! The exponential series. -/

/-- The terms of the series and their sum, each step rounding down. -/
theorem expSeries_steps {n : Nat} (hn : n ≤ 2 ^ fx) (i : Nat) (a : Nat × Nat) (hi : i < 64)
    (ha : |(a.2 : ℝ) - 2 ^ fx * (((n : ℝ) / 2 ^ fx) ^ i / i.factorial)| ≤ 2 * i
      ∧ |(a.1 : ℝ) - 2 ^ fx * ∑ m ∈ Finset.range (i + 1), ((n : ℝ) / 2 ^ fx) ^ m / m.factorial| ≤ 128 * i) :
    let t := a.2 * n / 2 ^ fx / (i + 1)
    |(t : ℝ) - 2 ^ fx * (((n : ℝ) / 2 ^ fx) ^ (i + 1) / (i + 1).factorial)| ≤ 2 * (i + 1 : Nat)
      ∧ |((a.1 + t : Nat) : ℝ) - 2 ^ fx * ∑ m ∈ Finset.range (i + 1 + 1), ((n : ℝ) / 2 ^ fx) ^ m / m.factorial|
        ≤ 128 * (i + 1 : Nat) := by
  obtain ⟨hterm, hsum⟩ := ha
  intro t
  have hS : (0 : ℝ) < 2 ^ fx := by positivity
  set y : ℝ := (n : ℝ) / 2 ^ fx with hy
  have hy0 : 0 ≤ y := by positivity
  have hy1 : y ≤ 1 := by rw [hy, div_le_one hS]; exact_mod_cast hn
  have hfloor : |(t : ℝ) - a.2 * (y / (i + 1))| ≤ 1 := by
    have h := abs_natDiv_sub_le (a.2 * n) (2 ^ fx * (i + 1))
    rw [← Nat.div_div_eq_div_mul] at h
    have heq : ((a.2 * n : Nat) : ℝ) / (2 ^ fx * (i + 1) : Nat) = a.2 * (y / (i + 1)) := by
      push_cast
      rw [hy]
      field_simp
    rwa [heq] at h
  have hfac : (2 : ℝ) ^ fx * (y ^ (i + 1) / (i + 1).factorial) = 2 ^ fx * (y ^ i / i.factorial) * (y / (i + 1)) := by
    rw [Nat.factorial_succ, pow_succ]
    push_cast
    field_simp
  have hratio : y / (i + 1) ≤ 1 := by rw [div_le_one (by positivity)]; linarith [(Nat.cast_nonneg i : (0 : ℝ) ≤ i)]
  have hnext : |(t : ℝ) - 2 ^ fx * (y ^ (i + 1) / (i + 1).factorial)| ≤ 2 * i + 1 := by
    have hprop : |(a.2 : ℝ) * (y / (i + 1)) - 2 ^ fx * (y ^ (i + 1) / (i + 1).factorial)| ≤ 2 * i := by
      rw [hfac, ← sub_mul, abs_mul, abs_of_nonneg (show 0 ≤ y / (i + 1) by positivity)]
      calc _ ≤ (2 * i : ℝ) * 1 := mul_le_mul hterm hratio (by positivity) (by positivity)
        _ = 2 * i := mul_one _
    calc _ ≤ _ := abs_sub_le _ (a.2 * (y / (i + 1))) _
      _ ≤ 2 * i + 1 := by linarith
  have hi' : (i : ℝ) ≤ 63 := by exact_mod_cast Nat.le_of_lt_succ hi
  refine ⟨by push_cast; linarith, ?_⟩
  rw [Finset.sum_range_succ _ (i + 1), mul_add]
  push_cast
  rw [add_sub_add_comm]
  calc _ ≤ _ := abs_add_le _ _
    _ ≤ 128 * (i + 1 : ℝ) := by linarith

/-- The series gives the exponential of a fraction up to 1 within 2^14 units. -/
theorem expSeries_near {n : Nat} (hn : n ≤ 2 ^ fx) :
    |(expSeries n : ℝ) - 2 ^ fx * Real.exp ((n : ℝ) / 2 ^ fx)| ≤ 2 ^ 14 := by
  have hS : (0 : ℝ) < 2 ^ fx := by positivity
  have h := foldl_range_induction (fun (a : Nat × Nat) i => (a.1 + a.2 * n / 2 ^ fx / (i + 1), a.2 * n / 2 ^ fx / (i + 1)))
    (fun i a => |(a.2 : ℝ) - 2 ^ fx * (((n : ℝ) / 2 ^ fx) ^ i / i.factorial)| ≤ 2 * i
      ∧ |(a.1 : ℝ) - 2 ^ fx * ∑ m ∈ Finset.range (i + 1), ((n : ℝ) / 2 ^ fx) ^ m / m.factorial| ≤ 128 * i) 64
    (a := (2 ^ fx, 2 ^ fx)) (by simp) (expSeries_steps hn)
  have hsum : |(expSeries n : ℝ) - 2 ^ fx * ∑ m ∈ Finset.range 65, ((n : ℝ) / 2 ^ fx) ^ m / m.factorial| ≤ 128 * (64 : Nat) := h.2
  set y : ℝ := (n : ℝ) / 2 ^ fx with hy
  have hy0 : 0 ≤ y := by positivity
  have hy1 : y ≤ 1 := by rw [hy, div_le_one hS]; exact_mod_cast hn
  have htail : |(2 : ℝ) ^ fx * ∑ m ∈ Finset.range 65, y ^ m / m.factorial - 2 ^ fx * Real.exp y| ≤ 1 := by
    have hlow := Real.sum_le_exp_of_nonneg hy0 65
    have hhigh := Real.exp_bound' hy0 hy1 (n := 65) (by decide)
    have hrest : y ^ 65 * ((65 : Nat) + 1) / ((65 : Nat).factorial * (65 : Nat)) ≤ 1 / 2 ^ 240 := by
      have hpow : y ^ 65 ≤ 1 := pow_le_one₀ hy0 hy1
      rw [div_le_div_iff₀ (by positivity) (by positivity)]
      have hnum : ((65 : Nat) + 1 : ℝ) * 2 ^ 240 ≤ (65 : Nat).factorial * (65 : Nat) := by
        norm_num [Nat.factorial]
      nlinarith
    rw [← mul_sub, abs_mul, abs_of_pos hS, abs_sub_comm, abs_of_nonneg (by linarith)]
    calc (2 : ℝ) ^ fx * _ ≤ 2 ^ fx * (1 / 2 ^ 240) := mul_le_mul_of_nonneg_left (by linarith) hS.le
      _ = 1 := by rw [show fx = 240 from rfl]; norm_num
  calc _ ≤ _ := abs_sub_le _ (2 ^ fx * ∑ m ∈ Finset.range 65, y ^ m / m.factorial) _
    _ ≤ 128 * (64 : Nat) + 1 := add_le_add hsum htail
    _ ≤ 2 ^ 14 := by norm_num

/-! The natural logarithm of 2. -/

theorem ln2_near : |(ln2 : ℝ) - 2 ^ fx * Real.log 2| ≤ 2 ^ 9 := by
  have hS : (0 : ℝ) < 2 ^ fx := by positivity
  have h := foldl_range_induction (fun (a i : Nat) => a + 2 ^ fx / ((i + 1) * 2 ^ (i + 1)))
    (fun i a => |(a : ℝ) - 2 ^ fx * ∑ m ∈ Finset.range i, (1 / 2 : ℝ) ^ (m + 1) / (m + 1)| ≤ i) 256 (a := 0) (by simp) ?_
  · have htail := Real.abs_log_sub_add_sum_range_le (x := 1 / 2) (by rw [abs_of_pos] <;> norm_num) 256
    have hlog : Real.log (1 - 1 / 2) = -Real.log 2 := by rw [← Real.log_inv]; norm_num
    rw [hlog, ← sub_eq_add_neg, abs_of_pos (show (0 : ℝ) < 1 / 2 by norm_num)] at htail
    have hrest : |(2 : ℝ) ^ fx * ∑ m ∈ Finset.range 256, (1 / 2 : ℝ) ^ (m + 1) / (m + 1) - 2 ^ fx * Real.log 2| ≤ 1 := by
      rw [← mul_sub, abs_mul, abs_of_pos hS]
      calc (2 : ℝ) ^ fx * _ ≤ 2 ^ fx * ((1 / 2) ^ (256 + 1) / (1 - 1 / 2)) := mul_le_mul_of_nonneg_left htail hS.le
        _ = (2 * (1 / 2)) ^ 240 * ((1 / 2) ^ 17 / (1 - 1 / 2)) := by
          rw [show fx = 240 from rfl, show 256 + 1 = 240 + 17 from rfl, pow_add, mul_pow]
          ring
        _ ≤ 1 := by norm_num
    calc _ ≤ _ := abs_sub_le _ (2 ^ fx * ∑ m ∈ Finset.range 256, (1 / 2 : ℝ) ^ (m + 1) / (m + 1)) _
      _ ≤ (256 : Nat) + 1 := add_le_add h hrest
      _ ≤ 2 ^ 9 := by norm_num
  · intro i a _ ha
    have hfloor := abs_natDiv_sub_le (2 ^ fx) ((i + 1) * 2 ^ (i + 1))
    have heq : ((2 ^ fx : Nat) : ℝ) / ((i + 1) * 2 ^ (i + 1) : Nat) = 2 ^ fx * ((1 / 2 : ℝ) ^ (i + 1) / (i + 1)) := by
      push_cast
      rw [one_div, inv_pow]
      field_simp
    rw [heq] at hfloor
    rw [Finset.sum_range_succ, mul_add]
    push_cast
    rw [add_sub_add_comm]
    exact (abs_add_le _ _).trans (add_le_add ha hfloor)

end Sys2Proof.Machine

namespace Sys2Proof.Machine

/-! O20: the logarithm, π, and the sine and cosine (R213), as the model evaluates them. -/

/-- The error of a product. -/
theorem abs_mul_sub_mul_le {p q P Q e δ b c : ℝ} (hp : |p - P| ≤ e) (hq : |q - Q| ≤ δ) (hb : |q| ≤ b) (hc : |P| ≤ c) :
    |p * q - P * Q| ≤ e * b + c * δ := by
  rw [show p * q - P * Q = (p - P) * q + P * (q - Q) by ring]
  refine (abs_add_le _ _).trans (add_le_add ?_ ?_)
  · rw [abs_mul]
    exact mul_le_mul hp hb (abs_nonneg _) ((abs_nonneg _).trans hp)
  · rw [abs_mul]
    exact mul_le_mul hc hq (abs_nonneg _) ((abs_nonneg _).trans hc)

/-- The odd powers of the argument of the series and the sum of its terms, each step rounding down. -/
theorem lnSeries_steps {z : Nat} (hz : z ≤ 2 ^ fx) (i : Nat) (a : Nat × Nat) (hi : i < 90)
    (ha : |(a.2 : ℝ) - 2 ^ fx * ((z : ℝ) / 2 ^ fx) ^ (2 * i + 1)| ≤ 2 * i
      ∧ |(a.1 : ℝ) - 2 ^ fx * ∑ m ∈ Finset.range i, ((z : ℝ) / 2 ^ fx) ^ (2 * m + 1) / (2 * m + 1)| ≤ 180 * i) :
    |((a.2 * (z * z / 2 ^ fx) / 2 ^ fx : Nat) : ℝ) - 2 ^ fx * ((z : ℝ) / 2 ^ fx) ^ (2 * (i + 1) + 1)| ≤ 2 * (i + 1 : Nat)
      ∧ |((a.1 + a.2 / (2 * i + 1) : Nat) : ℝ)
          - 2 ^ fx * ∑ m ∈ Finset.range (i + 1), ((z : ℝ) / 2 ^ fx) ^ (2 * m + 1) / (2 * m + 1)| ≤ 180 * (i + 1 : Nat) := by
  obtain ⟨hpow, hsum⟩ := ha
  have hqle : ((z * z / 2 ^ fx : Nat) : ℝ) ≤ 2 ^ fx := by exact_mod_cast Nat.div_le_of_le_mul (Nat.mul_le_mul hz hz)
  have hz' : (z : ℝ) ≤ 2 ^ fx := by exact_mod_cast hz
  have hsq := abs_natDiv_sub_le (z * z) (2 ^ fx)
  generalize z * z / 2 ^ fx = q at hqle hsq ⊢
  have hfloor := abs_natDiv_sub_le (a.2 * q) (2 ^ fx)
  have hterm := abs_natDiv_sub_le a.2 (2 * i + 1)
  have hS : (0 : ℝ) < 2 ^ fx := by positivity
  push_cast at hsq hfloor hterm ⊢
  generalize (2 : ℝ) ^ fx = S at *
  have hζ0 : 0 ≤ (z : ℝ) / S := by positivity
  have hζ1 : (z : ℝ) / S ≤ 1 := (div_le_one hS).mpr hz'
  have hsq' : (z : ℝ) * z / S = (z / S) ^ 2 * S := by field_simp
  rw [hsq'] at hsq
  generalize (z : ℝ) / S = ζ at *
  have hi0 : (0 : ℝ) ≤ i := Nat.cast_nonneg i
  have hi' : (i : ℝ) ≤ 89 := by exact_mod_cast Nat.le_of_lt_succ hi
  constructor
  · have hq : |(q : ℝ) / S - ζ ^ 2| ≤ 1 / S := by
      rw [show (q : ℝ) / S - ζ ^ 2 = (q - ζ ^ 2 * S) / S by field_simp, abs_div, abs_of_pos hS]
      exact div_le_div_of_nonneg_right hsq hS.le
    have hq1 : |(q : ℝ) / S| ≤ 1 := by
      rw [abs_of_nonneg (by positivity)]
      exact (div_le_one hS).mpr hqle
    have hP : |S * ζ ^ (2 * i + 1)| ≤ S := by
      rw [abs_of_nonneg (by positivity)]
      exact mul_le_of_le_one_right hS.le (pow_le_one₀ hζ0 hζ1)
    have hmul := abs_mul_sub_mul_le hpow hq hq1 hP
    rw [mul_one_div_cancel hS.ne', mul_one, mul_div_assoc'] at hmul
    rw [show 2 * (i + 1) + 1 = 2 * i + 1 + 2 by ring, pow_add, ← mul_assoc]
    calc _ ≤ _ := abs_sub_le _ ((a.2 : ℝ) * q / S) _
      _ ≤ 1 + (2 * i + 1) := add_le_add hfloor hmul
      _ = 2 * (i + 1 : ℝ) := by ring
  · have hlead : |(a.2 : ℝ) / (2 * i + 1) - S * (ζ ^ (2 * i + 1) / (2 * i + 1))| ≤ 2 * i := by
      rw [mul_div_assoc', ← sub_div, abs_div, abs_of_pos (show (0 : ℝ) < 2 * i + 1 by linarith)]
      exact (div_le_self (abs_nonneg _) (by linarith)).trans hpow
    rw [Finset.sum_range_succ, mul_add, add_sub_add_comm]
    have hnext := (abs_sub_le _ _ _).trans (add_le_add hterm hlead)
    linarith [abs_add_le ((a.1 : ℝ) - S * ∑ m ∈ Finset.range i, ζ ^ (2 * m + 1) / (2 * m + 1))
      ((a.2 / (2 * i + 1) : Nat) - S * (ζ ^ (2 * i + 1) / (2 * i + 1)))]

/-- The argument of the model's series. -/
def lnArg (m : Nat) : Nat := (m - 2 ^ fx) * 2 ^ fx / (m + 2 ^ fx)

/-- The sum of the model's series. -/
def lnSum (z : Nat) : Nat :=
  ((List.range 90).foldl (fun (a : Nat × Nat) i => (a.1 + a.2 / (2 * i + 1), a.2 * (z * z / 2 ^ fx) / 2 ^ fx)) (0, z)).1

theorem lnSeries_eq (m : Nat) : lnSeries m = 2 * lnSum (lnArg m) := rfl

/-- The sum is half the logarithm of (1 + ζ) / (1 − ζ), ζ being its argument up to 1/3. -/
theorem lnSum_near {z : Nat} (hz : 3 * z ≤ 2 ^ fx) :
    |(lnSum z : ℝ) - 2 ^ fx * (1 / 2 * Real.log ((1 + z / 2 ^ fx) / (1 - z / 2 ^ fx)))| ≤ 16201 := by
  have hS : (0 : ℝ) < 2 ^ fx := by positivity
  have hsum : |(lnSum z : ℝ) - 2 ^ fx * ∑ m ∈ Finset.range 90, ((z : ℝ) / 2 ^ fx) ^ (2 * m + 1) / (2 * m + 1)|
      ≤ 180 * (90 : Nat) :=
    (foldl_range_induction _
      (fun i (a : Nat × Nat) => |(a.2 : ℝ) - 2 ^ fx * ((z : ℝ) / 2 ^ fx) ^ (2 * i + 1)| ≤ 2 * i
        ∧ |(a.1 : ℝ) - 2 ^ fx * ∑ m ∈ Finset.range i, ((z : ℝ) / 2 ^ fx) ^ (2 * m + 1) / (2 * m + 1)| ≤ 180 * i) 90
      ⟨by simp [mul_div_cancel₀ _ hS.ne'], by simp⟩ (lnSeries_steps (by omega))).2
  have hζ0 : (0 : ℝ) ≤ z / 2 ^ fx := by positivity
  have hζ1 : (z : ℝ) / 2 ^ fx ≤ 1 / 3 := by
    rw [div_le_div_iff₀ hS (by norm_num)]
    have h : ((3 * z : Nat) : ℝ) ≤ (2 ^ fx : Nat) := Nat.cast_le.mpr hz
    push_cast at h
    linarith
  generalize (z : ℝ) / 2 ^ fx = ζ at *
  have htail := Real.sum_range_sub_log_div_le (x := ζ) (by rw [abs_of_nonneg hζ0]; linarith) 90
  rw [abs_of_nonneg hζ0] at htail
  have hrest : ζ ^ (2 * 90 + 1) / (1 - ζ ^ 2) ≤ 1 / 2 ^ 240 := by
    have hpow : ζ ^ (2 * 90 + 1) ≤ (1 / 3) ^ (2 * 90 + 1) := pow_le_pow_left₀ hζ0 hζ1 _
    have hden : (1 : ℝ) / 2 ≤ 1 - ζ ^ 2 := by nlinarith
    calc _ ≤ (1 / 3 : ℝ) ^ (2 * 90 + 1) / (1 / 2) := div_le_div₀ (by positivity) hpow (by norm_num) hden
      _ ≤ 1 / 2 ^ 240 := by norm_num
  have hclose : |2 ^ fx * ∑ m ∈ Finset.range 90, ζ ^ (2 * m + 1) / (2 * m + 1)
      - 2 ^ fx * (1 / 2 * Real.log ((1 + ζ) / (1 - ζ)))| ≤ 1 := by
    rw [← mul_sub, abs_mul, abs_of_pos hS, abs_sub_comm]
    calc (2 : ℝ) ^ fx * _ ≤ 2 ^ fx * (1 / 2 ^ 240) := mul_le_mul_of_nonneg_left (htail.trans hrest) hS.le
      _ = 1 := by rw [show fx = 240 from rfl]; norm_num
  exact (abs_sub_le _ _ _).trans ((add_le_add hsum hclose).trans (by norm_num))

/-- The argument of the series, rounded down, changes the logarithm by no more than three units. -/
theorem log_arg_near {m z S : ℝ} (hS : 0 < S) (h1 : S ≤ m) (h2 : m < 2 * S) (hz0 : 0 ≤ z) (hz1 : 3 * z ≤ S)
    (hlow : z ≤ (m - S) * S / (m + S)) (hhigh : (m - S) * S / (m + S) ≤ z + 1) :
    |S * Real.log ((1 + z / S) / (1 - z / S)) - S * Real.log (m / S)| ≤ 3 := by
  have hsum : 0 < m + S := by linarith
  rw [le_div_iff₀ hsum] at hlow
  rw [div_le_iff₀ hsum] at hhigh
  have harg : (1 + z / S) / (1 - z / S) = (S + z) / (S - z) := by
    rw [← mul_div_mul_left _ _ hS.ne', mul_add, mul_sub, mul_one, mul_div_cancel₀ _ hS.ne']
  have hpos : 0 < (S + z) / (S - z) := div_pos (by linarith) (by linarith)
  have hm : 0 < m / S := div_pos (by linarith) hS
  have hratio : m / S / ((S + z) / (S - z)) = 1 + ((m - S) * S - z * (m + S)) / (S * (S + z)) := by
    have : S + z ≠ 0 := by linarith
    have : S - z ≠ 0 := by linarith
    field_simp
    ring
  have hlog := Real.log_div hm.ne' hpos.ne'
  rw [hratio] at hlog
  rw [harg, ← mul_sub, abs_mul, abs_of_pos hS, abs_sub_comm, ← hlog]
  have hq0 : 0 ≤ ((m - S) * S - z * (m + S)) / (S * (S + z)) := div_nonneg (by linarith) (by positivity)
  have hq1 : S * (((m - S) * S - z * (m + S)) / (S * (S + z))) ≤ 3 := by
    rw [mul_div_assoc', mul_div_mul_left _ _ hS.ne', div_le_iff₀ (by linarith)]
    linarith
  rw [abs_of_nonneg (Real.log_nonneg (by linarith))]
  refine le_trans (mul_le_mul_of_nonneg_left ?_ hS.le) hq1
  have := Real.log_le_sub_one_of_pos (show 0 < 1 + ((m - S) * S - z * (m + S)) / (S * (S + z)) by linarith)
  linarith

/-- The series is the logarithm of its argument, within 2^15 units (R213). -/
theorem lnSeries_near {m : Nat} (h1 : 2 ^ fx ≤ m) (h2 : m < 2 * 2 ^ fx) :
    |(lnSeries m : ℝ) - 2 ^ fx * Real.log ((m : ℝ) / 2 ^ fx)| ≤ 2 ^ 15 := by
  have harg : 3 * lnArg m ≤ 2 ^ fx := by
    have hle : lnArg m * (m + 2 ^ fx) ≤ (m - 2 ^ fx) * 2 ^ fx := Nat.div_mul_le_self _ _
    have hthird : 3 * (m - 2 ^ fx) ≤ m + 2 ^ fx := by omega
    refine Nat.le_of_mul_le_mul_right ?_ (show 0 < m + 2 ^ fx by omega)
    calc 3 * lnArg m * (m + 2 ^ fx) ≤ 3 * ((m - 2 ^ fx) * 2 ^ fx) := by rw [mul_assoc]; exact Nat.mul_le_mul_left 3 hle
      _ = 3 * (m - 2 ^ fx) * 2 ^ fx := by ring
      _ ≤ 2 ^ fx * (m + 2 ^ fx) := by rw [mul_comm (2 ^ fx)]; exact Nat.mul_le_mul_right _ hthird
  have hnear := lnSum_near harg
  have hfloor := abs_natDiv_sub_le ((m - 2 ^ fx) * 2 ^ fx) (m + 2 ^ fx)
  have hlow : (lnArg m : ℝ) ≤ _ := Nat.cast_div_le
  have h1' : (2 : ℝ) ^ fx ≤ m := by exact_mod_cast h1
  have h2' : (m : ℝ) < 2 * 2 ^ fx := by exact_mod_cast h2
  have h3 : (3 : ℝ) * lnArg m ≤ 2 ^ fx := by exact_mod_cast harg
  rw [← lnArg] at hfloor
  rw [lnSeries_eq]
  push_cast [Nat.cast_sub h1] at hfloor hlow ⊢
  have hclose := log_arg_near (by positivity) h1' h2' (Nat.cast_nonneg _) h3 hlow (by linarith [(abs_le.mp hfloor).1])
  rw [abs_le] at *
  constructor <;> linarith

end Sys2Proof.Machine

namespace Sys2Proof.Machine

/-! O20: π by Machin's formula. -/

/-- A partial sum of the series of the arctangent of 1/k. -/
noncomputable def atanSum (k i : Nat) : ℝ := ∑ m ∈ Finset.range i, (-1) ^ m * (1 / k : ℝ) ^ (2 * m + 1) / (2 * m + 1 : Nat)

/-- A quotient of the series, rounded down twice, is the quotient rounded down once. -/
theorem atanInv_steps (k i : Nat) (a : Int × Nat)
    (ha : a.2 = 2 ^ 400 / k ^ (2 * i + 1) ∧ |(a.1 : ℝ) - 2 ^ 400 * atanSum k i| ≤ (i : ℝ)) :
    a.2 / (k * k) = 2 ^ 400 / k ^ (2 * (i + 1) + 1)
      ∧ |((if i % 2 = 0 then a.1 + (a.2 / (2 * i + 1) : Nat) else a.1 - (a.2 / (2 * i + 1) : Nat) : Int) : ℝ)
          - 2 ^ 400 * atanSum k (i + 1)| ≤ ((i + 1 : Nat) : ℝ) := by
  obtain ⟨hpow, hsum⟩ := ha
  have hk : k ^ (2 * (i + 1) + 1) = k ^ (2 * i + 1) * (k * k) := by ring
  refine ⟨by rw [hpow, Nat.div_div_eq_div_mul, hk], ?_⟩
  have hfloor := abs_natDiv_sub_le (2 ^ 400) (k ^ (2 * i + 1) * (2 * i + 1))
  rw [← Nat.div_div_eq_div_mul, ← hpow] at hfloor
  generalize a.2 / (2 * i + 1) = q at hfloor ⊢
  have hterm : ((2 ^ 400 : Nat) : ℝ) / (k ^ (2 * i + 1) * (2 * i + 1) : Nat)
      = 2 ^ 400 * ((1 / k : ℝ) ^ (2 * i + 1) / (2 * i + 1 : Nat)) := by
    rw [Nat.cast_pow, Nat.cast_mul, Nat.cast_pow, Nat.cast_ofNat, one_div_pow, div_div, mul_one_div]
  have hstep : ((if i % 2 = 0 then a.1 + (q : Int) else a.1 - (q : Int) : Int) : ℝ) = a.1 + (-1) ^ i * q := by
    split_ifs with h
    · rw [(Nat.even_iff.mpr h).neg_one_pow, one_mul, Int.cast_add, Int.cast_natCast]
    · rw [(Nat.odd_iff.mpr (by omega)).neg_one_pow, neg_one_mul, Int.cast_sub, Int.cast_natCast, sub_eq_add_neg]
  have hnext : atanSum k (i + 1) = atanSum k i + (-1) ^ i * ((1 / k : ℝ) ^ (2 * i + 1) / (2 * i + 1 : Nat)) := by
    rw [atanSum, Finset.sum_range_succ, mul_div_assoc]
    rfl
  rw [hterm] at hfloor
  rw [hstep, hnext, mul_add, add_sub_add_comm, mul_left_comm, ← mul_sub]
  refine (abs_add_le _ _).trans ?_
  rw [abs_mul, abs_neg_one_pow, one_mul, Nat.cast_succ i]
  exact add_le_add hsum hfloor

/-- The rest of the series after 300 terms is below one unit. -/
theorem atanSum_near {k : Nat} (hk : 2 ≤ k) : |(2 : ℝ) ^ 400 * atanSum k 300 - 2 ^ 400 * Real.arctan (1 / k)| ≤ 1 := by
  have hk' : (2 : ℝ) ≤ k := by exact_mod_cast hk
  have hx0 : (0 : ℝ) < 1 / k := by positivity
  have hx1 : (1 : ℝ) / k ≤ 1 / 2 := one_div_le_one_div_of_le (by norm_num) hk'
  have hlim := (Real.hasSum_arctan (x := 1 / k) (by rw [Real.norm_of_nonneg hx0.le]; linarith)).tendsto_sum_nat
  have hdist := dist_le_of_le_geometric_of_tendsto (((1 : ℝ) / k) ^ 2) 1 (by nlinarith) ?_ hlim 300
  · rw [Real.dist_eq, one_mul] at hdist
    have hden : (1 : ℝ) / 2 ≤ 1 - (1 / k) ^ 2 := by nlinarith
    have hsq : ((1 : ℝ) / k) ^ 2 ≤ 1 / 4 := by nlinarith
    have hpow : (((1 : ℝ) / k) ^ 2) ^ 300 ≤ (1 / 2) ^ 400 * (1 / 4) ^ 100 := by
      calc _ ≤ (1 / 4 : ℝ) ^ (200 + 100) := pow_le_pow_left₀ (by positivity) hsq _
        _ = ((1 / 2) ^ 2) ^ 200 * (1 / 4) ^ 100 := by rw [pow_add]; norm_num
        _ = (1 / 2) ^ 400 * (1 / 4) ^ 100 := by rw [← pow_mul]
    rw [← mul_sub, abs_mul, abs_of_pos (show (0 : ℝ) < 2 ^ 400 by positivity)]
    calc (2 : ℝ) ^ 400 * _ ≤ 2 ^ 400 * ((1 / 2) ^ 400 * (1 / 4) ^ 100 / (1 / 2)) :=
          mul_le_mul_of_nonneg_left (hdist.trans (div_le_div₀ (by positivity) hpow (by norm_num) hden)) (by positivity)
      _ = (2 * (1 / 2)) ^ 400 * ((1 / 4) ^ 100 / (1 / 2)) := by rw [mul_pow, mul_div_assoc, mul_assoc]
      _ ≤ 1 := by rw [mul_one_div_cancel two_ne_zero, one_pow]; norm_num
  · intro n
    have hodd : (1 : ℝ) ≤ (2 * n + 1 : Nat) := by exact_mod_cast Nat.le_add_left 1 (2 * n)
    rw [Finset.sum_range_succ, dist_self_add_right, Real.norm_eq_abs, mul_div_assoc, abs_mul, abs_neg_one_pow, one_mul, one_mul,
      abs_of_nonneg (by positivity), pow_succ, pow_mul]
    refine (div_le_self (by positivity) hodd).trans ?_
    exact mul_le_of_le_one_right (by positivity) (by linarith)

theorem atanInv_near {k : Nat} (hk : 2 ≤ k) : |(atanInv k : ℝ) - 2 ^ 400 * Real.arctan (1 / k)| ≤ 301 := by
  have hsum : |(atanInv k : ℝ) - 2 ^ 400 * atanSum k 300| ≤ ((300 : Nat) : ℝ) :=
    (foldl_range_induction _
      (fun i (a : Int × Nat) => a.2 = 2 ^ 400 / k ^ (2 * i + 1) ∧ |(a.1 : ℝ) - 2 ^ 400 * atanSum k i| ≤ (i : ℝ)) 300
      ⟨by rw [mul_zero, zero_add, pow_one], by simp [atanSum]⟩ fun i a _ => atanInv_steps k i a).2
  exact (abs_sub_le _ _ _).trans ((add_le_add hsum (atanSum_near hk)).trans (by norm_num))

/-- The model's π, within 2^13 units of 2^−400. -/
theorem piScaled_near : |(piScaled : ℝ) - 2 ^ 400 * Real.pi| ≤ 2 ^ 13 := by
  have h5 := atanInv_near (k := 5) (by decide)
  have h239 := atanInv_near (k := 239) (by decide)
  have hmachin := Real.four_mul_arctan_inv_5_sub_arctan_inv_239
  rw [← one_div, ← one_div] at hmachin
  push_cast at h5 h239
  have hbig : (2 : ℝ) ^ 13 ≤ 2 ^ 400 := pow_le_pow_right₀ one_le_two (by norm_num)
  unfold piScaled
  generalize atanInv 5 = a at *
  generalize atanInv 239 = b at *
  generalize (2 : ℝ) ^ 400 = K at *
  have hnear : |((4 * (4 * a - b) : Int) : ℝ) - K * Real.pi| ≤ 2 ^ 13 := by
    push_cast
    rw [show Real.pi = 4 * (4 * Real.arctan (1 / 5) - Real.arctan (1 / 239)) by linarith]
    rw [abs_le] at *
    constructor <;> linarith
  have hnonneg : 0 ≤ 4 * (4 * a - b) := by
    have hpi := mul_le_mul_of_nonneg_left Real.pi_gt_three.le (show 0 ≤ K by linarith)
    exact_mod_cast show (0 : ℝ) ≤ ((4 * (4 * a - b) : Int) : ℝ) by linarith [(abs_le.mp hnear).1]
  rwa [← Int.cast_natCast, Int.toNat_of_nonneg hnonneg]

end Sys2Proof.Machine

namespace Sys2Proof.Machine

/-! O20: the sine and the cosine by the series of exp (i·y). -/

/-- A partial sum of the series of exp (i·y). -/
noncomputable def cisSum (y : ℝ) (i : Nat) : ℂ := ∑ m ∈ Finset.range i, (y * Complex.I) ^ m / m.factorial

theorem cisSum_succ (y : ℝ) (i : Nat) : cisSum y (i + 1) = cisSum y i + ((y ^ i / i.factorial : ℝ) : ℂ) * Complex.I ^ i := by
  rw [cisSum, Finset.sum_range_succ, ← cisSum, mul_pow]
  push_cast
  ring

theorem cisSum_succ_re (y : ℝ) (i : Nat) :
    (cisSum y (i + 1)).re = (cisSum y i).re + y ^ i / i.factorial * (Complex.I ^ i).re := by
  rw [cisSum_succ, Complex.add_re, Complex.re_ofReal_mul]

theorem cisSum_succ_im (y : ℝ) (i : Nat) :
    (cisSum y (i + 1)).im = (cisSum y i).im + y ^ i / i.factorial * (Complex.I ^ i).im := by
  rw [cisSum_succ, Complex.add_im, Complex.im_ofReal_mul]

/-- The sign with which a term enters the cosine and the sine, by its number modulo 4. -/
theorem I_pow_cases (i : Nat) :
    (i % 4 = 0 ∧ (Complex.I ^ i).re = 1 ∧ (Complex.I ^ i).im = 0) ∨ (i % 4 = 1 ∧ (Complex.I ^ i).re = 0 ∧ (Complex.I ^ i).im = 1)
      ∨ (i % 4 = 2 ∧ (Complex.I ^ i).re = -1 ∧ (Complex.I ^ i).im = 0)
      ∨ (i % 4 = 3 ∧ (Complex.I ^ i).re = 0 ∧ (Complex.I ^ i).im = -1) := by
  rw [Complex.I_pow_eq_pow_mod i]
  have hlt := Nat.mod_lt i (show 0 < 4 by decide)
  interval_cases h : i % 4 <;> simp [Complex.I_sq, Complex.I_pow_three]

/-- One step of the model's series: the sums, and the next power over its factorial. -/
def sinCosStep (n : Int) (a : Int × Int × Int) (i : Nat) : Int × Int × Int :=
  let t := a.2.2
  let t' := t * n / 2 ^ fx / ((i : Int) + 1)
  if i % 4 = 0 then (a.1, a.2.1 + t, t') else if i % 4 = 1 then (a.1 + t, a.2.1, t')
  else if i % 4 = 2 then (a.1, a.2.1 - t, t') else (a.1 - t, a.2.1, t')

theorem sinCos_eq (n : Int) : sinCos n =
    (((List.range 80).foldl (sinCosStep n) (0, 0, 2 ^ fx)).1, ((List.range 80).foldl (sinCosStep n) (0, 0, 2 ^ fx)).2.1) := rfl

section
variable (n : Int) (a : Int × Int × Int) (i : Nat)

theorem sinCosStep_sin : ((sinCosStep n a i).1 : ℝ) = a.1 + a.2.2 * (Complex.I ^ i).im := by
  rcases I_pow_cases i with ⟨h, -, him⟩ | ⟨h, -, him⟩ | ⟨h, -, him⟩ | ⟨h, -, him⟩ <;> simp [sinCosStep, h, him, sub_eq_add_neg]

theorem sinCosStep_cos : ((sinCosStep n a i).2.1 : ℝ) = a.2.1 + a.2.2 * (Complex.I ^ i).re := by
  rcases I_pow_cases i with ⟨h, hre, -⟩ | ⟨h, hre, -⟩ | ⟨h, hre, -⟩ | ⟨h, hre, -⟩ <;> simp [sinCosStep, h, hre, sub_eq_add_neg]

theorem sinCosStep_power : (sinCosStep n a i).2.2 = a.2.2 * n / (2 ^ fx * ((i : Int) + 1)) := by
  have h : (sinCosStep n a i).2.2 = a.2.2 * n / 2 ^ fx / ((i : Int) + 1) := by
    simp only [sinCosStep]
    split_ifs <;> rfl
  rw [h, Int.ediv_ediv_of_nonneg (by positivity)]

end

theorem abs_I_pow_re_le (i : Nat) : |(Complex.I ^ i).re| ≤ 1 := by
  rcases I_pow_cases i with ⟨-, h, -⟩ | ⟨-, h, -⟩ | ⟨-, h, -⟩ | ⟨-, h, -⟩ <;> simp [h]

theorem abs_I_pow_im_le (i : Nat) : |(Complex.I ^ i).im| ≤ 1 := by
  rcases I_pow_cases i with ⟨-, -, h⟩ | ⟨-, -, h⟩ | ⟨-, -, h⟩ | ⟨-, -, h⟩ <;> simp [h]

/-- The error of the terms: it may grow fivefold at each of the first four steps, and then grows no more. -/
theorem sinCos_power_error {y S t : ℝ} (hy : |y| ≤ 4) (i : Nat) (ht : |t - S * (y ^ i / i.factorial)| ≤ 5 ^ min i 4) :
    |t * (y / (i + 1)) - S * (y ^ (i + 1) / (i + 1).factorial)| + 1 ≤ 5 ^ min (i + 1) 4 := by
  have hi : (0 : ℝ) < i + 1 := by positivity
  have hnext : S * (y ^ (i + 1) / (i + 1).factorial) = S * (y ^ i / i.factorial) * (y / (i + 1)) := by
    rw [Nat.factorial_succ, pow_succ]
    push_cast
    field_simp
  have habs : |y / (i + 1)| ≤ 4 / (i + 1) := by
    rw [abs_div, abs_of_pos hi]
    exact div_le_div_of_nonneg_right hy hi.le
  rw [hnext, ← sub_mul, abs_mul]
  have hmul : |t - S * (y ^ i / i.factorial)| * |y / (i + 1)| ≤ 5 ^ min i 4 * (4 / (i + 1)) :=
    mul_le_mul ht habs (abs_nonneg _) (by positivity)
  rcases lt_or_ge i 4 with h | h
  · have hfour : (4 : ℝ) / (i + 1) ≤ 4 := div_le_self (by norm_num) (by linarith [(Nat.cast_nonneg i : (0 : ℝ) ≤ i)])
    have hone : (1 : ℝ) ≤ 5 ^ i := one_le_pow₀ (by norm_num)
    rw [min_eq_left h.le] at hmul
    rw [min_eq_left (by omega), pow_succ]
    nlinarith
  · have hfifth : (4 : ℝ) / (i + 1) ≤ 4 / 5 := by
      have : (4 : ℝ) ≤ i := by exact_mod_cast h
      exact div_le_div_of_nonneg_left (by norm_num) (by norm_num) (by linarith)
    rw [min_eq_right h] at hmul
    rw [min_eq_right (by omega)]
    linarith

/-- What the series holds after `i` steps. -/
def SinCosNear (y : ℝ) (i : Nat) (a : Int × Int × Int) : Prop :=
  |(a.2.2 : ℝ) - 2 ^ fx * (y ^ i / i.factorial)| ≤ 5 ^ min i 4
    ∧ |(a.1 : ℝ) - 2 ^ fx * (cisSum y i).im| ≤ 625 * i ∧ |(a.2.1 : ℝ) - 2 ^ fx * (cisSum y i).re| ≤ 625 * i

theorem sinCosNear_step {n : Int} (hn : |(n : ℝ) / 2 ^ fx| ≤ 4) {i : Nat} {a : Int × Int × Int}
    (ha : SinCosNear ((n : ℝ) / 2 ^ fx) i a) : SinCosNear ((n : ℝ) / 2 ^ fx) (i + 1) (sinCosStep n a i) := by
  obtain ⟨hpow, hsin, hcos⟩ := ha
  have hle : (5 : ℝ) ^ min i 4 ≤ 625 := by
    calc (5 : ℝ) ^ min i 4 ≤ 5 ^ 4 := pow_le_pow_right₀ (by norm_num) (min_le_right _ _)
      _ = 625 := by norm_num
  have hterm : ∀ {u c e : ℝ}, |c| ≤ 1 → |u - 2 ^ fx * e| ≤ 625 * (i : ℝ) →
      |u + a.2.2 * c - 2 ^ fx * (e + ((n : ℝ) / 2 ^ fx) ^ i / i.factorial * c)| ≤ 625 * ((i + 1 : Nat) : ℝ) := by
    intro u c e hc hu
    rw [mul_add, add_sub_add_comm, ← mul_assoc, ← sub_mul]
    refine (abs_add_le _ _).trans ?_
    rw [abs_mul]
    have := mul_le_mul (hpow.trans hle) hc (abs_nonneg _) (by norm_num)
    push_cast
    linarith
  refine ⟨?_, ?_, ?_⟩
  · have hfloor := abs_intDiv_sub_le (a.2.2 * n) (b := 2 ^ fx * ((i : Int) + 1)) (by positivity)
    rw [← sinCosStep_power] at hfloor
    have hval : ((a.2.2 * n : Int) : ℝ) / ((2 ^ fx * ((i : Int) + 1) : Int) : ℝ) = a.2.2 * ((n : ℝ) / 2 ^ fx / (i + 1)) := by
      push_cast
      rw [div_div, mul_div_assoc]
    rw [hval] at hfloor
    have herr := sinCos_power_error hn i hpow
    exact (abs_sub_le _ _ _).trans ((add_le_add_left hfloor _).trans (by rwa [add_comm]))
  · rw [sinCosStep_sin, cisSum_succ_im]
    exact hterm (abs_I_pow_im_le i) hsin
  · rw [sinCosStep_cos, cisSum_succ_re]
    exact hterm (abs_I_pow_re_le i) hcos

/-- The rest of the series after 80 terms is below 2^8 units. -/
theorem cisSum_near {y : ℝ} (hy : |y| ≤ 4) :
    |2 ^ fx * (cisSum y 80).im - 2 ^ fx * Real.sin y| ≤ 2 ^ 8 ∧ |2 ^ fx * (cisSum y 80).re - 2 ^ fx * Real.cos y| ≤ 2 ^ 8 := by
  have hnorm : ‖(y : ℂ) * Complex.I‖ = |y| := by simp
  have hS : (0 : ℝ) < 2 ^ fx := by positivity
  have hexp := Complex.exp_bound' (x := y * Complex.I) (n := 80) (by
    rw [hnorm, div_le_div_iff₀ (by positivity) (by norm_num)]
    push_cast
    linarith)
  rw [hnorm, ← cisSum] at hexp
  have hrest : |y| ^ 80 / (80 : Nat).factorial * 2 ≤ 1 / 2 ^ 232 := by
    have hpow : |y| ^ 80 ≤ 4 ^ 80 := pow_le_pow_left₀ (abs_nonneg _) hy _
    have hfac : (4 : ℝ) ^ 80 * 2 * 2 ^ 232 ≤ (80 : Nat).factorial := by norm_num [Nat.factorial]
    rw [div_mul_eq_mul_div, div_le_div_iff₀ (by positivity) (by positivity)]
    nlinarith
  have hunits : ∀ u v : ℝ, |v - u| ≤ ‖Complex.exp (y * Complex.I) - cisSum y 80‖ → |2 ^ fx * u - 2 ^ fx * v| ≤ 2 ^ 8 := by
    intro u v huv
    rw [← mul_sub, abs_mul, abs_of_pos hS, abs_sub_comm]
    calc (2 : ℝ) ^ fx * |v - u| ≤ 2 ^ fx * (1 / 2 ^ 232) := mul_le_mul_of_nonneg_left (huv.trans (hexp.trans hrest)) hS.le
      _ = 2 ^ 8 := by rw [show fx = 240 from rfl]; norm_num
  constructor
  · refine hunits _ _ ?_
    rw [← Complex.exp_ofReal_mul_I_im, ← Complex.sub_im]
    exact Complex.abs_im_le_norm _
  · refine hunits _ _ ?_
    rw [← Complex.exp_ofReal_mul_I_re, ← Complex.sub_re]
    exact Complex.abs_re_le_norm _

/-- The sine and the cosine of an argument up to 4, within 2^16 units (R213). -/
theorem sinCos_near {n : Int} (hn : |(n : ℝ) / 2 ^ fx| ≤ 4) :
    |((sinCos n).1 : ℝ) - 2 ^ fx * Real.sin (n / 2 ^ fx)| ≤ 2 ^ 16
      ∧ |((sinCos n).2 : ℝ) - 2 ^ fx * Real.cos (n / 2 ^ fx)| ≤ 2 ^ 16 := by
  obtain ⟨-, hsin, hcos⟩ := foldl_range_induction (sinCosStep n) (SinCosNear ((n : ℝ) / 2 ^ fx)) 80 (a := (0, 0, 2 ^ fx))
    ⟨by simp, by simp [cisSum], by simp [cisSum]⟩ fun i a _ => sinCosNear_step hn
  obtain ⟨hsin', hcos'⟩ := cisSum_near hn
  rw [sinCos_eq]
  exact ⟨(abs_sub_le _ _ _).trans ((add_le_add hsin hsin').trans (by norm_num)),
    (abs_sub_le _ _ _).trans ((add_le_add hcos hcos').trans (by norm_num))⟩

end Sys2Proof.Machine

namespace Sys2Proof.Machine

/-! O19, O20: the special functions at a finite nonzero argument (R213). -/

/-- A finite pattern whose value is the nonzero fraction m/d of sign `neg`. -/
structure IsFraction (w : Nat) (neg : Bool) (m d : Nat) : Prop where
  dec : fp32.decode w = .fin neg (signed neg m) d
  fin : w % 2 ^ 31 < 0x7F800000
  num_pos : 0 < m
  den_pos : 0 < d
  den_le : d ≤ 2 ^ 149
  mag : m * 2 ^ 149 = patNat (w % 2 ^ 31) * d

theorem exists_isFraction {w : Nat} (hw : w % 2 ^ 31 < 0x7F800000) (h0 : fpReal w ≠ 0) :
    ∃ m d, IsFraction w (negative w) m d := by
  obtain ⟨m, d, hdec, hd, hle, hmag⟩ := decode_finite hw
  refine ⟨m, d, hdec, hw, Nat.pos_of_ne_zero ?_, hd, hle, hmag⟩
  rintro rfl
  exact h0 (by rw [fpReal, hdec, Fl.real, (signed_eq_zero _ _).mpr rfl, Int.cast_zero, zero_div])

theorem log2_lt_of_lt {n k : Nat} (hn : n < 2 ^ k) (hk : 0 < k) : n.log2 < k := by
  rcases Nat.eq_zero_or_pos n with rfl | hpos
  · simpa using hk
  · exact (Nat.log2_lt hpos.ne').mpr hn

namespace IsFraction
variable {w : Nat} {neg : Bool} {m d : Nat} (h : IsFraction w neg m d)
include h

theorem ne_zero : signed neg m ≠ 0 := fun hz => h.num_pos.ne' ((signed_eq_zero neg m).mp hz)

theorem real_eq : fpReal w = (if neg then -1 else 1) * ((m : ℝ) / d) := by rw [fpReal, h.dec, Fl.real, signed_div]

theorem abs_real : |fpReal w| = (m : ℝ) / d := by
  rw [h.real_eq, abs_mul, abs_of_nonneg (show (0 : ℝ) ≤ m / d by positivity)]
  cases neg <;> simp

/-- The magnitude is that of the pattern below the sign. -/
theorem div_eq : (m : ℝ) / d = patNat (w % 2 ^ 31) / 2 ^ 149 := by
  have hd : (0 : ℝ) < d := by exact_mod_cast h.den_pos
  rw [div_eq_div_iff hd.ne' (by positivity)]
  exact_mod_cast h.mag

theorem num_lt : m < 2 ^ 277 := by
  have hp := patNat_lt_of_finite h.fin
  refine Nat.lt_of_mul_lt_mul_right (a := 2 ^ 149) ?_
  rw [h.mag]
  exact (Nat.mul_le_mul_left _ h.den_le).trans_lt (Nat.mul_lt_mul_of_pos_right hp (Nat.two_pow_pos _))

theorem num_log2 : m.log2 < 2 ^ 14 := (log2_lt_of_lt h.num_lt (by decide)).trans (by decide)
theorem den_log2 : d.log2 < 2 ^ 14 :=
  (log2_lt_of_lt (h.den_le.trans_lt (Nat.pow_lt_pow_right (by decide) (Nat.lt_succ_self 149))) (by decide)).trans (by decide)

end IsFraction

/-- The implementation's value, a word (assumption 6). -/
def candidate (kind w : Nat) : Nat := (Config.specialFn kind (word w)).toNat

theorem candidate_lt (kind w : Nat) : candidate kind w < 2 ^ 32 := BitVec.isLt _

section
variable {w : Nat} {neg : Bool} {m d : Nat} (h : IsFraction w neg m d)
include h

/-! `frcp`. -/

theorem specialValue_frcp : specialValue 0 w =
    if fp32.round rne false false neg (signed neg d) m % 2 ^ 31 = 0x7F800000
      || fp32.round rne false false neg (signed neg d) m % 2 ^ 31 = 0 then fp32.round rne false false neg (signed neg d) m
    else accepted (withinUlp 1 (candidate 0 w) (signed neg d) (signed neg d) m) (candidate 0 w)
      (fp32.round rne false false neg (signed neg d) m) := by
  unfold specialValue
  rw [h.dec]
  dsimp only
  rw [if_neg h.ne_zero, if_pos rfl, natAbs_signed]
  rfl

end

end Sys2Proof.Machine

namespace Sys2Proof.Machine

/-! O20: the reciprocal. -/

section
variable {w : Nat} {neg : Bool} {m d : Nat} (h : IsFraction w neg m d)
include h

theorem IsFraction.inv_eq : ((signed neg d : Int) : ℝ) / m = 1 / fpReal w := by
  rw [signed_div, h.real_eq]
  cases neg <;> simp [div_neg]

theorem IsFraction.abs_inv : |1 / fpReal w| = (d : ℝ) / m := by rw [abs_div, abs_one, h.abs_real, one_div_div]

/-- Above 2^−128 a reciprocal is within the finite values. -/
theorem IsFraction.abs_inv_le (hx : (2 : ℝ) ^ (-128 : Int) < |fpReal w|) : |1 / fpReal w| ≤ fpMax := by
  have hcast : ((2 ^ 21 : Nat) : ℝ) < patNat (w % 2 ^ 31) := by
    rw [h.abs_real, h.div_eq, lt_div_iff₀ (by positivity)] at hx
    norm_num at hx ⊢
    exact hx
  have hpat : ((2 ^ 21 + 1 : Nat) : ℝ) ≤ patNat (w % 2 ^ 31) := by exact_mod_cast Nat.cast_lt.mp hcast
  rw [h.abs_inv, ← one_div_div, h.div_eq, one_div_div, div_le_iff₀ (lt_of_lt_of_le (by positivity) hpat)]
  calc (2 : ℝ) ^ 149 ≤ fpMax * (2 ^ 21 + 1 : Nat) := by rw [fpMax]; norm_num
    _ ≤ fpMax * patNat (w % 2 ^ 31) := mul_le_mul_of_nonneg_left hpat (by rw [fpMax]; norm_num)

theorem frcp_near (hx : (2 : ℝ) ^ (-128 : Int) < |fpReal w|) :
    Near (specialValue 0 w) (1 / fpReal w) (ulp (1 / fpReal w)) := by
  have hround : Near (fp32.round rne false false neg (signed neg d) m) (1 / fpReal w) (ulp (1 / fpReal w)) := by
    rw [← h.inv_eq]
    refine (near_round_rne h.num_pos h.num_log2 neg ?_).mono (half_le_self (ulp_pos _).le)
    rw [h.inv_eq]
    exact h.abs_inv_le hx
  rw [specialValue_frcp h]
  split_ifs
  · exact hround
  · refine Near.accepted (fun hok => ?_) hround
    have hcand := near_of_withinUlp (candidate_lt 0 w) h.num_pos (v := 1 / fpReal w) (by rw [h.inv_eq]; simp) h.num_log2 hok
    rwa [natAbs_signed, max_eq_left h.den_pos, ← h.abs_inv, ulp_abs, Nat.cast_one, one_mul] at hcand

/-- A reciprocal of 2^128 or more in magnitude is an infinity. -/
theorem frcp_overflow (hx : |fpReal w| ≤ (2 : ℝ) ^ (-128 : Int)) :
    specialValue 0 w = signPat neg 0x7F800000 := by
  have hpos : 0 < |fpReal w| := by
    have := h.num_pos
    have := h.den_pos
    rw [h.abs_real]
    positivity
  have hsign : decide (signed neg d < 0) = neg := by
    have := h.den_pos
    cases neg <;> simp [signed, this]
  have hround : fp32.round rne false false neg (signed neg d) m = signPat neg 0x7F800000 := by
    rw [round_rne_of_overflow h.num_pos h.num_log2 neg ?_, hsign]
    rw [h.inv_eq, abs_div, abs_one, le_div_iff₀ hpos]
    calc (2 : ℝ) ^ 128 * |fpReal w| ≤ 2 ^ 128 * 2 ^ (-128 : Int) := mul_le_mul_of_nonneg_left hx (by positivity)
      _ = 1 := by norm_num
  rw [specialValue_frcp h, hround]
  cases neg <;> rfl

end

end Sys2Proof.Machine

namespace Sys2Proof.Machine

/-! O20: the spacing near a value. -/

/-- The least spacing, that of the subnormal patterns. -/
theorem two_zpow_le_ulp (v : ℝ) : (2 : ℝ) ^ (-149 : Int) ≤ ulp v := by
  unfold ulp
  exact zpow_le_zpow_right₀ one_le_two (by omega)

/-- A significand has 24 bits. -/
theorem abs_le_ulp (v : ℝ) : |v| ≤ 2 ^ 24 * ulp v := by
  have hlt : |v| < ((2 : Nat) : ℝ) ^ (Int.log 2 |v| + 1) := Int.lt_zpow_succ_log_self one_lt_two _
  refine hlt.le.trans ?_
  rw [ulp, ← zpow_natCast (2 : ℝ) 24, ← zpow_add₀ two_ne_zero, Nat.cast_ofNat]
  exact zpow_le_zpow_right₀ one_le_two (by push_cast; omega)

theorem ulp_two_mul (v : ℝ) : ulp (2 * v) ≤ 2 * ulp v := by
  rcases eq_or_ne v 0 with rfl | hv
  · rw [mul_zero]
    linarith [ulp_pos 0]
  · have hpos := abs_pos.mpr hv
    have hlog : Int.log 2 |2 * v| ≤ Int.log 2 |v| + 1 := by
      rw [← Int.lt_add_one_iff, ← Int.lt_zpow_iff_log_lt one_lt_two (abs_pos.mpr (mul_ne_zero two_ne_zero hv)), abs_mul,
        abs_two, zpow_add_one₀ (by norm_num), mul_comm]
      exact mul_lt_mul_of_pos_right (Int.lt_zpow_succ_log_self one_lt_two _) two_pos
    rw [ulp, ulp, ← zpow_one_add₀ two_ne_zero]
    exact zpow_le_zpow_right₀ one_le_two (by omega)

/-- The spacing that a candidate is tested against is at most that of the value. -/
theorem ulp_test_le {lo : Int} {den : Nat} {v : ℝ} (hden : 2 ^ 126 ≤ den) (hlo : |(lo : ℝ) / den| ≤ |v|) :
    ulp ((max lo.natAbs 1 : Nat) / den) ≤ ulp v := by
  have hpos : (0 : ℝ) < den := by exact_mod_cast (Nat.two_pow_pos 126).trans_le hden
  by_cases h0 : lo = 0
  · subst h0
    rw [Int.natAbs_zero, max_eq_right zero_le_one, Nat.cast_one]
    refine le_trans ?_ (two_zpow_le_ulp v)
    have hsmall : |(1 : ℝ) / den| ≤ ((2 : Nat) : ℝ) ^ (-126 : Int) := by
      rw [abs_of_pos (by positivity), div_le_iff₀ hpos]
      calc (1 : ℝ) = ((2 : Nat) : ℝ) ^ (-126 : Int) * (2 ^ 126 : Nat) := by norm_num
        _ ≤ ((2 : Nat) : ℝ) ^ (-126 : Int) * den :=
          mul_le_mul_of_nonneg_left (by exact_mod_cast hden) (by positivity)
    have hlog := Int.log_mono_right (b := 2) (abs_pos.mpr (by positivity)) hsmall
    rw [Int.log_zpow one_lt_two] at hlog
    unfold ulp
    exact zpow_le_zpow_right₀ one_le_two (by omega)
  · have hone : 1 ≤ lo.natAbs := Int.natAbs_pos.mpr h0
    rw [max_eq_left hone, ← abs_intCast]
    refine ulp_le_ulp (div_ne_zero (abs_ne_zero.mpr (Int.cast_ne_zero.mpr h0)) hpos.ne') ?_
    rwa [abs_div, abs_abs, ← abs_div]

/-- The nearest value to a fixed-point number within one spacing of a value lies within two of that. -/
theorem near240_two_ulp {x e : Int} (he : -1000 ≤ e) (hmax : |(x : ℝ) / 2 ^ fx * 2 ^ e| ≤ fpMax) (hx : x ≠ 0) {v : ℝ}
    (hle : |(x : ℝ) / 2 ^ fx * 2 ^ e| ≤ 2 * |v|) (hclose : |(x : ℝ) / 2 ^ fx * 2 ^ e - v| ≤ ulp v) :
    Near (near240 x e) v (2 * ulp v) := by
  refine ((near_near240 he hmax).trans hclose).mono ?_
  have hne : (x : ℝ) / 2 ^ fx * 2 ^ e ≠ 0 :=
    mul_ne_zero (div_ne_zero (Int.cast_ne_zero.mpr hx) (by positivity)) (by positivity)
  have hulp := (ulp_le_ulp hne (y := 2 * v) (by rwa [abs_mul 2 v, abs_two])).trans (ulp_two_mul v)
  linarith

/-! The reciprocal square root. -/

section
variable {x : Nat} {v : ℝ} (hlow : (x : ℝ) ≤ v * 2 ^ fx) (hhigh : v * 2 ^ fx < x + 1)
include hlow

theorem fixed_le : (x : ℝ) / 2 ^ fx ≤ v := (div_le_iff₀ (by positivity)).mpr hlow

theorem abs_fixed_le : |(x : ℝ) / 2 ^ fx| ≤ |v| := by
  have hpos : (0 : ℝ) ≤ x / 2 ^ fx := by positivity
  rw [abs_of_nonneg hpos, abs_of_nonneg (hpos.trans (fixed_le hlow))]
  exact fixed_le hlow

include hhigh

theorem near_root_candidate {cand : Nat} (hc : cand < 2 ^ 32) (hok : withinUlp 1 cand (x : Int) ((x : Int) + 1) (2 ^ fx) = true) :
    Near cand v (ulp v) := by
  have hmem : v ∈ Set.Icc (((x : Int) : ℝ) / (2 ^ fx : Nat)) (((x + 1 : Int) : ℝ) / (2 ^ fx : Nat)) := by
    push_cast
    exact ⟨fixed_le hlow, (le_div_iff₀ (by positivity)).mpr hhigh.le⟩
  refine (near_of_withinUlp hc (Nat.two_pow_pos _) (Set.Icc_subset_uIcc hmem) (log2_two_pow_lt (by decide)) hok).mono ?_
  rw [Nat.cast_one, one_mul]
  refine ulp_test_le (Nat.pow_le_pow_right (by decide) (by decide)) ?_
  push_cast
  exact abs_fixed_le hlow

theorem near_root (hmin : 1 / 2 ^ 64 ≤ v) (hmax : v ≤ 2 ^ 75) : Near (near240 x 0) v (ulp v) := by
  have hfx : (2 : ℝ) ^ fx = 2 ^ 240 := rfl
  have hS : (0 : ℝ) < 2 ^ fx := by positivity
  have hv : 0 ≤ v := le_trans (by positivity) hmin
  have habs := abs_fixed_le hlow
  have hval : ((x : Int) : ℝ) / 2 ^ fx * 2 ^ (0 : Int) = x / 2 ^ fx := by rw [zpow_zero, mul_one, Int.cast_natCast]
  have hx : (x : ℝ) ≠ 0 := by
    intro h0
    rw [h0, hfx] at hhigh
    norm_num at hhigh hmin
    linarith
  have hnear := near_near240 (x := x) (e := 0) (by decide) (by
    rw [hval]
    refine habs.trans ?_
    rw [abs_of_nonneg hv, fpMax]
    norm_num at hmax ⊢
    linarith)
  have hclose : |(x : ℝ) / 2 ^ fx - v| ≤ 1 / 2 ^ fx := by
    rw [abs_sub_comm, abs_of_nonneg (sub_nonneg.mpr (fixed_le hlow)), sub_le_iff_le_add, ← add_div, le_div_iff₀ hS, add_comm]
    exact hhigh.le
  rw [hval] at hnear
  refine (hnear.trans hclose).mono ?_
  have hle := ulp_le_ulp (div_ne_zero hx hS.ne') habs
  have hsmall : 1 / (2 : ℝ) ^ fx ≤ ulp v / 2 :=
    le_trans (by rw [hfx]; norm_num) (div_le_div_of_nonneg_right (two_zpow_le_ulp v) zero_le_two)
  linarith

end

/-- Between which powers of two a nonzero fraction lies. -/
theorem IsFraction.abs_bounds {w : Nat} {neg : Bool} {m d : Nat} (h : IsFraction w neg m d) :
    1 / 2 ^ 149 ≤ (m : ℝ) / d ∧ (m : ℝ) / d < 2 ^ 128 := by
  have hpos : 0 < patNat (w % 2 ^ 31) := by
    refine Nat.pos_of_ne_zero fun h0 => (Nat.mul_pos h.num_pos (Nat.two_pow_pos 149)).ne' ?_
    rw [h.mag, h0, zero_mul]
  have hone : (1 : ℝ) ≤ patNat (w % 2 ^ 31) := by exact_mod_cast hpos
  have hlt : (patNat (w % 2 ^ 31) : ℝ) < 2 ^ 277 := by exact_mod_cast patNat_lt_of_finite h.fin
  rw [h.div_eq]
  refine ⟨div_le_div_of_nonneg_right hone (by positivity), ?_⟩
  rw [div_lt_iff₀ (by positivity), ← pow_add]
  exact hlt

section
variable {w m d : Nat} (h : IsFraction w false m d)
include h

theorem IsFraction.pos_eq : fpReal w = (m : ℝ) / d := by rw [h.real_eq, if_neg (by decide), one_mul]

theorem IsFraction.pos : 0 < fpReal w := by
  have := h.num_pos
  have := h.den_pos
  rw [h.pos_eq]
  positivity

theorem specialValue_frsq : specialValue 1 w = accepted
    (withinUlp 1 (candidate 1 w) (sqrtScaled d m fx : Int) ((sqrtScaled d m fx : Int) + 1) (2 ^ fx)) (candidate 1 w)
    (near240 (sqrtScaled d m fx) 0) := by
  unfold specialValue
  rw [h.dec]
  dsimp only
  rw [if_neg h.ne_zero, if_neg (by decide), if_pos rfl, if_neg (by decide), natAbs_signed]
  rfl

theorem IsFraction.rsqrt_eq : 1 / Real.sqrt (fpReal w) = Real.sqrt ((d : ℝ) / m) := by
  rw [h.pos_eq, ← inv_div (m : ℝ) d, Real.sqrt_inv, one_div]

theorem IsFraction.rsqrt_bounds : 1 / 2 ^ 64 ≤ Real.sqrt ((d : ℝ) / m) ∧ Real.sqrt ((d : ℝ) / m) ≤ 2 ^ 75 := by
  obtain ⟨hlow, hhigh⟩ := h.abs_bounds
  have hm : (0 : ℝ) < m := by exact_mod_cast h.num_pos
  have hd : (0 : ℝ) < d := by exact_mod_cast h.den_pos
  rw [div_le_div_iff₀ (by positivity) hd] at hlow
  rw [div_lt_iff₀ hd] at hhigh
  refine ⟨Real.le_sqrt_of_sq_le ?_, (Real.sqrt_le_left (by positivity)).mpr ?_⟩
  · rw [div_pow, div_le_div_iff₀ (by positivity) hm]
    linarith
  · rw [div_le_iff₀ hm]
    linarith

theorem frsq_near : Near (specialValue 1 w) (1 / Real.sqrt (fpReal w)) (ulp (1 / Real.sqrt (fpReal w))) := by
  obtain ⟨hlow, hhigh⟩ := sqrtScaled_spec d h.num_pos fx
  obtain ⟨hmin, hmax⟩ := h.rsqrt_bounds
  rw [specialValue_frsq h, h.rsqrt_eq]
  exact Near.accepted (near_root_candidate hlow hhigh (candidate_lt 1 w)) (near_root hlow hhigh hmin hmax)

end

end Sys2Proof.Machine

namespace Sys2Proof.Machine

/-! O20: values that FP32 holds are not rounded. -/

/-- A significand below 2^24 is a whole number of the units that it rounds to. -/
theorem unit_dvd {num den M j : Nat} (hn : 0 < num) (hd : 0 < den) (hs : den.log2 < 2 ^ 14) (hM : M < 2 ^ 24)
    (hval : num * 2 ^ 149 = M * 2 ^ j * den) : den * 2 ^ unitExp num den ∣ num * 2 ^ 149 := by
  obtain ⟨hlow, -⟩ := unitExp_spec hn hd hs
  rw [hval] at hlow ⊢
  rw [mul_comm den]
  refine Nat.mul_dvd_mul_right (Nat.dvd_mul_left_of_dvd (pow_dvd_pow 2 ?_) M) den
  by_contra hk
  have hle : 2 ^ 23 * 2 ^ unitExp num den ≤ M * 2 ^ j := by
    refine Nat.le_of_mul_le_mul_right ?_ hd
    calc 2 ^ 23 * 2 ^ unitExp num den * den = 2 ^ 23 * (den * 2 ^ unitExp num den) := by ring
      _ ≤ M * 2 ^ j * den := hlow (by omega)
  have hpow : 2 ^ (j + 1) ≤ 2 ^ unitExp num den := Nat.pow_le_pow_right (by decide) (by omega)
  have hlt : M * 2 ^ j < 2 ^ 24 * 2 ^ j := Nat.mul_lt_mul_of_pos_right hM (Nat.two_pow_pos j)
  rw [pow_succ] at hpow
  omega

/-- A value of at most 24 significant bits at an exponent of FP32 is its own rounding. -/
theorem near_round_rne_exact {n : Int} {d M j : Nat} (hd : 0 < d) (hs : d.log2 < 2 ^ 14) (z : Bool) (hM : M < 2 ^ 24)
    (hval : |(n : ℝ) / d| = M * 2 ^ j / 2 ^ 149) (hmax : |(n : ℝ) / d| ≤ fpMax) :
    Near (fp32.round rne false false z n d) (n / d) 0 := by
  have hd' : (0 : ℝ) < d := by exact_mod_cast hd
  by_cases hn : n = 0
  · rw [hn, Int.cast_zero, zero_div]
    exact near_round_zero rne false z
  · have hpos : 0 < n.natAbs := Int.natAbs_pos.mpr hn
    rw [abs_div, Nat.abs_cast, abs_intCast, div_eq_div_iff hd'.ne' (by positivity)] at hval
    obtain ⟨q, hq⟩ := unit_dvd hpos hd hs hM (by exact_mod_cast hval)
    have hpat : patNat (fp32.magPat rne (decide (n < 0)) n.natAbs d) * d = n.natAbs * 2 ^ 149 := by
      rw [patNat_magPat hpos hd hs, hq, roundQuot_of_exact (Nat.mul_mod_right _ _),
        Nat.mul_div_cancel_left _ (Nat.mul_pos hd (Nat.two_pow_pos _))]
      ring
    refine near_round_of_magPat hd z hn (magPat_le_maxPat hpos hd hs (natAbs_mul_le_of_fpMax hd hmax) _) (le_of_eq ?_)
    rw [abs_eq_zero, sub_eq_zero, div_eq_div_iff (by positivity) hd'.ne']
    exact_mod_cast hpat

theorem near240_exact {x e : Int} {M j : Nat} (he : -1000 ≤ e) (hM : M < 2 ^ 24)
    (hval : |(x : ℝ) / 2 ^ fx * 2 ^ e| = M * 2 ^ j / 2 ^ 149) (hmax : |(x : ℝ) / 2 ^ fx * 2 ^ e| ≤ fpMax) :
    Near (near240 x e) (x / 2 ^ fx * 2 ^ e) 0 := by
  obtain ⟨n, d, hd, hs, heq, hv⟩ := near240_eq x he
  rw [← hv] at hval hmax ⊢
  rw [heq]
  exact near_round_rne_exact hd hs _ hM hval hmax

end Sys2Proof.Machine

namespace Sys2Proof.Machine

/-! O20: the power of two. -/

/-- Two powers of e, the second up to 2, differ by at most four times their exponents' difference. -/
theorem abs_exp_sub_exp_le {a b : ℝ} (hab : |a - b| ≤ 1) (hb : Real.exp b ≤ 2) : |Real.exp a - Real.exp b| ≤ 4 * |a - b| := by
  have hfactor : Real.exp a - Real.exp b = Real.exp b * (Real.exp (a - b) - 1) := by
    rw [mul_sub, ← Real.exp_add, add_sub_cancel, mul_one]
  rw [hfactor, abs_mul, Real.abs_exp]
  calc Real.exp b * |Real.exp (a - b) - 1| ≤ 2 * (2 * |a - b|) :=
        mul_le_mul hb (Real.abs_exp_sub_one_le hab) (abs_nonneg _) zero_le_two
    _ = 4 * |a - b| := by ring

theorem ln2_le : ln2 ≤ 2 ^ fx := by
  have h := (abs_le.mp ln2_near).2
  have hlog : Real.log 2 ≤ 3 / 4 := by linarith [Real.log_two_lt_d9]
  have hS : (2 : ℝ) ^ 11 ≤ 2 ^ fx := pow_le_pow_right₀ one_le_two (by decide)
  have : (ln2 : ℝ) ≤ 2 ^ fx := by nlinarith
  exact_mod_cast this

/-- A product of two fixed-point numbers of at most 1. -/
theorem abs_mul_div_sub_le {a b : Nat} {S α β e δ : ℝ} (hS : 0 < S) (hα : |(a : ℝ) - S * α| ≤ e) (hβ : |(b : ℝ) - S * β| ≤ δ)
    (hb : (b : ℝ) ≤ S) (ha : |α| ≤ 1) : |(a : ℝ) * b / S - S * (α * β)| ≤ e + δ := by
  have hdiff : (a : ℝ) * b / S - S * (α * β) = (a - S * α) * (b / S) + α * (b - S * β) := by field_simp; ring
  have hb1 : |(b : ℝ) / S| ≤ 1 := by
    rw [abs_of_nonneg (by positivity)]
    exact (div_le_one hS).mpr hb
  rw [hdiff]
  refine (abs_add_le _ _).trans (add_le_add ?_ ?_)
  · rw [abs_mul]
    exact (mul_le_of_le_one_right (abs_nonneg _) hb1).trans hα
  · rw [abs_mul]
    exact (mul_le_of_le_one_left (abs_nonneg _) ha).trans hβ

/-- The exponent of e that the model evaluates for the fraction r/d. -/
def fracExp (r d : Nat) : Nat := r * 2 ^ fx / d * ln2 / 2 ^ fx

theorem exp2Parts_eq (n : Int) (d : Nat) : exp2Parts n d = (n / d, expSeries (fracExp (n - n / d * d).toNat d)) := rfl

section
variable {r d : Nat} (hr : r < d)
include hr

theorem fracExp_le : fracExp r d ≤ 2 ^ fx := by
  have hquot : r * 2 ^ fx / d ≤ 2 ^ fx :=
    Nat.div_le_of_le_mul (Nat.mul_le_mul_right _ hr.le)
  exact Nat.div_le_of_le_mul (Nat.mul_le_mul hquot ln2_le)

theorem fracExp_near : |(fracExp r d : ℝ) - 2 ^ fx * ((r : ℝ) / d * Real.log 2)| ≤ 2 ^ 10 := by
  have hS : (0 : ℝ) < 2 ^ fx := by positivity
  have hfrac : |(r : ℝ) / d| ≤ 1 := by
    rw [abs_of_nonneg (by positivity)]
    exact div_le_one_of_le₀ (by exact_mod_cast hr.le) (Nat.cast_nonneg _)
  have hquot : |((r * 2 ^ fx / d : Nat) : ℝ) - 2 ^ fx * (r / d)| ≤ 1 := by
    have := abs_natDiv_sub_le (r * 2 ^ fx) d
    push_cast at this
    rwa [mul_comm (r : ℝ), mul_div_assoc] at this
  have hprod := abs_mul_div_sub_le hS hquot ln2_near (by exact_mod_cast ln2_le) hfrac
  have hround := abs_natDiv_sub_le (r * 2 ^ fx / d * ln2) (2 ^ fx)
  push_cast at hround
  exact (abs_sub_le _ _ _).trans ((add_le_add hround hprod).trans (by norm_num))

theorem exp2Frac_near : |(expSeries (fracExp r d) : ℝ) - 2 ^ fx * 2 ^ ((r : ℝ) / d)| ≤ 2 ^ 15 := by
  have hS : (0 : ℝ) < 2 ^ fx := by positivity
  have hbig : (2 : ℝ) ^ 10 ≤ 2 ^ fx := pow_le_pow_right₀ one_le_two (by decide)
  have hpow : (2 : ℝ) ^ ((r : ℝ) / d) = Real.exp (r / d * Real.log 2) := by
    rw [Real.rpow_def_of_pos two_pos, mul_comm]
  have htwo : Real.exp (r / d * Real.log 2) ≤ 2 := by
    rw [← hpow]
    calc (2 : ℝ) ^ ((r : ℝ) / d) ≤ 2 ^ (1 : ℝ) :=
          Real.rpow_le_rpow_of_exponent_le one_le_two (div_le_one_of_le₀ (by exact_mod_cast hr.le) (Nat.cast_nonneg _))
      _ = 2 := Real.rpow_one 2
  have harg : |(fracExp r d : ℝ) / 2 ^ fx - r / d * Real.log 2| ≤ 2 ^ 10 / 2 ^ fx := by
    rw [le_div_iff₀ hS, ← abs_of_pos hS, ← abs_mul, abs_of_pos hS, sub_mul, div_mul_cancel₀ _ hS.ne', mul_comm _ ((2 : ℝ) ^ fx)]
    exact fracExp_near hr
  have hexp := abs_exp_sub_exp_le (harg.trans ((div_le_one hS).mpr hbig)) htwo
  have hscaled : |2 ^ fx * Real.exp ((fracExp r d : ℝ) / 2 ^ fx) - 2 ^ fx * Real.exp (r / d * Real.log 2)| ≤ 2 ^ 12 := by
    rw [← mul_sub, abs_mul, abs_of_pos hS]
    calc 2 ^ fx * |Real.exp ((fracExp r d : ℝ) / 2 ^ fx) - Real.exp (r / d * Real.log 2)|
        ≤ 2 ^ fx * (4 * (2 ^ 10 / 2 ^ fx)) :=
          mul_le_mul_of_nonneg_left (hexp.trans (mul_le_mul_of_nonneg_left harg (by norm_num))) hS.le
      _ = 2 ^ 12 := by rw [mul_left_comm, mul_div_cancel₀ _ hS.ne']; norm_num
  rw [hpow]
  exact (abs_sub_le _ _ _).trans ((add_le_add (expSeries_near (fracExp_le hr)) hscaled).trans (by norm_num))

end

theorem expSeries_zero : expSeries 0 = 2 ^ fx := by decide

end Sys2Proof.Machine

namespace Sys2Proof.Machine

/-- The ends of the interval that a power of two is tested against, over this. -/
def fex2Den (i : Int) : Nat := if 0 ≤ i then 2 ^ fx else 2 ^ (fx + (-i).toNat)
def fex2Scale (i : Int) : Int := if 0 ≤ i then 2 ^ i.toNat else 1

theorem fex2Scale_div (a i : Int) : ((a * fex2Scale i : Int) : ℝ) / fex2Den i = a / 2 ^ fx * 2 ^ i := by
  unfold fex2Scale fex2Den
  split_ifs with h
  · obtain ⟨k, rfl⟩ := Int.eq_ofNat_of_zero_le h
    push_cast
    rw [Int.toNat_natCast, zpow_natCast]
    ring
  · obtain ⟨k, hk⟩ := Int.eq_ofNat_of_zero_le (show 0 ≤ -i by omega)
    obtain rfl : i = -(k : Int) := by omega
    push_cast
    rw [neg_neg, Int.toNat_natCast, zpow_neg, zpow_natCast, pow_add]
    field_simp

theorem le_fex2Den (i : Int) : 2 ^ fx ≤ fex2Den i := by
  unfold fex2Den
  split_ifs
  · exact le_rfl
  · exact Nat.pow_le_pow_right (by decide) (Nat.le_add_right _ _)

theorem fex2Den_log2 {i : Int} (hi : -1000 ≤ i) : (fex2Den i).log2 < 2 ^ 14 := by
  unfold fex2Den
  split_ifs
  · exact log2_two_pow_lt (by decide)
  · exact log2_two_pow_lt (by unfold fx; omega)

section
variable {w : Nat} {neg : Bool} {m d : Nat} (h : IsFraction w neg m d)
include h

theorem specialValue_fex2 : specialValue 2 w =
    let n := signed neg m
    let i := (exp2Parts n d).1
    let p := (exp2Parts n d).2
    if n * 1 ≥ 128 * (d : Int) then 0x7F800000
    else if n ≤ -151 * (d : Int) then accepted (withinUlp 2 (candidate 2 w) 0 1 (2 ^ 151)) (candidate 2 w) 0
    else if decide (n % (d : Int) = 0) && decide (-149 ≤ i) then near240 p i
    else accepted (withinUlp 2 (candidate 2 w) ((p - slack) * fex2Scale i) ((p + slack) * fex2Scale i) (fex2Den i))
      (candidate 2 w) (near240 p i) := by
  unfold specialValue
  rw [h.dec]
  dsimp only
  rw [if_neg h.ne_zero, if_neg (by decide), if_neg (by decide), if_pos rfl]
  rfl

end

section
variable {i : Int} {p : Nat} {F v : ℝ} (hp : |(p : ℝ) - 2 ^ fx * F| ≤ 2 ^ 15) (hF : 1 ≤ F) (hv : v = F * 2 ^ i)
include hp hF hv

theorem exp2_error : |((p : Int) : ℝ) / 2 ^ fx * 2 ^ i - v| ≤ v / 2 ^ 200 := by
  have hS : (0 : ℝ) < 2 ^ fx := by positivity
  have hpow : (0 : ℝ) < 2 ^ i := by positivity
  have hdiff : ((p : Int) : ℝ) / 2 ^ fx * 2 ^ i - v = (p - 2 ^ fx * F) / 2 ^ fx * 2 ^ i := by
    rw [hv, Int.cast_natCast]
    field_simp
  rw [hdiff, abs_mul, abs_div, abs_of_pos hS, abs_of_pos hpow, hv, mul_div_right_comm]
  refine mul_le_mul_of_nonneg_right ?_ hpow.le
  calc |(p : ℝ) - 2 ^ fx * F| / 2 ^ fx ≤ 2 ^ 15 / 2 ^ fx := div_le_div_of_nonneg_right hp hS.le
    _ ≤ 1 / 2 ^ 200 := by rw [show fx = 240 from rfl]; norm_num
    _ ≤ F / 2 ^ 200 := div_le_div_of_nonneg_right hF (by positivity)

theorem near_exp2 (hi : -1000 ≤ i) (hmax : v ≤ 2 ^ 128 * (1 - 1 / 2 ^ 18)) : Near (near240 p i) v (2 * ulp v) := by
  have herr := exp2_error hp hF hv
  have hpos : 0 < v := by
    rw [hv]
    positivity
  have hsize := abs_le_ulp v
  have hbounds := abs_le.mp herr
  have hscaled : v / 2 ^ 200 ≤ v / 2 ^ 24 :=
    div_le_div_of_nonneg_left hpos.le (by positivity) (pow_le_pow_right₀ one_le_two (by norm_num))
  rw [abs_of_pos hpos] at hsize
  have habs : |((p : Int) : ℝ) / 2 ^ fx * 2 ^ i| ≤ v + v / 2 ^ 24 := by
    rw [abs_of_nonneg (by positivity)]
    linarith
  refine near240_two_ulp hi ?_ ?_ ?_ (herr.trans ?_)
  · refine habs.trans ?_
    rw [fpMax]
    norm_num at hmax ⊢
    linarith
  · rintro h0
    rw [h0] at hbounds
    norm_num at hbounds
    linarith
  · rw [abs_of_pos hpos]
    refine habs.trans ?_
    linarith
  · refine hscaled.trans ?_
    linarith

theorem near_exp2_candidate (hi : -1000 ≤ i) {cand : Nat} (hc : cand < 2 ^ 32)
    (hok : withinUlp 2 cand (((p : Int) - slack) * fex2Scale i) (((p : Int) + slack) * fex2Scale i) (fex2Den i) = true) :
    Near cand v (2 * ulp v) := by
  have hS : (0 : ℝ) < 2 ^ fx := by positivity
  have hpow : (0 : ℝ) < 2 ^ i := by positivity
  obtain ⟨hlow, hhigh⟩ := abs_le.mp hp
  have hbig : (2 : ℝ) ^ 33 ≤ 2 ^ fx := pow_le_pow_right₀ one_le_two (by decide)
  have hscale : (2 : ℝ) ^ fx ≤ 2 ^ fx * F := le_mul_of_one_le_right hS.le hF
  have hslack : (slack : ℝ) = 2 ^ 32 := by norm_num [slack]
  have hbelow : (((p : Int) - slack : Int) : ℝ) / 2 ^ fx * 2 ^ i ≤ v := by
    rw [hv, Int.cast_sub, hslack, Int.cast_natCast]
    refine mul_le_mul_of_nonneg_right ((div_le_iff₀ hS).mpr ?_) hpow.le
    linarith
  have habove : v ≤ (((p : Int) + slack : Int) : ℝ) / 2 ^ fx * 2 ^ i := by
    rw [hv, Int.cast_add, hslack, Int.cast_natCast]
    refine mul_le_mul_of_nonneg_right ((le_div_iff₀ hS).mpr ?_) hpow.le
    linarith
  have hpos : 0 ≤ (((p : Int) - slack : Int) : ℝ) / 2 ^ fx * 2 ^ i := by
    rw [Int.cast_sub, hslack, Int.cast_natCast]
    refine mul_nonneg (div_nonneg ?_ hS.le) hpow.le
    linarith
  rw [← fex2Scale_div] at hbelow habove hpos
  have hden : 0 < fex2Den i := (Nat.two_pow_pos fx).trans_le (le_fex2Den i)
  have hnear := near_of_withinUlp hc hden (Set.Icc_subset_uIcc ⟨hbelow, habove⟩) (fex2Den_log2 hi) hok
  refine hnear.mono (mul_le_mul_of_nonneg_left (ulp_test_le ?_ ?_) (by norm_num))
  · exact (Nat.pow_le_pow_right (by decide) (by decide)).trans (le_fex2Den i)
  · rwa [abs_of_nonneg hpos, abs_of_nonneg (hpos.trans hbelow)]

end

end Sys2Proof.Machine

namespace Sys2Proof.Machine

section
variable {w : Nat} {neg : Bool} {m d : Nat} (h : IsFraction w neg m d)
include h

theorem IsFraction.quot_eq : fpReal w = (signed neg m : ℝ) / d := by rw [fpReal, h.dec, Fl.real]

theorem IsFraction.le_iff (k : Int) : (k : ℝ) ≤ fpReal w ↔ k * (d : Int) ≤ signed neg m := by
  have hd : (0 : ℝ) < d := by exact_mod_cast h.den_pos
  rw [h.quot_eq, le_div_iff₀ hd]
  exact_mod_cast Iff.rfl

theorem IsFraction.ge_iff (k : Int) : fpReal w ≤ k ↔ signed neg m ≤ k * (d : Int) := by
  have hd : (0 : ℝ) < d := by exact_mod_cast h.den_pos
  rw [h.quot_eq, div_le_iff₀ hd]
  exact_mod_cast Iff.rfl

/-- The greatest value below 128. -/
theorem IsFraction.le_of_lt_128 (hx : fpReal w < 128) : fpReal w ≤ 128 - 1 / 2 ^ 17 := by
  cases neg with
  | true =>
    have : (0 : ℝ) ≤ m / d := by positivity
    rw [h.real_eq, if_pos rfl]
    norm_num
    linarith
  | false =>
    rw [h.pos_eq, h.div_eq] at hx ⊢
    have hcast : (patNat (w % 2 ^ 31) : ℝ) < ((2 ^ 156 : Nat) : ℝ) := by
      rw [div_lt_iff₀ (by positivity)] at hx
      norm_num at hx ⊢
      exact hx
    have h128 : patNat 0x43000000 = 2 ^ 156 := by
      rw [show 0x43000000 = 2 ^ 23 + 133 * 2 ^ 23 by norm_num, patNat_add (by omega) (by omega), ← pow_add]
    have hpred : patNat 0x42FFFFFF = (2 ^ 24 - 1) * 2 ^ 132 := by
      rw [show 0x42FFFFFF = (2 ^ 24 - 1) + 132 * 2 ^ 23 by norm_num, patNat_add (by omega) (by omega)]
    rw [Nat.cast_lt, ← h128, patNat_strictMono.lt_iff_lt] at hcast
    have hle : patNat (w % 2 ^ 31) ≤ (2 ^ 24 - 1) * 2 ^ 132 := hpred ▸ patNat_strictMono.monotone (Nat.le_of_lt_succ hcast)
    rw [← Nat.cast_le (α := ℝ)] at hle
    rw [div_le_iff₀ (by positivity)]
    norm_num at hle ⊢
    exact hle

theorem IsFraction.two_rpow_le (hx : fpReal w < 128) : (2 : ℝ) ^ fpReal w ≤ 2 ^ 128 * (1 - 1 / 2 ^ 18) := by
  have hbern := rpow_one_add_le_one_add_mul_self (s := -(1 / 2)) (p := 1 / 2 ^ 17) (by norm_num) (by norm_num) (by norm_num)
  calc (2 : ℝ) ^ fpReal w ≤ 2 ^ ((128 : Nat) - 1 / 2 ^ 17 : ℝ) :=
        Real.rpow_le_rpow_of_exponent_le one_le_two (by exact_mod_cast h.le_of_lt_128 hx)
    _ = 2 ^ 128 * (1 + -(1 / 2)) ^ (1 / 2 ^ 17 : ℝ) := by
        rw [Real.rpow_sub two_pos, Real.rpow_natCast, show (1 : ℝ) + -(1 / 2) = 2⁻¹ by norm_num, Real.inv_rpow zero_le_two]
        rfl
    _ ≤ 2 ^ 128 * (1 - 1 / 2 ^ 18) := mul_le_mul_of_nonneg_left (hbern.trans (by norm_num)) (by positivity)

/-- The whole part of an exponent and its fraction. -/
theorem IsFraction.two_rpow_eq : let r := (signed neg m - signed neg m / d * d).toNat
    r < d ∧ (2 : ℝ) ^ fpReal w = 2 ^ ((r : ℝ) / d) * 2 ^ (signed neg m / (d : Int)) := by
  have hd : (0 : ℝ) < d := by exact_mod_cast h.den_pos
  have hdZ : (0 : Int) < d := by exact_mod_cast h.den_pos
  rw [h.quot_eq]
  generalize signed neg m = n
  have hlow := Int.emod_nonneg n hdZ.ne'
  have hlt := Int.emod_lt_of_pos n hdZ
  have hmod : n - n / d * d = n % d := by rw [Int.emod_def, mul_comm (d : Int)]
  have hcast : ((n % (d : Int)).toNat : ℝ) = ((n % (d : Int) : Int) : ℝ) := by
    rw [← Int.cast_natCast, Int.toNat_of_nonneg hlow]
  have hdiv : (n : ℝ) / d = ((n % (d : Int) : Int) : ℝ) / d + ((n / (d : Int) : Int) : ℝ) := by
    rw [div_add' _ _ _ hd.ne', ← Int.cast_natCast d, ← Int.cast_mul, ← Int.cast_add, Int.emod_add_ediv_mul]
  dsimp only
  rw [hmod]
  refine ⟨by omega, ?_⟩
  rw [hcast, hdiv, Real.rpow_add two_pos, Real.rpow_intCast]

theorem fex2_overflow (hx : 128 ≤ fpReal w) : specialValue 2 w = 0x7F800000 := by
  have hn := (h.le_iff 128).mp (by exact_mod_cast hx)
  rw [specialValue_fex2 h]
  dsimp only
  rw [if_pos (by rw [mul_one]; exact hn)]

omit h in
/-- A power below 2^−151 is tested between 0 and that. -/
theorem near_fex2_tiny (hx : fpReal w ≤ -151) :
    Near (accepted (withinUlp 2 (candidate 2 w) 0 1 (2 ^ 151)) (candidate 2 w) 0) ((2 : ℝ) ^ fpReal w)
      (2 * ulp ((2 : ℝ) ^ fpReal w)) := by
  have hpos : (0 : ℝ) < 2 ^ fpReal w := by positivity
  have hle : (2 : ℝ) ^ fpReal w ≤ 2 ^ (-151 : Int) := by
    rw [← Real.rpow_intCast]
    exact Real.rpow_le_rpow_of_exponent_le one_le_two (by exact_mod_cast hx)
  have hulp := two_zpow_le_ulp ((2 : ℝ) ^ fpReal w)
  generalize (2 : ℝ) ^ fpReal w = v at *
  refine Near.accepted (fun hok => ?_) ⟨by decide, by decide, ?_⟩
  · refine (near_of_withinUlp (candidate_lt 2 w) (Nat.two_pow_pos 151) (Set.Icc_subset_uIcc ⟨?_, ?_⟩)
      (log2_two_pow_lt (by decide)) hok).mono (mul_le_mul_of_nonneg_left (ulp_test_le (by norm_num) ?_) (by norm_num))
    · simpa using hpos.le
    · norm_num at hle ⊢
      exact hle
    · simp
  · have hzero : fpReal 0 = 0 := by rw [fpReal_pos (by decide), patNat_zero, Nat.cast_zero, zero_div]
    rw [hzero, zero_sub, abs_neg, abs_of_pos hpos]
    norm_num at hle hulp
    linarith

theorem fex2_near (hx : fpReal w < 128) :
    Near (specialValue 2 w) ((2 : ℝ) ^ fpReal w) (2 * ulp ((2 : ℝ) ^ fpReal w)) := by
  have hd : (0 : Int) < d := by exact_mod_cast h.den_pos
  have hhigh : ¬ signed neg m * 1 ≥ 128 * (d : Int) := by
    rw [mul_one, ge_iff_le, ← h.le_iff]
    exact not_le.mpr (by exact_mod_cast hx)
  rw [specialValue_fex2 h]
  dsimp only
  rw [if_neg hhigh]
  by_cases hlow : signed neg m ≤ -151 * (d : Int)
  · rw [if_pos hlow]
    exact near_fex2_tiny (by exact_mod_cast (h.ge_iff (-151)).mpr hlow)
  · rw [if_neg hlow, exp2Parts_eq]
    obtain ⟨hr, hv⟩ := h.two_rpow_eq
    have hi : -1000 ≤ signed neg m / (d : Int) :=
      (by decide : (-1000 : Int) ≤ -151).trans ((Int.le_ediv_iff_mul_le hd).mpr (by omega))
    have hp := exp2Frac_near hr
    have hF := Real.one_le_rpow one_le_two (show (0 : ℝ) ≤ (signed neg m - signed neg m / d * d).toNat / d by positivity)
    have hnear := near_exp2 hp hF hv hi (h.two_rpow_le hx)
    split_ifs
    · exact hnear
    · exact Near.accepted (near_exp2_candidate hp hF hv hi (candidate_lt 2 w)) hnear

theorem fex2_exact {k : Int} (hk : -149 ≤ k) (hk' : k ≤ 127) (hx : fpReal w = k) :
    Near (specialValue 2 w) ((2 : ℝ) ^ k) 0 := by
  have hd : (0 : Int) < d := by exact_mod_cast h.den_pos
  have hn : signed neg m = k * d := le_antisymm ((h.ge_iff k).mp hx.le) ((h.le_iff k).mp hx.ge)
  have hhigh : ¬ k * (d : Int) * 1 ≥ 128 * (d : Int) := by
    rw [mul_one, not_le]
    exact mul_lt_mul_of_pos_right (by omega) hd
  have hlow : ¬ k * (d : Int) ≤ -151 * (d : Int) := not_le.mpr (mul_lt_mul_of_pos_right (by omega) hd)
  have hquot : k * (d : Int) / d = k := Int.mul_ediv_cancel k hd.ne'
  have hfrac : fracExp 0 d = 0 := by simp [fracExp]
  rw [specialValue_fex2 h, hn]
  dsimp only
  rw [if_neg hhigh, if_neg hlow, exp2Parts_eq, hquot, sub_self, Int.toNat_zero, hfrac, expSeries_zero, Int.mul_emod_left,
    decide_eq_true rfl, decide_eq_true hk, Bool.and_self, if_pos rfl]
  have hone : (((2 ^ fx : Nat) : Int) : ℝ) / 2 ^ fx * 2 ^ k = 2 ^ k := by
    push_cast
    rw [div_self (by positivity), one_mul]
  obtain ⟨j, hj⟩ := Int.eq_ofNat_of_zero_le (show 0 ≤ k + 149 by omega)
  have hpow : (2 : ℝ) ^ k = 2 ^ j / 2 ^ 149 := by
    rw [show k = j - (149 : Nat) by omega, zpow_sub₀ two_ne_zero, zpow_natCast, zpow_natCast]
  have habs : |(2 : ℝ) ^ k| = 2 ^ k := abs_of_pos (by positivity)
  have hnear := near240_exact (x := (2 ^ fx : Nat)) (e := k) (M := 1) (j := j) (by omega) (by decide)
    (by rw [hone, habs, hpow, Nat.cast_one, one_mul]) (by
      rw [hone, habs]
      refine (zpow_le_zpow_right₀ one_le_two hk').trans ?_
      rw [fpMax]
      norm_num)
  rwa [hone] at hnear

end

end Sys2Proof.Machine

namespace Sys2Proof.Machine

/-! O20: the logarithm. -/

/-- The significand of a fraction, from 1 to below 2 and scaled by 2^240, rounded down. -/
def logMant (m d : Nat) : Nat :=
  if 2 ^ 14 ≤ floorLog m d then m * 2 ^ fx / (d * 2 ^ (floorLog m d - 2 ^ 14))
  else m * 2 ^ (fx + 2 ^ 14 - floorLog m d) / d

/-- The logarithm of a scaled significand. -/
def logFrac (q : Nat) : Nat := if q = 2 ^ fx then 0 else lnSeries q * 2 ^ fx / ln2

/-- The logarithm of a fraction, scaled by 2^240. -/
def logFixed (m d : Nat) : Int := ((floorLog m d : Int) - (2 ^ 14 : Nat)) * 2 ^ fx + logFrac (logMant m d)

/-- The arguments from 0.5 to 2. -/
def logBand (m d : Nat) : Bool := decide (d ≤ 2 * m) && decide (m ≤ 2 * d)

section
variable {w m d : Nat} (h : IsFraction w false m d)
include h

theorem specialValue_flg2 : specialValue 3 w =
    if logFrac (logMant m d) = 0 && !logBand m d then near240 (logFixed m d) 0
    else accepted
      (if logBand m d then
        withinAbs 22 (candidate 3 w) (logFixed m d - slackIn (logFixed m d)) (logFixed m d + slackIn (logFixed m d)) (2 ^ fx)
      else
        withinUlp 2 (candidate 3 w) (logFixed m d - slackIn (logFixed m d)) (logFixed m d + slackIn (logFixed m d)) (2 ^ fx))
      (candidate 3 w) (near240 (logFixed m d) 0) := by
  unfold specialValue
  rw [h.dec]
  dsimp only
  rw [if_neg h.ne_zero, if_neg (by decide), if_neg (by decide), if_neg (by decide), if_pos rfl, if_neg (by decide),
    natAbs_signed]
  rfl

end

section
variable {m d : Nat} (hm : 0 < m) (hd : 0 < d) (hs : d.log2 < 2 ^ 14)
include hm hd hs

/-- The significand is a quotient rounded down. -/
theorem logMant_eq : ∃ a b : Nat, 0 < b ∧ logMant m d = a / b
    ∧ (a : ℝ) / b = 2 ^ fx * ((m : ℝ) / d / 2 ^ Int.log 2 ((m : ℝ) / d)) := by
  rw [intLog_div hm hd hs]
  unfold logMant
  generalize floorLog m d = l
  generalize (2 ^ 14 : Nat) = off
  have hd' : (d : ℝ) ≠ 0 := by exact_mod_cast hd.ne'
  split_ifs with hl
  · refine ⟨_, _, Nat.mul_pos hd (Nat.two_pow_pos _), rfl, ?_⟩
    obtain ⟨j, rfl⟩ := Nat.exists_eq_add_of_le hl
    push_cast
    rw [add_sub_cancel_left, zpow_natCast, Nat.add_sub_cancel_left]
    field_simp
  · refine ⟨_, _, hd, rfl, ?_⟩
    obtain ⟨j, rfl⟩ := Nat.exists_eq_add_of_lt (not_le.mp hl)
    have hexp : ((l : Int) - (l + j + 1 : Nat)) = -((j + 1 : Nat) : Int) := by omega
    rw [hexp, zpow_neg, zpow_natCast, show fx + (l + j + 1) - l = fx + (j + 1) by omega]
    push_cast
    rw [pow_add]
    field_simp

end

/-- The significand of a positive value. -/
noncomputable def signif (x : ℝ) : ℝ := x / 2 ^ Int.log 2 x

theorem signif_bounds {x : ℝ} (hx : 0 < x) : 1 ≤ signif x ∧ signif x < 2 := by
  have hlow : ((2 : Nat) : ℝ) ^ Int.log 2 x ≤ x := Int.zpow_log_le_self one_lt_two hx
  have hhigh : x < ((2 : Nat) : ℝ) ^ (Int.log 2 x + 1) := Int.lt_zpow_succ_log_self one_lt_two x
  rw [Nat.cast_ofNat] at hlow hhigh
  rw [zpow_add_one₀ two_ne_zero] at hhigh
  have hpow : (0 : ℝ) < 2 ^ Int.log 2 x := by positivity
  exact ⟨(one_le_div hpow).mpr hlow, (div_lt_iff₀ hpow).mpr (by linarith)⟩

theorem logb_eq {x : ℝ} (hx : 0 < x) : Real.logb 2 x = Int.log 2 x + Real.logb 2 (signif x) := by
  have hpow : (0 : ℝ) < 2 ^ Int.log 2 x := by positivity
  rw [signif, Real.logb_div hx.ne' hpow.ne', ← Real.rpow_intCast, Real.logb_rpow two_pos (by norm_num)]
  ring

section
variable {m d : Nat} (hm : 0 < m) (hd : 0 < d) (hs : d.log2 < 2 ^ 14)
include hm hd hs

theorem logMant_near : |(logMant m d : ℝ) - 2 ^ fx * signif ((m : ℝ) / d)| ≤ 1
    ∧ 2 ^ fx ≤ logMant m d ∧ logMant m d < 2 * 2 ^ fx := by
  obtain ⟨a, b, hb, heq, hval⟩ := logMant_eq hm hd hs
  rw [← signif] at hval
  obtain ⟨hlow, hhigh⟩ := signif_bounds (show (0 : ℝ) < m / d by positivity)
  have hb' : (0 : ℝ) < b := by exact_mod_cast hb
  have hS : (0 : ℝ) < 2 ^ fx := by positivity
  rw [heq, ← hval]
  refine ⟨abs_natDiv_sub_le a b, (Nat.le_div_iff_mul_le hb).mpr ?_, (Nat.div_lt_iff_lt_mul hb).mpr ?_⟩
  · have : 2 ^ fx * (b : ℝ) ≤ a := by
      rw [← le_div_iff₀ hb', hval]
      exact le_mul_of_one_le_right hS.le hlow
    exact_mod_cast this
  · have : (a : ℝ) < 2 * 2 ^ fx * b := by
      rw [← div_lt_iff₀ hb', hval, mul_comm 2]
      exact mul_lt_mul_of_pos_left hhigh hS
    exact_mod_cast this

end

/-- Logarithms of values from 1 differ no more than the values do. -/
theorem abs_log_sub_log_le {a b : ℝ} (ha : 1 ≤ a) (hb : 1 ≤ b) : |Real.log a - Real.log b| ≤ |a - b| := by
  wlog hab : a ≤ b generalizing a b
  · rw [abs_sub_comm, abs_sub_comm a]
    exact this hb ha (le_of_not_ge hab)
  · have hlog := Real.log_le_log (by linarith) hab
    rw [abs_of_nonpos (by linarith), abs_of_nonpos (by linarith)]
    have hquot := Real.log_le_sub_one_of_pos (show 0 < b / a by positivity)
    rw [Real.log_div (by linarith) (by linarith)] at hquot
    have : b / a - 1 ≤ b - a := by
      rw [div_sub_one (by linarith)]
      exact div_le_self (by linarith) ha
    linarith

theorem le_ln2 : (2 : ℝ) ^ fx ≤ 2 * ln2 := by
  have h := (abs_le.mp ln2_near).1
  have hlog : 5 / 8 ≤ Real.log 2 := by linarith [Real.log_two_gt_d9]
  have hS : (2 : ℝ) ^ 12 ≤ 2 ^ fx := pow_le_pow_right₀ one_le_two (by decide)
  nlinarith

/-- The quotient of two logarithms in fixed point. -/
theorem log_quot_near {L T S lam κ e δ : ℝ} (hS : 0 < S) (hT : S ≤ 2 * T) (hκ : 0 < κ) (hlam0 : 0 ≤ lam) (hlam : lam ≤ κ)
    (hL : |L - S * lam| ≤ e) (hTk : |T - S * κ| ≤ δ) : |L * S / T - S * (lam / κ)| ≤ 2 * (e + δ) := by
  have hTpos : 0 < T := by linarith
  have hdiff : L * S / T - S * (lam / κ) = S / T * ((L - S * lam) - lam / κ * (T - S * κ)) := by field_simp; ring
  have hST : S / T ≤ 2 := (div_le_iff₀ hTpos).mpr hT
  have hq : |lam / κ| ≤ 1 := by
    rw [abs_of_nonneg (by positivity)]
    exact (div_le_one hκ).mpr hlam
  rw [hdiff, abs_mul, abs_of_nonneg (by positivity)]
  refine mul_le_mul hST ((abs_sub _ _).trans (add_le_add hL ?_)) (abs_nonneg _) zero_le_two
  rw [abs_mul]
  exact (mul_le_of_le_one_left (abs_nonneg _) hq).trans hTk

/-- The logarithm of a significand known to one unit. -/
theorem logFrac_near {q : Nat} {ρ : ℝ} (hρ : 1 ≤ ρ) (hρ2 : ρ < 2) (hq : |(q : ℝ) - 2 ^ fx * ρ| ≤ 1) (hq1 : 2 ^ fx ≤ q)
    (hq2 : q < 2 * 2 ^ fx) : |(logFrac q : ℝ) - 2 ^ fx * Real.logb 2 ρ| ≤ 2 ^ 17 := by
  have hS : (0 : ℝ) < 2 ^ fx := by positivity
  have hlog0 : 0 ≤ Real.log ρ := Real.log_nonneg hρ
  have hlog1 : Real.log ρ ≤ Real.log 2 := Real.log_le_log (by linarith) hρ2.le
  have hone : (1 : ℝ) ≤ q / 2 ^ fx := (one_le_div hS).mpr (by exact_mod_cast hq1)
  have harg : |2 ^ fx * Real.log (q / 2 ^ fx) - 2 ^ fx * Real.log ρ| ≤ 1 := by
    rw [← mul_sub, abs_mul, abs_of_pos hS]
    calc 2 ^ fx * |Real.log (q / 2 ^ fx) - Real.log ρ| ≤ 2 ^ fx * |q / 2 ^ fx - ρ| :=
          mul_le_mul_of_nonneg_left (abs_log_sub_log_le hone hρ) hS.le
      _ = |(q : ℝ) - 2 ^ fx * ρ| := by
          rw [← abs_of_pos hS, ← abs_mul, abs_of_pos hS, mul_sub, mul_div_cancel₀ _ hS.ne']
      _ ≤ 1 := hq
  unfold logFrac
  split_ifs with h1
  · have hT := log_quot_near (L := 0) hS (κ := Real.log 2) (T := 2 ^ fx * Real.log 2) (e := 1) (δ := 0)
      (by nlinarith [Real.log_two_gt_d9]) (Real.log_pos one_lt_two) hlog0 hlog1
      (by simpa [h1] using harg) (by rw [sub_self, abs_zero])
    rw [zero_mul, zero_div] at hT
    rw [Real.logb, Nat.cast_zero]
    exact hT.trans (by norm_num)
  · have hL := (abs_sub_le _ _ _).trans (add_le_add (lnSeries_near hq1 hq2) harg)
    have hquot := log_quot_near hS le_ln2 (Real.log_pos one_lt_two) hlog0 hlog1 hL ln2_near
    have hround := abs_natDiv_sub_le (lnSeries q * 2 ^ fx) ln2
    push_cast at hround
    exact (abs_sub_le _ _ _).trans ((add_le_add hround hquot).trans (by norm_num))

end Sys2Proof.Machine

namespace Sys2Proof.Machine

section
variable {m d : Nat} (hm : 0 < m) (hd : 0 < d) (hs : d.log2 < 2 ^ 14)
include hm hd hs

theorem logFixed_eq : logFixed m d = Int.log 2 ((m : ℝ) / d) * 2 ^ fx + logFrac (logMant m d) := by
  rw [logFixed, intLog_div hm hd hs]

theorem logFixed_near : |(logFixed m d : ℝ) - 2 ^ fx * Real.logb 2 ((m : ℝ) / d)| ≤ 2 ^ 17 := by
  have hpos : (0 : ℝ) < m / d := by positivity
  obtain ⟨hq, hq1, hq2⟩ := logMant_near hm hd hs
  obtain ⟨hρ, hρ2⟩ := signif_bounds hpos
  have hfrac := logFrac_near hρ hρ2 hq hq1 hq2
  rw [logFixed_eq hm hd hs, logb_eq hpos, mul_add]
  push_cast
  rwa [mul_comm (2 ^ fx : ℝ) (Int.log 2 _ : ℝ), add_sub_add_left_eq_sub]

/-- At a power of two the logarithm is a whole number. -/
theorem logFixed_two_zpow {k : Int} (hx : (m : ℝ) / d = 2 ^ k) : logFrac (logMant m d) = 0 ∧ logFixed m d = k * 2 ^ fx := by
  have hlog : Int.log 2 ((m : ℝ) / d) = k := by
    have := Int.log_zpow (R := ℝ) (b := 2) one_lt_two k
    rwa [Nat.cast_ofNat, ← hx] at this
  have hmant : logMant m d = 2 ^ fx := by
    obtain ⟨a, b, hb, heq, hval⟩ := logMant_eq hm hd hs
    have hb' : (b : ℝ) ≠ 0 := by exact_mod_cast hb.ne'
    rw [hlog, hx, div_self (by positivity), mul_one, div_eq_iff hb'] at hval
    rw [heq, show a = 2 ^ fx * b by exact_mod_cast hval, Nat.mul_div_cancel _ hb]
  have hfrac : logFrac (logMant m d) = 0 := by rw [hmant, logFrac, if_pos rfl]
  exact ⟨hfrac, by rw [logFixed_eq hm hd hs, hlog, hfrac, Nat.cast_zero, add_zero]⟩

end

theorem ulp_le_of_abs_le_two {x : ℝ} (hx : |x| ≤ 2) : ulp x ≤ (2 : ℝ) ^ (-22 : Int) := by
  unfold ulp
  refine zpow_le_zpow_right₀ one_le_two ?_
  have hlog : Int.log 2 |x| ≤ 1 := by
    rcases eq_or_ne x 0 with rfl | h0
    · simp
    · rw [← Int.lt_add_one_iff, ← Int.lt_zpow_iff_log_lt one_lt_two (abs_pos.mpr h0)]
      exact hx.trans_lt (by norm_num)
  omega

/-- A value within 2^17 units of a fixed-point number. -/
theorem abs_div_sub_le_of_near {X : Int} {v : ℝ} (h : |(X : ℝ) - 2 ^ fx * v| ≤ 2 ^ 17) : |(X : ℝ) / 2 ^ fx - v| ≤ 1 / 2 ^ 200 := by
  have hS : (0 : ℝ) < 2 ^ fx := by positivity
  have hdiff : (X : ℝ) / 2 ^ fx - v = (X - 2 ^ fx * v) / 2 ^ fx := by field_simp
  rw [hdiff, abs_div, abs_of_pos hS]
  refine (div_le_div_of_nonneg_right h hS.le).trans ?_
  rw [show fx = 240 from rfl]
  norm_num

/-- The nearest value to one of at most about 1 in magnitude. -/
theorem near240_small {X : Int} {v : ℝ} (hv : |v| ≤ 1) (h : |(X : ℝ) - 2 ^ fx * v| ≤ 2 ^ 17) :
    Near (near240 X 0) v ((2 : ℝ) ^ (-22 : Int)) := by
  have hclose := abs_div_sub_le_of_near h
  have hval : (X : ℝ) / 2 ^ fx * 2 ^ (0 : Int) = X / 2 ^ fx := by rw [zpow_zero, mul_one]
  have htwo : |(X : ℝ) / 2 ^ fx| ≤ 2 := by
    have := abs_sub_abs_le_abs_sub ((X : ℝ) / 2 ^ fx) v
    have hsmall : (1 : ℝ) / 2 ^ 200 ≤ 1 := by norm_num
    linarith
  have hnear := near_near240 (x := X) (e := 0) (by decide) (by
    rw [hval]
    refine htwo.trans ?_
    rw [fpMax]
    norm_num)
  rw [hval] at hnear
  refine (hnear.trans hclose).mono ?_
  calc ulp ((X : ℝ) / 2 ^ fx) / 2 + 1 / 2 ^ 200 ≤ (2 : ℝ) ^ (-22 : Int) / 2 + 1 / 2 ^ 200 :=
        add_le_add (div_le_div_of_nonneg_right (ulp_le_of_abs_le_two htwo) zero_le_two) le_rfl
    _ ≤ (2 : ℝ) ^ (-22 : Int) := by norm_num

theorem slackIn_cases (X : Int) : (X < 0 ∧ (slackIn X : ℝ) = -2 ^ 32) ∨ (0 ≤ X ∧ (slackIn X : ℝ) = 2 ^ 32) := by
  rcases lt_or_ge X 0 with h | h
  · exact .inl ⟨h, by norm_num [slackIn, h, slack]⟩
  · exact .inr ⟨h, by norm_num [slackIn, not_lt.mpr h, slack]⟩

section
variable {X : Int} {v : ℝ} (h : |(X : ℝ) - 2 ^ fx * v| ≤ 2 ^ 17)
include h

/-- The value lies between the ends that a candidate is tested against. -/
theorem mem_uIcc_slackIn :
    v ∈ Set.uIcc (((X - slackIn X : Int) : ℝ) / (2 ^ fx : Nat)) (((X + slackIn X : Int) : ℝ) / (2 ^ fx : Nat)) := by
  have hS : (0 : ℝ) < 2 ^ fx := by positivity
  obtain ⟨hlow, hhigh⟩ := abs_le.mp h
  push_cast
  rw [Set.mem_uIcc, div_le_iff₀ hS, le_div_iff₀ hS, div_le_iff₀ hS, le_div_iff₀ hS]
  rcases slackIn_cases X with ⟨-, hX⟩ | ⟨-, hX⟩ <;> rw [hX]
  · right
    constructor <;> linarith
  · left
    constructor <;> linarith

/-- The first end is the nearer to 0. -/
theorem abs_sub_slackIn_le (hv : 1 ≤ |v|) : |((X - slackIn X : Int) : ℝ) / (2 ^ fx : Nat)| ≤ |v| := by
  have hS : (0 : ℝ) < 2 ^ fx := by positivity
  have hbig : (2 : ℝ) ^ 33 ≤ 2 ^ fx := pow_le_pow_right₀ one_le_two (by decide)
  have hscale : |2 ^ fx * v| = 2 ^ fx * |v| := by rw [abs_mul, abs_of_pos hS]
  have hge : (2 : ℝ) ^ fx ≤ 2 ^ fx * |v| := le_mul_of_one_le_right hS.le hv
  have hX := abs_sub_abs_le_abs_sub (X : ℝ) (2 ^ fx * v)
  have hX' := abs_sub_abs_le_abs_sub (2 ^ fx * v) (X : ℝ)
  rw [abs_sub_comm] at hX'
  push_cast
  rw [abs_div, abs_of_pos hS, div_le_iff₀ hS]
  rcases slackIn_cases X with ⟨h0, hs⟩ | ⟨h0, hs⟩ <;> rw [hs]
  · have hneg : (X : ℝ) < 0 := by exact_mod_cast h0
    rw [abs_of_neg hneg] at hX hX'
    rw [abs_of_nonpos (by linarith)]
    linarith
  · have hpos : (0 : ℝ) ≤ X := by exact_mod_cast h0
    rw [abs_of_nonneg hpos] at hX hX'
    rw [abs_of_nonneg (by linarith)]
    linarith

/-- A candidate for a value of 1 or more in magnitude. -/
theorem near_slackIn_candidate (hv : 1 ≤ |v|) {cand : Nat} (hc : cand < 2 ^ 32)
    (hok : withinUlp 2 cand (X - slackIn X) (X + slackIn X) (2 ^ fx) = true) : Near cand v (2 * ulp v) :=
  (near_of_withinUlp hc (Nat.two_pow_pos fx) (mem_uIcc_slackIn h) (log2_two_pow_lt (by decide)) hok).mono
    (mul_le_mul_of_nonneg_left
      (ulp_test_le (Nat.pow_le_pow_right (by decide) (by decide)) (abs_sub_slackIn_le h hv)) (by norm_num))

/-- The nearest value to one of 1 or more in magnitude. -/
theorem near240_large (hv : 1 ≤ |v|) (hmax : |v| ≤ 149) : Near (near240 X 0) v (2 * ulp v) := by
  have hclose := abs_div_sub_le_of_near h
  have hsmall : (1 : ℝ) / 2 ^ 200 ≤ 1 / 2 ^ 24 := by norm_num
  have habs := abs_sub_abs_le_abs_sub ((X : ℝ) / 2 ^ fx) v
  have hulp := abs_le_ulp v
  have hval : (X : ℝ) / 2 ^ fx * 2 ^ (0 : Int) = X / 2 ^ fx := by rw [zpow_zero, mul_one]
  refine near240_two_ulp (by decide) ?_ ?_ ?_ ?_
  · rw [hval, fpMax]
    norm_num at hsmall ⊢
    linarith
  · rintro rfl
    rw [Int.cast_zero, zero_div, zero_sub, abs_neg] at hclose
    norm_num at hclose
    linarith
  · rw [hval]
    linarith
  · rw [hval]
    linarith

end

section
variable {w m d : Nat} (h : IsFraction w false m d)
include h

theorem logBand_iff : logBand m d = true ↔ 1 / 2 ≤ fpReal w ∧ fpReal w ≤ 2 := by
  have hd : (0 : ℝ) < d := by exact_mod_cast h.den_pos
  rw [h.pos_eq, logBand, Bool.and_eq_true, decide_eq_true_eq, decide_eq_true_eq, div_le_div_iff₀ two_pos hd, div_le_iff₀ hd,
    one_mul, mul_comm (m : ℝ)]
  exact_mod_cast Iff.rfl

theorem flg2_near_band (hlow : 1 / 2 ≤ fpReal w) (hhigh : fpReal w ≤ 2) :
    Near (specialValue 3 w) (Real.logb 2 (fpReal w)) ((2 : ℝ) ^ (-22 : Int)) := by
  have hband := (logBand_iff h).mpr ⟨hlow, hhigh⟩
  have hlog := logFixed_near h.num_pos h.den_pos h.den_log2
  have habs : |Real.logb 2 (fpReal w)| ≤ 1 := by
    rw [abs_le, Real.le_logb_iff_rpow_le one_lt_two h.pos, Real.logb_le_iff_le_rpow one_lt_two h.pos, Real.rpow_neg_one,
      Real.rpow_one]
    exact ⟨by rw [← one_div]; exact hlow, hhigh⟩
  rw [specialValue_flg2 h, hband, Bool.not_true, Bool.and_false, if_neg (by decide), if_pos rfl]
  rw [← h.pos_eq] at hlog
  refine Near.accepted (fun hok => ?_) (near240_small habs hlog)
  refine (near_of_withinAbs (candidate_lt 3 w) (Nat.two_pow_pos fx) (mem_uIcc_slackIn hlog) hok).mono ?_
  norm_num

theorem one_le_abs_logb (hout : fpReal w < 1 / 2 ∨ 2 < fpReal w) : 1 ≤ |Real.logb 2 (fpReal w)| := by
  have hpos := h.pos
  rw [le_abs, le_neg]
  rcases hout with hlow | hhigh
  · right
    rw [Real.logb_le_iff_le_rpow one_lt_two hpos, Real.rpow_neg_one, ← one_div]
    exact hlow.le
  · left
    rw [Real.le_logb_iff_rpow_le one_lt_two hpos, Real.rpow_one]
    exact hhigh.le

theorem abs_logb_le : |Real.logb 2 (fpReal w)| ≤ 149 := by
  obtain ⟨hlow, hhigh⟩ := h.abs_bounds
  rw [abs_le, Real.le_logb_iff_rpow_le one_lt_two h.pos, Real.logb_le_iff_le_rpow one_lt_two h.pos, h.pos_eq]
  norm_num at hlow hhigh ⊢
  constructor <;> linarith

theorem not_logBand (hout : fpReal w < 1 / 2 ∨ 2 < fpReal w) : logBand m d = false := by
  rw [← Bool.not_eq_true, logBand_iff h]
  rintro ⟨hlow, hhigh⟩
  rcases hout with hout | hout <;> linarith

theorem flg2_near_out (hout : fpReal w < 1 / 2 ∨ 2 < fpReal w) :
    Near (specialValue 3 w) (Real.logb 2 (fpReal w)) (2 * ulp (Real.logb 2 (fpReal w))) := by
  have hlog := logFixed_near h.num_pos h.den_pos h.den_log2
  rw [← h.pos_eq] at hlog
  have hone := one_le_abs_logb h hout
  have hnear := near240_large hlog hone (abs_logb_le h)
  rw [specialValue_flg2 h, not_logBand h hout, Bool.not_false, Bool.and_true, if_neg Bool.false_ne_true]
  split_ifs
  · exact hnear
  · exact Near.accepted (near_slackIn_candidate hlog hone (candidate_lt 3 w)) hnear

/-- Outside the band the logarithm of a power of two is exact. -/
theorem flg2_exact (hout : fpReal w < 1 / 2 ∨ 2 < fpReal w) {k : Int} (hx : fpReal w = 2 ^ k) :
    Near (specialValue 3 w) k 0 := by
  have hk : |Real.logb 2 (fpReal w)| ≤ 149 := abs_logb_le h
  rw [hx, ← Real.rpow_intCast, Real.logb_rpow two_pos (by norm_num)] at hk
  have hnat : k.natAbs ≤ 149 := by
    rw [abs_intCast] at hk
    exact_mod_cast hk
  rw [h.pos_eq] at hx
  obtain ⟨hfrac, hfixed⟩ := logFixed_two_zpow h.num_pos h.den_pos h.den_log2 hx
  have hval : ((k * 2 ^ fx : Int) : ℝ) / 2 ^ fx * 2 ^ (0 : Int) = k := by
    push_cast
    rw [mul_div_cancel_right₀ _ (by positivity), zpow_zero, mul_one]
  rw [specialValue_flg2 h, not_logBand h hout, hfrac, hfixed, decide_eq_true rfl, Bool.not_false, Bool.and_self, if_pos rfl]
  have hnear := near240_exact (x := k * 2 ^ fx) (e := 0) (M := k.natAbs) (j := 149) (by decide) (by omega)
    (by rw [hval, abs_intCast, mul_div_cancel_right₀ _ (by positivity)]) (by
      rw [hval, fpMax]
      norm_num
      linarith)
  rwa [hval] at hnear

end

end Sys2Proof.Machine

namespace Sys2Proof.Machine

/-! O20: the sine and the cosine. -/

/-- A number modulo 2P, brought between −P and P. -/
def centred (P y : Int) : Int := if P < y % (2 * P) then y % (2 * P) - 2 * P else y % (2 * P)

theorem centred_spec {P : Int} (hP : 0 < P) (y : Int) : |centred P y| ≤ P ∧ ∃ q : Int, centred P y = y - 2 * P * q := by
  have hlow := Int.emod_nonneg y (show 2 * P ≠ 0 by omega)
  have hhigh := Int.emod_lt_of_pos y (show 0 < 2 * P by omega)
  have hdiv := Int.emod_def y (2 * P)
  unfold centred
  split_ifs with h
  · exact ⟨abs_le.mpr ⟨by omega, by omega⟩, y / (2 * P) + 1, by rw [hdiv]; ring⟩
  · exact ⟨abs_le.mpr ⟨by omega, by omega⟩, y / (2 * P), hdiv⟩

/-- The argument's multiple of 2π that is taken off. -/
theorem turns_le {y t q P Q θ : ℝ} (hQ : 1 ≤ Q) (hQP : Q ≤ P) (hθ : |θ| ≤ 2 ^ 128) (hy : |y - θ * Q| ≤ 1) (ht : |t| ≤ P)
    (hq : t = y - 2 * P * q) : |q| ≤ 2 ^ 128 := by
  have hP : 0 < P := by linarith
  have hyle : |y| ≤ 2 ^ 128 * P + 1 := by
    have h1 : |θ * Q| ≤ 2 ^ 128 * P := by
      rw [abs_mul, abs_of_pos (show 0 < Q by linarith)]
      exact mul_le_mul hθ hQP (by linarith) (by positivity)
    linarith [abs_sub_abs_le_abs_sub y (θ * Q)]
  have hprod : 2 * P * |q| ≤ (2 ^ 128 + 2) * P := by
    have heq : 2 * P * q = y - t := by linarith
    calc 2 * P * |q| = |2 * P * q| := by rw [abs_mul, abs_of_pos (show 0 < 2 * P by linarith)]
      _ ≤ |y| + |t| := by rw [heq]; exact abs_sub _ _
      _ ≤ (2 ^ 128 + 2) * P := by linarith
  have : 2 * |q| ≤ 2 ^ 128 + 2 := le_of_mul_le_mul_right (by linarith) hP
  linarith

/-- The reduced argument, at a scale of Q. -/
theorem reduced_near {y t q P Q θ : ℝ} (hQ : 0 < Q) (hy : |y - θ * Q| ≤ 1) (hP : |P - Q * Real.pi| ≤ 2 ^ 13)
    (hq : |q| ≤ 2 ^ 128) (ht : t = y - 2 * P * q) : |t / Q - (θ - q * (2 * Real.pi))| ≤ 2 ^ 143 / Q := by
  have hdiff : t / Q - (θ - q * (2 * Real.pi)) = ((y - θ * Q) - 2 * q * (P - Q * Real.pi)) / Q := by
    rw [ht]
    field_simp
    ring
  rw [hdiff, abs_div, abs_of_pos hQ]
  refine div_le_div_of_nonneg_right ((abs_sub _ _).trans ?_) hQ.le
  have hprod : |2 * q * (P - Q * Real.pi)| ≤ 2 * 2 ^ 128 * 2 ^ 13 := by
    rw [abs_mul, abs_mul, abs_two]
    exact mul_le_mul (mul_le_mul_of_nonneg_left hq zero_le_two) hP (abs_nonneg _) (by positivity)
  linarith

/-- The argument of the series, scaled by 2^240. -/
def reducedArg (n : Int) (d : Nat) : Int := centred piScaled (n * 2 ^ 400 / (d : Int)) / 2 ^ 160

theorem piScaled_bounds : (2 : ℝ) ^ 400 ≤ piScaled ∧ (piScaled : ℝ) ≤ 2 ^ 400 * (7 / 2) := by
  obtain ⟨hlow, hhigh⟩ := abs_le.mp piScaled_near
  have hbig : (2 : ℝ) ^ 15 ≤ 2 ^ 400 := pow_le_pow_right₀ one_le_two (by decide)
  have hpi3 := Real.pi_gt_three
  have hpi4 := Real.pi_lt_d2
  generalize (2 : ℝ) ^ 400 = Q at *
  constructor <;> nlinarith

theorem two_pow_400 : (2 : ℝ) ^ 400 = 2 ^ fx * 2 ^ 160 := by rw [← pow_add]; rfl

/-- A number at a scale of 2^400, brought to 2^240. -/
theorem rescaled_near (t : Int) : |((t / 2 ^ 160 : Int) : ℝ) / 2 ^ fx - t / 2 ^ 400| ≤ 1 / 2 ^ fx := by
  have hS : (0 : ℝ) < 2 ^ fx := by positivity
  have hround := abs_intDiv_sub_le t (b := 2 ^ 160) (by positivity)
  rw [Int.cast_pow, Int.cast_ofNat] at hround
  generalize t / 2 ^ 160 = N at *
  have hscale : (N : ℝ) / 2 ^ fx - t / 2 ^ 400 = (N - t / 2 ^ 160) / 2 ^ fx := by
    rw [two_pow_400]
    field_simp
  rw [hscale, abs_div, abs_of_pos hS]
  exact div_le_div_of_nonneg_right hround hS.le

section
variable {n : Int} {d : Nat} (hd : 0 < d)
include hd

/-- The argument less a multiple of 2π, at a scale of 2^400. -/
theorem centred_near (hθ : |(n : ℝ) / d| ≤ 2 ^ 128) : |(centred piScaled (n * 2 ^ 400 / (d : Int)) : ℝ) / 2 ^ 400| ≤ 7 / 2
    ∧ ∃ q : Int, |(centred piScaled (n * 2 ^ 400 / (d : Int)) : ℝ) / 2 ^ 400 - ((n : ℝ) / d - q * (2 * Real.pi))| ≤ 1 / 2 ^ fx := by
  obtain ⟨hQP, hPQ⟩ := piScaled_bounds
  have hS : (0 : ℝ) < 2 ^ fx := by positivity
  have hQ : (1 : ℝ) ≤ 2 ^ 400 := one_le_pow₀ one_le_two
  have hQpos : (0 : ℝ) < 2 ^ 400 := zero_lt_one.trans_le hQ
  have hPpos : 0 < piScaled := by exact_mod_cast hQpos.trans_le hQP
  have hy := abs_intDiv_sub_le (n * 2 ^ 400) (b := d) (by exact_mod_cast hd)
  obtain ⟨hle, q, hq⟩ := centred_spec (P := piScaled) (by exact_mod_cast hPpos) (n * 2 ^ 400 / (d : Int))
  rw [Int.cast_mul, Int.cast_pow, Int.cast_ofNat, Int.cast_natCast, mul_div_right_comm] at hy
  generalize n * 2 ^ 400 / (d : Int) = y at *
  generalize centred piScaled y = t at *
  have htR : (t : ℝ) = y - 2 * piScaled * q := by exact_mod_cast hq
  have hleR : |(t : ℝ)| ≤ piScaled := by exact_mod_cast hle
  have hred := reduced_near hQpos hy piScaled_near (turns_le hQ hQP hθ hy hleR htR) htR
  refine ⟨?_, q, hred.trans ?_⟩
  · rw [abs_div, abs_of_pos hQpos, div_le_iff₀ hQpos, mul_comm]
    exact hleR.trans hPQ
  · rw [two_pow_400, div_le_div_iff₀ (by positivity) hS, one_mul, mul_comm]
    exact mul_le_mul_of_nonneg_left (pow_le_pow_right₀ one_le_two (by decide)) hS.le

theorem reducedArg_spec (hθ : |(n : ℝ) / d| ≤ 2 ^ 128) : |(reducedArg n d : ℝ) / 2 ^ fx| ≤ 4
    ∧ ∃ q : Int, |(reducedArg n d : ℝ) / 2 ^ fx - ((n : ℝ) / d - q * (2 * Real.pi))| ≤ 2 / 2 ^ fx := by
  have hN := rescaled_near (centred piScaled (n * 2 ^ 400 / (d : Int)))
  obtain ⟨hsize, q, hq⟩ := centred_near hd hθ
  rw [← reducedArg] at hN
  generalize (centred piScaled (n * 2 ^ 400 / (d : Int)) : ℝ) / 2 ^ 400 = u at *
  constructor
  · have hone : (1 : ℝ) / 2 ^ fx ≤ 1 / 2 := one_div_le_one_div_of_le two_pos (le_self_pow₀ one_le_two (by decide))
    linarith [abs_sub_abs_le_abs_sub ((reducedArg n d : ℝ) / 2 ^ fx) u]
  · refine ⟨q, (abs_sub_le _ u _).trans ((add_le_add hN hq).trans (le_of_eq ?_))⟩
    ring

theorem sinCos_reducedArg_near (hθ : |(n : ℝ) / d| ≤ 2 ^ 128) :
    |((sinCos (reducedArg n d)).1 : ℝ) - 2 ^ fx * Real.sin (n / d)| ≤ 2 ^ 17
      ∧ |((sinCos (reducedArg n d)).2 : ℝ) - 2 ^ fx * Real.cos (n / d)| ≤ 2 ^ 17 := by
  obtain ⟨hfour, q, hq⟩ := reducedArg_spec hd hθ
  obtain ⟨hsin, hcos⟩ := sinCos_near hfour
  have hS : (0 : ℝ) < 2 ^ fx := by positivity
  generalize (reducedArg n d : ℝ) / 2 ^ fx = a at *
  have hscaled : ∀ {u v : ℝ}, |u - v| ≤ 2 / 2 ^ fx → |2 ^ fx * u - 2 ^ fx * v| ≤ 2 := by
    intro u v huv
    rw [← mul_sub, abs_mul, abs_of_pos hS, mul_comm]
    exact (le_div_iff₀ hS).mp huv
  have hsin' := hscaled ((Real.abs_sin_sub_sin_le _ _).trans hq)
  have hcos' := hscaled ((Real.abs_cos_sub_cos_le _ _).trans hq)
  rw [Real.sin_sub_int_mul_two_pi] at hsin'
  rw [Real.cos_sub_int_mul_two_pi] at hcos'
  exact ⟨(abs_sub_le _ _ _).trans ((add_le_add hsin hsin').trans (by norm_num)),
    (abs_sub_le _ _ _).trans ((add_le_add hcos hcos').trans (by norm_num))⟩

end

/-- A sine or cosine known to 2^17 units. -/
theorem near_trig {X : Int} {v : ℝ} (hv : |v| ≤ 1) (h : |(X : ℝ) - 2 ^ fx * v| ≤ 2 ^ 17) {cand : Nat} (hc : cand < 2 ^ 32) :
    Near (accepted (withinAbs 21 cand (X - slack) (X + slack) (2 ^ fx)) cand (near240 X 0)) v ((2 : ℝ) ^ (-21 : Int)) := by
  refine Near.accepted (fun hok => ?_) ((near240_small hv h).mono (zpow_le_zpow_right₀ one_le_two (by decide)))
  have hS : (0 : ℝ) < 2 ^ fx := by positivity
  have hslack : (slack : ℝ) = 2 ^ 32 := by norm_num [slack]
  obtain ⟨hlow, hhigh⟩ := abs_le.mp h
  refine (near_of_withinAbs hc (Nat.two_pow_pos fx) (Set.Icc_subset_uIcc ⟨?_, ?_⟩) hok).mono (by norm_num)
  · push_cast
    rw [div_le_iff₀ hS, hslack]
    linarith
  · push_cast
    rw [le_div_iff₀ hS, hslack]
    linarith

section
variable {w : Nat} {neg : Bool} {m d : Nat} (h : IsFraction w neg m d)
include h

theorem specialValue_fsin : specialValue 4 w =
    let X := (sinCos (reducedArg (signed neg m) d)).1
    accepted (withinAbs 21 (candidate 4 w) (X - slack) (X + slack) (2 ^ fx)) (candidate 4 w) (near240 X 0) := by
  unfold specialValue
  rw [h.dec]
  dsimp only
  rw [if_neg h.ne_zero, if_neg (by decide), if_neg (by decide), if_neg (by decide), if_neg (by decide)]
  rfl

theorem specialValue_fcos : specialValue 5 w =
    let X := (sinCos (reducedArg (signed neg m) d)).2
    accepted (withinAbs 21 (candidate 5 w) (X - slack) (X + slack) (2 ^ fx)) (candidate 5 w) (near240 X 0) := by
  unfold specialValue
  rw [h.dec]
  dsimp only
  rw [if_neg h.ne_zero, if_neg (by decide), if_neg (by decide), if_neg (by decide), if_neg (by decide)]
  rfl

theorem IsFraction.abs_quot_le : |(signed neg m : ℝ) / d| ≤ 2 ^ 128 := by
  rw [← h.quot_eq, h.abs_real]
  exact h.abs_bounds.2.le

theorem fsin_near : Near (specialValue 4 w) (Real.sin (fpReal w)) ((2 : ℝ) ^ (-21 : Int)) := by
  rw [specialValue_fsin h, h.quot_eq]
  exact near_trig (Real.abs_sin_le_one _) (sinCos_reducedArg_near h.den_pos h.abs_quot_le).1 (candidate_lt 4 w)

theorem fcos_near : Near (specialValue 5 w) (Real.cos (fpReal w)) ((2 : ℝ) ^ (-21 : Int)) := by
  rw [specialValue_fcos h, h.quot_eq]
  exact near_trig (Real.abs_cos_le_one _) (sinCos_reducedArg_near h.den_pos h.abs_quot_le).2 (candidate_lt 5 w)

end

end Sys2Proof.Machine

namespace Sys2Proof.Machine

/-! O20: the instructions. -/

theorem flushIn_finite (ftz : Bool) {w : Nat} (hw : w % 2 ^ 31 < 0x7F800000) :
    fp32.flushIn ftz w % 2 ^ 31 < 0x7F800000 := by
  have hsign : fp32.sign = 2 ^ 31 := rfl
  unfold Fmt.flushIn
  rw [hsign]
  split_ifs
  · rw [Nat.mul_mod_left]
    decide
  · exact hw

/-- A special function, unless its result is flushed. -/
theorem specialFn_eq {kind : Nat} {ftz : Bool} {b : Word} {neg : Bool} {m d : Nat}
    (h : IsFraction (fp32.flushIn ftz b.toNat) neg m d) (ht : ftz = true → specialTiny kind (signed neg m) d = false) :
    specialFn kind ftz b = word (specialValue kind (fp32.flushIn ftz b.toNat)) := by
  have hcond : (ftz && signed neg m != 0 && specialTiny kind (signed neg m) d) = false := by
    cases ftz
    · rfl
    · rw [ht rfl, Bool.and_false]
  unfold specialFn
  dsimp only
  rw [h.dec]
  dsimp only
  rw [hcond, if_neg Bool.false_ne_true]

/-- The model takes an exact value for one below the normal range only where it is. -/
def TinyOnlyBelow (kind : Nat) (F : ℝ → ℝ) : Prop := ∀ w neg m d, IsFraction w neg m d →
  (2 : ℝ) ^ (-126 : Int) ≤ |F (fpReal w)| → specialTiny kind (signed neg m) d = false

theorem tinyOnlyBelow_frcp : TinyOnlyBelow 0 fun x => 1 / x := by
  intro w neg m d h hv
  have hm : (0 : ℝ) < m := by exact_mod_cast h.num_pos
  have hle : m ≤ d * 2 ^ 126 := by
    rw [h.abs_inv, le_div_iff₀ hm] at hv
    rw [← Nat.cast_le (α := ℝ)]
    push_cast
    norm_num at hv ⊢
    linarith
  rw [specialTiny, if_pos rfl, natAbs_signed, decide_eq_false (not_lt.mpr hle)]

theorem tinyOnlyBelow_fex2 : TinyOnlyBelow 2 fun x => (2 : ℝ) ^ x := by
  intro w neg m d h hv
  have hle : ((-126 : Int) : ℝ) ≤ fpReal w := by
    rw [abs_of_pos (show (0 : ℝ) < 2 ^ fpReal w by positivity), ← Real.rpow_intCast] at hv
    exact (Real.rpow_le_rpow_left_iff one_lt_two).mp hv
  rw [specialTiny, if_neg (by decide), if_pos rfl, decide_eq_false (not_lt.mpr ((h.le_iff (-126)).mp hle))]

theorem tinyOnlyBelow_fsin : TinyOnlyBelow 4 Real.sin := by
  intro w neg m d h hv
  have hd : (0 : ℝ) < d := by exact_mod_cast h.den_pos
  have hx : fpReal w ≠ 0 := by
    rw [← abs_pos, h.abs_real]
    exact div_pos (by exact_mod_cast h.num_pos) hd
  have hlt : ¬ m * 2 ^ 126 ≤ d := by
    have hsin := hv.trans_lt (Real.abs_sin_lt_abs hx)
    rw [h.abs_real, lt_div_iff₀ hd] at hsin
    rw [← Nat.cast_le (α := ℝ)]
    push_cast
    norm_num at hsin ⊢
    linarith
  rw [specialTiny, if_neg (by decide), if_neg (by decide), natAbs_signed, decide_eq_false hlt, Bool.and_false]

/-- The other functions have no such value. -/
theorem tinyOnlyBelow_of_ne {kind : Nat} (h0 : kind ≠ 0) (h2 : kind ≠ 2) (h4 : kind ≠ 4) (F : ℝ → ℝ) : TinyOnlyBelow kind F := by
  intro w neg m d _ _
  rw [specialTiny, if_neg h0, if_neg h2, beq_eq_false_iff_ne.mpr h4, Bool.false_and]

section
variable {ftz : Bool} {b : Word} (hb : b.toNat % 2 ^ 31 < 0x7F800000) (hx : fpReal (fp32.flushIn ftz b.toNat) ≠ 0)
include hb hx

/-- A special function at a finite argument other than zero. -/
theorem specialFn_finite {kind : Nat} {F : ℝ → ℝ} (hF : TinyOnlyBelow kind F)
    (hz : ftz = false ∨ (2 : ℝ) ^ (-126 : Int) ≤ |F (fpReal (fp32.flushIn ftz b.toNat))|) :
    ∃ neg m d, IsFraction (fp32.flushIn ftz b.toNat) neg m d
      ∧ specialFn kind ftz b = word (specialValue kind (fp32.flushIn ftz b.toNat)) := by
  obtain ⟨m, d, h⟩ := exists_isFraction (flushIn_finite ftz hb) hx
  refine ⟨_, m, d, h, specialFn_eq h fun hftz => ?_⟩
  rcases hz with hz | hz
  · rw [hftz] at hz
    cases hz
  · exact hF _ _ m d h hz

end

/-- The sign of a positive value. -/
theorem IsFraction.pos_iff {w : Nat} {neg : Bool} {m d : Nat} (h : IsFraction w neg m d) : 0 < fpReal w ↔ neg = false := by
  have hpos : (0 : ℝ) < m / d := div_pos (by exact_mod_cast h.num_pos) (by exact_mod_cast h.den_pos)
  rw [h.real_eq]
  cases neg
  · simpa using hpos
  · simpa using hpos.le

theorem word_frcp_overflow {w : Nat} {neg : Bool} {m d : Nat} (h : IsFraction w neg m d)
    (hx : |fpReal w| ≤ (2 : ℝ) ^ (-128 : Int)) :
    word (specialValue 0 w) = if 0 < fpReal w then 0x7F800000 else 0xFF800000 := by
  rw [frcp_overflow h hx]
  cases neg
  · rw [if_pos (h.pos_iff.mpr rfl)]
    rfl
  · rw [if_neg (h.pos_iff.not.mpr (by decide))]
    rfl

/-- Settles O20: each function is its special value, which is near the exact one: tested so for the candidate, and by the
rounding of an evaluation of known error otherwise. -/
theorem specialFunctionBounds : Obligations.SpecialFunctionBounds := by
  unfold Obligations.SpecialFunctionBounds
  intro s g a b hready
  refine ⟨⟨specialFn 0 (ftzOf s), (exec_frcpF32 a b s).trans (laneOp1_of_ready hready _), fun w hw hx hz => ?_⟩,
    ⟨specialFn 1 (ftzOf s), (exec_frsqF32 a b s).trans (laneOp1_of_ready hready _), fun w hw hx hz => ?_⟩,
    ⟨specialFn 2 (ftzOf s), (exec_fex2F32 a b s).trans (laneOp1_of_ready hready _), fun w hw hx hz => ?_⟩,
    ⟨specialFn 3 (ftzOf s), (exec_flg2F32 a b s).trans (laneOp1_of_ready hready _), fun w hw hx hz => ?_⟩,
    ⟨specialFn 4 (ftzOf s), (exec_fsinF32 a b s).trans (laneOp1_of_ready hready _), fun w hw hx hz => ?_⟩,
    ⟨specialFn 5 (ftzOf s), (exec_fcosF32 a b s).trans (laneOp1_of_ready hready _), fun w hw hx hz => ?_⟩⟩
  · obtain ⟨neg, m, d, h, heq⟩ := specialFn_finite hw hx tinyOnlyBelow_frcp hz
    rw [heq]
    exact ⟨fun habs => (frcp_near h habs).word, fun habs => word_frcp_overflow h habs⟩
  · obtain ⟨neg, m, d, h, heq⟩ := specialFn_finite hw hx
      (tinyOnlyBelow_of_ne (kind := 1) (by decide) (by decide) (by decide) fun x => 1 / √x) hz
    rw [heq]
    intro hpos
    obtain rfl := h.pos_iff.mp hpos
    exact (frsq_near h).word
  · obtain ⟨neg, m, d, h, heq⟩ := specialFn_finite hw hx tinyOnlyBelow_fex2 hz
    rw [heq]
    refine ⟨fun hlt => (fex2_near h hlt).word, fun hge => ?_, fun k hk hk' hxk => ?_⟩
    · rw [fex2_overflow h hge]
      rfl
    · obtain ⟨hfin, herr⟩ := (fex2_exact h hk hk' hxk).word
      exact ⟨hfin, sub_eq_zero.mp (abs_nonpos_iff.mp herr)⟩
  · obtain ⟨neg, m, d, h, heq⟩ := specialFn_finite hw hx (tinyOnlyBelow_of_ne (kind := 3) (by decide) (by decide) (by decide) _) hz
    rw [heq]
    intro hpos
    obtain rfl := h.pos_iff.mp hpos
    exact ⟨fun hlow hhigh => (flg2_near_band h hlow hhigh).word, fun hout => ⟨(flg2_near_out h hout).word, fun k hxk =>
      sub_eq_zero.mp (abs_nonpos_iff.mp (flg2_exact h hout hxk).word.2)⟩⟩
  · obtain ⟨neg, m, d, h, heq⟩ := specialFn_finite hw hx tinyOnlyBelow_fsin hz
    rw [heq]
    exact (fsin_near h).word
  · obtain ⟨neg, m, d, h, heq⟩ := specialFn_finite hw hx (tinyOnlyBelow_of_ne (kind := 5) (by decide) (by decide) (by decide) _) hz
    rw [heq]
    exact (fcos_near h).word

end Sys2Proof.Machine

namespace Sys2Proof.Machine

/-! O19: the rounding of a positive value between the patterns beside it (R66). -/

/-- A magnitude pattern is a positive value rounded under a mode. -/
def Rounded (mode : Mode) (p : Nat) (v : ℝ) : Prop :=
  (mode = 1 ∨ mode = 3 → (patNat p : ℝ) / 2 ^ 149 ≤ v ∧ v < patNat (p + 1) / 2 ^ 149)
  ∧ (mode = 2 → (patNat (p - 1) : ℝ) / 2 ^ 149 < v ∧ v ≤ patNat p / 2 ^ 149)
  ∧ (mode = 0 ∨ mode = 4 → (patNat (p - 1) : ℝ) / 2 ^ 149 + patNat p / 2 ^ 149 ≤ 2 * v
      ∧ 2 * v ≤ patNat p / 2 ^ 149 + patNat (p + 1) / 2 ^ 149)

/-- Down, a positive quotient loses less than a unit. -/
theorem roundQuot_down {mode : Mode} (hm : mode = 1 ∨ mode = 3) (a : Nat) {b : Nat} (hb : 0 < b) :
    roundQuot mode false a b * b ≤ a ∧ a < roundQuot mode false a b * b + b := by
  have hq : roundQuot mode false a b = a / b := by
    by_cases hr : a % b = 0
    · exact roundQuot_of_exact hr
    · rcases hm with rfl | rfl
      · exact roundQuot_rz hr
      · exact roundQuot_rd hr
  have hdiv := Nat.div_add_mod a b
  have hlt := Nat.mod_lt a hb
  rw [hq, mul_comm]
  omega

/-- Up, a positive quotient gains less than a unit. -/
theorem roundQuot_up {mode : Mode} (hm : mode = 2) (a : Nat) {b : Nat} (hb : 0 < b) :
    a ≤ roundQuot mode false a b * b ∧ roundQuot mode false a b * b < a + b := by
  subst hm
  have hdiv := Nat.div_add_mod a b
  have hlt := Nat.mod_lt a hb
  rw [mul_comm] at hdiv
  by_cases hr : a % b = 0
  · rw [roundQuot_of_exact hr]
    omega
  · rw [roundQuot_ru hr, if_neg Bool.false_ne_true, add_mul, one_mul]
    omega

section
variable {num den : Nat} (hn : 0 < num) (hd : 0 < den) (hs : den.log2 < 2 ^ 14) (hk : unitExp num den ≠ 0) (mode : Mode)
include hn hd hs hk

omit hk in
/-- The next pattern is a unit away at least. -/
theorem patNat_magPat_succ : patNat (fp32.magPat mode false num den) + 2 ^ unitExp num den
    ≤ patNat (fp32.magPat mode false num den + 1) := by
  obtain ⟨-, hge⟩ := roundQuot_bounds hn hd hs mode false
  rw [patNat_succ, magPat_eq]
  exact Nat.add_le_add_left (Nat.pow_le_pow_right (by decide) (by omega)) _

/-- The pattern before is a unit away at least, except at the start of a binade, where the value is not below it. -/
theorem patNat_magPat_pred : 0 < fp32.magPat mode false num den
    ∧ (patNat (fp32.magPat mode false num den - 1) + 2 ^ unitExp num den ≤ patNat (fp32.magPat mode false num den)
      ∨ patNat (fp32.magPat mode false num den) * den ≤ num * 2 ^ 149) := by
  obtain ⟨-, hge⟩ := roundQuot_bounds hn hd hs mode false
  obtain ⟨hlow, -⟩ := unitExp_spec hn hd hs
  rw [patNat_magPat hn hd hs, ← patNat_magPat hn hd hs]
  have hval := patNat_magPat hn hd hs mode false
  have hpat := magPat_eq (num := num) (den := den) mode false
  generalize roundQuot mode false (num * 2 ^ 149) (den * 2 ^ unitExp num den) = q at *
  obtain hq | hq : q = 2 ^ 23 ∨ 2 ^ 23 < q := by omega
  · refine ⟨by omega, .inr ?_⟩
    rw [hval, hq, mul_assoc, mul_comm (2 ^ unitExp num den)]
    exact hlow hk
  · refine ⟨by omega, .inl ?_⟩
    obtain ⟨p, hp⟩ := Nat.exists_eq_add_of_lt (show 0 < fp32.magPat mode false num den by omega)
    rw [hp, Nat.zero_add, Nat.add_sub_cancel, patNat_succ]
    exact Nat.add_le_add_left (Nat.pow_le_pow_right (by decide) (by omega)) _

theorem rounded_magPat : Rounded mode (fp32.magPat mode false num den) ((num : ℝ) / den) := by
  have hden : (0 : ℝ) < den := by exact_mod_cast hd
  have hunit : 0 < den * 2 ^ unitExp num den := Nat.mul_pos hd (Nat.two_pow_pos _)
  have hsucc := Nat.mul_le_mul_right den (patNat_magPat_succ hn hd hs mode)
  obtain ⟨hpos, hpred⟩ := patNat_magPat_pred hn hd hs hk mode
  have hless := Nat.mul_lt_mul_of_pos_right (patNat_strictMono (Nat.sub_lt hpos zero_lt_one)) hd
  replace hpred := hpred.imp_left (Nat.mul_le_mul_right den)
  have hval : patNat (fp32.magPat mode false num den) * den
      = roundQuot mode false (num * 2 ^ 149) (den * 2 ^ unitExp num den) * (den * 2 ^ unitExp num den) := by
    rw [patNat_magPat hn hd hs, mul_assoc, mul_comm (2 ^ unitExp num den)]
  rw [add_mul, mul_comm (2 ^ unitExp num den)] at hsucc hpred
  have hdown := fun hm : mode = 1 ∨ mode = 3 => roundQuot_down hm (num * 2 ^ 149) hunit
  have hup := fun hm : mode = 2 => roundQuot_up hm (num * 2 ^ 149) hunit
  have hnear := fun hm : mode = 0 ∨ mode = 4 => roundQuot_near hm false (num * 2 ^ 149) hunit
  rw [← hval] at hdown hup hnear
  have hscale : (0 : ℝ) < 2 ^ 149 * den := by positivity
  have hpat : ∀ q : Nat, (q : ℝ) / 2 ^ 149 = (q * den : Nat) / (2 ^ 149 * den) := by
    intro q
    push_cast
    field_simp
  have hfrac : (num : ℝ) / den = (num * 2 ^ 149 : Nat) / (2 ^ 149 * den) := by
    rw [Nat.cast_mul, Nat.cast_pow, Nat.cast_ofNat, mul_comm (num : ℝ), mul_div_mul_left _ _ (by positivity)]
  unfold Rounded
  simp only [hpat, hfrac, ← add_div, ← mul_div_assoc, div_le_div_iff_of_pos_right hscale, div_lt_div_iff_of_pos_right hscale]
  generalize den * 2 ^ unitExp num den = U at *
  generalize num * 2 ^ 149 = N at *
  generalize patNat (fp32.magPat mode false num den) * den = A at *
  generalize patNat (fp32.magPat mode false num den + 1) * den = B at *
  generalize patNat (fp32.magPat mode false num den - 1) * den = C at *
  refine ⟨fun hm => ?_, fun hm => ?_, fun hm => ?_⟩
  · obtain ⟨hle, hlt⟩ := hdown hm
    have : A ≤ N ∧ N < B := ⟨hle, hlt.trans_le hsucc⟩
    exact_mod_cast this
  · obtain ⟨hle, hlt⟩ := hup hm
    have : C < N ∧ N ≤ A := ⟨by omega, hle⟩
    exact_mod_cast this
  · obtain ⟨hle, hge⟩ := hnear hm
    have : C + A ≤ 2 * N ∧ 2 * N ≤ A + B := ⟨by omega, by omega⟩
    exact_mod_cast this

end

/-! O19: the square root (R213). -/

/-- Two values lie on the same side of every multiple of 2^−200. -/
def SameSide (v q : ℝ) : Prop := ∀ z : Nat, ((z : ℝ) / 2 ^ 200 < v ↔ (z : ℝ) / 2 ^ 200 < q) ∧ (v < z / 2 ^ 200 ↔ q < z / 2 ^ 200)

theorem SameSide.le_iff {v q : ℝ} (h : SameSide v q) (z : Nat) :
    ((z : ℝ) / 2 ^ 200 ≤ v ↔ (z : ℝ) / 2 ^ 200 ≤ q) ∧ (v ≤ z / 2 ^ 200 ↔ q ≤ z / 2 ^ 200) := by
  obtain ⟨hlow, hhigh⟩ := h z
  exact ⟨by rw [← not_lt, hhigh, not_lt], by rw [← not_lt, hlow, not_lt]⟩

/-- A pattern and a midpoint of two patterns are multiples of 2^−200, so that the rounding is that of the other value too. -/
theorem Rounded.of_sameSide {mode : Mode} {p : Nat} {v q : ℝ} (h : Rounded mode p v) (hvq : SameSide v q) :
    Rounded mode p q := by
  have hpat : ∀ a : Nat, (a : ℝ) / 2 ^ 149 = (a * 2 ^ 51 : Nat) / 2 ^ 200 := by
    intro a
    push_cast
    ring
  have hmid : ∀ a b : Nat, (a : ℝ) / 2 ^ 149 + b / 2 ^ 149 = 2 * (((a + b) * 2 ^ 50 : Nat) / 2 ^ 200) := by
    intro a b
    push_cast
    ring
  unfold Rounded at *
  simp only [hmid, mul_le_mul_iff_right₀ (two_pos : (0 : ℝ) < 2), hvq.le_iff] at h ⊢
  simp only [hpat, hvq.le_iff, hvq _] at h ⊢
  exact h

/-- The value that is rounded for a square root: itself, or a sticky half beyond its whole part at 2^200. -/
theorem fsqrtFin_eq (mode : Mode) (ftz : Bool) (m : Nat) {d : Nat} (hd : 0 < d) : ∃ num den : Nat, 0 < den ∧ den.log2 < 2 ^ 14
    ∧ fsqrtFin mode ftz m d = fp32.round mode false ftz false num den ∧ SameSide ((num : ℝ) / den) (Real.sqrt ((m : ℝ) / d)) := by
  have hd' : (0 : ℝ) < d := by exact_mod_cast hd
  obtain ⟨hle, hlt⟩ := sqrtScaled_spec m hd 200
  unfold fsqrtFin
  dsimp only
  rw [show 2 ^ (2 * 200) = (2 ^ 200) ^ 2 by rw [mul_comm, pow_mul]]
  generalize sqrtScaled m d 200 = r at *
  have hK : (0 : ℝ) < 2 ^ 200 := by positivity
  by_cases hexact : decide (r * r * d = m * (2 ^ 200) ^ 2) = true
  · rw [if_pos hexact]
    refine ⟨r, 2 ^ 200, Nat.two_pow_pos _, log2_two_pow_lt (by decide), rfl, ?_⟩
    have hsq : (m : ℝ) / d = ((r : ℝ) / 2 ^ 200) ^ 2 := by
      rw [div_pow, div_eq_div_iff hd'.ne' (by positivity)]
      exact_mod_cast (of_decide_eq_true hexact).symm.trans (by ring)
    rw [hsq, Real.sqrt_sq (by positivity), Nat.cast_pow, Nat.cast_ofNat]
    exact fun z => ⟨Iff.rfl, Iff.rfl⟩
  · rw [if_neg hexact]
    refine ⟨2 * r + 1, 2 ^ (200 + 1), Nat.two_pow_pos _, log2_two_pow_lt (by decide), rfl, ?_⟩
    have hne : (r : ℝ) ≠ Real.sqrt ((m : ℝ) / d) * 2 ^ 200 := by
      intro heq
      refine hexact (decide_eq_true ?_)
      have hsq : (m : ℝ) / d = ((r : ℝ) / 2 ^ 200) ^ 2 := by
        rw [heq, mul_div_cancel_right₀ _ hK.ne', Real.sq_sqrt (by positivity)]
      rw [div_pow, div_eq_div_iff hd'.ne' (by positivity)] at hsq
      have : m * (2 ^ 200) ^ 2 = r ^ 2 * d := by exact_mod_cast hsq
      rw [this]
      ring
    have hstrict := hle.lt_of_ne hne
    generalize Real.sqrt ((m : ℝ) / d) = q at *
    intro z
    have hv : ((2 * r + 1 : Nat) : ℝ) / (2 ^ (200 + 1) : Nat) = (r + 1 / 2) / 2 ^ 200 := by
      push_cast
      ring
    rw [hv, div_lt_div_iff_of_pos_right hK, div_lt_div_iff_of_pos_right hK, div_lt_iff₀ hK, lt_div_iff₀ hK]
    rcases Nat.lt_or_ge r z with hz | hz
    · have hz' : (r : ℝ) + 1 ≤ z := by exact_mod_cast hz
      constructor <;> constructor <;> intro _ <;> linarith
    · have hz' : (z : ℝ) ≤ r := by exact_mod_cast hz
      constructor <;> constructor <;> intro _ <;> linarith

end Sys2Proof.Machine

namespace Sys2Proof.Machine

/-! O19: the square root, as an FP32 value. -/

/-- A result that is zero or not below the normal range is not flushed. -/
theorem round_ftz {mode : Mode} {sat z : Bool} (ftz : Bool) {n : Int} {d : Nat} (h : n = 0 ∨ d ≤ n.natAbs * 2 ^ 126) :
    fp32.round mode sat ftz z n d = fp32.round mode sat false z n d := by
  have hbias : fp32.bias - 1 = 126 := rfl
  by_cases hn : n = 0
  · rw [Fmt.round, Fmt.round, if_pos hn, if_pos hn]
  · have hcond : ∀ z, (z && decide (n.natAbs * 2 ^ (fp32.bias - 1) < d)) = false := by
      intro z
      rw [hbias, decide_eq_false (not_lt.mpr (h.resolve_left hn)), Bool.and_false]
    unfold Fmt.round
    rw [if_neg hn, if_neg hn]
    simp only [hcond]

section
variable {num den : Nat} (hd : 0 < den) (hs : den.log2 < 2 ^ 14) (hlow : 1 / 2 ^ 75 ≤ (num : ℝ) / den)
  (hhigh : (num : ℝ) / den ≤ 2 ^ 64)
include hd hlow

theorem num_bound : den ≤ num * 2 ^ 75 := by
  rw [div_le_div_iff₀ (by positivity) (by exact_mod_cast hd), one_mul] at hlow
  exact_mod_cast hlow

include hs hhigh

/-- Away from both ends of the range a magnitude is normal and finite. -/
theorem unitExp_mid : unitExp num den ≠ 0 ∧ fp32.magPat mode false num den + 1 < 0x7F800000 := by
  have hle := num_bound hd hlow
  have hn : 0 < num := Nat.pos_of_ne_zero (by rintro rfl; omega)
  have hge : num ≤ 2 ^ 64 * den := by
    rw [div_le_iff₀ (by exact_mod_cast hd)] at hhigh
    exact_mod_cast hhigh
  obtain ⟨hunit, hsize⟩ := unitExp_spec hn hd hs
  obtain ⟨hq, -⟩ := roundQuot_bounds hn hd hs mode false
  have hk : unitExp num den ≠ 0 := by
    intro h0
    rw [h0, pow_zero] at hsize
    omega
  have hk' : unitExp num den ≤ 252 := by
    by_contra hbig
    have hpow : 2 ^ 253 ≤ 2 ^ unitExp num den := Nat.pow_le_pow_right (by decide) (by omega)
    have := hunit hk
    have := Nat.mul_le_mul_left den hpow
    omega
  refine ⟨hk, ?_⟩
  rw [magPat_eq]
  omega

/-- Such a value is rounded to its pattern, flushed or not. -/
theorem round_mid (mode : Mode) (ftz : Bool) : fp32.round mode false ftz false num den = fp32.magPat mode false num den
    ∧ Rounded mode (fp32.magPat mode false num den) ((num : ℝ) / den) := by
  have hle := num_bound hd hlow
  have hn : 0 < num := Nat.pos_of_ne_zero (by rintro rfl; omega)
  obtain ⟨hk, hfin⟩ := unitExp_mid (mode := mode) hd hs hlow hhigh
  have hsign : decide ((num : Int) < 0) = false := decide_eq_false (by omega)
  refine ⟨?_, rounded_magPat hn hd hs hk mode⟩
  have hnormal : den ≤ (num : Int).natAbs * 2 ^ 126 := by
    rw [Int.natAbs_natCast]
    exact hle.trans (Nat.mul_le_mul_left _ (Nat.pow_le_pow_right (by decide) (by decide)))
  rw [round_ftz ftz (.inr hnormal), round_of_le (by omega), hsign, Int.natAbs_natCast]
  · exact Nat.zero_add _
  · rw [hsign, Int.natAbs_natCast]
    omega

end

theorem IsFraction.sqrt_bounds {w m d : Nat} (h : IsFraction w false m d) :
    1 / 2 ^ 75 ≤ Real.sqrt ((m : ℝ) / d) ∧ Real.sqrt ((m : ℝ) / d) ≤ 2 ^ 64 := by
  obtain ⟨hlow, hhigh⟩ := h.abs_bounds
  refine ⟨Real.le_sqrt_of_sq_le (le_trans (by norm_num) hlow), (Real.sqrt_le_left (by positivity)).mpr ?_⟩
  exact hhigh.le.trans (by norm_num)

/-- A square root is its exact value rounded under the mode. -/
theorem fsqrtFin_rounded {w m d : Nat} (h : IsFraction w false m d) (mode : Mode) (ftz : Bool) :
    Rounded mode (fsqrtFin mode ftz m d) (Real.sqrt ((m : ℝ) / d)) ∧ fsqrtFin mode ftz m d + 1 < 0x7F800000 := by
  obtain ⟨num, den, hd, hs, heq, hside⟩ := fsqrtFin_eq mode ftz m h.den_pos
  obtain ⟨hlow, hhigh⟩ := h.sqrt_bounds
  have hlow' := (hside.le_iff (2 ^ 125)).1.mpr (le_trans (by norm_num) hlow)
  have hhigh' := (hside.le_iff (2 ^ 64 * 2 ^ 200)).2.mpr (hhigh.trans (by norm_num))
  replace hlow' : 1 / 2 ^ 75 ≤ (num : ℝ) / den := le_trans (by norm_num) hlow'
  replace hhigh' : (num : ℝ) / den ≤ 2 ^ 64 := hhigh'.trans (by norm_num)
  obtain ⟨hround, hrounded⟩ := round_mid hd hs hlow' hhigh' mode ftz
  rw [heq, hround]
  exact ⟨hrounded.of_sameSide hside, (unitExp_mid hd hs hlow' hhigh').2⟩

/-- The datum of a finite pattern without a sign. -/
theorem isFraction_of_decode {w : Nat} {n : Int} {d : Nat} (hdec : fp32.decode w = .fin false n d) (hn : n ≠ 0) :
    ∃ m : Nat, n = m ∧ IsFraction w false m d := by
  have hfin := finite_of_decode hdec
  obtain ⟨m, d', heq, hd, hle, hmag⟩ := decode_finite hfin
  rw [hdec] at heq
  injection heq with hneg hnum hden
  rw [← hneg] at hnum
  subst hden
  exact ⟨m, hnum, by rw [hdec, hnum], hfin, Nat.pos_of_ne_zero (by rintro rfl; exact hn hnum), hd, hle, hmag⟩

/-- `fsqrt` of a positive value. -/
theorem fsqrt_eq {mode : Mode} {ftz : Bool} {w : Word} {m d : Nat} (h : IsFraction (fp32.flushIn ftz w.toNat) false m d) :
    fsqrt mode ftz w = word (fsqrtFin mode ftz m d) := by
  unfold fsqrt
  rw [h.dec]
  dsimp only
  rw [if_neg h.ne_zero, if_neg Bool.false_ne_true, natAbs_signed]

theorem fsqrt_root (mode : Mode) {ftz : Bool} {w : Word} {n : Int} {d : Nat}
    (hdec : fp32.decode (fp32.flushIn ftz w.toNat) = .fin false n d) (hn : n ≠ 0) :
    let r := (fsqrt mode ftz w).toNat
    let q := Real.sqrt ((n : ℝ) / d)
    (mode = 1 ∨ mode = 3 → fpReal r ≤ q ∧ q < fpReal (r + 1)) ∧ (mode = 2 → fpReal (r - 1) < q ∧ q ≤ fpReal r)
      ∧ (mode = 0 ∨ mode = 4 → fpReal (r - 1) + fpReal r ≤ 2 * q ∧ 2 * q ≤ fpReal r + fpReal (r + 1)) := by
  obtain ⟨m, rfl, h⟩ := isFraction_of_decode hdec hn
  obtain ⟨hround, hfin⟩ := fsqrtFin_rounded h mode ftz
  dsimp only
  rw [fsqrt_eq h]
  generalize fsqrtFin mode ftz m d = p at *
  have hword : (word p).toNat = p := by rw [word, BitVec.toNat_ofNat, Nat.mod_eq_of_lt (by omega)]
  rw [hword, fpReal_pos (by omega), fpReal_pos (by omega), fpReal_pos (by omega), Int.cast_natCast]
  exact hround

end Sys2Proof.Machine

namespace Sys2Proof.Machine

/-! O19: NaNs and the other special arguments. -/

theorem decode_nan {w : Nat} (hw : 0x7F800000 < w % 2 ^ 31) : fp32.decode w = .nan := by
  have h := (isNan_decode_fp32 w).mpr hw
  cases hdec : fp32.decode w with
  | nan => rfl
  | inf neg => rw [hdec] at h; cases h
  | fin neg n d => rw [hdec] at h; cases h

/-- Only subnormal sources and zeros are flushed. -/
theorem flushIn_of_le (ftz : Bool) {w : Nat} (hw : 2 ^ 23 ≤ w % 2 ^ 31) : fp32.flushIn ftz w = w := by
  have hcond : (ftz && decide (w % fp32.sign < 2 ^ fp32.fw)) = false := by
    rw [decide_eq_false (show ¬ w % fp32.sign < 2 ^ fp32.fw from not_lt.mpr hw), Bool.and_false]
  rw [Fmt.flushIn, hcond, if_neg Bool.false_ne_true]

theorem decode_flushIn_nan (ftz : Bool) {w : Nat} (hw : 0x7F800000 < w % 2 ^ 31) : fp32.decode (fp32.flushIn ftz w) = .nan := by
  rw [flushIn_of_le ftz (by omega), decode_nan hw]

theorem specialFn_nan (kind : Nat) (ftz : Bool) {w : Word} (hw : 0x7F800000 < w.toNat % 2 ^ 31) :
    specialFn kind ftz w = 0x7FC00000 := by
  have hdec := decode_flushIn_nan ftz hw
  unfold specialFn specialValue
  dsimp only
  rw [hdec]
  rfl

theorem fsqrt_nan (mode : Mode) (ftz : Bool) {w : Word} (hw : 0x7F800000 < w.toNat % 2 ^ 31) : fsqrt mode ftz w = 0x7FC00000 := by
  unfold fsqrt
  rw [decode_flushIn_nan ftz hw]
  rfl

theorem fsqrt_negative (mode : Mode) {ftz : Bool} {w : Word} {n : Int} {d : Nat}
    (hdec : fp32.decode (fp32.flushIn ftz w.toNat) = .fin true n d) (hn : n ≠ 0) : fsqrt mode ftz w = 0x7FC00000 := by
  unfold fsqrt
  rw [hdec]
  dsimp only
  rw [if_neg hn, if_pos rfl]
  rfl

/-- Neither a reciprocal root nor a logarithm of a negative value is a number. -/
theorem specialFn_negative {kind : Nat} (hkind : kind = 1 ∨ kind = 3) {ftz : Bool} {w : Word} {n : Int} {d : Nat}
    (hdec : fp32.decode (fp32.flushIn ftz w.toNat) = .fin true n d) (hn : n ≠ 0) : specialFn kind ftz w = 0x7FC00000 := by
  have htiny : (ftz && n != 0 && specialTiny kind n d) = false := by
    rcases hkind with rfl | rfl <;> rw [specialTiny, if_neg (by decide), if_neg (by decide)] <;> exact Bool.and_false _
  unfold specialFn specialValue
  dsimp only
  rw [hdec]
  dsimp only
  rw [htiny, if_neg Bool.false_ne_true, if_neg hn]
  rcases hkind with rfl | rfl <;> rfl

/-- The table's values at an infinity and at a zero (R213). -/
def infResult (kind : Nat) (neg : Bool) : Nat :=
  if kind = 0 then (if neg then 0x80000000 else 0)
  else if kind = 1 then (if neg then fp32.nan else 0)
  else if kind = 2 then (if neg then 0 else 0x7F800000)
  else if kind = 3 then (if neg then fp32.nan else 0x7F800000)
  else fp32.nan
def zeroResult (kind : Nat) (neg : Bool) : Nat :=
  if kind = 0 || kind = 1 then (if neg then 0xFF800000 else 0x7F800000)
  else if kind = 2 || kind = 5 then 0x3F800000
  else if kind = 3 then 0xFF800000
  else (if neg then 0x80000000 else 0)

theorem specialFn_inf (kind : Nat) {ftz neg : Bool} {w : Word} (hdec : fp32.decode (fp32.flushIn ftz w.toNat) = .inf neg) :
    specialFn kind ftz w = word (infResult kind neg) := by
  unfold specialFn specialValue
  dsimp only
  rw [hdec]
  rfl

theorem specialFn_zero (kind : Nat) {ftz neg : Bool} {w : Word} {d : Nat}
    (hdec : fp32.decode (fp32.flushIn ftz w.toNat) = .fin neg 0 d) : specialFn kind ftz w = word (zeroResult kind neg) := by
  have hcond : (ftz && (0 : Int) != 0 && specialTiny kind 0 d) = false := by rw [bne_self_eq_false, Bool.and_false, Bool.false_and]
  unfold specialFn specialValue
  dsimp only
  rw [hdec]
  dsimp only
  rw [hcond, if_neg Bool.false_ne_true, if_pos rfl]
  rfl

theorem decode_infinities (ftz : Bool) : fp32.decode (fp32.flushIn ftz (0x7F800000 : Word).toNat) = .inf false
    ∧ fp32.decode (fp32.flushIn ftz (0xFF800000 : Word).toNat) = .inf true := by
  cases ftz <;> exact ⟨rfl, rfl⟩

theorem decode_zeros (ftz : Bool) : fp32.decode (fp32.flushIn ftz (0 : Word).toNat) = .fin false 0 (2 ^ 149)
    ∧ fp32.decode (fp32.flushIn ftz (0x80000000 : Word).toNat) = .fin true 0 (2 ^ 149) := by
  cases ftz <;> exact ⟨rfl, rfl⟩

/-- The values of a special function at both infinities and both zeros. -/
theorem specialFn_table (kind : Nat) (ftz : Bool) :
    specialFn kind ftz 0x7F800000 = word (infResult kind false) ∧ specialFn kind ftz 0xFF800000 = word (infResult kind true)
      ∧ specialFn kind ftz 0 = word (zeroResult kind false) ∧ specialFn kind ftz 0x80000000 = word (zeroResult kind true) := by
  obtain ⟨hpinf, hninf⟩ := decode_infinities ftz
  obtain ⟨hpz, hnz⟩ := decode_zeros ftz
  exact ⟨specialFn_inf kind hpinf, specialFn_inf kind hninf, specialFn_zero kind hpz, specialFn_zero kind hnz⟩

theorem fsqrt_table (mode : Mode) (ftz : Bool) : fsqrt mode ftz 0x7F800000 = 0x7F800000
    ∧ fsqrt mode ftz 0xFF800000 = 0x7FC00000 ∧ fsqrt mode ftz 0 = 0 ∧ fsqrt mode ftz 0x80000000 = 0x80000000 := by
  obtain ⟨hpinf, hninf⟩ := decode_infinities ftz
  obtain ⟨hpz, hnz⟩ := decode_zeros ftz
  unfold fsqrt
  rw [hpinf, hninf, hpz, hnz]
  exact ⟨rfl, rfl, rfl, rfl⟩

end Sys2Proof.Machine

namespace Sys2Proof.Machine

/-! O19: `fneg`, `fabs` and `frnd` (R211). -/

theorem fabs_eq (w : Word) : (0x7F800000 < w.toNat % 2 ^ 31 →
      (if (fp32.decode w.toNat).isNan then word fp32.nan else w &&& 0x7FFFFFFF) = 0x7FC00000)
    ∧ (¬ 0x7F800000 < w.toNat % 2 ^ 31 →
      (if (fp32.decode w.toNat).isNan then word fp32.nan else w &&& 0x7FFFFFFF) = w &&& 0x7FFFFFFF) := by
  simp only [isNan_decode_fp32]
  exact ⟨fun h => if_pos h, fun h => if_neg h⟩

theorem negW_cases (w : Word) : (0x7F800000 < w.toNat % 2 ^ 31 → negW w = 0x7FC00000)
    ∧ (¬ 0x7F800000 < w.toNat % 2 ^ 31 → negW w = w ^^^ 0x80000000) := by
  rw [negW_eq]
  exact ⟨fun h => if_pos h, fun h => if_neg h⟩

theorem exec_fneg_of_ready {s : State} {g : Group} {a b : VReg} (h : LaneReady s g .plain a.toNat 1 [b.toNat] [])
    (hf : g.formRegs ≤ 16) : exec (.fnegF32 a b) s = .next (s.wroteV g a 1 fun l _ => negW (g.vword b.toNat l)) := by
  rw [exec_fnegF32, execFnegF32, laneXform_of_known h hf]
  rfl

/-- A flushed source is zero or not below the normal range. -/
theorem normal_of_flushed {w : Nat} {neg : Bool} {n : Int} {d : Nat} (hdec : fp32.decode (fp32.flushIn true w) = .fin neg n d) :
    n = 0 ∨ d ≤ n.natAbs * 2 ^ 126 := by
  obtain ⟨m, d', heq, -, -, hmag⟩ := decode_finite (finite_of_decode hdec)
  rw [hdec] at heq
  injection heq with _ hnum hden
  subst hnum hden
  rw [natAbs_signed, signed_eq_zero]
  have hsign : fp32.sign = 2 ^ 31 := rfl
  have hfw : fp32.fw = 23 := rfl
  by_cases hsub : w % 2 ^ 31 < 2 ^ 23
  · left
    have hzero : fp32.flushIn true w % 2 ^ 31 = 0 := by
      rw [Fmt.flushIn, hsign, hfw, decide_eq_true hsub, Bool.and_self, if_pos rfl, Nat.mul_mod_left]
    rw [hzero, patNat_zero, zero_mul] at hmag
    exact (Nat.mul_eq_zero.mp hmag).resolve_right (Nat.two_pow_pos 149).ne'
  · right
    rw [flushIn_of_le true (not_lt.mp hsub)] at hmag
    have hpat : 2 ^ 23 ≤ patNat (w % 2 ^ 31) :=
      le_of_eq_of_le (by rfl) (patNat_strictMono.monotone (not_lt.mp hsub))
    have := Nat.mul_le_mul_right d hpat
    omega

theorem roundInt_zero (mode : Mode) (d : Nat) : roundInt mode 0 d = 0 := by
  rw [roundInt, if_neg (by decide), Int.natAbs_zero, roundQuot_of_exact (Nat.zero_mod d), Nat.zero_div]
  rfl

/-- A flush changes no integral result. -/
theorem frnd_finite {mode : Mode} {ftz neg : Bool} {w : Word} {n : Int} {d : Nat}
    (hdec : fp32.decode (fp32.flushIn ftz w.toNat) = .fin neg n d) :
    frnd mode ftz w = word (fp32.write mode false false (.fin neg (roundInt mode n d) 1)) := by
  have hint : (if ftz && decide (n.natAbs * 2 ^ 126 < d) then 0 else roundInt mode n d) = roundInt mode n d := by
    cases ftz with
    | false => rfl
    | true =>
      rcases normal_of_flushed hdec with rfl | hle
      · rw [roundInt_zero, ite_self]
      · rw [decide_eq_false (not_lt.mpr hle), Bool.and_false, if_neg Bool.false_ne_true]
  unfold frnd
  rw [hdec]
  dsimp only
  rw [hint]
  exact congrArg word (round_ftz ftz (by omega))

theorem frnd_nan (mode : Mode) (ftz : Bool) {w : Word} (hw : 0x7F800000 < w.toNat % 2 ^ 31) : frnd mode ftz w = 0x7FC00000 := by
  unfold frnd
  rw [decode_flushIn_nan ftz hw]
  rfl

/-- Infinities and zeros are integral. -/
theorem frnd_table (mode : Mode) (ftz : Bool) (w : Word) : (w = 0x7F800000 → frnd mode ftz w = w)
    ∧ (w = 0xFF800000 → frnd mode ftz w = w) ∧ (w = 0 → frnd mode ftz w = w) ∧ (w = 0x80000000 → frnd mode ftz w = w) := by
  obtain ⟨hpinf, hninf⟩ := decode_infinities ftz
  obtain ⟨hpz, hnz⟩ := decode_zeros ftz
  refine ⟨?_, ?_, ?_, ?_⟩ <;> rintro rfl
  · unfold frnd
    rw [hpinf]
    rfl
  · unfold frnd
    rw [hninf]
    rfl
  · rw [frnd_finite hpz, roundInt_zero]
    rfl
  · rw [frnd_finite hnz, roundInt_zero]
    rfl

/-- A special function's instruction, and its table's values (R213). -/
theorem specialFn_gives {s : State} {g : Group} {a b : VReg} {kind : Nat} {i : Instr}
    (hi : exec i s = laneOp1 s .round a b fun _ => specialFn kind (ftzOf s))
    (hready : LaneReady s g .round a.toNat 1 [b.toNat] []) {neg : Bool} (hneg : neg = true → kind = 1 ∨ kind = 3) :
    ∃ f : Word → Word, exec i s = .next (s.wroteV g a 1 fun l _ => f (g.vword b.toNat l))
      ∧ (∀ w, 0x7F800000 < w.toNat % 2 ^ 31 → f w = 0x7FC00000)
      ∧ f 0x7F800000 = word (infResult kind false) ∧ f 0xFF800000 = word (infResult kind true)
      ∧ f 0 = word (zeroResult kind false) ∧ f 0x80000000 = word (zeroResult kind true)
      ∧ (neg = true → ∀ w, (∃ n d, fp32.decode (fp32.flushIn (ftzOf s) w.toNat) = .fin true n d ∧ n ≠ 0) → f w = 0x7FC00000)
      ∧ True := by
  obtain ⟨hpinf, hninf, hpz, hnz⟩ := specialFn_table kind (ftzOf s)
  refine ⟨specialFn kind (ftzOf s), hi.trans (laneOp1_of_ready hready _), fun w => specialFn_nan kind _, hpinf, hninf, hpz, hnz,
    ?_, trivial⟩
  rintro hn w ⟨n, d, hdec, hne⟩
  exact specialFn_negative (hneg hn) hdec hne

/-- Settles O19: NaNs, infinities and zeros by the table, `frnd` by its rounding to an integer, and `fsqrt` by the rounding
of the exact root. -/
theorem floatingUnaryAndSpecial : Obligations.FloatingUnaryAndSpecial := by
  unfold Obligations.FloatingUnaryAndSpecial
  refine ⟨fun s g a b hf => ⟨fun hready => ⟨?_, ?_⟩, fun hready => ?_⟩, fun s g a b hready => ?_⟩
  · exact ⟨_, exec_fneg_of_ready hready hf, fun l => negW_cases _⟩
  · exact ⟨_, (exec_fabsF32 a b s).trans (laneOp1_of_ready hready _), fun l => fabs_eq _⟩
  · refine ⟨_, (exec_frndF32 a b s).trans (laneOp1_of_ready hready _), fun l => ?_⟩
    obtain ⟨hpinf, hninf, hpz, hnz⟩ := frnd_table (modeOf s g) (ftzOf s) (g.vword b.toNat l)
    exact ⟨frnd_nan _ _, hpinf, hninf, hpz, hnz, fun _ _ _ hdec => frnd_finite hdec⟩
  · obtain ⟨hpinf, hninf, hpz, hnz⟩ := fsqrt_table (modeOf s g) (ftzOf s)
    exact ⟨specialFn_gives (kind := 0) (exec_frcpF32 a b s) hready nofun,
      specialFn_gives (kind := 1) (exec_frsqF32 a b s) hready fun _ => .inl rfl,
      ⟨fsqrt (modeOf s g) (ftzOf s), (exec_fsqrtF32 a b s).trans (laneOp1_of_ready hready _), fun w => fsqrt_nan _ _,
        hpinf, hninf, hpz, hnz, fun _ w ⟨_, _, hdec, hn⟩ => fsqrt_negative _ hdec hn,
        fun w n d hdec hn => fsqrt_root _ hdec hn⟩,
      specialFn_gives (kind := 2) (exec_fex2F32 a b s) hready nofun,
      specialFn_gives (kind := 3) (exec_flg2F32 a b s) hready fun _ => .inr rfl,
      specialFn_gives (kind := 4) (exec_fsinF32 a b s) hready nofun,
      specialFn_gives (kind := 5) (exec_fcosF32 a b s) hready nofun⟩

end Sys2Proof.Machine
